-- ==== Sys2Proof/Word.lean ====
section
/-! DEFINITION. The word types of the block: a 32-bit word (R88, R114), a byte, and a sparse map in canonical form. -/

namespace Sys2Proof

/-- A 32-bit register, parameter value or crossbar word (R88, R114, R385). -/
abbrev Word := BitVec 32

/-- A byte of a mailbox, a frame or a coefficient block. -/
abbrev Byte := BitVec 8

/-- A sparse map: (key, value) pairs, keys strictly rising, no pair whose value is what an unlisted key reads as. -/
abbrev SMap (α : Type) := List (Nat × α)

/-- The value under a key, `d` where no pair is listed. -/
def SMap.get {α : Type} (d : α) (k : Nat) : SMap α → α
  | [] => d
  | (j, v) :: m => if j = k then v else if k < j then d else SMap.get d k m

/-- Put `v` under `k`, keeping the keys rising and dropping the pair where `v` is the unlisted value `d`. -/
def SMap.put {α : Type} [DecidableEq α] (d : α) (k : Nat) (v : α) : SMap α → SMap α
  | [] => if v = d then [] else [(k, v)]
  | (j, w) :: m =>
    if k < j then (if v = d then (j, w) :: m else (k, v) :: (j, w) :: m)
    else if k = j then (if v = d then m else (k, v) :: m)
    else (j, w) :: SMap.put d k v m

/-- Every key of the map lies above `lo`, keys rise strictly, and no value is the unlisted value `d`. -/
def SMap.wfFrom {α : Type} [DecidableEq α] (d : α) : Option Nat → SMap α → Bool
  | _, [] => true
  | lo, (j, v) :: m => (match lo with | none => true | some l => decide (l < j)) && decide (v ≠ d) && SMap.wfFrom d (some j) m

/-- The canonical form of a sparse map whose unlisted value is `d`. -/
def SMap.wf {α : Type} [DecidableEq α] (d : α) (m : SMap α) : Bool := SMap.wfFrom d none m

/-- Byte-addressed memory: cells in canonical form; an unlisted byte reads 0 (R71: a power-on reset clears it). -/
abbrev Memory := SMap Byte

/-- The canonical form of a memory. -/
def Memory.wf (m : Memory) : Bool := SMap.wf (0 : Byte) m

end Sys2Proof
end

