-- ==== Sys2Proof/Syntax.lean ====
section
/-! DEFINITION. The commands of the block: one constructor of `Instr` per row of spec/opcode_table.json.

The table gives no operands (its "fields" are empty). The operands here are what the rule of the row needs and the block
cannot know from its own state: a mailbox number, written bytes, a received frame, or a measured quantity. A command
that reports an event takes place only where the present state arms that event (notes/assumptions/2.md). -/

namespace Sys2Proof

/-- One sense pair as the MOD-to-DSP FIFO delivers it (R211): channel, media index, 24-bit codes of voltage and current,
and the valid mark. -/
structure SensePair where
  ch : Nat
  n : Nat
  v : Int
  i : Int
  valid : Bool
deriving DecidableEq, Repr

/-- What a DSD test drive of Table 12.1 read when it ended (R307, R308). Voltages in volts, currents in amperes. -/
structure TestReading where
  nodeA : Rat
  nodeB : Rat
  legA : Rat
  legB : Rat
  vMean : Rat
  iMean : Rat
deriving DecidableEq, Repr

/-- Voltage and current of a pilot window at one frequency, from the sense pairs (R232). -/
structure PilotLine where
  hz : Rat
  vRe : Rat
  vIm : Rat
  iRe : Rat
  iIm : Rat
deriving DecidableEq, Repr

/-- What the band-passes of a pilot window of 96,000 samples, of unstated form, give (R228, R232): the voltage and current phasors at the pilot,
the programme levels in both bands in dBFM, and the lines to which the impedance is fitted. -/
structure PilotReading where
  vRe : Rat
  vIm : Rat
  iRe : Rat
  iIm : Rat
  subBandDbfm : Rat
  fsBandDbfm : Rat
  lines : List PilotLine
deriving DecidableEq, Repr

/-- FS and SD of a TDM port in one bit period, at the rising and at the falling edge of BCLK (R169). -/
structure TdmBit where
  fsRise : Bool
  sdRise : Bool
  fsFall : Bool
  sdFall : Bool
deriving DecidableEq, Repr

/-- What the dataset comparison of IEEE 1588-2019 takes from an Announce (R160): the grandmaster's priority1, clock class, accuracy, variance,
priority2 and identity, stepsRemoved and the sourcePortIdentity; with the domain and logMessageInterval. -/
structure Announce where
  gmHi : Nat
  gmLo : Nat
  priority1 : Nat
  clockClass : Nat
  accuracy : Nat
  variance : Nat
  priority2 : Nat
  steps : Nat
  source : Nat
  domain : Nat
  logInterval : Int
deriving DecidableEq, Repr

/-- The 225 commands. The rule beside each is the one its row names. -/
inductive Instr where
  -- mailbox commands taken by the Keeper from request mailbox `i` (R94 to R112)
  | nop (i : Nat)                                   -- R106
  | getInfo (i : Nat)                               -- R106
  | run (i : Nat)                                   -- R78
  | stop (i : Nat)                                  -- R78
  | standby (i : Nat)                               -- R79
  | reset (i : Nat)                                 -- R111
  | clearFault (i : Nat)                            -- R111
  | emute (i : Nat)                                 -- R89
  | setParam (i : Nat)                              -- R107
  | getParam (i : Nat)                              -- R107
  | writeBlock (i : Nat)                            -- R122
  | readBlock (i : Nat)                             -- R122
  | commit (i : Nat)                                -- R126
  | discard (i : Nat)                               -- R124
  | getEvents (i : Nat)                             -- R110
  | peek (i : Nat)                                  -- R109
  | poke (i : Nat)                                  -- R109
  | selfTest (i : Nat)                              -- R406
  | getTestResult (i : Nat)                         -- R406
  | inject (i : Nat)                                -- R410
  | fwUpdateBegin (i : Nat)                         -- R391
  | fwUpdateData (i : Nat)                          -- R391
  | fwUpdateEnd (i : Nat) (imageOk commitOk : Bool)  -- R391: what the image and COMMIT read back
  -- the SPI window and the UDP path
  | spiUnknownInstruction (op : Byte)               -- R85
  | spiWriteUnmapped (addr : Nat) (b : Byte)        -- R87
  | registerWrite (off n : Nat) (v : Word)          -- R86: `n` of its 4 bytes were written in one transaction
  | mailboxByteWrite (addr : Nat) (b : Byte)        -- R86
  | doorbell (v : Word)                             -- R97
  | rspReadyRelease (v : Word)                      -- R98
  | heldResponseWrite (i : Nat)                     -- R98
  | irqStatusClear (v : Word)                       -- R91
  | emuteRegisterWrite (v : Word)                   -- R89
  | spiErrRead (n : Nat)                            -- R10: the access read `n` bytes from offset 0
  | imagePortWrite (b : Byte)                       -- R92
  | imgClear                                        -- R92
  | imgGo                                           -- R92
  | hostDatagram (addr port dst dport : Nat) (payload : List Byte) -- R101: from `addr` and `port` to `dst` and `dport`
  -- supplies, reset and boot
  | powerOnReset (strapBoot : Bool)                 -- R71
  | keeperIslandReset                               -- R71
  | resetNAssert                                    -- R72
  | resetNRelease (strapBoot : Bool)                -- R72
  | watchdogExpiry                                  -- R71
  | busWarn (v : Rat)                               -- R63: VBUS at the crossing
  | brownoutSilent                                  -- R63
  | lastRecord (logFails lifeFails : Nat)            -- R397: the read-backs that fail before each record stands
  | busDip (v : Rat)                                -- R65: VBUS at the crossing
  | busRecovery                                     -- R65
  | busOv                                           -- R60
  | busOvLong                                       -- R60
  | busReversed                                     -- R62
  | reverseCurrentBlock                             -- R61
  | pwrPgHigh (strapTwin : Bool) (strapDrv : Nat)   -- R67
  | pgTimeout                                       -- R67
  | pgLost                                          -- R70
  | sequenceRetry                                   -- R70
  | romBankSelect (sfdp : Option Nat)               -- R74: the size in MB of the SFDP table, if it is readable
  | firmwareStart                                   -- R74
  | mediaPllLock                                    -- R175
  | dsdBringup (d : Nat) (vdrv : Rat) (trim link sref : Bool) (ntcOhm : Rat) -- R76
  | configLoad                                      -- R75
  | mailboxReady                                    -- R78
  | wakePatternMatch (frame : List Byte) (fcsOk : Bool) -- R163
  | standbyWakeTimer                                -- R80
  | wake                                            -- R80
  | keeperHalt                                      -- R36
  | keeperResume                                    -- R36
  | heartbeat                                       -- R90
  | statusRefresh                                   -- R215
  -- commits
  | unitArm                                         -- R129
  | unitSwitch                                      -- R209
  | crossfadeEnd (c : Nat)                          -- R132
  | commitDone                                      -- R134
  | cfgStore (verifyOk : Bool)                      -- R136
  -- the DSP window, the tracker and the ceilings
  | dspWindow (sense : List SensePair)              -- R208
  | railSelectionApply (rc : Nat)                   -- R338
  | ceilingTermsRefresh (rc : Nat) (vRail : Rat)    -- R336
  | rselFilterRail (row us : Nat)                   -- R335: the pins have been stable for `us` microseconds
  | rselFilterDsp (row us : Nat)                    -- R335
  | keeperCeilingWrite (rc row : Nat)               -- R336
  -- network
  | networkFrame (port : Nat) (frame : List Byte) (fcsOk : Bool) (tick : Nat) -- R139: `tick` is the completion in MEDIA ticks
  | streamPacket (port : Nat)                       -- R149: the head of the port's audio FIFO
  | streamMissing (st : Nat)                        -- R154
  | streamReentry (st : Nat)                        -- R155
  | streamOverrun (st : Nat)                        -- R157
  | pathSkew (st : Nat)                             -- R151
  | pathLost (st side : Nat) (recovered : Bool)     -- R152
  | linkUp (port : Nat)                             -- R142
  | linkDown (port : Nat)                           -- R142
  | moduleAbsent (port : Nat)                       -- R142
  | igmpReport (port : Nat)                         -- R141
  | igmpQuery (port version : Nat) (group : Nat)    -- R141
  | keeperFrame (ring : Nat) (frame : List Byte) (fcsOk : Bool) -- R166
  | nmFrame (frame : List Byte) (fcsOk : Bool)      -- R140
  | nmLinkUp (mbps : Nat) (fullDuplex : Bool)       -- R137
  | monitorPacket (j : Nat)                         -- R159
  | ptpSync (port : Nat) (deltaNs : Rat) (logInterval : Int) (atNs : Nat) -- R161: receive time less corrected origin time; TIME's clock at it
  | ptpAnnounce (port : Nat) (a : Announce) (atNs : Nat) -- R160
  | ptpDelayResponse (port : Nat) (delayNs : Rat)   -- R160
  | ptpDelayReqSend (port : Nat)                    -- R160
  | ptpHoldover (atNs : Nat)                        -- R161
  | ptpNoMaster                                     -- R161
  | ptpLocked (atNs : Nat)                          -- R161
  -- media clock and TDM
  | timeMediaPair (ptpNs : Nat) (tick : Nat)        -- R177
  | mclkUpdate                                      -- R177
  | mclkHoldoverAlarm                               -- R178
  | mclkSteerLimit                                  -- R182
  | mediaStepStart                                  -- R180
  | mediaStepHalt                                   -- R180
  | mediaStepResume (ptpNs : Nat)                   -- R180
  | tdmFrame (x : Nat) (wave : List TdmBit) (period : Nat) (tick : Nat) -- R173
  | tdmClockLost (x : Nat)                          -- R183
  | tdmRateCheck (x : Nat) (rateHz : Rat)           -- R185
  -- loudspeaker models
  | pilotWindow (c : Nat) (p : PilotReading)        -- R228
  | reStale (c : Nat)                               -- R229
  | modelRecordStore                                -- R234
  | lateReseed (c : Nat)                            -- R237
  | foldbackEpisodeEnd (c : Nat) (magnet : Bool)    -- R226
  -- channel start, play and stop
  | channelStart (c : Nat)                          -- R272
  | senseOffsetCal (c : Nat) (vOff iOff : Int)      -- R405
  | diagTestComplete (c : Nat) (r : TestReading)    -- R307
  | polarityCheck (c : Nat) (vMean iMean : Rat)     -- R268
  | prechargeStart (c : Nat)                        -- R262
  | prechargeComplete (c : Nat) (a b diff : Rat) (caps : List Rat) -- R262, R263, R299: VSP and VSN or LGA and LGB, VSP − VSN, the flying capacitors 1A, 2A, 1B, 2B
  | prechargeTimeout (c : Nat) (vsp vsn : Rat)      -- R262
  | tauMeasured (c : Nat) (tauNs : Rat)             -- R248
  | loopRange (c : Nat)                             -- R252
  | idleComplete (c : Nat)                          -- R264
  | fcImbalanceTimeout (c : Nat)                  -- R300
  | loopComparatorEdge (c n j : Nat) (v i dtNs : Rat) -- R258: code j of sample n plays, `v` and `i` are sensed, `dtNs` since the last edge
  | spreadDraw (c : Nat)                            -- R253
  | deadtimeAdapt (c edge early late : Nat)         -- R256
  | currentLimitTrip (c : Nat) (aToB newCycle consecutive fell dropped : Bool) -- R260, R319: whether the current fell within 5 µs, and a drop limit tripped
  | dropTrip (c : Nat) (aToB newCycle consecutive : Bool) -- R261
  | reverseStateRelease (c : Nat)                   -- R260
  | loopStall (c : Nat)                             -- R267
  | senseOpenRun (c : Nat) (a b : List Rat)         -- R317: per block, by how much node and switch-node means of each leg differ
  | enterRun (c : Nat)                              -- R264
  | muteNFiltered (low : Bool) (ticks : Nat)        -- R312: MUTE_N was sampled low, or high, on `ticks` consecutive ticks
  | emuteFallStart                                  -- R313
  | emuteSilent                                     -- R313
  | emuteRiseStart                                  -- R313
  | muteEnter (c : Nat)                             -- R271
  | silentStop (c : Nat)                            -- R265
  | silentStopGatesOff (c : Nat)                    -- R265
  | silentStopDischarged (c : Nat) (nodes : List Rat) -- R265, R301: HSA and HSB, or LGA, LGB and the capacitors
  | silentStopTimeout (c : Nat) (vsp vsn : Rat)     -- R265
  | cdLinkLost (d : Nat)                            -- R18
  | retestStart (c : Nat)                           -- R272
  | retestComplete (c : Nat)                        -- R324
  | relayChange (c : Nat) (i : Rat)                 -- R310: `i` is the largest |i| of the last 100 µs
  | relayCoilOpen (c : Nat) (v : Rat)               -- R311
  | relayDrive (c : Nat) (v : Rat)                  -- R311
  | zoneNtcSample (d : Nat) (ohm dieC : Rat)        -- R321
  | zoneNtcOpen (d : Nat) (ohm : Rat)               -- R321
  | zoneNtcShort (d : Nat) (ohm : Rat)              -- R321
  | zoneNtcReturn (d : Nat)                         -- R321
  | stageShutdown (d : Nat)                         -- R323
  | junctionShutdown (die : Nat) (tempC : Rat)      -- R384
  | junctionWarn (die : Nat) (tempC : Rat)          -- R384
  -- trips and the PWM generators
  | faultNTrip (inp ticks : Nat)                    -- R295, R296: the input has been low for `ticks` ticks
  | faultNRelease (inp : Nat)                       -- R296
  | loadAll (v : Word)                              -- R283
  | maskStep (k : Nat)                              -- R291
  | pwmBoundary                                     -- R283
  | feederPeriod (k : Nat)                          -- R285
  | trigMatch (k j : Nat) (v1 v2 i : Rat)           -- R282: what the samplers read
  | cellCheck (c : Nat) (drops slopes : List Rat)   -- R303: the drops of the 12 switches in V, the slopes of the 4 capacitors in V/µs
  | feedUnderrun (c : Nat)                          -- R298
  | feedResume (c : Nat)                            -- R298
  -- rail controllers
  | railStart (rc : Nat)                            -- R340
  | railPrecheck (rc : Nat) (isx vis vos rise : Rat) -- R341
  | railRegulating (rc : Nat) (vOut ms : Rat)       -- R342: `ms` after the soft start began
  | startShort (rc : Nat) (vOut ms : Rat)           -- R343
  | startTimeout (rc : Nat) (vOut ms : Rat)         -- R343
  | railRetry (rc : Nat)                            -- R343
  | railChargeStart (rc : Nat) (vIn vOut i offNs sinceNs : Rat) -- R333: V_in, the sensed rail, the phase's current, the times since its last interval and since the last trigger
  | railLimitTrip (rc : Nat) (phaseB : Bool) (mv ns : Rat) -- R344: the shunt voltage, the time since the charging interval began
  | railSag (rc : Nat) (vOut : Rat)                 -- R344
  | railOv (rc : Nat) (vOut : Rat)                  -- R345
  | railStop (rc : Nat)                             -- R345
  | phaseOpen (rc : Nat) (phaseB : Bool) (iA iB : Rat) -- R347
  | phaseSenseFailed (rc : Nat) (phaseB : Bool) (sensed : Rat) -- R347
  | rcNtcSample (rc : Nat) (ohm : Rat)              -- R349
  | rcOvertemp (rc : Nat)                           -- R349
  | rcOvertempRestart (rc : Nat)                    -- R349
  | syncAcquired (us : List Rat)                    -- R351: the last intervals between rising edges, oldest first
  | syncLost (last gap : Rat) (edge : Bool)         -- R351: the last interval in µs, and what followed: an interval, or a time without an edge
  | railSpreadDraw (rc : Nat)                       -- R352
  | telemetryRefresh (rc : Nat) (vIn vOut iA iB fA fB pOut : Rat) (held : List Rat) (oneSecond : Bool) -- R353: averages; the fractions of a cycle spent discharging; the extremes held since the last refresh: V_out high and low, I_out, P_out, T_rc
  -- the twin
  | peerLinkUp                                      -- R359
  | peerLinkDown                                    -- R359
  | sampleFrame (frame : List Byte)                 -- R372
  | blockFrame (frame : List Byte)                  -- R373
  | modelFrame (frame : List Byte)                  -- R240
  | peerBeacon (frame : List Byte)                  -- R357
  | epochFrame (frame : List Byte)                  -- R367
  | timeFrame (frame : List Byte) (t2 : Nat)        -- R362: `t2` is the receive stamp
  | peerFrameSend (ty : Nat) (sense : List SensePair) -- R361: a SAMPLE frame carries the sense pairs that reached the CD
  | networkBeaconSend                               -- R363
  | networkBeacon (port : Nat) (beacon : List Byte) -- R364
  | partnerAbsent                                   -- R369
  | takeLeadAlone                                   -- R357
  | commitAbandoned                                 -- R368
  | joinCheck (c : Nat)                             -- R375
  | runBlockReached                                 -- R376
  | shareImbalance (c : Nat)                        -- R377
  | sharingResumed                                  -- R379
  -- store, lifetime, ageing and tests
  | logFlush                                        -- R397
  | recordWrite (lifetime : Bool) (readBack : Nat)  -- R394: 0 both succeed, 1 that of bytes 0 to 59 fails, 2 that of COMMIT
  | sectorErase (lifetime ok : Bool)                -- R394
  | snapshot                                        -- R399
  | ageingEvaluation (q inst : Nat) (median cap : Rat) -- R400: `cap` is the filter capacitance of quantity 3
  | replanSecondWrite (c : Nat)                     -- R401
  | delayLineCal (d : Nat)                          -- R255
  | selfTestDone (ticket state code : Nat) (values : List Byte) -- R406
  | injectReorderRelease (inj : Nat)                -- R410
  -- rows the table adds at its end
  | overVoltageClear                                -- R60
  | modulePresent (port : Nat)                      -- R142
  | nmLinkDown                                      -- R142
  | cdLinkTrained (d : Nat)                         -- R345
  | keeperPllLock                                   -- R87
  | vinEntersRange (rc : Nat) (vIn : Rat)           -- R340
  | cKeeperSecondWrite (rc : Nat)                   -- R336
  | gateRsAboveVbus                                 -- R61
  | keeperSensorSample (junctions : List Rat) (vbus : Rat) (supplies srefs rings : List Rat) -- R384, Table 15.1
deriving DecidableEq, Repr

end Sys2Proof
end

