-- ==== Sys2Proof/Config.lean ====
section
/-! DEFINITION. What one part fixes (fuses) and the free values: constants without a body, so that no proof sees their
value. Each is named in notes/assumptions. -/

namespace Sys2Proof.Config

/-- The factory serial of the fuses (Table 4.3). -/
opaque serial : BitVec 64
/-- A fresh unstated value: the n-th one drawn (State.free counts them); notes/assumptions/3.md. -/
opaque freeNat : Nat → Nat
/-- A fresh unstated real value (notes/assumptions/3.md). -/
opaque freeRat : Nat → Rat
/-- Whether an unstated rounding (tag, numerator, denominator) goes up or down between the two neighbours (R434 states
none for the mix, the FIR, the gains and the fades); notes/assumptions/4.md. -/
opaque roundUp : Nat → Int → Nat → Bool
/-- Unpublished odd taps 1, 3, ..., 13 of the half-band interpolator (R146): index 0 to 6. -/
opaque halfbandTap : Nat → Rat
/-- Unpublished odd taps 1, 3, ..., 33 of the half-band decimator of monitor streams (R158): index 0 to 16. -/
opaque monTap : Nat → Rat
/-- Where the receive rings stand in the data area of Keeper SRAM (R165, R383). -/
opaque ringBase : Nat
/-- What stands at a word of a target whose registers the manual lays out nowhere (R385): 0 no register, 1 a register that reads what was
written to it, any other number one that reads as it pleases; notes/assumptions/27.md. -/
opaque regKind : Nat → Nat
/-- The code that reports a saturated crossing (R30 states none); notes/assumptions/72.md. -/
opaque overflowCode : Nat
/-- The store code of the retired-sector list of a snapshot (R399 states none); notes/assumptions/51.md. -/
opaque retiredCode : Nat
/-- Unpublished taps 0 to 14 of phase p of the steering interpolator (R201). -/
opaque steerTap : Nat → Nat → Rat
/-- Code j, 0 to 127, of the newest of the given samples, as the noise shaper of R246 forms it from the y values so far. -/
opaque noiseShape : List Rat → Nat → Nat
/-- How many ohms above 1 MΩ the converter of a thermistor measures (R321, R444); notes/assumptions/60.md. -/
opaque ntcSpan : Nat
/-- The weight of a line of a pilot window in the fit of R232, by its frequency; notes/assumptions/64.md. -/
opaque fitWeight : Rat → Rat
/-- Factory values by strap profile: on-resistance of a switch in ohms (R261), dead time in ns (R257). -/
opaque factoryRon : Bool → Rat
opaque factoryDeadtime : Bool → Nat
/-- The junction shutdown limit in °C, between 125 and 135 (R433); notes/assumptions/65.md. -/
opaque junctionLimit : Rat
/-- Bytes of an event notice that R103 does not state: 0 mailbox number, 1 FLAGS bits 6:0, 2 and 3 SEQ. -/
opaque noticeByte : Nat → Byte
/-- Bytes of a sent frame that no rule states: a kind of frame and a position. -/
opaque openByte : Nat → Nat → Byte

end Sys2Proof.Config
end

