-- ==== Sys2Proof/Machine/Num.lean ====
section
/-! DEFINITION. Numbers: rounding (R434), saturated data words (R444), binary32 (R114), byte order (R6), the two CRCs
(R94, R163) and the elementary functions. -/

namespace Sys2Proof.Machine

/-- Rounding to nearest, halves to even (R434). -/
def roundEven (q : Rat) : Int :=
  let f := q.floor
  let r := q - f
  if r < 1/2 then f else if 1/2 < r then f + 1 else if f % 2 = 0 then f else f + 1

/-- A rounding whose rule no requirement states: one of the two neighbours (notes/assumptions/4.md). -/
def roundOpen (tag : Nat) (q : Rat) : Int :=
  if q.den = 1 then q.num else if Config.roundUp tag q.num q.den then q.floor + 1 else q.floor

def clampInt (lo hi x : Int) : Int := if x < lo then lo else if hi < x then hi else x
def clampRat (lo hi x : Rat) : Rat := if x < lo then lo else if hi < x then hi else x
def absRat (x : Rat) : Rat := if x < 0 then -x else x
def absInt (x : Int) : Int := if x < 0 then -x else x

/-- An unsigned data word of R444: rounded, saturated at 0 and 0xFFFF_FFFF. -/
def wordU (q : Rat) : Word := BitVec.ofInt 32 (clampInt 0 0xFFFFFFFF (roundEven q))

/-- A signed data word of R444: rounded, saturated at both ends. -/
def wordS (q : Rat) : Word := BitVec.ofInt 32 (clampInt (-0x80000000) 0x7FFFFFFF (roundEven q))

def word (n : Nat) : Word := BitVec.ofNat 32 n

/-- 2^e for an integer e. -/
def pow2 (e : Int) : Rat := if 0 ≤ e then (2 ^ e.toNat : Nat) else 1 / ((2 ^ (-e).toNat : Nat) : Rat)

/-- The value of a binary32 word; none for a NaN or an infinity (R114). -/
def f32? (w : Word) : Option Rat :=
  let n := w.toNat
  let e := (n / 0x800000) % 256
  let m := n % 0x800000
  let a : Rat := if e = 0 then (m : Rat) * pow2 (-149) else ((m + 0x800000 : Nat) : Rat) * pow2 ((e : Int) - 150)
  if e = 255 then none else some (if n / 0x80000000 = 1 then -a else a)

def f32Val (w : Word) : Rat := (f32? w).getD 0

/-- The exponent e with 2^e ≤ a < 2^(e+1), for a above 0. -/
def exp2 (a : Rat) : Int :=
  let e := (Nat.log2 a.num.natAbs : Int) - (Nat.log2 a.den : Int)
  if pow2 e ≤ a then e else e - 1

/-- The binary32 word nearest a value, halves to even; an infinity beyond the largest finite value. -/
def f32Of (q : Rat) : Word :=
  if q = 0 then 0 else
  let a := absRat q
  let e := max (exp2 a) (-126)
  let m := (roundEven (a * pow2 (23 - e))).toNat
  let n := (e + 126).toNat * 0x800000 + m
  let n := min n 0x7F800000
  BitVec.ofNat 32 (if q < 0 then n + 0x80000000 else n)

/-- A decimal bound as binary32 holds it. -/
def near32 (q : Rat) : Rat := f32Val (f32Of q)

/-- `n` bytes of a number, least significant first (R6). -/
def le (n v : Nat) : List Byte := (List.range n).map fun i => BitVec.ofNat 8 (v / 256 ^ i)

/-- `n` bytes of a number, most significant first: network byte order (R6). -/
def be (n v : Nat) : List Byte := (le n v).reverse

def ofLe (l : List Byte) : Nat := l.foldr (fun b a => b.toNat + 256 * a) 0
def ofBe (l : List Byte) : Nat := l.foldl (fun a b => 256 * a + b.toNat) 0

/-- Bytes `o` to `o + n − 1` of a byte list. -/
def sub (l : List Byte) (o n : Nat) : List Byte := (l.drop o).take n
def leAt (l : List Byte) (o n : Nat) : Nat := ofLe (sub l o n)
def beAt (l : List Byte) (o n : Nat) : Nat := ofBe (sub l o n)
def zeros (n : Nat) : List Byte := List.replicate n 0
def allZero (l : List Byte) : Bool := l.all (· == 0)

/-- A two's-complement value of `n` bits. -/
def signed (n v : Nat) : Int := (BitVec.ofNat n v).toInt

/-- One byte into the reflected CRC-32 (R94). -/
def crc32Byte (c : BitVec 32) (b : Byte) : BitVec 32 :=
  (List.range 8).foldl (fun c _ => if c.getLsbD 0 then (c >>> 1) ^^^ 0xEDB88320 else c >>> 1) (c ^^^ b.setWidth 32)

/-- The CRC-32 of IEEE 802.3 (R94). -/
def crc32 (l : List Byte) : Word := (l.foldl crc32Byte 0xFFFFFFFF) ^^^ 0xFFFFFFFF

/-- The CRC-16 of the wake patterns: generator 0x1021, initial 0xFFFF, not reflected (R163). -/
def crc16 (l : List Byte) : BitVec 16 :=
  l.foldl (fun c b => (List.range 8).foldl
    (fun c _ => if c.getLsbD 15 then (c <<< 1) ^^^ 0x1021 else c <<< 1) (c ^^^ BitVec.ofNat 16 (256 * b.toNat))) 0xFFFF

/-! ### Elementary functions

The manual writes them as mathematics. Each is computed here on rationals with an error below 10^-30 (notes/assumptions/5.md); where the
manual rounds the result, the rounding is written at its place. -/

/-- π, ln 2 and ln 10 to 50 decimals. -/
def piR : Rat := 314159265358979323846264338327950288419716939937511 / 10 ^ 50
def ln2R : Rat := 69314718055994530941723212145817656807550013436026 / 10 ^ 50
def ln10R : Rat := 230258509299404568401799145468436420760110148862877 / 10 ^ 50

/-- The multiple of 2^-160 at or below a value. -/
def cut (q : Rat) : Rat := ((q * (2 ^ 160 : Nat)).floor : Rat) / ((2 ^ 160 : Nat) : Rat)

/-- The sum of terms t(0) + … + t(n), where term i + 1 is term i times `next i`. -/
def series (first : Rat) (next : Nat → Rat) (n : Nat) : Rat :=
  ((List.range n).foldl (fun (a : Rat × Rat) i => let t := cut (a.2 * next i); (a.1 + t, t)) (first, first)).1

/-- e^x: the exponential series at x/2^k, squared k times. -/
def expR (x : Rat) : Rat :=
  let k := if x = 0 then 0 else (exp2 (absRat x) + 2).toNat
  let y := x / ((2 ^ k : Nat) : Rat)
  (fun z => cut (z * z))^[k] (series 1 (fun i => y / ((i + 1 : Nat) : Rat)) 40)

/-- ln x for x above 0: with x = m·2^e and z = (m − 1)/(m + 1), it is e·ln 2 + 2·(z + z³/3 + z⁵/5 + …). -/
def lnR (x : Rat) : Rat :=
  let e := exp2 x
  let m := x * pow2 (-e)
  let z := (m - 1) / (m + 1)
  e * ln2R + 2 * (List.range 60).foldl (fun (a : Rat) i => a + cut (z ^ (2 * i + 1) / ((2 * i + 1 : Nat) : Rat))) 0

/-- sin(2π·t) for t in turns: the sine series on the turn from −1/2 to 1/2. -/
def sinTurn (t : Rat) : Rat :=
  let u := t - (t + 1/2).floor
  let y := 2 * piR * u
  series y (fun i => -(y * y) / (((2 * i + 2) * (2 * i + 3) : Nat) : Rat)) 40
def cosTurn (t : Rat) : Rat := sinTurn (t + 1/4)

/-- One step of Heron's rule for the integer square root. -/
def heron (n r : Nat) : Nat := if r = 0 then 0 else min r ((r + n / r) / 2)
/-- The largest r with r² ≤ n. -/
def isqrt (n : Nat) : Nat := (heron n)^[16] (2 ^ (Nat.log2 n / 2 + 1))

/-- 10^(x/20) (R198, R205, R226). -/
def dbGain (x : Rat) : Rat := if x = 0 then 1 else expR (x * ln10R / 20)

/-- 20·log10(x) for x positive (R14). -/
def gainDb (x : Rat) : Rat := if x = 1 then 0 else 20 * lnR x / ln10R

/-- e^(−x) (R206, R222, R236). -/
def expNeg (x : Rat) : Rat := if x = 0 then 1 else expR (-x)

/-- The square root of a value that is not negative (R217, Table 15.8). -/
def sqrtR (x : Rat) : Rat := ((isqrt (x.num.toNat * 2 ^ 320 / x.den) : Nat) : Rat) / ((2 ^ 160 : Nat) : Rat)

/-- The temperature in °C of a thermistor of 10 kΩ at 25 °C with a B value of 3,435 K (R321). -/
def ntcCelsius (ohm : Rat) : Rat := 1 / (100 / 29815 + lnR (ohm / 10000) / 3435) - 27315/100

/-- A thermistor resistance as a data word: saturated beyond the range of the converter (R444). -/
def ohmWord (ohm : Rat) : Word := if ((1000000 + Config.ntcSpan : Nat) : Rat) < ohm then 0xFFFFFFFF else wordU ohm

/-- The sum of a list. -/
def sumRat (l : List Rat) : Rat := l.foldl (· + ·) 0
def mean (l : List Rat) : Rat := if l.isEmpty then 0 else sumRat l / l.length

/-- Insertion into a list in rising order. -/
def insertRat (x : Rat) : List Rat → List Rat
  | [] => [x]
  | y :: l => if x ≤ y then x :: y :: l else y :: insertRat x l

/-- The median: the middle value, or the mean of the two middle values (R321, R400). -/
def median (l : List Rat) : Rat :=
  let m := l.foldr insertRat []
  if m.length % 2 = 1 then m.getD (m.length / 2) 0
  else (m.getD (m.length / 2 - 1) 0 + m.getD (m.length / 2) 0) / 2

/-- The entries of the last `span` before `now`. -/
def recent (span now : Nat) (l : List (Nat × Rat)) : List (Nat × Rat) := l.filter fun e => decide (now < e.1 + span)
/-- One more entry of a sliding maximum: earlier entries that it passes can never be the maximum again. -/
def slide (span : Nat) (e : Nat × Rat) (l : List (Nat × Rat)) : List (Nat × Rat) := (recent span e.1 l).filter (fun x => decide (e.2 < x.2)) ++ [e]
/-- The largest of the last `span`, 0 where there is none. -/
def slideMax (span now : Nat) (l : List (Nat × Rat)) : Rat := ((recent span now l).head?.map (·.2)).getD 0

/-- A counter that stops at its largest value (R11). -/
def satAdd (bits a n : Nat) : Nat := min (a + n) (2 ^ bits - 1)

/-- The quotient of two complex numbers. -/
def cdiv (a b : Rat × Rat) : Rat × Rat :=
  let d := b.1 * b.1 + b.2 * b.2
  ((a.1 * b.1 + a.2 * b.2) / d, (a.2 * b.1 - a.1 * b.2) / d)

end Sys2Proof.Machine
end

