-- ==== Sys2Proof/Machine/State.lean ====
section
/-! DEFINITION. The state of the block as plain data, and the state right after reset.

A field's comment gives the rule that names it. Reset values are the fields' defaults: 0, false, empty or the first name
of an enumeration, unless written. Where the manual states none, notes/assumptions/6.md names the value. -/

namespace Sys2Proof.Machine

/-- Why a run stops with a fault. No row raises one: what the manual calls a fault is a record and a latched code.
`unreachable` is raised by nothing (safe). -/
inductive Fault where
  | unreachable
deriving DecidableEq, Repr

/-- Why a command is refused. `notModelled` is raised only by an arm of Dispatch.lean (safe: no claim about it holds). -/
inductive Refusal where
  | notModelled (mnemonic : String)
deriving DecidableEq, Repr

/-- What one command answers. -/
abbrev Out (σ : Type) := Host.Outcome σ Fault Refusal

/-- Device states (Table 4.4, in code order). -/
inductive DevState where
  | boot | standby | ready | run | safe | update
deriving DecidableEq, Repr

/-- Channel states (Table 10.7, in code order). -/
inductive ChanState where
  | off | diag | precharge | idle | run | muted | fault | retest
deriving DecidableEq, Repr

/-- What a channel's bridge does (Tables 10.4 and 11.6, R262, R265, R307). -/
inductive Bridge where
  | open | clamp | high | test | precharge | switching | sink
deriving DecidableEq, Repr

/-- How far a silent stop has come (R265). -/
inductive StopPhase where
  | none | requested | fading | zero | sinking
deriving DecidableEq, Repr

/-- Stream states (Table 6.13). -/
inductive StreamState where
  | disabled | waiting | playing | faded | ramping
deriving DecidableEq, Repr

/-- TDM port states (Table 7.7). -/
inductive TdmState where
  | disabled | waiting | playing | faded | ramping | rateMismatch
deriving DecidableEq, Repr

/-- Media-clock states (Table 7.5). -/
inductive MclkState where
  | free | acquire | track | holdover | step
deriving DecidableEq, Repr

/-- PTP servo states (Table 6.10). -/
inductive PtpState where
  | disabled | listening | acquiring | locking | locked | holdover
deriving DecidableEq, Repr

/-- Rail-controller states (Table 13.6). -/
inductive RcState where
  | off | check | softStart | regulating | fault | retryWait
deriving DecidableEq, Repr

/-- Twin roles (Table 14.11). -/
inductive Role where
  | none | lead | follow
deriving DecidableEq, Repr

/-- A commit unit (R127): an instance of a global class, or a channel. -/
inductive CUnit where
  | global (cls inst : Nat)
  | chan (c : Nat)
deriving DecidableEq, Repr

/-- A straight ramp over `n` samples: the value after sample i is from + (to − from)·(i + 1)/n (R198, R264, R313). -/
structure Ramp where
  start : Rat
  goal : Rat
  i : Nat := 0
  n : Nat := 0
deriving DecidableEq, Repr

/-- An event record (Table 15.5) before its bytes are formed. -/
structure Record where
  time : Nat
  code : Nat
  inst : Nat
  seq : Nat
  data : List Word
  level : Nat
  isLocal : Bool
  lostBefore : Bool
deriving DecidableEq, Repr

/-- A hold of R442: no further record of this code and instance until the Keeper counter reaches `until`. -/
structure HoldTimer where
  code : Nat
  inst : Nat
  till : Nat
  count : Nat
deriving DecidableEq, Repr

/-- A slot of the log or lifetime region (R395): a valid record, or one that is torn or corrupt. -/
inductive Slot where
  | valid (r : Record)
  | torn
  | corrupt
deriving DecidableEq, Repr

/-- A frame that the device has handed to a transmitter, newest last (R103, R139, R141, R159, R160, R361, R363). -/
structure Sent where
  port : Nat
  dst : Nat
  udp : Nat
  payload : List Byte
deriving DecidableEq, Repr

/-- A full set of configuration values: those that differ from the factory defaults (R123, R125). A block's value is all
its bytes. -/
structure Bank where
  params : SMap Word := []
  blocks : SMap (List Byte) := []
deriving DecidableEq, Repr

/-- One scheduled unit of a commit (R127, R128). `asked`: what it restarts has been asked to stop. -/
structure UnitPlan where
  unit : CUnit
  block : Nat
  armed : Bool := false
  switched : Bool := false
  xfade : Bool := false
  asked : Bool := false
deriving DecidableEq, Repr

/-- A commit in progress (R126 to R134, R181): a unit's block is k0 plus its place in the plan, plus `shift` for the units that have not
switched; `k0` is open in mode 0 until the first units are armed. `first` is the block of the first switch, `last` the last block of a
switch or a crossfade so far, `nxf` the limit of R133. -/
structure Commit where
  ticket : Nat
  named : Bool
  k0 : Option Nat
  units : List UnitPlan
  shift : Int := 0
  xfading : List Nat := []
  first : Option Nat := none
  last : Nat := 0
  late : Bool := false
  xfadeFlag : Bool := false
  noXfade : Bool := false
  nxf : Nat := 0
  epoch : Option Nat := none
deriving DecidableEq, Repr

/-- The Keeper and boot (R36, R71 to R82, R90, R92, R383). `dspHalted` is the debug halt of the DSP array (R72). -/
structure Keeper where
  halted : Bool := false
  counterUs : Nat := 0
  heartbeat : Word := 0
  watchdog : Bool := false
  stage : Nat := 0
  dev : DevState := .boot
  cause : Nat := 0
  fwBank : Bool := false
  cfgBank : Bool := false
  cfgFactory : Bool := false
  fwSpi : Bool := false
  strapBoot : Bool := false
  strapTwin : Bool := false
  strapDrv : Nat := 0
  straps : Bool := false
  attemptsA : Nat := 0
  attemptsB : Nat := 0
  imgState : Nat := 0
  img : List Byte := []
  imgCount : Nat := 0
  fwVersion : Word := 0
  fwSeq : Word := 0
  fwLevel : Nat := 0
  bootFrom : Option (DevState × Nat × Nat) := none
  serving : Bool := false
  tried : BitVec 2 := 0
  cfgLoaded : Bool := false
  fwBytes : List Byte := []
  watchdogStage : Option Nat := none
  safeCauses : List Nat := []
  standbyWait : Bool := false
  resetWait : Option Nat := none
  wakeHeld : Bool := false
  waking : Bool := false
  holdupShort : Bool := false
  dspHalted : Bool := false
deriving DecidableEq, Repr

/-- The bus, the supply sequence and the reverse-protection pump (R58 to R72, R437). `warn` and `ov` are the comparators, `warnV` the
brown-out threshold in force and `warnSet` that it is the configured one (R59), `tw` a brown-out response since its warning (R63, R65). -/
structure Power where
  islandReset : Bool := true
  resetN : Bool := true
  pll : Bool := false
  warn : Bool := false
  ov : Bool := false
  ovLong : Bool := false
  reversed : Bool := false
  falling : Bool := false
  dipped : Bool := false
  pump : Bool := false
  pwrEn : BitVec 6 := 0
  seqStep : Nat := 0
  seqActive : Bool := false
  seqDone : Bool := false
  retries : Nat := 0
  retryWait : Bool := false
  vbus : Rat := 0
  warnV : Rat := 84/10
  warnSet : Bool := false
  tw : Bool := false
deriving DecidableEq, Repr

/-- The SPI window and the mailboxes (R84 to R103). -/
structure Spi where
  mem : Memory := []
  reqBusy : BitVec 4 := 0
  rspReady : BitVec 4 := 0
  posted : List Nat := []
  held : List (Nat × List Byte) := []
  udpFrom : List (Nat × Nat × Nat) := []
  lastUdp : Option (Nat × Nat) := none
  irqStatus : Word := 0
  irqMask : Word := 0
  irqWait : Word := 0
  emute : Bool := false
  silent : Bool := false
  mutePin : Bool := false
  errCount : Nat := 0
  sdo : List Byte := []
deriving DecidableEq, Repr

/-- The banks and the commit machinery (R123 to R136): `active` is the set in force of each unit, `whole` the active bank as the last
completed commit or the boot left it (R134, R365). -/
structure Cfg where
  active : Bank := {}
  whole : Bank := {}
  pending : Bank := {}
  target : Bank := {}
  commit : Option Commit := none
  ticket : Nat := 0
  storePending : Option Nat := none
  xfadeMax : Nat := 0
deriving DecidableEq, Repr

/-- The event queue, the log buffer, the events that wait for the Keeper (R30, R36) and the holds (R105, R396, R397,
R442). `overflow` marks the codes and instances whose crossing has saturated (R30), `flushing` counts the first records of the buffer that are
on their way to the flash: each leaves the buffer once it stands there (R397). -/
structure Log where
  queue : List Record := []
  nextSeq : Nat := 0
  buffer : List Record := []
  lostBefore : Bool := false
  flushing : Nat := 0
  flushedSeq : Nat := 0
  waiting : List (Nat × Nat × List Word) := []
  overflow : List (Nat × Nat) := []
  holds : List HoldTimer := []
deriving DecidableEq, Repr

/-- A firmware bank of the flash: its bytes as programmed from offset 0, without the commit byte (Table 15.4). -/
structure FwBank where
  commit : Byte := 0xFF
  bytes : List Byte := []
deriving DecidableEq, Repr

/-- A configuration bank of the flash (R389): `commit` is 0xA5 when valid. -/
structure CfgBank where
  commit : Byte := 0xFF
  seq : Word := 0
  epoch : Word := 0
  bank : Bank := {}
deriving DecidableEq, Repr

/-- The newest lifetime snapshot that is complete (R399), with the lists of the retired sectors of both regions. -/
structure Snap where
  number : Nat := 0
  life : SMap Word := []
  retiredLog : List Nat := []
  retiredLife : List Nat := []
deriving DecidableEq, Repr

/-- A circular record region (R394): slots programmed so far from the write pointer backward, newest first; `erases` holds the erase count
of each sector that was ever erased (R403). -/
structure Region where
  slots : List (Nat × Slot) := []
  failsHere : Nat := 0
  retired : List Nat := []
  writeSlot : Nat := 0
  erases : List (Nat × Nat) := []
  nextSeq : Nat := 0
deriving DecidableEq, Repr

/-- Evaluations, baselines and the re-planned margin of one quantity and instance (R400 to R402). `caps` and `capBase` are those of the
filter capacitance of quantity 3, `last` the last evaluation as it is judged. -/
structure Age where
  evals : List Rat := []
  baseline : Rat := 0
  caps : List Rat := []
  capBase : Rat := 0
  last : Rat := 0
  margin : Rat := 0
  replanned : Bool := false
  flag : Bool := false
  advised : Bool := false
  inside : Nat := 0
  pendingSecond : Option Rat := none
deriving DecidableEq, Repr

/-- The flash store, lifetime records and ageing (R388 to R403). `ageWas` is the ageing as the flash holds it (R401), `bankErases` the erase counts
of firmware banks A and B and configuration banks A and B, `checkpoint` the increments of the newest checkpoint since the newest snapshot
(R399). -/
structure Store where
  flashMb : Nat := 64
  fwA : FwBank := {}
  fwB : FwBank := {}
  cfgA : CfgBank := {}
  cfgB : CfgBank := {}
  factoryValid : Bool := true
  log : Region := {}
  lifeRegion : Region := {}
  lifeOut : List Record := []
  snap : Option Snap := none
  snapNext : Option Snap := none
  checkpoint : List Word := []
  snapNumber : Nat := 0
  snapAge : Nat := 0
  life : SMap Word := []
  age : List (Nat × Nat × Age) := []
  ageWas : List (Nat × Nat × Age) := []
  bankErases : List Nat := [0, 0, 0, 0]
  lastPending : Bool := false
  updLen : Nat := 0
  updSeq : Word := 0
  updGot : Nat := 0
  updBankB : Bool := false
deriving DecidableEq, Repr

/-- A network port: 0 NA, 1 NB, 2 NM (R137 to R142, R160). `v1Till` and `v2Till` are the Keeper counter values up to which an IGMPv1 or IGMPv2
querier counts as present, `queries` the queries that came and `reportHeld` the state changes to report while the Keeper was halted; `ring` the descriptors that belong to the Keeper, with
their buffers in `ringBytes`. -/
structure Port where
  up : Bool := false
  present : Bool := true
  txdis : Bool := false
  state : Nat := 0
  audio : List (List Byte × Nat) := []
  keep : List (List Byte) := []
  time : List (List Byte × Nat) := []
  groups : List Nat := []
  reportDue : List (Nat × Bool) := []
  v1Till : Nat := 0
  v2Till : Nat := 0
  queries : List (Nat × Nat) := []
  reportHeld : List (Nat × Bool) := []
  ringNext : Nat := 0
  ring : List (Nat × Word) := []
  ringBytes : List (Nat × List Byte) := []
  pathDelay : Rat := 0
  delaySeq : Nat := 0
deriving DecidableEq, Repr

/-- A foreign master heard on a port (R160), with the times in ns of its Announces, newest first. -/
structure Master where
  port : Nat
  announce : Announce
  heard : List Nat
deriving DecidableEq, Repr

/-- The PTP servo (R160 to R162). `last` is the correction at the last lock or loss, `since` the time of the first of an unbroken run of
measurements below 250 ns, `syncAt` and `syncLog` the last Sync of the master in use, `listenAt` the sample count at the entry to LISTENING and
`noMaster` that 0x3001 was raised since; `clock` is the latest time of a message in ns. -/
structure Ptp where
  state : PtpState := .disabled
  port : Nat := 2
  gm : Nat := 0
  masters : List Master := []
  offset : Rat := 0
  freq : Rat := 0
  lockedOnce : Bool := false
  below : Nat := 0
  above : Nat := 0
  first : Bool := false
  gmChanged : Bool := false
  far : Nat := 0
  timeNs : Nat := 0
  last : Rat := 0
  since : Option Nat := none
  syncAt : Nat := 0
  syncLog : Int := 0
  listenAt : Nat := 0
  noMaster : Bool := false
  clock : Nat := 0
deriving DecidableEq, Repr

/-- One placed packet of a stream's window: the placed index of its first sample, the step between samples and the
samples by channel (R145, R153). -/
structure Placed where
  idx : Nat
  step : Nat
  frames : List (List Int)
deriving DecidableEq, Repr

/-- Sequence numbers of one side: the first, the highest and those received among the last 64 (R149, Table 6.13). -/
structure SeqSide where
  base : Nat
  hi : Nat
  got : List Nat
deriving DecidableEq, Repr

/-- A remembered packet: extended sequence number, SSRC, timestamp, length, side and completion (R149 to R151). -/
structure Copy where
  ext : Nat
  ssrc : Nat
  ts : Nat
  len : Nat
  side : Nat
  tick : Nat
deriving DecidableEq, Repr

/-- One stream (R145 to R157). `fadeFrom` is the play index at which a fade of 32 samples began, `last` the values that it fades from
unless it fades real data (`fadeReal`, under the ramp `fadeRamp`), `rampFrom` the play index of a ramp, `arrivalBase` the offset of arrival placement, `overrun` the excess
samples; `skews` and `margins` hold the path skews and, negated, the margins of the last second that no later one passes, with their MEDIA
ticks; `lastOn` and `since` are the ticks of each side's last packet on time and of the start of its unbroken delivery (R152). -/
structure Stream where
  state : StreamState := .disabled
  ssrc : Option Nat := none
  lastSeq : Option Nat := none
  seen : List Copy := []
  sides : List (Option SeqSide) := [none, none]
  placed : List Placed := []
  arrival : Bool := true
  arrivalBase : Option Int := none
  good : Nat := 0
  last : List Int := []
  fadeFrom : Option Nat := none
  fadeReal : Bool := false
  fadeRamp : Option Nat := none
  rampFrom : Option Nat := none
  skews : List (Nat × Rat) := []
  skewRaised : Bool := false
  lostA : Bool := false
  lostB : Bool := false
  lastOn : List Nat := [0, 0]
  since : List Nat := [0, 0]
  margins : List (Nat × Rat) := []
  overrun : Option Nat := none
deriving DecidableEq, Repr

/-- One monitor stream (R158, R159). -/
structure Mon where
  seq : Nat := 0
  next : Option Nat := none
deriving DecidableEq, Repr

/-- One fault injector (R410, R411): streams by 2·s + side, 64 the Fikezo link. -/
structure Injector where
  action : Nat := 0
  mode : Nat := 0
  ppm : Nat := 0
  left : Nat := 0
  lfsr : Nat := 0
  heldPkt : Option (List Byte × Nat) := none
deriving DecidableEq, Repr

/-- One TDM port (R169 to R191). `stable` are the consecutive stable frames of the windows that passed, `run` those at the end of the window
in progress, `broken` that an error came before them in it, `winLen` its frames. `alive`: a frame has completed since the port was enabled
or lost its clock, the last at MEDIA tick `lastTick`. `base` is the index a of frame 0, `frame` the frames since, `samples` the placed frames,
`drops` those that found the FIFO full (R32). A fade begins at `fadeFrom`, over received data or from `fadeLast`, under the ramp `fadeRamp`;
`fadeSet` is the set that a commit replaced while it plays out (rate below 96 kHz, pool_base, slots; R190). `err` is the phase error of the
last frame in MEDIA ticks, `cause` the rank of the cause that faded the port (R187);
`judge` is the last frame of a rate window, its tick and whether it was placed: it is judged once the window has been (R187). -/
structure Tdm where
  state : TdmState := .disabled
  stable : Nat := 0
  run : Nat := 0
  broken : Bool := false
  winLen : Nat := 0
  alive : Bool := false
  lastTick : Nat := 0
  base : Option Nat := none
  frame : Nat := 0
  errs : Nat := 0
  samples : List Placed := []
  drops : Nat := 0
  prev : List Int := []
  fadeFrom : Option Nat := none
  fadeLast : Option (List Int) := none
  fadeRamp : Option Nat := none
  fadeSet : Option (Bool × Nat × Nat) := none
  rampFrom : Option Nat := none
  err : Rat := 0
  rate : Rat := 0
  cause : Nat := 0
  judge : Option (Nat × Bool) := none
deriving DecidableEq, Repr

/-- The media clock (R175 to R182). `samples` counts the sample periods of the media PLL since its lock: the time of the hardware paths,
which no halt of the Keeper stops (R35). -/
structure Media where
  locked : Bool := false
  index : Nat := 0
  state : MclkState := .free
  source : Nat := 0
  steer : Rat := 0
  iTerm : Rat := 0
  err : Rat := 0
  errSum : Rat := 0
  errN : Nat := 0
  below4 : Nat := 0
  above256 : Nat := 0
  above983 : Nat := 0
  holdoverUs : Nat := 0
  alarmed : Bool := false
  clampUs : Nat := 0
  clampRaised : Bool := false
  stepDue : Bool := false
  stepB0 : Option Nat := none
  stepFrom : Nat := 0
  halted : Bool := false
  pair : Option (Nat × Nat) := none
  samples : Nat := 0
deriving DecidableEq, Repr

/-- One direct-form biquad section with its error feedback (R196). -/
structure Bq where
  x1 : Int := 0
  x2 : Int := 0
  y1 : Int := 0
  y2 : Int := 0
  err : Int := 0
deriving DecidableEq, Repr

/-- The signal states of stages 1 to 5 of one set (R194 to R197): section states, and the stage-2 outputs and stage-3 outputs kept as
delay line and FIR history, newest first. -/
structure Path where
  inSt : List Bq := []
  drvSt : List Bq := []
  bulk : List Int := []
  hist : List Int := []
deriving DecidableEq, Repr

/-- A crossfade of R132: the old blocks, the states of the old path and the samples done. -/
structure XFade where
  mix : List Byte
  inBq : List Byte
  fir : List Byte
  drvBq : List Byte
  firOn : Bool
  path : Path
  i : Nat
deriving DecidableEq, Repr

/-- The signal states of a channel (R194 to R210). `look` holds the values of u that stage 9 has not finalised and `fin` the finalised
values that have not been played, in play order (Q9.31), with the pilot in each value of `look` in `pilots` and the finalised values less
their pilot in `less`, each with the V_top it was finalised under in `finTop`; `y` the last 16 samples written to MOD and `yOld` the 8 before
them, as fractions of V_top with that V_top (R246); `polTo` the sign that a polarity ramp takes after 0 (R198), `ran` that the channel was in RUN
in the last window (R210);
`steer` the read positions with their weights, `steerTo` the position of a running crossfade. -/
structure Dsp where
  path : Path := {}
  look : List Int := []
  pilots : List Int := []
  fin : List Int := []
  finTop : List Rat := []
  less : List Rat := []
  g : Rat := 1
  gain : Ramp := ⟨1, 1, 0, 0⟩
  pol : Ramp := ⟨1, 1, 0, 0⟩
  polTo : Option Rat := none
  mute : Ramp := ⟨1, 1, 0, 0⟩
  testMute : Ramp := ⟨1, 1, 0, 0⟩
  fade : Ramp := ⟨0, 0, 0, 0⟩
  e : Ramp := ⟨1, 1, 0, 0⟩
  steer : List (Nat × Rat) := [(0, 1)]
  steerTo : Option Nat := none
  steerI : Nat := 0
  steerHeld : Option Nat := none
  xf : Option XFade := none
  tap : Option Nat := some 0
  grRail : Bool := false
  peakY : Rat := 0
  grMin : Rat := 1
  y : List (Rat × Rat) := []
  yOld : List (Rat × Rat) := []
  quiet : Nat := 0
  ran : Bool := false
deriving DecidableEq, Repr

/-- A stored model record (R234). -/
structure ModelRec where
  re25 : Rat
  bl0 : Rat
  fs : Rat
  qms : Rat
  identOk : Bool
  tv : Rat
  tm : Rat
  timeUs : Nat
  por : Bool
  ptpNs : Option Nat
  dts : List Nat
  flags : Nat
deriving DecidableEq, Repr

/-- The loudspeaker models of a channel (R217 to R243). `record` is the newest model record, `recordWas` the newest that the flash holds (R234,
R399); `clampSet` the identified parameters that CLAMPED reports, `reAt` the sample clock at the last valid window (R229, R233). -/
structure Model where
  runs : Bool := false
  seed : Nat := 0
  tv : Rat := 0
  tm : Rat := 0
  reMeas : Rat := 0
  re25 : Rat := 0
  reWin : List Rat := []
  reConv : Bool := false
  reAt : Nat := 0
  reStale : Bool := false
  hotSeed : Bool := false
  coldDue : Bool := false
  seedTv : Rat := 0
  bl0 : Rat := 0
  fs : Rat := 0
  qms : Rat := 0
  kms0 : Rat := 0
  rms : Rat := 0
  idWin : List (Rat × Rat × Rat) := []
  idConv : Bool := false
  identOk : Bool := false
  clamped : Bool := false
  clampSet : List Nat := []
  x : Rat := 0
  v : Rat := 0
  i : Rat := 0
  fromRest : Bool := false
  rHeld : Rat := 1
  holdCnt : Nat := 0
  rThDb : Rat := 0
  coilEp : Bool := false
  magEp : Bool := false
  overEp : Bool := false
  xPeak : Rat := 0
  rExcMin : Rat := 1
  openWin : Nat := 0
  diffWin : Nat := 0
  record : Option ModelRec := none
  recordWas : Option ModelRec := none
  reseedUntil : Nat := 0
  xmaxSec : Bool := false
  coilSec : Bool := false
deriving DecidableEq, Repr

/-- The channel state machine, its diagnostics and its faults (R262 to R328, R405). `swAt` is the sample clock at the last block in which the
bridge switched (R310), `calAt` that of the last calibration (R405); `calTo` the sample clock up to
which it marks the sense pairs invalid; `cellConducts` and `cellCaps` are what the last cell check found (R303): the switches that conduct and
the open capacitors. -/
structure Fsm where
  state : ChanState := .off
  bridge : Bridge := .open
  stop : StopPhase := .none
  zeroBlocks : Nat := 0
  code : Nat := 0
  diagStep : Nat := 0
  calDone : Bool := false
  diagPassed : BitVec 7 := 0
  diagR : Rat := 0
  polRepeat : Bool := false
  swapOn : Bool := false
  swapV : Bool := false
  swapI : Bool := false
  foundV : Bool := false
  foundI : Bool := false
  relayOn : Bool := false
  relayWant : Bool := false
  coilLatched : Nat := 0
  coilRead : Rat := 0
  voltageOnly : Bool := false
  openLoad : Bool := false
  tauOk : Bool := false
  trimOk : Bool := false
  fcOk : Bool := false
  admitted : Bool := false
  restart : Bool := false
  shorts : List Nat := []
  failCode : Nat := 0
  failData : List Word := []
  cellFallback : Bool := false
  cellClear : Bool := false
  feedStarved : Bool := false
  vOff : Int := 0
  iOff : Int := 0
  calAt : Nat := 0
  calTo : Nat := 0
  energyJ : Rat := 0
  holdTest : Bool := false
  swAt : Nat := 0
  cellConducts : Nat := 0
  cellCaps : Nat := 0
deriving DecidableEq, Repr

/-- The loop, dead times and limits of a channel (R245 to R261, R288, R293). `cycOld` holds the fields 0x011 to 0x014 that stay in force
until the first cycle from media index `cycFrom` on (R116); `mIdxAt` is the sample clock at the first write of a new m_idx (R401). `dead` are
the dead times in force, `adapted` the last adapted ones, which fixed mode and a commit leave alone (R256, R275), `stored` those that the Keeper
stored, `ceils` the re-planned ceilings by edge in ns; `marginDue` are re-planned margins that wait for the next cycle: key 1 the current limit,
2 and the edge a ceiling (R34, R401). The loop
of an S-channel has its integrator `integ` and the comparator window `window` without spread, both in V·s; `atBound` holds the integrator
from a trip to the next edge (R260), `clipN` is the last sample clipped, `releaseDue` a reverse state that ends at the next boundary tick
(R293). -/
structure Loop where
  lfsr : Nat := 0
  spread : Rat := 0
  dead : List Nat := []
  adapted : List Nat := []
  stored : List Nat := []
  ceils : List (Nat × Nat) := []
  marginDue : List (Nat × Option Rat) := []
  tauNs : Rat := 0
  tauStored : Option Rat := none
  align : Nat := 0
  fswIdle : Rat := 0
  reverse : Bool := false
  limRun : Nat := 0
  limTotal : Nat := 0
  ilim : Option Rat := none
  ron : Option Rat := none
  highA : Bool := false
  mIdxDsp : Rat := 92/100
  mIdxClamp : Rat := 92/100
  cycOld : Option (List Word) := none
  cycFrom : Nat := 0
  mIdxAt : Nat := 0
  integ : Rat := 0
  window : Rat := 0
  atBound : Bool := false
  clipN : Option Nat := none
  releaseDue : Bool := false
deriving DecidableEq, Repr

/-- The partner's estimate of a channel's models, as its model entries carry it (Table 14.3, R240). -/
structure Shadow where
  tv : Rat
  tm : Rat
  re : Rat
  bl0 : Rat
  fs : Rat
  qms : Rat
  flags : Nat
deriving DecidableEq, Repr

/-- A channel's twin state (R371 to R377): the partner's flags and recent currents by media index, the own recent currents, the share
correction, and the joining. `corrs` is the PEER-to-MOD FIFO: corrections by the media index they apply to, `corrDrops` those that found it full
(R32, R372); `toPeer` and `peerDrops` are the same of the MOD-to-PEER FIFO. `markAt` is the first media index of the join mark, with the sums over its central 2 ms (R375), `imbRun` and `imbPeak` the samples in
a row with |Δ| above 20 % of full scale and their peak (R377), `releasedAt` the sample clock at the release. -/
structure Share where
  partnerDrives : Bool := false
  partnerState : Nat := 0
  partnerJoin : Bool := false
  partnerMark : Bool := false
  partnerI : List (Nat × Int) := []
  ownI : List (Nat × Int) := []
  integral : Rat := 0
  corr : Rat := 0
  corrs : List (Nat × Rat) := []
  corrDrops : Nat := 0
  toPeer : List (Nat × Int) := []
  peerDrops : Nat := 0
  delta : Rat := 0
  deltaSq : Rat := 0
  deltaN : Nat := 0
  joinReq : Bool := false
  mark : Nat := 0
  joined : Bool := false
  mIdxPartner : Rat := 92/100
  voPartner : Bool := false
  shadow : Option Shadow := none
  shadowAt : Nat := 0
  releasedAt : Nat := 0
  markAt : Option Nat := none
  vOwnSum : Rat := 0
  iOwnSum : Rat := 0
  vStSum : Rat := 0
  nOwn : Nat := 0
  nSt : Nat := 0
  imbRun : Nat := 0
  imbPeak : Rat := 0
deriving DecidableEq, Repr

/-- The pilot window in progress (R228, R232, R318, R319): `age` the blocks since the entry to RUN, up to 3, after which the sense pairs are of
RUN; `n` the samples gathered; whether the pilot was on, every pair valid and every partner's current there; the peak measured |x| in mm; the
sums of squares of voltage, load current, difference from and predicted current; and the state of that prediction. -/
structure PilotWin where
  age : Nat := 0
  n : Nat := 0
  pilot : Bool := true
  valid : Bool := true
  partner : Bool := true
  xMm : Rat := 0
  v2 : Rat := 0
  i2 : Rat := 0
  d2 : Rat := 0
  p2 : Rat := 0
  x : Rat := 0
  v : Rat := 0
  i : Rat := 0
deriving DecidableEq, Repr

/-- One channel. `sense` holds its last sense pairs (media index, voltage and current codes, 0 and 0 where invalid), newest first (R158, R211). -/
structure Chan where
  fsm : Fsm := {}
  loop : Loop := {}
  dsp : Dsp := {}
  model : Model := {}
  share : Share := {}
  sense : List (Nat × Int × Int) := []
  win : PilotWin := {}
deriving DecidableEq, Repr

/-- One drive-and-sense die (R76, R321 to R323). `ntcBad` and `ntcMs` are the kind and the count of the last run of readings of one kind (0 in
range, 1 open, 2 short), `ntcWas` the failure that was declared; `hotMs` counts the readings with T_zone at the shutdown level. -/
structure Dsd where
  released : Bool := false
  failed : Bool := false
  linked : Bool := false
  readings : List Rat := []
  onDie : Bool := false
  zoneC : Rat := 0
  sDb : Rat := 0
  sEpisode : Bool := false
  quiet : Nat := 0
  shut : Bool := false
  thetaK : Rat := 0
  gain : Rat := 1
  vdrvOk : Bool := false
  partnerS : Rat := 1
  lineCal : Nat := 0
  ntcBad : Nat := 0
  ntcMs : Nat := 0
  ntcWas : Nat := 0
  hotMs : Nat := 0
deriving DecidableEq, Repr

/-- The cycles of a rail controller's two phases, A before B (R330 to R334, R342, R350 to R352). `vIn` is V_in, `k` the lock corrections,
`trim` the on-time trims, `tOn` the on-times in ns, `emu` the sensed currents that anchor the emulated ones, `idle` the phases whose discharging interval has ended,
`injVt` and `gInj` the reference at which G_inj was set and its value, `outer` the outer integrator, `count` the cycles of phase A, `drawn` those since the
spread was drawn, `fFrom` and `moveUs` the start and the age of a move of f_ref, `slipDeg` the phase offset still to make up, `vPre` the rail
before a start, `softMs` and `retryMs` the `rail.soft_start_ms` and `rail.start_retry_ms` of the start in progress (R119), `stoppedAt` the Keeper counter at a fault stop, `sagOut` a 1 ms average outside ±3 % in this second. -/
structure RailCycle where
  vIn : Rat := 0
  k : List Rat := [0, 0]
  trim : List Rat := [0, 0]
  tOn : List Rat := [0, 0]
  emu : List Rat := [0, 0]
  idle : List Bool := [false, false]
  injVt : Rat := 0
  gInj : Rat := 0
  outer : Rat := 0
  count : Nat := 0
  drawn : Nat := 0
  fFrom : Rat := 0
  moveUs : Rat := 200
  slipDeg : Rat := 0
  vPre : Rat := 0
  softMs : Rat := 10
  retryMs : Nat := 500
  stoppedAt : Nat := 0
  sagOut : Bool := false
deriving DecidableEq, Repr

/-- One rail controller (R329 to R354). `table` holds the setpoints that the RAIL logic works with, `sentTable` those of the selection `sent`
(R338), `vLimDue` is a re-planned V_lim that waits for the next cycle (R34), `ntcWas` the declared failure of the NTC (R349); `test` the check that a RAIL_CHECK comes to, 7 after the last, and `testCode` the first code it found (R406, R407). -/
structure Rail where
  state : RcState := .off
  mode : Nat := 0
  code : Nat := 0
  check : Nat := 0
  attempts : Nat := 0
  retriesLeft : Nat := 0
  cKeepRail : Nat := 7
  cKeepDsp : Nat := 7
  cKeepGoal : Nat := 7
  secondDue : Bool := false
  dFaultRail : Nat := 0
  dFaultDsp : Nat := 0
  dTempRail : Nat := 0
  dTempDsp : Nat := 0
  cEffPartner : Nat := 7
  row : Nat := 0
  sent : Nat := 0
  rows : List Nat := []
  plan : List Rat := []
  target : Rat := 0
  ref : Rat := 0
  rising : Bool := false
  vPlan : Rat := 0
  vRail : Rat := 0
  frozen : Bool := false
  readings : List Rat := []
  onZone : Bool := false
  ntcOn : Bool := false
  ntcBad : Nat := 0
  ntcMs : Nat := 0
  ntcWas : Nat := 0
  tempC : Rat := 0
  aOpen : Bool := false
  aSense : Bool := false
  bOpen : Bool := false
  bSense : Bool := false
  lA : Rat := 0
  lB : Rat := 0
  vLim : Rat := 50
  vLimDue : Option Rat := none
  sagEp : Bool := false
  turnB : Bool := false
  chargingA : Bool := false
  chargingB : Bool := false
  blockedA : Bool := false
  blockedB : Bool := false
  lfsr : Nat := 0
  spread : Rat := 0
  sync : Nat := 0
  tele : List Rat := [0, 0, 0, 0, 0, 0, 0, 0]
  peaks : List (Option Rat) := [none, none, none, none, none]
  stopReq : Bool := false
  restart : Bool := false
  due : Bool := false
  limTotal : Nat := 0
  joules : Rat := 0
  hotMs : Nat := 0
  table : List Rat := []
  sentTable : List Rat := []
  test : Nat := 0
  testCode : Nat := 0
  cyc : RailCycle := {}
deriving DecidableEq, Repr

/-- The registers of one L-channel generator: shadows and active values (Table 11.2), and the feeder's own state. `evtAt` is the COUNT of the
last commutation event of this period, `change` for each cell the code it goes to, the tick at which its gate turns off and the tick at which the
next turns on, `codeAt` the MOD tick at which the code of each cell last changed and `since` that from which it then held its state (R291,
R292); `maskDue` the table waits for the Keeper to rewrite it (R292). -/
structure PwmCh where
  sh : List Word := [0, 0, 0, 0xFFFFFFFF, 0xFFFFFFFF, 0, 0, 0, 0, 0, 0, 0, 0, 0, 0]
  act : List Word := [0, 0, 0, 0xFFFFFFFF, 0xFFFFFFFF, 0, 0, 0, 0, 0, 0, 0, 0, 0, 0]
  ptr : Nat := 0
  step : Bool := false
  carry : List Int := [0, 0, 0, 0, 0, 0]
  trimA : List Int := [0, 0, 0]
  trimB : List Int := [0, 0, 0]
  fc : List Rat := [0, 0, 0, 0]
  iSample : Rat := 0
  legSample : List Rat := [0, 0]
  devRun : List Nat := [0, 0, 0, 0]
  rotA : Nat := 0
  rotB : Nat := 0
  duty : Rat := 1/2
  starve : Ramp := ⟨1/2, 1/2, 0, 0⟩
  evtAt : Option Nat := none
  codeAt : List Nat := [0, 0, 0, 0, 0, 0]
  since : List Nat := [0, 0, 0, 0, 0, 0]
  change : List (Nat × Nat × Nat) := []
  maskDue : Bool := false
deriving DecidableEq, Repr

/-- The PWM block and the trip inputs (R276 to R298, Tables 11.3 and 11.5). `written` holds trip-register writes that wait for the next
boundary tick (R297), `count` the base counter at the last of its events, `tick` the last boundary tick in MOD ticks, 2,048 to a sample,
`periodHeld` a PERIOD captured while an L-channel was running (R283). -/
structure Pwm where
  periodSh : Word := 0x400
  period : Nat := 1024
  armed : BitVec 16 := 0
  periodPend : Bool := false
  ch : Vector PwmCh 16 := Vector.replicate 16 {}
  filt : Word := 0x08080808
  level : Word := 0
  map01 : Word := 0x0FFF0FFF
  map23 : Word := 0x0FFF0FFF
  written : List (Nat × Word) := []
  count : Nat := 0
  tick : Nat := 0
  periodHeld : Bool := false
  latch : BitVec 4 := 0
  asserted : BitVec 4 := 0
  latchSet : List (Nat × Nat × Nat × Nat) := []
deriving DecidableEq, Repr

/-- One side's proposal of an epoch (R367). -/
structure Proposal where
  epoch : Nat
  digest : Nat
  k0 : Option Nat
  state : Nat
  armedBlock : Nat
deriving DecidableEq, Repr

/-- The twin and the beacons (R355 to R382). `partner…` is what the partner's last beacon said; `effShared` the effective mode; `own` and
`theirs` the proposals; `adoptDue`, `adoptGot` and `adoptRaise` the adoption of the partner's model shadow;
`quiet` counts the samples with every channel in OFF and no relay sinking (R369), `goodSince` is the sample clock from which every offset stayed
below 0.5 µs (R378). -/
structure Twin where
  role : Role := .none
  paired : Bool := false
  link : Bool := false
  beaconsOk : Nat := 0
  peerSeen : Bool := false
  netSeen : Bool := false
  peerAt : Nat := 0
  netAt : Nat := 0
  partnerSerial : Nat := 0
  partnerId : Nat := 0
  partnerPaired : Bool := false
  partnerLevel : Nat := 0
  levelOk : Bool := false
  partnerEpoch : Nat := 0
  partnerDigest : Nat := 0
  partnerMode : Nat := 0
  partnerLead : Bool := false
  partnerDev : Nat := 0
  partnerReleased : Bool := false
  partnerPaused : Bool := false
  partnerGm : Nat := 0
  partnerModelDigest : Nat := 0
  epoch : Nat := 0
  common : Nat := 0
  own : Option Proposal := none
  theirs : Option Proposal := none
  paused : Bool := false
  offset : Rat := 0
  t1Last : Nat := 0
  t2Last : Nat := 0
  badDigests : Nat := 0
  adoptDue : Bool := false
  adoptGot : List Nat := []
  adoptRaise : Bool := false
  runBlock : Nat := 0
  runMap : List Nat := []
  theirRunBlock : Nat := 0
  theirRunMap : List Nat := []
  muted : Bool := false
  seqs : List Nat := [0, 0, 0, 0, 0, 0]
  lastSample : Option Nat := none
  effShared : Bool := false
  modelNext : Nat := 0
  modelDigest : Nat := 0
  quiet : Nat := 0
  goodSince : Option Nat := none
deriving DecidableEq, Repr

/-- A requested test (R406 to R408): `code` and `values` of one that runs hold what it has found so far. -/
structure Test where
  ticket : Nat
  id : Nat
  inst : Nat
  arg : Nat
  force : Bool
  state : Nat := 0
  code : Nat := 0
  values : List Byte := []
deriving DecidableEq, Repr

/-- Requested tests and fault injection (R406 to R412). -/
structure Tests where
  next : Nat := 1
  list : List Test := []
  injSeq : Nat := 0
  inj : Vector Injector 65 := Vector.replicate 65 {}
deriving DecidableEq, Repr

/-- What the whole-device rows hold beside the units: the mute line (R312, R313), RSEL (R335), RSYNC (R351), junction
episodes (R384), the frames sent, and the sense pairs that wait while the DSP windows are held, with those that found the FIFO full (R32).
`supplies`, `srefs` and `rings` are the last readings of the supply monitors (VCORE, VDSD, VANA, VIO, VSER09, VSER18, VDRV0 to VDRV3, KREG),
of the reference monitor of each DSD and of the ring oscillators of the DSDs and the CD (Table 15.1). -/
structure Misc where
  muteState : Nat := 0
  rselRail : Nat := 0
  rselDsp : Nat := 0
  rsync : Bool := false
  rsyncHz : Rat := 0
  junctionEp : Bool := false
  junction : List Rat := []
  junctionHot : Bool := false
  sent : List Sent := []
  secondAt : Nat := 0
  lifeAt : Nat := 0
  senseFifo : List SensePair := []
  senseDrops : Nat := 0
  supplies : List Rat := []
  srefs : List Rat := []
  rings : List Rat := []
deriving DecidableEq, Repr

/-- The whole block. `pending` is the queue of waiting commands; `free` counts the free values drawn (the model's own); `regs` holds what was
written to the crossbar targets whose registers the manual lays out nowhere (R385, notes/assumptions/27.md). -/
structure State where
  keeper : Keeper := {}
  power : Power := {}
  spi : Spi := {}
  cfg : Cfg := {}
  log : Log := {}
  store : Store := {}
  counters : SMap Word := []
  status : SMap Word := []
  ports : Vector Port 3 := #v[{ txdis := true }, { txdis := true }, {}]
  ptp : Ptp := {}
  streams : Vector Stream 32 := Vector.replicate 32 {}
  mons : Vector Mon 8 := Vector.replicate 8 {}
  tdms : Vector Tdm 4 := Vector.replicate 4 {}
  media : Media := {}
  chans : Vector Chan 208 := Vector.replicate 208 {}
  dsds : Vector Dsd 4 := Vector.replicate 4 {}
  rails : Vector Rail 12 := Vector.replicate 12 {}
  pwm : Pwm := {}
  twin : Twin := {}
  tests : Tests := {}
  misc : Misc := {}
  sram : Memory := []
  regs : List (Nat × Word) := []
  free : Nat := 0
  pending : List Instr := []
deriving DecidableEq, Repr

/-- The block right after a Keeper-island power-on reset: held in reset with VBUS not yet above the start threshold
(R71, Table 3.4); POWER_ON_RESET is the command that lets it leave. -/
def State.reset : State := {}

end Sys2Proof.Machine
end

