-- ==== Sys2Proof/Machine/Params.lean ====
section
/-! DEFINITION. The parameter space of R113 to R125: classes, fields with type, range and default (Tables 5.1 to 5.6,
6.1, 6.3, 6.7, 7.1, 7.4, 14.1), coefficient blocks (Table 5.2), banks and typed reads of a bank. -/

namespace Sys2Proof.Machine

/-- A parameter type with its range (R114). `mask` is a contiguous netmask (R117), `addr` an address of R435. -/
inductive Kind where
  | u32 (lo hi : Nat)
  | enum (codes : List Nat)
  | bits (mask : Word)
  | f32 (lo hi : Rat)
  | mask
  | addr
deriving DecidableEq, Repr

/-- A field: its type and range, and its factory default. -/
structure Field where
  kind : Kind
  dflt : Word
deriving DecidableEq, Repr

/-- Whether a value is inside a field's range (R114, R435, R436). A printed f32 bound is compared as the binary32 value
nearest to it (notes/assumptions/7.md). -/
def Kind.admits (k : Kind) (w : Word) : Bool :=
  match k with
  | .u32 lo hi => decide (lo ≤ w.toNat) && decide (w.toNat ≤ hi)
  | .enum l => l.contains w.toNat
  | .bits m => (w &&& ~~~m) == 0
  | .f32 lo hi => match f32? w with
    | none => false
    | some x => decide (near32 lo ≤ x) && decide (x ≤ near32 hi)
  | .mask => (~~~w &&& (~~~w + 1)) == 0
  | .addr => w == 0 || (let o := w.toNat / 2 ^ 24; decide (1 ≤ o) && decide (o ≤ 223) && o != 127)

def fBool (d : Nat) : Field := ⟨.enum [0, 1], word d⟩
def fEnum (l : List Nat) (d : Nat) : Field := ⟨.enum l, word d⟩
def fU32 (lo hi d : Nat) : Field := ⟨.u32 lo hi, word d⟩
def fAny (d : Nat) : Field := ⟨.u32 0 0xFFFFFFFF, word d⟩
def fF32 (lo hi d : Rat) : Field := ⟨.f32 lo hi, f32Of d⟩

/-- Table 5.4, class 0x01. -/
def devFields : List Field :=
  [fBool 0, fF32 (84/10) 55 (84/10), fU32 0 86400 0, fU32 1024 65535 30208, fBool 0, fAny 0, ⟨.mask, 0xFFFF0000⟩, fAny 0]
  ++ [fU32 0 250000 0, fBool 1, fAny 0, fF32 70 110 105, fBool 1, fBool 1, fAny 0, fEnum [0, 1, 2] 0]

/-- Table 6.1, class 0x02. -/
def netFields : List Field :=
  [fBool 0, fBool 0, ⟨.addr, 0⟩, ⟨.addr, 0⟩, ⟨.mask, 0xFFFF0000⟩, fU32 0 127 0, fEnum [0, 1, 2] 0, ⟨.bits 0xFF, 0x07⟩]

/-- Table 6.3, class 0x03; the reserved bits of R436. -/
def streamFields : List Field := [⟨.bits 0xFFFFEF7F, 0⟩, fAny 0, fAny 0, fU32 500 4000 1000, fU32 0 1023 0]

/-- Table 6.7, class 0x04; the reserved bits of R436. -/
def monFields : List Field := [⟨.bits 0xFFFFE000, 0⟩, fAny 0]

/-- Table 7.1, class 0x05. -/
def tdmFields : List Field := [⟨.bits 0x9F1F, 0⟩, fEnum [48000, 96000] 48000, fU32 1 16 2, fU32 1024 1087 1024]

/-- Table 7.4, class 0x06. -/
def mclkFields : List Field := [fEnum [0, 1, 2, 3, 4, 5] 0, fU32 0 86400 10, fF32 1 500 500, fEnum [0, 1] 0]

/-- Table 5.5, class 0x07. -/
def railFields : List Field :=
  [fBool 0, fF32 200 800 400, fF32 1 200 40, fF32 0 10 0, fF32 1 100 10, fU32 0 10 2, fU32 100 10000 500, fBool 1]

/-- Table 14.1, class 0x08. -/
def twinFields : List Field := [fEnum [0, 1, 2] 0, fU32 0 250000 0, fU32 24 120000 240, fBool 1]

/-- Table 5.3, class 0x10, for an S-channel or an L-channel (R116). -/
def chanFields (l : Bool) : List Field :=
  [fBool 0, fBool 0, fF32 (-120) 24 0, fBool 0, fU32 0 262143 0, fBool 0, fF32 (-40) (-72/100) (-3), fF32 1 1000 50]
  ++ [fF32 (-60) (-72/100) (-72/100), fF32 (1/2) 50 5, fF32 60 300 180, fF32 40 150 90, fF32 20 200 120, ⟨.bits 7, 7⟩]
  ++ [fU32 0 60 30, fBool 1, if l then fF32 100 250 192 else fF32 350 650 480, if l then fF32 0 0 0 else fF32 0 12 4]
  ++ [fEnum [0, 1] 1, fU32 4 60 20, fF32 10 100 80, fF32 1 32 8, fBool 0, fBool 1, fEnum [0, 1] 0, fBool 1, fBool 1]
  ++ [fEnum [0, 1, 2, 3] 0]

/-- The configuration classes with their instance counts (Table 5.1), in ascending order. -/
def cfgClasses : List (Nat × Nat) :=
  [(0x01, 1), (0x02, 1), (0x03, 32), (0x04, 8), (0x05, 4), (0x06, 1), (0x07, 12), (0x08, 1), (0x10, 208)]

/-- The status classes with their instance and field counts (Table 5.1). -/
def statClasses : List (Nat × Nat × Nat) := [(0x80, 1, 4096), (0x81, 208, 1024), (0x82, 12, 256), (0x83, 1, 768)]

/-- The fields of a configuration class. -/
def classFields (cls inst : Nat) : List Field :=
  match cls with
  | 0x01 => devFields
  | 0x02 => netFields
  | 0x03 => streamFields
  | 0x04 => monFields
  | 0x05 => tdmFields
  | 0x06 => mclkFields
  | 0x07 => railFields
  | 0x08 => twinFields
  | 0x10 => chanFields (decide (192 ≤ inst))
  | _ => []

/-- The ID of R113: class in bits 31:24, instance in 23:12, field in 11:0. -/
def pid (cls inst fld : Nat) : Nat := cls * 0x1000000 + inst * 0x1000 + fld
def idClass (id : Nat) : Nat := id / 0x1000000
def idInst (id : Nat) : Nat := id / 0x1000 % 0x1000
def idField (id : Nat) : Nat := id % 0x1000

/-- The instance count of a class, 0 for a class that Table 5.1 does not list. -/
def instCount (cls : Nat) : Nat :=
  match cfgClasses.find? (·.1 == cls) with
  | some p => p.2
  | none => match statClasses.find? (·.1 == cls) with
    | some p => p.2.1
    | none => if cls = 0x20 then 208 else if cls = 0x21 then 12 else 0

/-- The configuration field that an ID names, none for any other ID (R113). -/
def cfgField (id : Nat) : Option Field :=
  if idInst id < instCount (idClass id) then (classFields (idClass id) (idInst id))[idField id]? else none

/-- Whether an ID is a known status field (R113, R115). -/
def isStat (id : Nat) : Bool :=
  match statClasses.find? (·.1 == idClass id) with
  | some p => decide (idInst id < p.2.1) && decide (idField id < p.2.2)
  | none => false

/-- The size of the block that an ID names (Table 5.2), none for any other ID. -/
def blockSize (id : Nat) : Option Nat :=
  if idInst id < instCount (idClass id) then
    if idClass id = 0x20 then ([68, 244, 4100, 164, 100] : List Nat)[idField id]?
    else if idClass id = 0x21 then ([36] : List Nat)[idField id]? else none
  else none

/-- A block header: format code and count (R121). -/
def blockHead (fmt count : Nat) : List Byte := le 2 fmt ++ le 2 count

/-- The default setpoints of a controller (R125). -/
def defaultSetpoints (rc : Nat) : List Rat :=
  if rc % 3 = 2 then [12, 20, 30, 40, 52, 64, 80, 95] else [12, 20, 28, 36, 44, 52, 64, 80]

/-- The factory default of a block (R125). -/
def blockDefault (id : Nat) : List Byte :=
  if idClass id = 0x21 then blockHead 5 8 ++ (defaultSetpoints (idInst id)).flatMap fun v => le 4 (f32Of v).toNat
  else match idField id with
  | 0 => blockHead 1 0 ++ zeros 64
  | 1 => blockHead 2 0 ++ zeros 240
  | 2 => blockHead 3 1 ++ le 4 0x40000000 ++ zeros 4092
  | 3 => blockHead 2 0 ++ zeros 160
  | _ => blockHead 4 24 ++ zeros 96

def paramDefault (id : Nat) : Word := ((cfgField id).map (·.dflt)).getD 0

/-- A parameter's value in a bank. -/
def Bank.param (b : Bank) (id : Nat) : Word := SMap.get (paramDefault id) id b.params
def Bank.setParam (b : Bank) (id : Nat) (w : Word) : Bank := { b with params := SMap.put (paramDefault id) id w b.params }
/-- A block's bytes in a bank. -/
def Bank.block (b : Bank) (id : Nat) : List Byte := SMap.get (blockDefault id) id b.blocks
def Bank.setBlock (b : Bank) (id : Nat) (l : List Byte) : Bank := { b with blocks := SMap.put (blockDefault id) id l b.blocks }

/-- Every configuration parameter ID, ascending. -/
def allParams : List Nat :=
  cfgClasses.flatMap fun c => (List.range c.2).flatMap fun i =>
    (List.range (classFields c.1 i).length).map fun f => pid c.1 i f

/-- Every coefficient-block ID, ascending. -/
def allBlocks : List Nat :=
  ((List.range 208).flatMap fun c => (List.range 5).map fun f => pid 0x20 c f) ++ (List.range 12).map fun r => pid 0x21 r 0

/-- Typed reads of a bank. -/
def Bank.nat (b : Bank) (cls inst fld : Nat) : Nat := (b.param (pid cls inst fld)).toNat
def Bank.flag (b : Bank) (cls inst fld : Nat) : Bool := b.param (pid cls inst fld) == 1
def Bank.rat (b : Bank) (cls inst fld : Nat) : Rat := f32Val (b.param (pid cls inst fld))

/-! ### Topology (R3) -/

/-- The die of a channel. -/
def dsdOf (c : Nat) : Nat := if c < 192 then c / 48 else (c - 192) / 4
/-- The rail controller that feeds a channel. -/
def rcOf (c : Nat) : Nat := if c < 192 then 3 * (c / 48) + (c % 48) / 24 else 3 * ((c - 192) / 4) + 2
/-- Whether a channel is an L-channel. -/
def isL (c : Nat) : Bool := decide (192 ≤ c)
/-- The channels that a controller feeds. -/
def fedBy (rc : Nat) : List Nat :=
  if rc % 3 = 2 then (List.range 4).map fun i => 192 + 4 * (rc / 3) + i
  else (List.range 24).map fun i => 48 * (rc / 3) + 24 * (rc % 3) + i
/-- The channels of a die. -/
def chansOf (d : Nat) : List Nat := (List.range 48).map (48 * d + ·) ++ (List.range 4).map (192 + 4 * d + ·)

/-- Setpoint entry `row` of a controller in a bank, in volts (R121). -/
def Bank.setpoint (b : Bank) (rc row : Nat) : Rat :=
  f32Val (word (leAt (b.block (pid 0x21 rc 0)) (4 + 4 * row) 4))
/-- V_top of a channel (R200). -/
def Bank.vTop (b : Bank) (c : Nat) : Rat := b.setpoint (rcOf c) 7
def Bank.vLow (b : Bank) (c : Nat) : Rat := b.setpoint (rcOf c) 0

/-! ### Format words (Tables 6.4, 6.8, 7.2) -/

def Bank.streamFmt (b : Bank) (s : Nat) : Nat := b.nat 0x03 s 0
def Bank.streamOn (b : Bank) (s : Nat) : Bool := b.streamFmt s / 0x8000 % 2 == 1
def Bank.streamSides (b : Bank) (s : Nat) : Nat := b.streamFmt s / 0x2000 % 4
def Bank.streamPtime (b : Bank) (s : Nat) : Nat := b.streamFmt s / 0x400 % 4
def Bank.streamHi (b : Bank) (s : Nat) : Bool := b.streamFmt s / 0x200 % 2 == 1
def Bank.streamL24 (b : Bank) (s : Nat) : Bool := b.streamFmt s / 0x100 % 2 == 1
def Bank.streamChans (b : Bank) (s : Nat) : Nat := b.streamFmt s % 0x80
def Bank.streamPort (b : Bank) (s : Nat) : Nat := let p := b.streamFmt s / 0x10000; if p = 0 then 5004 else p
/-- N of R148: 96 kHz samples per packet. -/
def Bank.streamN (b : Bank) (s : Nat) : Nat := if b.streamPtime s = 0 then 12 else 24
/-- Frames per packet at the stream's own rate. -/
def Bank.streamFrames (b : Bank) (s : Nat) : Nat := if b.streamHi s then b.streamN s else b.streamN s / 2
/-- D of R146. -/
def Bank.streamD (b : Bank) (s : Nat) : Nat := if b.streamHi s then 0 else 16
/-- L of R145. -/
def Bank.streamL (b : Bank) (s : Nat) : Nat := b.nat 0x03 s 3 * 96 / 1000
/-- M0 of R157. -/
def Bank.streamM0 (b : Bank) (s : Nat) : Nat := (b.streamL s - b.streamN s - 24 - b.streamD s) / 2
def Bank.streamGroup (b : Bank) (s side : Nat) : Nat := b.nat 0x03 s (1 + side)
def Bank.streamSide (b : Bank) (s side : Nat) : Bool := b.streamSides s / 2 ^ side % 2 == 1

def Bank.monOn (b : Bank) (j : Nat) : Bool := b.nat 0x04 j 0 / 0x8000 % 2 == 1
def Bank.monFirst (b : Bank) (j : Nat) : Nat := b.nat 0x04 j 0 / 0x1000000
def Bank.monCount (b : Bank) (j : Nat) : Nat := b.nat 0x04 j 0 / 0x10000 % 0x100
def Bank.monSides (b : Bank) (j : Nat) : Nat := b.nat 0x04 j 0 / 0x2000 % 4

def Bank.tdmOn (b : Bank) (x : Nat) : Bool := b.nat 0x05 x 0 / 0x8000 % 2 == 1
def Bank.tdmFrameSlots (b : Bank) (x : Nat) : Nat := b.nat 0x05 x 0 / 0x100 % 0x20
def Bank.tdmMode (b : Bank) (x : Nat) : Nat := b.nat 0x05 x 0 % 4
def Bank.tdmSlots (b : Bank) (x : Nat) : Nat := b.nat 0x05 x 2
def Bank.tdmHi (b : Bank) (x : Nat) : Bool := b.nat 0x05 x 1 == 96000

/-- Which port (0 NA, 1 NB) is enabled. -/
def Bank.portOn (b : Bank) (p : Nat) : Bool := if p = 2 then true else b.flag 0x02 0 p
/-- Whether PTP is enabled on a port (R160). -/
def Bank.ptpOn (b : Bank) (p : Nat) : Bool :=
  decide (p < 2) && b.portOn p && (b.nat 0x02 0 6 == 0 || b.nat 0x02 0 6 == p + 1)

/-- The NM address: the configured one, or the link-local one (R118). -/
def Bank.nmAddr (b : Bank) : Nat :=
  if b.nat 0x01 0 5 ≠ 0 then b.nat 0x01 0 5 else
    let fix := fun n => if n = 0 then 1 else if n = 255 then 254 else n
    169 * 2 ^ 24 + 254 * 2 ^ 16 + fix (Config.serial.toNat / 256 % 256) * 256 + fix (Config.serial.toNat % 256)

/-- A unicast address as R435 defines one. -/
def unicast (a : Nat) : Bool := let o := a / 2 ^ 24; decide (1 ≤ o) && decide (o ≤ 223) && o != 127
/-- A multicast address outside 224.0.0.0/24 (R144). -/
def groupAddr (a : Nat) : Bool := decide (224 ≤ a / 2 ^ 24) && decide (a / 2 ^ 24 ≤ 239) && a / 256 != 0xE00000

end Sys2Proof.Machine
end

