-- ==== Sys2Proof/Machine/Flags.lean ====
section
/-! DEFINITION. Codes and bits: event levels (R393), re-testable channel codes (R328), rail codes, IRQ_STATUS bits
(Table 4.7), BOOT_STATUS (Table 4.4) and the other hardware registers (R88). -/

namespace Sys2Proof.Machine

/-- Low values of channel codes that put a channel into FAULT (Table 12.5). -/
def faultLows : List Nat := [1, 2, 3, 4, 5, 6, 7, 8, 9, 0xB, 0xC, 0x10, 0x11, 0x14, 0x15, 0x16, 0x21, 0x30, 0x31, 0x40, 0x41,
  0x42, 0x44]

/-- Low values of re-testable channel codes (Table 12.5). -/
def retestLows : List Nat := [1, 2, 3, 4, 0xC, 0x10, 0x14, 0x16, 0x21, 0x31, 0x41, 0x42]

/-- Codes of level 0 (R393, Table 15.10). -/
def infoCodes : List Nat := [0x2003, 0x3002, 0x300B, 0x4005, 0x4006, 0x500A, 0x600A, 0x5051, 0x7010, 0x8002, 0x8003, 0x8009,
  0x9001, 0x9002, 0x9008, 0x900D]

/-- Rail codes whose table gives a stop or FAULT (Table 13.7). -/
def railStops : List Nat := [0x7001, 0x7002, 0x7003, 0x7004, 0x7005, 0x7008, 0x700A, 0x700C]

/-- The level of an event code (R393). -/
def levelOf (code : Nat) : Nat :=
  let nib := code / 0x1000
  if infoCodes.contains code then 0
  else if nib = 1 then (if code = 0x1002 ∨ code = 0x1008 then 1 else 2)
  else if nib = 5 ∨ nib = 6 then (if faultLows.contains (code % 0x1000) then 2 else 1)
  else if nib = 7 then (if railStops.contains code then 2 else 1)
  else if code = 0x800D ∨ code = 0x9005 ∨ code = 0x900C then 2
  else 1

/-- The code of a channel: nibble 0x5 on an S-channel, 0x6 on an L-channel (R328). -/
def chanCode (c low : Nat) : Nat := (if isL c then 0x6000 else 0x5000) + low

/-- Whether a latched channel code is re-testable (R328, R377). -/
def retestable (code : Nat) : Bool := code == 0x800D || retestLows.contains (code % 0x1000)

/-- Bits of IRQ_STATUS (Table 4.7). -/
def irqEvent : Word := 0x010
def irqCommit : Word := 0x020
def irqFault : Word := 0x040
def irqState : Word := 0x080
def irqStage : Word := 0x100
def irqOverrun : Word := 0x200
def irqSpiErr : Word := 0x400
def irqMuted : Word := 0x800
/-- The bits that wait while the Keeper is halted (R90). -/
def irqKeeper : Word := 0x1FF
/-- The bits whose rise sends an event notice (R103). -/
def irqNotice : Word := 0x1F0

/-- Device-state codes (Table 4.4). -/
def DevState.code : DevState → Nat
  | .boot => 0 | .standby => 1 | .ready => 2 | .run => 3 | .safe => 4 | .update => 5
/-- Channel-state codes (Table 10.7). -/
def ChanState.code : ChanState → Nat
  | .off => 0 | .diag => 1 | .precharge => 2 | .idle => 3 | .run => 4 | .muted => 5 | .fault => 6 | .retest => 7
def StreamState.code : StreamState → Nat
  | .disabled => 0 | .waiting => 1 | .playing => 2 | .faded => 3 | .ramping => 4
def TdmState.code : TdmState → Nat
  | .disabled => 0 | .waiting => 1 | .playing => 2 | .faded => 3 | .ramping => 4 | .rateMismatch => 5
def MclkState.code : MclkState → Nat
  | .free => 0 | .acquire => 1 | .track => 2 | .holdover => 3 | .step => 4
def PtpState.code : PtpState → Nat
  | .disabled => 0 | .listening => 1 | .acquiring => 2 | .locking => 3 | .locked => 4 | .holdover => 5
def RcState.code : RcState → Nat
  | .off => 0 | .check => 1 | .softStart => 2 | .regulating => 3 | .fault => 4 | .retryWait => 5
def Role.code : Role → Nat
  | .none => 0 | .lead => 1 | .follow => 2

def bit (b : Bool) (i : Nat) : Nat := if b then 2 ^ i else 0

/-- BOOT_STATUS (Table 4.4). -/
def bootStatus (k : Keeper) : Word :=
  word (k.dev.code * 2 ^ 24 + k.cause * 2 ^ 20 + k.stage * 2 ^ 16 + bit k.fwBank 15 + bit k.cfgBank 14 + bit k.cfgFactory 13
    + bit k.fwSpi 12 + bit k.strapBoot 6 + bit k.strapTwin 5 + k.strapDrv % 16)

/-- MBX_STATUS (Table 4.6). -/
def mbxStatus (p : Spi) : Word := word (p.rspReady.toNat * 256 + p.reqBusy.toNat)

/-- EMUTE (Table 4.8). -/
def emuteReg (p : Spi) : Word := word (bit p.silent 2 + bit p.mutePin 1 + bit p.emute 0)

/-- IRQ_N is asserted while the AND of IRQ_STATUS and IRQ_MASK is not zero (R91). -/
def irqN (p : Spi) : Bool := (p.irqStatus &&& p.irqMask) != 0

/-- IMG_CTRL (Table 4.10): only IMG_STATE reads. -/
def imgCtrl (k : Keeper) : Word := word (k.imgState * 2 ^ 30)

/-- The register at a window offset as a whole read returns it, without the clearing of an RC field (Table 4.2). -/
def hwReg (s : State) (off : Nat) : Word :=
  match off with
  | 0x00 => 0x02080201
  | 0x04 => Config.serial.setWidth 32
  | 0x08 => (Config.serial >>> 32).setWidth 32
  | 0x0C => bootStatus s.keeper
  | 0x14 => mbxStatus s.spi
  | 0x18 => s.spi.irqStatus
  | 0x1C => s.spi.irqMask
  | 0x20 => emuteReg s.spi
  | 0x24 => word s.spi.errCount
  | 0x28 => s.keeper.heartbeat
  | 0x2C => imgCtrl s.keeper
  | 0x30 => word s.keeper.imgCount
  | _ => 0

/-- Whether the register window answers (R87). -/
def windowLive (s : State) : Bool := s.power.pll && s.power.resetN && !s.power.islandReset

/-- The byte that an SPI read returns at an address (R85, R87, Table 4.1). No rule states what a read of the image port, 0x0C00 to 0x0CFF, returns:
0x00 is the model's choice (notes/assumptions/59.md). -/
def spiByte (s : State) (a : Nat) : Byte :=
  if !windowLive s then 0
  else if a < 0x34 then BitVec.ofNat 8 ((hwReg s (a / 4 * 4)).toNat / 256 ^ (a % 4))
  else if 0x400 ≤ a ∧ a < 0xC00 then SMap.get 0 a s.spi.mem
  else 0

/-! ### Voltages and levels -/

/-- The mute line: MUTE_N after its filter, or EMUTE (R312). -/
def muteLine (s : State) : Bool := s.spi.mutePin || s.spi.emute

/-- Full scale of the current sense in amperes (R422). -/
def iFull (c : Nat) : Rat := if isL c then 50 else 25
/-- Full scale of the voltage sense in volts (R422). -/
def vFull : Rat := 100

/-- A sense code as a physical value. -/
def senseV (code : Int) : Rat := vFull * code / 8388608
def senseI (c : Nat) (code : Int) : Rat := iFull c * code / 8388608

end Sys2Proof.Machine
end

