-- ==== Sys2Proof/Machine/Ops.lean ====
section
/-! DEFINITION. The named operations that the meanings share: units of the state, counters, the event queue, interrupts,
device states, channel stops and faults, rail stops, mailbox answers and free values. -/

namespace Sys2Proof.Machine

/-! ### Units of the state -/

def State.chan (s : State) (c : Nat) : Chan := s.chans[c]?.getD {}
def State.dsd (s : State) (d : Nat) : Dsd := s.dsds[d]?.getD {}
def State.rail (s : State) (r : Nat) : Rail := s.rails[r]?.getD {}
def State.stream (s : State) (i : Nat) : Stream := s.streams[i]?.getD {}
def State.mon (s : State) (j : Nat) : Mon := s.mons[j]?.getD {}
def State.tdm (s : State) (x : Nat) : Tdm := s.tdms[x]?.getD {}
def State.port (s : State) (p : Nat) : Port := s.ports[p]?.getD {}
def State.inj (s : State) (i : Nat) : Injector := s.tests.inj[i]?.getD {}
def State.pwmCh (s : State) (k : Nat) : PwmCh := s.pwm.ch[k]?.getD {}

def State.setChan (s : State) (c : Nat) (v : Chan) : State := { s with chans := s.chans.setIfInBounds c v }
def State.modChan (s : State) (c : Nat) (f : Chan → Chan) : State := s.setChan c (f (s.chan c))
def State.modDsd (s : State) (d : Nat) (f : Dsd → Dsd) : State := { s with dsds := s.dsds.setIfInBounds d (f (s.dsd d)) }
def State.modRail (s : State) (r : Nat) (f : Rail → Rail) : State := { s with rails := s.rails.setIfInBounds r (f (s.rail r)) }
def State.modStream (s : State) (i : Nat) (f : Stream → Stream) : State :=
  { s with streams := s.streams.setIfInBounds i (f (s.stream i)) }
def State.modMon (s : State) (j : Nat) (f : Mon → Mon) : State := { s with mons := s.mons.setIfInBounds j (f (s.mon j)) }
def State.modTdm (s : State) (x : Nat) (f : Tdm → Tdm) : State := { s with tdms := s.tdms.setIfInBounds x (f (s.tdm x)) }
def State.modPort (s : State) (p : Nat) (f : Port → Port) : State := { s with ports := s.ports.setIfInBounds p (f (s.port p)) }
def State.modInj (s : State) (i : Nat) (f : Injector → Injector) : State :=
  { s with tests := { s.tests with inj := s.tests.inj.setIfInBounds i (f (s.inj i)) } }
def State.modPwmCh (s : State) (k : Nat) (f : PwmCh → PwmCh) : State :=
  { s with pwm := { s.pwm with ch := s.pwm.ch.setIfInBounds k (f (s.pwmCh k)) } }
def State.modFsm (s : State) (c : Nat) (f : Fsm → Fsm) : State := s.modChan c fun h => { h with fsm := f h.fsm }
def State.modLoop (s : State) (c : Nat) (f : Loop → Loop) : State := s.modChan c fun h => { h with loop := f h.loop }
def State.modDsp (s : State) (c : Nat) (f : Dsp → Dsp) : State := s.modChan c fun h => { h with dsp := f h.dsp }
def State.modModel (s : State) (c : Nat) (f : Model → Model) : State := s.modChan c fun h => { h with model := f h.model }
def State.modShare (s : State) (c : Nat) (f : Share → Share) : State := s.modChan c fun h => { h with share := f h.share }

/-- Apply `f` for every unit number below `n`. -/
@[irreducible] def forUnits (n : Nat) (f : Nat → State → State) (s : State) : State := (List.range n).foldl (fun s c => f c s) s
@[irreducible] def forList (l : List Nat) (f : Nat → State → State) (s : State) : State := l.foldl (fun s c => f c s) s

/-! ### Configuration in force -/

def State.nat (s : State) (cls inst fld : Nat) : Nat := s.cfg.active.nat cls inst fld
def State.flag (s : State) (cls inst fld : Nat) : Bool := s.cfg.active.flag cls inst fld
def State.ratv (s : State) (cls inst fld : Nat) : Rat := s.cfg.active.rat cls inst fld
/-- `chan.enable` in force. -/
def State.enabled (s : State) (c : Nat) : Bool := s.flag 0x10 c 0
/-- The device is configured SHARED (R371). -/
def State.cfgShared (s : State) : Bool := s.nat 0x08 0 0 == 2

/-! ### Counters (R11) and free values -/

/-- Add `n` to a status counter, stopping at its largest value. -/
def State.count (id n : Nat) (s : State) : State :=
  { s with counters := SMap.put 0 id (word (satAdd 32 (SMap.get 0 id s.counters).toNat n)) s.counters }
/-- Add `n` to a lifetime value (R398). -/
def State.life (id n : Nat) (s : State) : State :=
  { s with store := { s.store with life := SMap.put 0 id (word (satAdd 32 (SMap.get 0 id s.store.life).toNat n)) s.store.life } }
/-- Draw a free value (notes/assumptions/3.md). -/
def State.draw (s : State) : Nat × State := (Config.freeNat s.free, { s with free := s.free + 1 })
def State.drawRat (s : State) : Rat × State := (Config.freeRat s.free, { s with free := s.free + 1 })

/-- An event whose filter takes between `lo` and `hi` units of time: one that lasts `n` units is taken from `hi` on, and below it either may
happen. -/
def State.filtered (lo hi n : Nat) (s : State) : Bool × State :=
  if n < lo then (false, s) else if hi ≤ n then (true, s) else let d := s.draw; (d.1 % 2 == 1, d.2)

def devStat (f : Nat) : Nat := pid 0x80 0 f
def chanStat (c f : Nat) : Nat := pid 0x81 c f
def railStat (r f : Nat) : Nat := pid 0x82 r f
def netStat (f : Nat) : Nat := pid 0x83 0 f

/-! ### Frames, interrupts and events -/

/-- A frame of Table 4.11 with its CRC (R93, R94). -/
def frameBytes (flags cmd seq status : Nat) (payload : List Byte) : List Byte :=
  let head := [1, BitVec.ofNat 8 flags] ++ le 2 cmd ++ le 2 seq ++ le 2 payload.length ++ le 2 status ++ [0, 0]
  head ++ le 4 (crc32 (head ++ payload)).toNat ++ payload

/-- Hand a frame to a transmitter; `tx_frames` counts on a network port (Table 6.13). -/
def State.send (f : Sent) (s : State) : State :=
  let s1 : State := { s with misc := { s.misc with sent := s.misc.sent ++ [f] } }
  if f.port < 3 then s1.count (netStat (0x10 * f.port + 7)) 1 else s1

/-- The event notice that a rise of IRQ_STATUS bits sends (R103). -/
def notice (s : State) (m : Word) : List Sent :=
  match s.spi.lastUdp with
  | none => []
  | some a =>
    if !s.keeper.halted && s.flag 0x01 0 4 && (m &&& ~~~s.spi.irqStatus &&& irqNotice) != 0 then
      let v := s.spi.irqStatus ||| m
      [⟨2, a.1, a.2, [Config.noticeByte 0, 3, 0, 0] ++
        frameBytes (0x80 + (Config.noticeByte 1).toNat % 0x80) 0
          ((Config.noticeByte 2).toNat + 256 * (Config.noticeByte 3).toNat) 0 (le 4 v.toNat)⟩]
    else []

/-- Set bits of IRQ_STATUS; the Keeper's bits wait while it is halted (R90). -/
def irqSpi (halted : Bool) (m : Word) (p : Spi) : Spi :=
  if halted then { p with irqStatus := p.irqStatus ||| (m &&& ~~~irqKeeper), irqWait := p.irqWait ||| (m &&& irqKeeper) }
  else { p with irqStatus := p.irqStatus ||| m }

def State.irq (m : Word) (s : State) : State :=
  (notice s m).foldl (fun s f => s.send f) { s with spi := irqSpi s.keeper.halted m s.spi }

/-- The time of a record (R392): PTP time in LOCKING, LOCKED or HOLDOVER, else the Keeper counter. -/
def recTime (s : State) : Nat × Bool :=
  match s.ptp.state with
  | .locking | .locked | .holdover => (s.ptp.timeNs, false)
  | _ => (s.keeper.counterUs, true)

/-- The log buffer without its newest record of level 0 or 1 (R397). -/
def dropNewestLow : List Record → Option (List Record)
  | [] => none
  | r :: l => match dropNewestLow l with
    | some l' => some (r :: l')
    | none => if r.level < 2 then some l else none

/-- A record into the event queue and, by its level, into the log buffer (R396, R397); with the count of records lost. -/
def logRecord (minLevel : Nat) (r : Record) (l : Log) : Log × Nat :=
  let q := fun (r : Record) => (l.queue ++ [r]).drop (l.queue.length + 1 - 256)
  let next := l.nextSeq + 1
  if r.level < minLevel then ({ l with queue := q r, nextSeq := next }, 0)
  else if l.buffer.length < 4096 then
    let r := { r with lostBefore := l.lostBefore }
    ({ l with queue := q r, nextSeq := next, buffer := l.buffer ++ [r], lostBefore := false }, 0)
  else match (if r.level = 2 then dropNewestLow l.buffer else none) with
    | some b =>
      let r := { r with lostBefore := true }
      ({ l with
          queue := q r, nextSeq := next, buffer := b ++ [r], lostBefore := false
          flushing := if (l.buffer.drop l.flushing).any (fun x => decide (x.level < 2)) then l.flushing else l.flushing - 1 }, 1)
    | none => ({ l with queue := q r, nextSeq := next, lostBefore := true }, 1)

/-- Whether the Keeper forms records now; otherwise events wait in their crossings (R30, R36). -/
def canLog (s : State) : Bool := s.keeper.serving && !s.keeper.halted

/-- Enter a record (R105). -/
def State.enter (code inst : Nat) (data : List Word) (s : State) : State :=
  let r : Record := ⟨(recTime s).1, code, inst, s.log.nextSeq, data, levelOf code, (recTime s).2, false⟩
  let p := logRecord (s.nat 0x01 0 15) r s.log
  let s1 := { s with log := p.1 }
  let s2 := if p.2 = 0 then s1 else s1.count (devStat 0x704) p.2
  s2.irq (if levelOf code = 2 then irqEvent ||| irqFault else irqEvent)

/-- An event enters its crossing: up to 65,535 of one code and instance wait for the Keeper, a further one marks the overflow of the
crossing (R30), which the next take reports. -/
def Log.cross (code inst : Nat) (data : List Word) (l : Log) : Log :=
  if (l.waiting.countP fun e => e.1 == code && e.2.1 == inst) < 65535 then { l with waiting := l.waiting ++ [(code, inst, data)] }
  else { l with overflow := (code, inst) :: l.overflow.filter (· != (code, inst)) }

/-- Raise a code: a record now, or once the Keeper serves again. -/
def State.raise (code inst : Nat) (data : List Word) (s : State) : State :=
  if canLog s then s.enter code inst data else { s with log := s.log.cross code inst data }

/-- Raise everything that waited, in order, and report each crossing that saturated (R30); the code of that report is open
(notes/assumptions/72.md). -/
def State.raiseWaiting (s : State) : State :=
  s.log.overflow.foldl (fun s e => s.enter Config.overflowCode e.2 [word e.1])
    (s.log.waiting.foldl (fun s e => s.enter e.1 e.2.1 e.2.2) { s with log := { s.log with waiting := [], overflow := [] } })

def holdOf? (s : State) (code inst : Nat) : Option HoldTimer := s.log.holds.find? fun h => h.code == code && h.inst == inst

/-- Whether a hold of R442 runs for a code and instance. -/
def held (s : State) (code inst : Nat) : Bool :=
  match holdOf? s code inst with
  | some h => decide (s.keeper.counterUs < h.till)
  | none => false

def setHold (h : HoldTimer) (l : List HoldTimer) : List HoldTimer :=
  h :: l.filter fun g => !(g.code == h.code && g.inst == h.inst)

/-- `n` events of a code that is raised at most once per `len` microseconds (R442). Without a hold the first of them raises a record with
the count of events since the record before it, itself among them, and starts a hold; the others fall in a hold and are left to the next
record. -/
def State.raiseHeld (len code inst n : Nat) (more : List Word) (s : State) : State :=
  let old := ((holdOf? s code inst).map (·.count)).getD 0
  if held s code inst then
    { s with log := { s.log with holds := s.log.holds.map fun h => if h.code == code && h.inst == inst then { h with count := h.count + n } else h } }
  else if n = 0 then s
  else
    (({ s with log := { s.log with holds := setHold ⟨code, inst, s.keeper.counterUs + len, n - 1⟩ s.log.holds } } : State).raise code inst
      (word (satAdd 32 old 1) :: more))

/-- The same where data word 0 has another meaning. -/
def State.raiseHeldAs (len code inst : Nat) (data : List Word) (s : State) : State :=
  if held s code inst then s
  else ({ s with log := { s.log with holds := setHold ⟨code, inst, s.keeper.counterUs + len, 0⟩ s.log.holds } } : State).raise code inst data

def second : Nat := 1000000

/-! ### The Keeper's priorities (R37, Table 1.7) -/

/-- The spreading of a commit over more than one block has a unit for the Keeper to arm (priority 2): one whose restart it has asked for leaves
it free until the stop has come. -/
def spreadWaits (s : State) : Bool :=
  s.cfg.commit.any fun c => c.units.any (fun u => 0 < u.block) && (c.units.find? fun u => !u.armed).any fun u => !u.asked

/-! ### Device state and boot stage -/

/-- STAGE changes (R77), with IRQ_STATUS STAGE. -/
def State.setStage (n : Nat) (s : State) : State :=
  if s.keeper.stage = n then s else ({ s with keeper := { s.keeper with stage := n } } : State).irq irqStage

/-- DEV_STATE changes by an event of Table 3.7 (R78): IRQ_STATUS STATE and a STATE_CHANGE record; a change into BOOT is
recorded at the next stage 0x8 (R105). In RUN the Keeper is to start the controllers (R340). -/
def State.setDev (d : DevState) (ev : Nat) (s : State) : State :=
  let prev := s.keeper.dev
  if prev = d then s else
  if d = .boot then
    ({ s with keeper := { s.keeper with dev := d, bootFrom := match s.keeper.bootFrom with
        | some x => some x
        | none => some (prev, ev, s.keeper.cause) } } : State).irq irqState
  else
    let s1 := ({ s with keeper := { s.keeper with dev := d } } : State).irq irqState
    let s2 := s1.raise 0x900D d.code [word prev.code, word ev, 0]
    if d = .safe then s2.life (devStat 0x80A) 1
    else if d = .run then { s2 with rails := s2.rails.map fun q => { q with due := true } }
    else s2

/-! ### Ramps (R198, R264, R313) -/

/-- The value in force: that of the last sample done. -/
def Ramp.now (r : Ramp) : Rat := if r.n ≤ r.i then r.goal else r.start + (r.goal - r.start) * r.i / r.n
/-- One sample on. -/
def Ramp.step (r : Ramp) : Ramp := if r.i < r.n then { r with i := r.i + 1 } else r
/-- A new straight ramp from the value in force. -/
def Ramp.to (r : Ramp) (goal : Rat) (n : Nat) : Ramp := ⟨r.now, goal, 0, n⟩
def Ramp.done (r : Ramp) : Bool := decide (r.n ≤ r.i)
def Ramp.flat (v : Rat) : Ramp := ⟨v, v, 0, 0⟩

/-! ### Holds of a channel in OFF and FAULT -/

/-- The safe-level code of FAULT_N input i for a channel (Table 11.5): 0 LOW, 1 OPEN, 2 HIGH, 3 acts as LOW. -/
def safeCode (level : Word) (c i : Nat) : Nat :=
  let v := level.toNat / 2 ^ ((if isL c then 8 else 0) + 2 * i) % 4
  if v = 3 then 0 else v

/-- The safe levels of the latches that hold a channel: input, code (R296). A latch keeps the map and levels in force when it was
set (R297). -/
def latchesOn (p : Pwm) (c : Nat) : List (Nat × Nat) :=
  p.latchSet.filterMap fun e =>
    if p.latch.getLsbD e.1 && (e.2.1 / 2 ^ rcOf c) % 2 == 1 then
      some (e.1, if isL c then e.2.2.2 / 4 ^ e.1 % 4 else e.2.2.1 / 4 ^ e.1 % 4)
    else none

/-- The hold that a safe level produces; OPEN wins over LOW, LOW over HIGH (R296); LOW is OPEN in SHARED (R371). -/
def safeBridge (shared : Bool) (l : List (Nat × Nat)) : Option Bridge :=
  if l.isEmpty then none
  else if l.any (·.2 == 1) then some .open
  else if l.any (fun e => e.2 == 0 || e.2 == 3) then some (if shared then .open else .clamp)
  else some .high

/-- The hold of a channel that does not switch (R270, R296, R297, R371). -/
def holdFor (s : State) (c : Nat) : Bridge :=
  if !s.enabled c then .open
  else if !(s.dsd (dsdOf c)).released || !s.power.seqDone then .open
  else match safeBridge s.cfgShared (latchesOn s.pwm c) with
    | some b => b
    | none => if s.cfgShared then .open else .clamp

/-- Whether a channel's bridge is switching: IDLE, RUN and MUTED (R259). -/
def ChanState.switching : ChanState → Bool
  | .idle | .run | .muted => true
  | _ => false

/-! ### Ends of tests (R408) -/

/-- What a forced test prepared is undone when the test ends (R407, R408): the mute multiplier ramps back, if it has not after the calibration;
a stopped controller and its
channels may start again. -/
def undoForce (t : Test) (s : State) : State :=
  if t.id = 3 ∧ !t.force then s.modRail t.inst fun q => { q with test := 0, testCode := 0 }
  else if !t.force then s
  else if t.id = 2 then (if t.values.isEmpty then s.modDsp t.inst fun d => { d with testMute := d.testMute.to 1 1024 } else s)
  else if t.id = 3 then
    (forList (fedBy t.inst) (fun c s => s.modFsm c fun f => { f with holdTest := false }) s).modRail t.inst fun q => { q with
      test := 0, testCode := 0, restart := q.stopReq && s.flag 0x07 t.inst 0 && s.keeper.dev == .run
      due := q.due || (!q.stopReq && s.flag 0x07 t.inst 0 && s.keeper.dev == .run) }
  else s

/-- A test that is not over ends (R406): its result is kept and SELF_TEST_DONE is raised. -/
def endTest (ticket state code : Nat) (values : List Byte) (s : State) : State :=
  match s.tests.list.find? (fun t => t.ticket == ticket && t.state == 0) with
  | none => s
  | some t =>
    (({ undoForce t s with tests := { s.tests with list := s.tests.list.map fun u =>
        if u.ticket == ticket then { u with state := state, code := code, values := values } else u } } : State)).raise 0xA001 t.id
      [word ticket, word state, word code, word t.inst]

/-- Abort the running tests that satisfy a condition. -/
def abortTests (p : Test → Bool) (code : Nat) (s : State) : State :=
  (s.tests.list.filter fun t => t.state == 0 && p t).foldl (fun s t => endTest t.ticket 3 code [] s) s

/-- A test of an ageing quantity from `lo` to `hi` (Table 16.4). -/
def Test.ofQuantity (t : Test) (lo hi : Nat) : Bool := (t.id == 6 || t.id == 7) && decide (lo ≤ t.arg % 256) && decide (t.arg % 256 ≤ hi)
/-- The channel that a test has as its unit. -/
def Test.onChan (t : Test) (c : Nat) : Bool := (t.id == 1 || t.id == 2 || t.ofQuantity 1 3) && t.inst == c
/-- The controller that a test has as its unit. -/
def Test.onRail (t : Test) (r : Nat) : Bool := (t.id == 3 || t.ofQuantity 4 4) && t.inst == r

/-- `sense_flags` (Table 10.7). -/
def senseFlags (f : Fsm) : Nat := bit f.swapV 0 + bit f.swapI 1 + bit f.foundV 2 + bit f.foundI 3

/-- The values of LOAD_DIAG (Table 16.2): an L-channel adds what its cell check found. -/
def diagValues (c : Nat) (f : Fsm) : List Byte :=
  le 4 f.diagPassed.toNat ++ le 4 (f32Of f.diagR).toNat ++ le 4 (senseFlags f) ++ (if isL c then le 4 f.cellConducts ++ le 4 f.cellCaps else [])

/-- A DIAG pass or a re-test of a channel has ended with a code, 0 for a pass: it is the result of a LOAD_DIAG that waits for it (R407). -/
def noteDiag (c code : Nat) (s : State) : State :=
  { s with tests := { s.tests with list := s.tests.list.map fun t =>
      if t.state = 0 ∧ t.id = 1 ∧ t.inst = c ∧ t.values.isEmpty then { t with code := code, values := diagValues c (s.chan c).fsm } else t } }

/-! ### Channel faults and stops -/

/-- The DSP signals of a channel that stops playing: no ramp goes on, y is 0 (R194, R273). -/
def Dsp.stopped (d : Dsp) : Dsp := { d with fade := Ramp.flat 0 }

/-- The Keeper is to rewrite the mask table of an L-channel: at each state transition (R292). -/
def maskDue (c : Nat) (s : State) : State := if isL c then s.modPwmCh (c - 192) fun g => { g with maskDue := true } else s

/-- An IDLE that ends before its trim has converged: what its last millisecond's mean switching frequency was is a free value (R275). -/
def idleEnds (c : Nat) (s : State) : State :=
  if (s.chan c).fsm.state = .idle ∧ !isL c ∧ !(s.chan c).fsm.trimOk then
    let d := s.drawRat
    d.2.modLoop c fun l => { l with fswIdle := absRat d.1 }
  else s

/-- A test that has prepared channel c with FORCE (Table 16.5): a SENSE_CAL before its calibration, a LOAD_DIAG while its silent stop runs, a
RAIL_CHECK while the channels of its controller stop. -/
def preparing (s : State) (c : Nat) (t : Test) : Bool :=
  t.force && ((t.id == 2 && t.inst == c && t.values.isEmpty) || (t.id == 1 && t.inst == c && (s.chan c).fsm.stop != .none) ||
    (t.id == 3 && t.inst == rcOf c && (s.rail (rcOf c)).stopReq))

/-- A join, or the sharing that followed it, is over on this side (R375, R377). -/
def Share.leave (h : Share) : Share := { h with joinReq := false, mark := 0, joined := false }

/-- FAULT begins with a code (R272, R326): the code is latched and raised, the hold applies, the relay is to open. -/
def faultStart (c code : Nat) (data : List Word) (s0 : State) : State :=
  let s := idleEnds c (if (s0.chan c).fsm.state = .diag then noteDiag c code s0 else s0)
  (((maskDue c s).modChan c fun h =>
    { h with
      fsm := { h.fsm with
        state := .fault, bridge := holdFor s c, stop := .none, code := code, relayWant := false, diagStep := 0,
        admitted := false, restart := false }
      loop := { h.loop with reverse := false, limRun := 0 }
      dsp := h.dsp.stopped
      share := h.share.leave }).life (chanStat c 0x183) 1).raise code c data

/-- Enter FAULT with a code; what a test was preparing on the channel is over (R408). -/
def enterFault (c code : Nat) (data : List Word) (s : State) : State :=
  abortTests (preparing s c) 0xA012 (faultStart c code data s)

/-- A cause of FAULT in FAULT or RETEST (R326): it counts as suppressed, replaces a re-testable latched code if it is not re-testable, and ends
the re-test. -/
def faultAgain (c code : Nat) (data : List Word) (s : State) : State :=
  let f := (s.chan c).fsm
  let s1 := s.count (chanStat c 0x10A) 1
  let replace := !retestable code && retestable f.code
  let s2 := (if f.state = .retest then noteDiag c code (maskDue c (s1.life (chanStat c 0x183) 1)) else s1).modFsm c fun g => { g with
    state := .fault, bridge := holdFor s c, stop := .none, diagStep := if f.state = .retest then 0 else g.diagStep, relayWant := if f.state = .retest then false else g.relayWant,
    code := if replace then code else g.code }
  let s3 := if f.state = .retest then s2.modShare c Share.leave else s2
  if retestable code then s3 else s3.raise code c data

/-- A cause of FAULT reaches a channel (R266, R272, R326): a hard stop and FAULT outside OFF, FAULT and RETEST. -/
def hardStop (c code : Nat) (data : List Word) (s : State) : State :=
  let f := (s.chan c).fsm
  if f.state = .off then s
  else if f.state = .fault ∨ f.state = .retest then faultAgain c code data s
  else enterFault c code data s

/-- The link is lost (R359): PEER_LINK_DOWN, and three new valid beacons before it can come up. No role changes (R369); the own mute line counts
alone (R380). -/
def linkDown (s : State) : State :=
  let t : Twin := { s.twin with link := false, beaconsOk := 0 }
  if s.twin.link then
    (({ s with twin := { t with peerSeen := false, muted := false, lastSample := none } } : State).count (devStat 0x60E) 1).raise 0x8001 0 []
  else { s with twin := t }

/-- Ask for a silent stop (R265): SILENT_STOP then begins it. A channel in OFF or FAULT has nothing to stop; a stop in progress goes
on (R273). -/
def requestStop (c : Nat) (restart : Bool) (s : State) : State :=
  s.modFsm c fun f =>
    if f.state = .off ∨ f.state = .fault then { f with restart := f.restart || restart }
    else { f with stop := if f.stop = .none then .requested else f.stop, restart := restart, admitted := false }

/-- The channel is in OFF (R265, R272). A held admission is gone; the models go on (R224). -/
def toOff (c : Nat) (s : State) : State :=
  (maskDue c (idleEnds c s)).modChan c fun h =>
    { h with
      fsm := { h.fsm with state := .off, bridge := holdFor s c, stop := .none, code := 0, relayWant := false, diagStep := 0,
                          admitted := false }
      loop := { h.loop with reverse := false, limRun := 0 }
      dsp := h.dsp.stopped
      share := h.share.leave }

/-- Every channel outside OFF is held in OFF. -/
def allOff (s : State) : State := forUnits 208 (fun c s => if (s.chan c).fsm.state = .off then s else toOff c s) s

/-- The device leaves RUN by STOP or STANDBY: each channel stops silently; a channel in FAULT goes to OFF (R272). -/
def stopChannels (s : State) : State :=
  forUnits 208 (fun c s => if (s.chan c).fsm.state = .fault then toOff c s else requestStop c false s) s

/-- The device enters SAFE (R272): RUN and MUTED fade with the emergency mute and are held when it has ended; DIAG, PRECHARGE,
IDLE and RETEST stop hard; FAULT goes to OFF. -/
def safeChannels (s : State) : State :=
  forUnits 208 (fun c s =>
    match (s.chan c).fsm.state with
    | .run | .muted => s
    | .off => s
    | _ => toOff c s) s

/-- The emergency multiplier of every enabled channel starts to fall (R313). -/
def startFall (s : State) : State :=
  forUnits 208 (fun c s => s.modDsp c fun d => { d with e := d.e.to 0 1024 }) s

/-! ### Rails -/

/-- The controller switches: SOFT_START and REGULATING. -/
def RcState.gatesOn : RcState → Bool
  | .softStart | .regulating => true
  | _ => false

/-- Every channel that a controller feeds is in OFF or FAULT (R345). -/
def fedStopped (s : State) (r : Nat) : Bool :=
  (fedBy r).all fun c => let f := (s.chan c).fsm; f.state == .off || f.state == .fault

/-- A stopped controller's volatile parts. -/
def Rail.stopped (r : Rail) (st : RcState) : Rail :=
  { r with state := st, mode := 0, check := 0, rows := [], chargingA := false, chargingB := false, blockedA := false,
           blockedB := false, sagEp := false, frozen := false, stopReq := false, sent := 0, hotMs := 0
           vLim := r.vLimDue.getD r.vLim, vLimDue := none
           sync := if r.sync = 1 then 2 else if r.sync = 3 then 0 else r.sync
           cyc := { r.cyc with idle := [false, false], moveUs := 200, sagOut := false } }

/-- Codes after which the Keeper retries (R343). -/
def railRetried (code : Nat) : Bool := code == 0x7003 || code == 0x7004 || code == 0x700A

/-- A fault stop (R345, R346, R343): the gates are off, the code is latched and raised, RAIL_LOST follows on each fed channel
outside OFF when the stop is from REGULATING, and the retry policy applies. -/
def railFault (r code : Nat) (data : List Word) (s : State) : State :=
  let was := s.rail r
  let fromReg := was.state == .regulating
  let left := if fromReg then s.nat 0x07 r 5 else was.retriesLeft
  let tries := if fromReg then 0 else was.attempts
  let s1 := s.modRail r fun q => { q.stopped (if railRetried code ∧ 0 < left then .retryWait else .fault) with
    code := code, retriesLeft := left, attempts := tries
    cyc := { (q.stopped .fault).cyc with
      stoppedAt := s.keeper.counterUs, retryMs := if fromReg then s.nat 0x07 r 6 else q.cyc.retryMs } }
  let s2 := s1.raise code r data
  let s3 := if fromReg then forList (fedBy r) (fun c s => hardStop c (chanCode c 0x14) [word r] s) s2 else s2
  abortTests (fun t => t.onRail r && t.force) 0xA012 s3

/-- The controllers turn every gate off (brown-out, SAFE, reset). -/
def railsOff (s : State) : State :=
  forUnits 12 (fun r s => s.modRail r fun q => { q.stopped .off with restart := false, due := false }) s

/-! ### Effective ceilings (R336) -/

def ceilOf (pin keep dFault dTemp : Nat) : Nat := min pin keep - dFault - dTemp

/-- c_eff as the RAIL logic has it. -/
def cEffRail (s : State) (r : Nat) : Nat :=
  let q := s.rail r
  ceilOf s.misc.rselRail q.cKeepRail q.dFaultRail q.dTempRail

/-- c_eff as the DSP has it; in SHARED drive the lower of both sides (Table 14.9) is taken by the channel. -/
def cEffDsp (s : State) (r : Nat) : Nat :=
  let q := s.rail r
  ceilOf s.misc.rselDsp q.cKeepDsp q.dFaultDsp q.dTempDsp

/-- After a change of a RAIL-side term: CEILING_CHANGE on an enabled controller, and the target capped at once (R336, Table 13.7). -/
def ceilingChanged (r old : Nat) (s : State) : State :=
  let q := s.rail r
  let new := cEffRail s r
  if new = old then s else
    let s1 := if q.state = .regulating ∧ new < q.row then
        s.modRail r fun q => { q with row := new, target := q.table.getD new 0 }
      else s
    if s.flag 0x07 r 0 then
      s1.raise 0x7012 r [word new, word s.misc.rselRail, word q.cKeepRail, word (q.dFaultRail + 256 * q.dTempRail)]
    else s1

/-! ### Mailboxes -/

/-- Write a list of bytes into the window memory. -/
def putBytes (a : Nat) (l : List Byte) (m : Memory) : Memory :=
  (l.foldl (fun (p : Nat × Memory) b => (p.1 + 1, SMap.put 0 p.1 b p.2)) (a, m)).2

def getBytes (a n : Nat) (m : Memory) : List Byte := (List.range n).map fun i => SMap.get 0 (a + i) m

def bit4 (i : Nat) : BitVec 4 := BitVec.ofNat 4 (2 ^ i)

/-- A whole response frame stands in RSPi. -/
def putResponse (i : Nat) (frame : List Byte) (s : State) : State :=
  { s with spi := { s.spi with mem := putBytes (0x800 + 0x100 * i) frame s.spi.mem } }

/-- RSPi holds a response for SPI: RSP_READY and IRQ_STATUS RSP are set after the whole frame is there (R98). -/
def deliverSpi (i : Nat) (frame : List Byte) (s : State) : State :=
  let s1 := putResponse i frame s
  ({ s1 with spi := { s1.spi with rspReady := s1.spi.rspReady ||| bit4 i } } : State).irq (word (2 ^ i))

/-- A response to a UDP request goes from RSPi to its source and RSPi is released again (R101), with IRQ_STATUS RSP set by the rise; any
other stands for SPI. -/
def deliver (i : Nat) (frame : List Byte) (s : State) : State :=
  match s.spi.udpFrom.find? (·.1 == i) with
  | some u =>
    let s1 := putResponse i frame s
    (({ s1 with spi := { s1.spi with udpFrom := s1.spi.udpFrom.filter (·.1 != i) } } : State).send
      ⟨2, u.2.1, u.2.2, [BitVec.ofNat 8 i, 2, 0, 0] ++ frame⟩).irq (word (2 ^ i))
  | none => deliverSpi i frame s

/-- The Keeper has finished a command: the response is delivered, or held while RSPi is not released (R98). -/
def answer (i : Nat) (frame : List Byte) (s : State) : State :=
  if (s.spi.rspReady &&& bit4 i) = 0 then deliver i frame s
  else { s with spi := { s.spi with held := s.spi.held ++ [(i, frame)] } }

/-- Take the posted frame of REQi: REQ_BUSY bit i clears (R97). -/
def take (i : Nat) (s : State) : State :=
  { s with spi := { s.spi with posted := s.spi.posted.erase i, reqBusy := s.spi.reqBusy &&& ~~~bit4 i } }

end Sys2Proof.Machine
end

