-- ==== Sys2Proof/Machine/Frame.lean ====
section
/-! DEFINITION. Mailbox frames: layout, checks, device states and responses (R93 to R106, R440, R445). -/

namespace Sys2Proof.Machine

/-- A request frame as the Keeper copies it out of a request mailbox (Table 4.11). -/
structure Req where
  version : Nat
  flags : Nat
  cmd : Nat
  seq : Nat
  len : Nat
  crcOk : Bool
  payload : List Byte
deriving DecidableEq, Repr

/-- The frame in 256 mailbox bytes; the CRC covers min(LENGTH, 240) payload bytes (R95). -/
def parseReq (b : List Byte) : Req :=
  let len := leAt b 6 2
  let p := sub b 16 (min len 240)
  ⟨leAt b 0 1, leAt b 1 1, leAt b 2 2, leAt b 4 2, len, leAt b 12 4 == (crc32 (b.take 12 ++ p)).toNat, p⟩

/-- The frame that stands in REQi. -/
def reqOf (s : State) (i : Nat) : Req := parseReq (getBytes (0x400 + 0x100 * i) 256 s.spi.mem)

/-- Status codes (Table 4.13). -/
def stOk : Nat := 0x0000
def stAccepted : Nat := 0x0001
def errVersion : Nat := 0x0101
def errCrc : Nat := 0x0102
def errLength : Nat := 0x0103
def errCommand : Nat := 0x0104
def errArg : Nat := 0x0105
def errState : Nat := 0x0201
def errBusy : Nat := 0x0202
def errLocked : Nat := 0x0203
def errParamId : Nat := 0x0301
def errRange : Nat := 0x0302
def errReadonly : Nat := 0x0303
def errRefused : Nat := 0x0304
def errDecode : Nat := 0x0401
def errAlign : Nat := 0x0402
def errFlash : Nat := 0x0501

/-- The device states a command is allowed in (Table 4.14); none for an unknown command. -/
def allowedStates (cmd : Nat) : Option (List DevState) :=
  match cmd with
  | 0x01 | 0x02 | 0x13 | 0x21 | 0x23 | 0x30 | 0x40 => some [.standby, .ready, .run, .safe, .update]
  | 0x10 => some [.ready]
  | 0x11 => some [.run]
  | 0x12 | 0x50 | 0x52 => some [.ready, .run]
  | 0x14 | 0x15 | 0x20 | 0x22 | 0x24 | 0x25 | 0x41 | 0x51 => some [.ready, .run, .safe]
  | 0x60 => some [.ready, .update]
  | 0x61 | 0x62 => some [.update]
  | _ => none

/-- Whether LENGTH is that of the command's layout for its count (R106, Table 4.15). -/
def layoutOk (cmd n : Nat) (p : List Byte) : Bool :=
  match cmd with
  | 0x01 | 0x02 | 0x10 | 0x11 | 0x12 | 0x13 | 0x25 => n == 0
  | 0x14 | 0x15 | 0x51 | 0x62 => n == 4
  | 0x30 | 0x40 | 0x60 => n == 8
  | 0x24 => n == 12
  | 0x23 | 0x52 => n == 16
  | 0x20 => decide (4 ≤ n) && n == 4 + 8 * leAt p 0 2
  | 0x21 => decide (4 ≤ n) && n == 4 + 4 * leAt p 2 2
  | 0x41 => decide (8 ≤ n) && n == 8 + 4 * leAt p 4 1
  | 0x22 => decide (12 ≤ n)
  | 0x50 => decide (4 ≤ n)
  | 0x61 => decide (8 ≤ n)
  | _ => true

/-- Steps 1 to 4 of R95: the first status that applies, 0 when none does. -/
def checkFrame (r : Req) : Nat :=
  if r.version ≠ 1 then errVersion
  else if !r.crcOk then errCrc
  else if 240 < r.len ∨ !layoutOk r.cmd r.len r.payload then errLength
  else if allowedStates r.cmd = none then errCommand
  else stOk

/-- A word of the crossbar that the Keeper serves in STANDBY (R445). -/
def islandWord (a : Nat) : Bool :=
  decide (a < 0xC00000) || (decide (0x1000000 ≤ a) && decide (a < 0x1010000)) || (decide (0x22020000 ≤ a) && decide (a < 0x22030000))

/-- A PEEK in STANDBY with a word outside the Keeper-island targets (R445). -/
def peekOutside (r : Req) : Bool :=
  r.cmd == 0x40 && (List.range (leAt r.payload 4 1)).any fun j => !islandWord (leAt r.payload 0 4 + 4 * j)

/-- Steps 1 to 5 of R95. -/
def checkReq (d : DevState) (r : Req) : Nat :=
  if checkFrame r ≠ stOk then checkFrame r
  else if !((allowedStates r.cmd).getD []).contains d then errState
  else if d = .standby ∧ peekOutside r then errState
  else stOk

/-- A frame posted over SPI that wakes the device from STANDBY (R80, R100). -/
def wakeFrame (s : State) (i : Nat) : Bool :=
  let r := reqOf s i
  !(s.spi.udpFrom.any (·.1 == i)) && checkFrame r == stOk && !((allowedStates r.cmd).getD []).contains .standby

/-- A response is held for RSPi (R98). -/
def heldFor (s : State) (i : Nat) : Bool := s.spi.held.any (·.1 == i)

/-- The mailbox whose frame the Keeper takes next (R97): not one whose response is held (R98), and in STANDBY, a wake frame stays posted
(R80). -/
def nextPosted (s : State) : Option Nat :=
  s.spi.posted.find? fun i => !heldFor s i && !(s.keeper.dev == .standby && wakeFrame s i)

/-- Whether the Keeper can take the frame of REQi now (R97, R98, R100, R36): a spread of priority 2 goes first (R37). A frame that came by a
wake pattern waits for READY. -/
def canTake (s : State) (i : Nat) : Bool :=
  s.keeper.serving && !s.keeper.halted && s.keeper.stage == 8 && nextPosted s == some i && !spreadWaits s
    && !(s.keeper.dev == .standby && s.keeper.wakeHeld && s.spi.udpFrom.any (·.1 == i))

/-- Answer a request (R93 to R98): FLAGS bit 7 is set and bits 6:0 echo the request. -/
def reply (i : Nat) (r : Req) (status : Nat) (payload : List Byte) (s : State) : State :=
  answer i (frameBytes (0x80 + r.flags % 0x80) r.cmd r.seq status payload) s

/-- Take and execute the frame of REQi where it carries `cmd`; a frame with an unknown command is answered by any row that takes it
(R95). -/
def serve (i cmd : Nat) (act : Req → State → State) (s : State) : Out State :=
  let r := reqOf s i
  if canTake s i && (r.cmd == cmd || allowedStates r.cmd == none) then
    let st := checkReq s.keeper.dev r
    .next (if st = stOk then act r (take i s) else reply i r st [] (take i s))
  else .next s

/-- A frame that the Keeper can take stands posted (priority 3 of Table 1.7). -/
def mailWaits (s : State) : Bool := (nextPosted s).any fun i => canTake s i

/-- The Keeper is free for an activity of priority 4 or lower (R36, R37): nothing of a higher priority waits. -/
def keeperFree (s : State) : Bool := canLog s && !spreadWaits s && !mailWaits s

/-- A write of 1 to DOORBELL bit i (R97, R99). -/
def ring (i : Nat) (s : State) : State :=
  if (s.spi.reqBusy &&& bit4 i) = 0 then
    { s with spi := { s.spi with reqBusy := s.spi.reqBusy ||| bit4 i, posted := s.spi.posted ++ [i] } }
  else s.irq irqOverrun

/-- The FORCE flag of a request (R95, R406). -/
def Req.force (r : Req) : Bool := r.flags % 2 == 1

end Sys2Proof.Machine
end

