-- ==== Sys2Proof/Machine/ModelOps.lean ====
section
/-! DEFINITION. The loudspeaker model's parameters, curves and seeds (R217 to R226, R235 to R237, R443). -/

namespace Sys2Proof.Machine

/-- Entry `i` of a channel's model block (Table 9.1). -/
def Bank.entry (b : Bank) (c i : Nat) : Rat := f32Val (word (leAt (b.block (pid 0x20 c 4)) (4 + 4 * i) 4))
def State.entry (s : State) (c i : Nat) : Rat := s.cfg.active.entry c i

/-- The ranges of Table 9.1, in entry order. -/
def entryRanges : List (Rat × Rat) :=
  [(1/2, 64), (0, 10), (1/2, 50), (1/2, 1000), (5/100, 100), (5/100, 50)] ++ List.replicate 8 (-1, 1) ++
  [(3/1000, 5/1000), (1/10, 20), (1, 600), (5/100, 10), (60, 14400), (-20, 60), (0, 4), (0, 30), (5, 50), (0, 0)]

/-- A polynomial of R218 at x, relative to its value at rest. -/
def poly (b : Bank) (c first : Nat) (x : Rat) : Rat :=
  1 + x * (b.entry c first + x * (b.entry c (first + 1) + x * (b.entry c (first + 2) + x * b.entry c (first + 3))))

/-- Both polynomials are above 0 from −1.5·xmax to +1.5·xmax, at every 0.01 mm (R217). -/
def polyOk (b : Bank) (c : Nat) : Bool :=
  let lim := 3/2 * b.rat 0x10 c 9
  (List.range ((2 * lim * 100).floor.toNat + 1)).all fun k =>
    let x := -lim + (k : Rat) / 100
    decide (0 < poly b c 6 x) && decide (0 < poly b c 10 x)

/-- The model block passes R217: header, count and entries (R121), ranges and polynomials. -/
def modelBlockOk (b : Bank) (c : Nat) : Bool :=
  let l := b.block (pid 0x20 c 4)
  leAt l 0 2 == 4 && leAt l 2 2 == 24
    && ((List.range 24).all fun i => match f32? (word (leAt l (4 + 4 * i) 4)), entryRanges[i]? with
      | some v, some r => decide (near32 r.1 ≤ v) && decide (v ≤ near32 r.2)
      | _, _ => false)
    && polyOk b c

/-- Bits of `chan.model_enable`. -/
def Bank.modelBit (b : Bank) (c i : Nat) : Bool := b.nat 0x10 c 0xD / 2 ^ i % 2 == 1
/-- A channel is modelled (R217). -/
def Bank.modelled (b : Bank) (c : Nat) : Bool := b.flag 0x10 c 0 && (b.modelBit c 0 || b.modelBit c 1)

/-- fs_nom and Qms_nom (Table 9.1). -/
def fsNom (b : Bank) (c : Nat) : Rat := sqrtR (1000 * b.entry c 4 / (b.entry c 3 / 1000)) / (2 * piR)
def qmsNom (b : Bank) (c : Nat) : Rat := sqrtR (1000 * b.entry c 4 * (b.entry c 3 / 1000)) / b.entry c 5

/-- Kms0 in N/mm and Rms in kg/s from identified values (R233). -/
def kmsOf (b : Bank) (c : Nat) (fs : Rat) : Rat := (2 * piR * fs) * (2 * piR * fs) * (b.entry c 3 / 1000) / 1000
def rmsOf (b : Bank) (c : Nat) (fs qms : Rat) : Rat := (2 * piR) * fs * (b.entry c 3 / 1000) / qms

/-- A model on the nominal values of its block, not yet seeded (R233, R235); with a block that fails R217 nothing runs and all reads 0 (R443).
The stored record stays. -/
def Model.nominal (b : Bank) (c : Nat) (m : Model) : Model :=
  if b.flag 0x10 c 0 && modelBlockOk b c then
    { runs := true, record := m.record, recordWas := m.recordWas
      re25 := b.entry c 0, bl0 := b.entry c 2, fs := fsNom b c, qms := qmsNom b c, kms0 := b.entry c 4, rms := b.entry c 5 }
  else { record := m.record, recordWas := m.recordWas }

/-- The elapsed time in seconds since a model record, where it is known (R236). -/
def elapsed? (s : State) (r : ModelRec) : Option Rat :=
  match r.ptpNs with
  | some t => if (recTime s).2 then none else some (((recTime s).1 : Rat) / 1000000000 - (t : Rat) / 1000000000)
  | none => if r.por then none else some (((s.keeper.counterUs : Rat) - r.timeUs) / 1000000)

/-- The decayed state of R236: T_v and T_m. -/
def decayed (s : State) (c : Nat) (r : ModelRec) (t : Rat) : Rat × Rat :=
  let amb := s.entry c 19
  let tm := amb + (r.tm - amb) * expNeg (t / s.entry c 18)
  (tm + ((r.tv - amb) - (r.tm - amb)) * expNeg (t / s.entry c 16), tm)

/-- The hot-start seed of R237. -/
def hotSeedOf (s : State) (c : Nat) : Rat × Rat :=
  let amb := s.entry c 19
  let h := s.ratv 0x10 c 0xC
  (h, amb + (h - amb) * s.entry c 17 / (s.entry c 15 + s.entry c 17))

/-- The thermal seed by the order of Table 9.3: source, T_v, T_m. -/
def thermalSeed (s : State) (c : Nat) : Nat × Rat × Rat :=
  let h := s.chan c
  let fresh := decide (s.keeper.counterUs ≤ h.share.shadowAt + second)
  match h.share.shadow, fresh with
  | some w, true => (1, w.tv, w.tm)
  | _, _ => match h.model.record with
    | some r => match elapsed? s r with
      | some t => (2, decayed s c r t)
      | none => (3, hotSeedOf s c)
    | none => (3, hotSeedOf s c)

/-- A seeded coil stood within 2 K of the ambient temperature (R231). -/
def coldSeed (s : State) (c : Nat) (tv : Rat) : Bool := decide (absRat (tv - s.entry c 19) ≤ 2)

/-- Seed a channel's models on its first entry to PRECHARGE (R235). -/
def seedModel (c : Nat) (s : State) : State :=
  let h := s.chan c
  if !h.model.runs || h.model.seed != 0 then s else
    let b := s.cfg.active
    let sd := thermalSeed s c
    let ident := b.modelBit c 2
    let m := h.model.nominal b c
    let m1 : Model := match sd.1, h.share.shadow, h.model.record with
      | 1, some w, _ =>
        if ident then { m with re25 := w.re, bl0 := w.bl0, fs := w.fs, qms := w.qms, kms0 := kmsOf b c w.fs, rms := rmsOf b c w.fs w.qms,
                               identOk := w.flags / 4 % 2 == 1 }
        else { m with re25 := w.re }
      | _, _, some r =>
        if ident && r.identOk then
          { m with re25 := r.re25, bl0 := r.bl0, fs := r.fs, qms := r.qms, kms0 := kmsOf b c r.fs, rms := rmsOf b c r.fs r.qms, identOk := true }
        else { m with re25 := r.re25 }
      | _, _, none => m
    s.modModel c fun _ => { m1 with
      seed := sd.1, tv := sd.2.1, tm := sd.2.2, seedTv := sd.2.1, hotSeed := sd.1 == 3
      coldDue := sd.1 != 3 && coldSeed s c sd.2.1
      reseedUntil := s.keeper.counterUs + 30 * second }

/-- The coil temperature is unmeasured (R225). -/
def unmeasured (s : State) (c : Nat) : Bool :=
  let h := s.chan c
  (h.model.hotSeed && !h.model.reConv) || h.model.reStale || !s.flag 0x10 c 0xF || h.fsm.voltageOnly

/-- The curves of Table 9.2, in dB, for a headroom and a knee. -/
def foldCurve (h knee : Rat) : Rat :=
  if knee ≤ h then 0 else if 0 ≤ h then -12 * (knee - h) / knee else if -10 < h then -12 + 14/5 * h else -40

def coilHead (s : State) (c : Nat) : Rat := s.ratv 0x10 c 0xA - (s.chan c).model.tv
def coilCurve (s : State) (c : Nat) : Rat := foldCurve (coilHead s c) (if unmeasured s c then 40 else 20)
def magnetCurve (s : State) (c : Nat) : Rat := foldCurve (s.ratv 0x10 c 0xB - (s.chan c).model.tm) 10

/-! ### The excursion model (R218, R219) -/

/-- The mechanical and electrical constants in SI units that a step of R219 uses. -/
structure ExConst where
  re : Rat
  le : Rat
  mms : Rat
  rms : Rat
  bl0 : Rat
  kms0 : Rat
  lim : Rat
deriving DecidableEq, Repr

/-- The constants of a channel; voltage-only protection takes the coil at 25 °C (R239). -/
def exConst (s : State) (c : Nat) : ExConst :=
  let m := (s.chan c).model
  let reh := if (s.chan c).fsm.voltageOnly then m.re25 else m.re25 * (1 + s.entry c 14 * (m.tv - 25))
  ⟨reh + s.entry c 20, s.entry c 1 / 1000, s.entry c 3 / 1000, m.rms, m.bl0, m.kms0, 3/2 * s.ratv 0x10 c 9⟩

/-- Bl and Kms at x in mm, held within ±1.5·xmax and above a tenth of the value at rest. -/
def blAt (b : Bank) (c : Nat) (k : ExConst) (x : Rat) : Rat := k.bl0 * max (1/10) (poly b c 6 (clampRat (-k.lim) k.lim x))
def kmsAt (b : Bank) (c : Nat) (k : ExConst) (x : Rat) : Rat := k.kms0 * max (1/10) (poly b c 10 (clampRat (-k.lim) k.lim x))

/-- x and v of the model in metres and metres per second, and the current. -/
structure ExState where
  x : Rat
  v : Rat
  i : Rat
deriving DecidableEq, Repr

/-- One sample at 96 kHz: with a current, on the measured path; without, the current follows from the voltage `u`. -/
def exStep (b : Bank) (c : Nat) (k : ExConst) (u : Rat) (sensed : Option Rat) (e : ExState) : ExState :=
  let dt : Rat := 1/96000
  let blx := blAt b c k (1000 * e.x)
  let kx := 1000 * kmsAt b c k (1000 * e.x)
  let i := match sensed with
    | some i => i
    | none => if k.le / k.re < 4 * dt then (u - blx * e.v) / k.re else e.i + dt * (u - k.re * e.i - blx * e.v) / k.le
  let v := e.v + dt * (blx * i - k.rms * e.v - kx * e.x) / k.mms
  ⟨e.x + dt * v, v, i⟩

/-! ### Elapsed time (R224, R180) -/

/-- Both nodes `dt` seconds on with the power `p`. -/
def thermalStep (s : State) (c : Nat) (dt p : Rat) (m : Model) : Model :=
  let rc := s.entry c 15
  let rm := s.entry c 17
  let tv := m.tv + dt * (p - (m.tv - m.tm) / rc) / (s.entry c 16 / rc)
  let tm := m.tm + dt * ((m.tv - m.tm) / rc - (m.tm - s.entry c 19) / rm) / (s.entry c 18 / rm)
  { m with tv := clampRat (-40) 400 tv, tm := clampRat (-40) 400 tm }

/-- `n` samples of silence on the excursion model. -/
def silentSteps (b : Bank) (c : Nat) (k : ExConst) : Nat → ExState → ExState
  | 0, e => e
  | n + 1, e => silentSteps b c k n (exStep b c k 0 none e)

/-- The models of a media step count its wait of `dt` seconds as elapsed time, with zero-valued samples: the nodes over all of it, the
excursion over its whole samples (R180, log entry 59). -/
def modelsWait (dt : Rat) (s : State) : State :=
  forUnits 208 (fun c s =>
    let m := (s.chan c).model
    if m.runs && m.seed != 0 then
      let e := silentSteps s.cfg.active c (exConst s c) (dt * 96000).floor.toNat ⟨m.x, m.v, m.i⟩
      s.modModel c fun m => { thermalStep s c dt 0 m with x := e.x, v := e.v, i := e.i }
    else s) s

end Sys2Proof.Machine
end

