-- ==== Sys2Proof/Machine/PwmOps.lean ====
section
/-! DEFINITION. The generator registers of an L-channel: compares, slots, mask table, switches and levels, and what the Keeper writes to them
(R276 to R284, R291, R292, R300, Tables 11.1 to 11.4). -/

namespace Sys2Proof.Machine

/-- Word indices in a shadow or active list, in the order of Table 11.2; MASKi is word 7 + i. -/
def wTrig01 : Nat := 3
def wPerm : Nat := 5
def wMaskCtrl : Nat := 6
def wMask0 : Nat := 7

/-- The write mask of a word (Table 11.3); STEP is not stored. -/
def wMaskOf (i : Nat) : Word := if i = wPerm then 0x33 else if i = wMaskCtrl then 0x1F07 else if wMask0 ≤ i then 0xFFF else 0xFFFFFFFF

/-- A half of a word: the low one first. -/
def halfOf (l : List Word) (i : Nat) : Nat := (l.getD (i / 2) 0).toNat / (if i % 2 = 0 then 1 else 0x10000) % 0x10000
def setHalf (l : List Word) (i v : Nat) : List Word :=
  let w := (l.getD (i / 2) 0).toNat
  l.set (i / 2) (word (if i % 2 = 0 then w / 0x10000 * 0x10000 + v % 0x10000 else v % 0x10000 * 0x10000 + w % 0x10000))

/-- The compare of cell x, 0 to 5 for A1, A2, A3, B1, B2, B3, and trigger compare j (Table 11.3). -/
def cmpOf (l : List Word) (x : Nat) : Nat := halfOf l x
def trigOf (l : List Word) (j : Nat) : Nat := halfOf l (2 * wTrig01 + j)
/-- The permutation of a leg, 0 A and 1 B (Table 11.1). -/
def permOf (l : List Word) (leg : Nat) : Nat := (l.getD wPerm 0).toNat / (if leg = 0 then 1 else 16) % 4 % 3
/-- LEN_M1 and the EVT bits of MASK_CTRL. -/
def lenM1 (l : List Word) : Nat := (l.getD wMaskCtrl 0).toNat % 8
def evtBit (l : List Word) (b : Nat) : Bool := (l.getD wMaskCtrl 0).getLsbD b

/-- The slot of cell x (1 to 3, as 0 to 2) under a permutation (Table 11.1) and its carrier offset (R277). -/
def slotOf (perm x : Nat) : Nat := (perm + x) % 3
def phaseOf (period j : Nat) : Nat := (roundEven ((j * period : Nat) / 3 : Rat)).toNat

/-- Whether a compare holds its cell in state 1 at a COUNT (R277, R281). -/
def cellState (period slot c count : Nat) : Bool :=
  if c = 0 then false else if period ≤ c then true else decide ((count + period - phaseOf period slot) % period < c)

/-- The MASK pointer after one commutation event (R291). -/
def PwmCh.commute (g : PwmCh) : PwmCh := { g with ptr := (g.ptr + 1) % (lenM1 g.act + 1) }

/-- The L-channel's number. -/
def lOf (c : Nat) : Nat := c - 192

/-- The code of cell x, 0 to 5, in the mask entry in force, MASK[PTR] (R291, Table 11.4). -/
def PwmCh.code (g : PwmCh) (x : Nat) : Nat := (g.act.getD (wMask0 + g.ptr) 0).toNat / 4 ^ x % 4

/-- The upper and the lower switch of a cell, HOx and LOx (R276), under a mask code and the state its compare gives it: state 1 has the upper
one on, state 0 the lower one (Table 11.4). -/
def cellSwitches (code : Nat) (cmp : Bool) : Bool × Bool :=
  match code with
  | 0 => (cmp, !cmp)
  | 1 => (true, false)
  | 2 => (false, true)
  | _ => (false, false)

/-- The leg output with N cells in state 1, which is also what a capacitor with N levels below it holds: N·V_rail/3 (R276). -/
def legVolts (vRail : Rat) (n : Nat) : Rat := n * vRail / 3
/-- The level N of a leg from the switches of its cells. -/
def legLevel (cells : List (Bool × Bool)) : Nat := (cells.filter (·.1)).length

/-- The nominal voltage of flying capacitor i, 0 to 3 for 1A, 2A, 1B, 2B, and what the last fresh sample is off it (R276, R289). -/
def fcDev (s : State) (k i : Nat) : Rat :=
  absRat ((s.pwmCh k).fc.getD i 0 - legVolts (s.rail (rcOf (192 + k))).vRail (if i % 2 = 0 then 2 else 1))
/-- The first capacitor that is more than 3 % off its nominal voltage (R300). -/
def fcOut (s : State) (k : Nat) : Option Nat :=
  (List.range 4).find? fun i =>
    decide (3/100 * legVolts (s.rail (rcOf (192 + k))).vRail (if i % 2 = 0 then 2 else 1) < fcDev s k i)

/-- An L-channel is fed in IDLE, RUN and MUTED (R284). -/
def fed (s : State) (k : Nat) : Bool := (s.chan (192 + k)).fsm.state.switching
/-- `l_mode` (Table 11.7, CH_STATUS): 0 stopped, 1 4-level, 2 2-level fallback. -/
def lMode (s : State) (k : Nat) : Nat := if !fed s k then 0 else if (s.chan (192 + k)).fsm.cellFallback then 2 else 1

/-- Some L-channel is in PRECHARGE, IDLE, RUN or MUTED (R283). -/
def lBusy (s : State) : Bool := (List.range 16).any fun k => (s.chan (192 + k)).fsm.state == .precharge || fed s k

/-- LOAD_ALL is captured (R283): a PERIOD that it captures while an L-channel runs waits until none does. -/
def loadAll (v : Word) (s : State) : State :=
  { s with pwm := { s.pwm with
      armed := s.pwm.armed ||| v.setWidth 16, periodPend := s.pwm.periodPend || v.getLsbD 16
      periodHeld := if v.getLsbD 16 then lBusy s && (!s.pwm.periodPend || s.pwm.periodHeld) else s.pwm.periodHeld } }

/-- A mask table in the shadows, with LOAD_ALL (R280, R292). In play it has one entry, under which every cell follows its compare, also in the
fallback, where the cells of a leg switch together (R304), and in PRECHARGE, after which the legs start by their compares (R300): notes/assumptions/77.md.
What the Keeper writes for the other states no rule states, and it is free. -/
def maskWrite (k : Nat) (play : Bool) (s : State) : State :=
  let s1 := if play then s.modPwmCh k fun g => { g with sh := (g.sh.set wMaskCtrl 0).set wMask0 0 }
    else forUnits 9 (fun i s => let p := s.draw
      p.2.modPwmCh k fun g => { g with sh := g.sh.set (wMaskCtrl + i) (word p.1 &&& wMaskOf (wMaskCtrl + i)) }) s
  loadAll (word (2 ^ k)) (s1.modPwmCh k fun g => { g with maskDue := false })

/-- The Keeper rewrites a table that is due (R292). -/
def maskRewrite (k : Nat) (s : State) : State :=
  if (s.pwmCh k).maskDue && !s.keeper.halted then maskWrite k (fed s k || (s.chan (192 + k)).fsm.state == .precharge) s else s

/-- Before the release the shadows take the start of both legs, with LOAD_ALL (R280, R300): every compare at half the period, permutation 0. -/
def startLegs (c : Nat) (s : State) : State :=
  if isL c then
    loadAll (word (2 ^ lOf c)) (s.modPwmCh (lOf c) fun g =>
      { g with sh := ((List.range 6).foldl (fun l x => setHalf l x (s.pwm.period / 2)) g.sh).set wPerm 0 })
  else s

/-- The base counter stands at an even fraction of a period: the start of both legs and the end of a silent stop (R300, R301). -/
def countAt (c fraction : Nat) (s : State) : State :=
  if isL c then { s with pwm := { s.pwm with count := (roundEven ((s.pwm.period : Rat) / fraction)).toNat } } else s
/-- The tick of the start: round(PERIOD/12), in the 2-level fallback round(PERIOD/4) (R300). -/
def startFraction (s : State) (c : Nat) : Nat := if (s.chan c).fsm.cellFallback then 4 else 12

/-- At the release the feeder starts afresh: no carry, no trim, 50 % duty (R300). -/
def freshFeed (c : Nat) (s : State) : State :=
  if isL c then
    s.modPwmCh (lOf c) fun g => { g with
      carry := List.replicate 6 0, trimA := [0, 0, 0], trimB := [0, 0, 0], devRun := [0, 0, 0, 0], rotA := 0, rotB := 0, duty := 1/2
      starve := Ramp.flat (1/2) }
  else s

/-- PERIOD from the enabled L-channels' frequency (R279): none where none is enabled. -/
def periodOf (b : Bank) : Option Nat :=
  ((List.range 16).find? fun i => b.flag 0x10 (192 + i) 0).map fun i => (roundEven (196608 / b.rat 0x10 (192 + i) 0x10)).toNat

/-- A new PERIOD is armed (R279, R283). -/
def armPeriod (s : State) : State :=
  match periodOf s.cfg.active with
  | some p => if p = s.pwm.period then s else loadAll 0x10000 { s with pwm := { s.pwm with periodSh := word p } }
  | none => s

/-- The row to which the 2-level fallback lowers the ceiling: the highest stored setpoint at or below V_top/2 (R304); none when there
is none. -/
def fallbackRow? (b : Bank) (rc : Nat) : Option Nat :=
  ((List.range 8).filter fun r => decide (b.setpoint rc r ≤ b.setpoint rc 7 / 2)).getLast?

/-- Some channel of a controller's group is in the fallback. -/
def groupFallback (s : State) (rc : Nat) : Bool := (fedBy rc).any fun c => (s.chan c).fsm.cellFallback

end Sys2Proof.Machine
end

