-- ==== Sys2Proof/Machine/StoreOps.lean ====
section
/-! DEFINITION. Operations on the flash store (R388 to R402): record bytes, regions, snapshots, recovery, bank validity. -/

namespace Sys2Proof.Machine

/-- The 64 bytes of a valid record (Table 15.5). -/
def recordBytes (r : Record) : List Byte :=
  let b := le 8 r.time ++ le 2 r.code ++ le 2 r.inst ++ le 4 r.seq ++
    (List.range 9).flatMap (fun i => le 4 (r.data.getD i 0).toNat) ++
    [BitVec.ofNat 8 (r.level + bit r.isLocal 2 + bit r.lostBefore 3), 0, 0, 0]
  b ++ le 4 (crc32 b).toNat ++ [0xFF, 0xFF, 0xFF, 0xA5]

/-- Slots of a 64 KB sector. -/
def sectorSlots : Nat := 1024
/-- Slots of the lifetime region (11 MB) and of the log region (flash size − 32 MB) (Table 15.3). -/
def regionSlots (lifetime : Bool) (flashMb : Nat) : Nat := if lifetime then 11 * 16384 else (flashMb - 32) * 16384
def regionOffset (lifetime : Bool) : Nat := if lifetime then 0x1500000 else 0x2000000

/-- The next slot in ascending order, circular, past retired sectors (R394): `fuel` bounds the sectors skipped. -/
def nextSlot (cap : Nat) (retired : List Nat) : Nat → Nat → Nat
  | 0, i => i % cap
  | fuel + 1, i => if retired.contains (i % cap / sectorSlots) then nextSlot cap retired fuel ((i / sectorSlots + 1) * sectorSlots) else i % cap

/-- Program one slot at the write pointer and move on (R394). -/
def Region.program (cap : Nat) (sl : Slot) (r : Region) : Region :=
  { r with slots := (r.writeSlot, sl) :: r.slots, writeSlot := nextSlot cap r.retired (r.retired.length + 1) (r.writeSlot + 1) }

/-- A sector is erased, and its erase count grows (R394, R403). -/
def Region.eraseSector (x : Nat) (r : Region) : Region :=
  { r with
    slots := r.slots.filter fun p => p.1 / sectorSlots != x
    erases := if r.erases.any (·.1 == x) then r.erases.map fun e => if e.1 == x then (x, e.2 + 1) else e else (x, 1) :: r.erases }

/-- The record region of the flash: the lifetime region or the log region. -/
def Store.region (lifetime : Bool) (st : Store) : Region := if lifetime then st.lifeRegion else st.log
def Store.setRegion (lifetime : Bool) (r : Region) (st : Store) : Store := if lifetime then { st with lifeRegion := r } else { st with log := r }

/-- A firmware bank passes R389: HCRC, BCRC, DEVICE, KIND (the commit byte apart). -/
def fwHeadOk (b : List Byte) : Bool :=
  decide (64 ≤ b.length) && leAt b 60 4 == (crc32 (sub b 4 56)).toNat
def fwBodyOk (b : List Byte) : Bool :=
  decide (64 + leAt b 8 4 ≤ b.length) && leAt b 12 4 == (crc32 (sub b 64 (leAt b 8 4))).toNat
def fwKindOk (b : List Byte) : Bool := leAt b 22 2 == 0x0208 && leAt b 24 4 == 1
def FwBank.seq (b : FwBank) : Nat := leAt b.bytes 4 4
/-- A bank that R389 calls valid. -/
def FwBank.valid (b : FwBank) : Bool := b.commit == 0xA5 && fwHeadOk b.bytes && fwBodyOk b.bytes && fwKindOk b.bytes
/-- A bank that the ROM may use (R74). -/
def FwBank.usable (b : FwBank) (attempts : Nat) : Bool :=
  b.commit == 0xA5 && fwHeadOk b.bytes && fwKindOk b.bytes && decide (attempts < 3)
/-- A bank is erased: firmware A and B are banks 0 and 1, configuration A and B 2 and 3 (R403, Table 15.9). -/
def Store.countErase (i : Nat) (st : Store) : Store := { st with bankErases := st.bankErases.modify i (· + 1) }
def CfgBank.valid (b : CfgBank) : Bool := b.commit == 0xA5

/-- The flash is powered (R418): VIO is up, that is step 0 of the supply sequence has passed (R82). -/
def flashOn (s : State) : Bool := s.power.seqDone || (s.power.seqActive && decide (1 ≤ s.power.seqStep))

/-- The level that the device drives on QSPI_SCK, QSPI_CS_N, QSPI_IO[3:0] and QSPI_RST_N (R418): 0 V on each while VIO is off, in STANDBY and
throughout the power-down of R69 among other times; while it is on, what the flash controller's accesses need, which no rule gives cycle by
cycle. -/
def qspiLevel (s : State) : Option Bool := if flashOn s then none else some false

/-- Records on their way to the flash wait (priority 5 of Table 1.7) and it can take them: activities of a lower priority wait for them (R37). -/
def storeWaits (s : State) : Bool := flashOn s && !s.store.lastPending && (decide (0 < s.log.flushing) || !s.store.lifeOut.isEmpty)

/-- A lifetime record waits for the lifetime region (R394, R404): a store code never enters the queue. -/
def lifeRec (code inst : Nat) (data : List Word) (s : State) : State :=
  { s with store := { s.store with
      lifeRegion := { s.store.lifeRegion with nextSeq := s.store.lifeRegion.nextSeq + 1 }
      lifeOut := s.store.lifeOut ++
        [⟨(recTime s).1, code, inst, s.store.lifeRegion.nextSeq, data, 0, (recTime s).2, false⟩] } }

/-- The lifetime values of a unit in the order of Tables 15.6 and 15.7: channel, controller 0x.., die parts as the tables list. -/
def lifeIds (u : Nat) : List Nat :=
  if u < 208 then (List.range 12).map (fun f => chanStat u (0x180 + f)) ++ (List.range 128).map (fun f => chanStat u (0x200 + f))
  else if u < 220 then
    (List.range 7).map (fun f => railStat (u - 208) (0x40 + f)) ++ (List.range 64).map (fun f => railStat (u - 208) (0x60 + f))
  else (List.range 12).map (fun f => devStat (0x800 + f)) ++ (List.range 192).map fun f => devStat (0x900 + f)

/-- The instance of a unit in LT_VALUES (Table 15.10): a controller's number and a channel's number are the units' own. -/
def lifeInst (u : Nat) : Nat := if u < 208 then u else if u < 220 then u - 208 else 0x300

/-- Chunks of eight. -/
def chunks8 (l : List Word) : List (List Word) := (List.range ((l.length + 7) / 8)).map fun i => (l.drop (8 * i)).take 8

/-- The dead-time words of a model record (Table 15.10, LT_MODEL). -/
def dtWords (c : Nat) (dts : List Nat) : List Word :=
  let g := fun i => dts.getD i 0
  if isL c then
    (List.range 2).map fun leg => word ((List.range 3).foldl (fun a x =>
      a + (g (6 * leg + 2 * x) % 16) * 2 ^ (8 * x) + (g (6 * leg + 2 * x + 1) % 16) * 2 ^ (8 * x + 4)) 0)
  else [word (g 0 + 256 * g 1 + 65536 * g 2 + 16777216 * g 3), 0]

/-- `model_flags` (Table 9.4): 0 while the models do not run (R443). -/
def modelFlags (s : State) (c : Nat) : Nat :=
  let m := (s.chan c).model
  if m.runs then
    bit m.reConv 0 + bit m.reStale 1 + bit m.identOk 2 + bit (!m.identOk) 3 + bit m.hotSeed 4 + bit (s.chan c).fsm.voltageOnly 5
      + bit (s.twin.effShared && !s.twin.link) 6 + bit m.clamped 7
  else 0

/-- The LT_MODEL record of a channel's model record. -/
def lifeModel (c : Nat) (m : ModelRec) (s : State) : State :=
  lifeRec 0x9103 c ([f32Of m.tv, f32Of m.tm, f32Of m.re25, f32Of m.bl0, f32Of m.fs, f32Of m.qms, word m.flags] ++ dtWords c m.dts) s

/-- The instance of an ageing record: channel, controller, 0x100 + d, or 0x200 for the CD (Table 15.10). -/
def ageInst (q i : Nat) : Nat := if q = 2 then i % 256 else if q ≤ 4 then i else if q ≤ 7 then 0x100 + i else 0x200

/-- The retired sectors of a region as records of a snapshot: their offsets, eight to a record (R399; their code and layout are the model's:
notes/assumptions/51.md). -/
def lifeRetired (lifetime : Bool) (s : State) : State :=
  let parts := chunks8 ((s.store.region lifetime).retired.map fun x => word (regionOffset lifetime + x * 0x10000))
  forUnits parts.length (fun i s => lifeRec (0x9107 + Config.retiredCode % 0xF8) (if lifetime then 1 else 2) (word i :: parts.getD i []) s) s

/-- A snapshot (R399): a run of records from LT_SNAP_BEGIN to LT_SNAP_END that waits for the lifetime region. The run counts once its
END is written. -/
def snapshot (s : State) : State :=
  let n := s.store.snapNumber + 1
  let first := s.store.lifeOut.length
  let s1 := lifeRec 0x9100 0 [word n] { s with store := { s.store with snapNumber := n } }
  let s2 := forUnits 221 (fun u s =>
    let parts := chunks8 ((lifeIds u).map fun id => SMap.get 0 id s.store.life)
    forUnits parts.length (fun i s => lifeRec 0x9102 (lifeInst u) (word i :: parts.getD i []) s) s) s1
  let s3 := forUnits 208 (fun c s => match (s.chan c).model.record with | some m => lifeModel c m s | none => s) s2
  let s4 := s3.store.age.foldl (fun s a =>
    lifeRec 0x9105 (ageInst a.1 a.2.1) [word a.1, f32Of a.2.2.baseline]
      (lifeRec 0x9104 (ageInst a.1 a.2.1) [word a.1, f32Of a.2.2.margin, f32Of a.2.2.last] s)) s3
  let s5 := lifeRetired false (lifeRetired true s4)
  let run := s5.store.lifeOut.drop first
  let s6 := lifeRec 0x9101 0 [word n, word run.length, crc32 (run.flatMap recordBytes)] s5
  { s6 with store := { s6.store with snapNext := some ⟨n, s6.store.life, s6.store.log.retired, s6.store.lifeRegion.retired⟩ } }

/-- The Keeper stores a channel's model record, and with it the dead times from which adaptation starts again (R234, R257). -/
def storeModel (c : Nat) (s : State) : State :=
  let h := s.chan c
  if s.cfg.active.modelled c && h.model.runs && 0 < h.model.seed then
    let dts := if h.loop.adapted.isEmpty then h.loop.stored else h.loop.adapted
    let r : ModelRec := ⟨h.model.re25, h.model.bl0, h.model.fs, h.model.qms, h.model.identOk, h.model.tv, h.model.tm,
      s.keeper.counterUs, false, if (recTime s).2 then none else some (recTime s).1, dts, modelFlags s c⟩
    lifeModel c r (s.modChan c fun h => { h with
      model := { h.model with record := some r }, loop := { h.loop with stored := dts } })
  else s

/-- What is known of a quantity's ageing on an instance (R400). -/
def Store.ageOf (st : Store) (q i : Nat) : Age := ((st.age.find? fun a => a.1 == q && a.2.1 == i).map (·.2.2)).getD {}
def Store.setAge (q i : Nat) (a : Age) (st : Store) : Store :=
  { st with age := (q, i, a) :: st.age.filter fun b => !(b.1 == q && b.2.1 == i) }

/-- The gain correction of a die from its reference drift in percent (Table 15.8). -/
def driftGain (pct : Rat) : Rat := 1 + pct / 100

/-- The re-planned margins of a die are in force again (R401). -/
def restoreDie (st : Store) (d : Nat) (q : Dsd) : Dsd :=
  { q with
    thetaK := if (st.ageOf 5 d).replanned then (st.ageOf 5 d).margin else 0
    gain := if (st.ageOf 6 d).replanned then driftGain (st.ageOf 6 d).margin else 1 }

/-- Every channel's model record (R234). -/
def storeModels (s : State) : State := forUnits 208 storeModel s

/-- The records of the log buffer are on their way to the log region, in ascending SEQ order; each stays in the buffer until it stands in the
flash (R397). -/
def flushLog (s : State) : State := { s with log := { s.log with flushing := s.log.buffer.length } }

/-- Add increments to lifetime values, saturating (R399). -/
def addLife (m : SMap Word) (id : Nat) (n : Word) : SMap Word :=
  SMap.put 0 id (word (satAdd 32 (SMap.get 0 id m).toNat n.toNat)) m

/-- The lifetime values at boot: the newest complete snapshot with the increments of a newer checkpoint (R399). -/
def restoredLife (st : Store) : SMap Word :=
  addLife (addLife (addLife ((st.snap.map (·.life)).getD []) (devStat 0x801) (st.checkpoint.getD 0 0)) (devStat 0x802) (st.checkpoint.getD 1 0))
    (devStat 0x804) (st.checkpoint.getD 2 0)

/-- Torn or corrupt slots that are not the last non-erased position of their region (R395). -/
def badSlots (r : Region) : Nat :=
  ((r.slots.drop 1).filter fun p => match p.2 with | .valid _ => false | _ => true).length
    + (match r.slots.head? with | some (_, .corrupt) => 1 | _ => 0)

/-- The last non-erased slot of a region is torn (R395). -/
def lastTorn (r : Region) : Bool := match r.slots.head? with | some (_, .torn) => true | _ => false

/-- The highest SEQ of a region's valid records (R395). -/
def maxSeq (r : Region) : Option Nat :=
  (r.slots.filterMap fun p => match p.2 with | .valid v => some v.seq | _ => none).foldl
    (fun m x => some (match m with | none => x | some y => max x y)) none

/-- The first valid record of each sector of a list of slots: sector, slot and SEQ (R395). -/
def sectorFirsts (l : List (Nat × Slot)) : List (Nat × Nat × Nat) :=
  l.foldl (fun m p => match p.2 with
    | .valid v =>
      match m.find? (·.1 == p.1 / sectorSlots) with
      | some e => if p.1 < e.2.1 then (e.1, p.1, v.seq) :: m.filter (·.1 != e.1) else m
      | none => (p.1 / sectorSlots, p.1, v.seq) :: m
    | _ => m) []

/-- The head sector of a region: the one whose first valid record carries the highest SEQ (R395). -/
def headSector (l : List (Nat × Slot)) : Option Nat :=
  ((sectorFirsts l).foldl (fun (b : Option (Nat × Nat)) e => match b with
    | none => some (e.1, e.2.2)
    | some q => if q.2 < e.2.2 then some (e.1, e.2.2) else b) none).map (·.1)

/-- The write slot after a recovery (R395): after the last slot of the head sector that is not erased; the first slot where no sector holds a
valid record. -/
def headSlot (cap : Nat) (gone : List Nat) (l : List (Nat × Slot)) : Nat :=
  let at' := fun (i : Nat) => nextSlot cap gone (gone.length + 1) i
  match headSector l with
  | none => at' 0
  | some x => at' ((l.filter fun p => p.1 / sectorSlots == x).foldl (fun m p => max m (p.1 + 1)) (x * sectorSlots))

/-- A region after the recovery scan (R395): the write slot, the retired sectors of the snapshot, and the sector that the write slot begins
erased where its first slot is torn or corrupt. -/
def Region.recovered (cap : Nat) (gone : List Nat) (r : Region) : Region :=
  let i := headSlot cap gone r.slots
  let bad := r.slots.any fun p => p.1 == i / sectorSlots * sectorSlots && (match p.2 with | .valid _ => false | _ => true)
  let q := if i % sectorSlots = 0 ∧ bad then r.eraseSector (i / sectorSlots) else r
  { q with writeSlot := i, retired := gone, failsHere := 0 }

/-- A model record, or an ageing record of an instance, that still waits for the lifetime region. -/
def waitsModel (st : Store) (c : Nat) : Bool := st.lifeOut.any fun r => r.code == 0x9103 && r.inst == c
def waitsAge (st : Store) : Bool := st.lifeOut.any fun r => r.code == 0x9104 || r.code == 0x9105

/-- A lifetime record stands in the flash: what it holds is what a boot finds, once no newer one waits (R234, R401). -/
def noteStored (r : Record) (s : State) : State :=
  if r.code = 0x9103 ∧ ¬ waitsModel s.store r.inst then s.modModel r.inst fun m => { m with recordWas := m.record }
  else if (r.code = 0x9104 ∨ r.code = 0x9105) ∧ ¬ waitsAge s.store then { s with store := { s.store with ageWas := s.store.age } }
  else s

/-- Records that never reached the flash are gone at the recovery: the ones before them hold again (R395). -/
def revertStored (s : State) : State :=
  let s1 := forUnits 208 (fun c t => if waitsModel s.store c then t.modModel c fun m => { m with record := m.recordWas } else t) s
  if waitsAge s.store then { s1 with store := { s1.store with age := s1.store.ageWas } } else s1

/-- The recovery scan (R395, R396, R399): the write slots, the sequence numbers, the lifetime values and the codes it raises. -/
def recover (s : State) : State :=
  let st := s.store
  let gone := fun (l : Bool) => match st.snap with
    | some p => if l then p.retiredLife else p.retiredLog
    | none => []
  let logSeq := max (match maxSeq st.log with | some n => n + 1 | none => 0)
    (s.log.buffer.foldl (fun m r => max m (r.seq + 1)) 0)
  let lifeSeq := match maxSeq st.lifeRegion with | some n => n + 1 | none => 0
  let s1 : State := { s with
    log := { s.log with nextSeq := logSeq, flushedSeq := (maxSeq st.log).getD 0 }
    store := { st with
      log := st.log.recovered (regionSlots false st.flashMb) (gone false)
      lifeRegion := { st.lifeRegion.recovered (regionSlots true st.flashMb) (gone true) with nextSeq := lifeSeq }
      life := restoredLife st } }
  let s2 := if lastTorn st.log || lastTorn st.lifeRegion || s.keeper.holdupShort then s1.raise 0x1009 0 [] else s1
  let s3 := if badSlots st.lifeRegion = 0 then s2 else s2.raise 0x9006 0 [1, word (badSlots st.lifeRegion)]
  if badSlots st.log = 0 then s3 else s3.raise 0x9006 0 [2, word (badSlots st.log)]

/-- One record is programmed at the write pointer of its region, verified and committed (R394); a snapshot counts once its END is there
(R399). -/
def programRecord (lifetime : Bool) (r : Record) (s : State) : State :=
  let cap := regionSlots lifetime s.store.flashMb
  if lifetime then
    { s with store := { s.store with
        lifeRegion := s.store.lifeRegion.program cap (.valid r)
        snap := if r.code = 0x9101 then (match s.store.snapNext with | some p => some p | none => s.store.snap) else s.store.snap
        snapNext := if r.code = 0x9101 then none else s.store.snapNext
        checkpoint := if r.code = 0x9101 then [] else s.store.checkpoint
        snapAge := if r.code = 0x9101 then 0 else s.store.snapAge } }
  else
    { s with store := { s.store with log := s.store.log.program cap (.valid r) }, log := { s.log with flushedSeq := r.seq } }

/-- The write slot is erased: where records stand in its sector, that is the oldest, and it is erased first (R394). -/
def roomFor (lifetime : Bool) (s : State) : State :=
  let r := s.store.region lifetime
  if r.slots.any (·.1 == r.writeSlot) then { s with store := s.store.setRegion lifetime (r.eraseSector (r.writeSlot / sectorSlots)) } else s

/-- Service advice of the flash: 64 sectors retired (R402). -/
def sectorAdvice (s : State) : State :=
  if s.store.log.retired.length + s.store.lifeRegion.retired.length = 64 then s.raise 0x9009 0 [word 9, f32Of 64] else s

/-- A read-back fails (R394): the slot is left as it stands, torn where that of bytes 0 to 59 failed and corrupt where that of COMMIT did; the
third failure of a sector retires it. -/
def slotFails (lifetime : Bool) (left : Slot) (s : State) : State :=
  let r := s.store.region lifetime
  let sector := r.writeSlot / sectorSlots
  let fails := r.failsHere + 1
  let r1 := { r with retired := if fails = 3 then r.retired ++ [sector] else r.retired }.program (regionSlots lifetime s.store.flashMb) left
  let s1 : State := { s with store := s.store.setRegion lifetime { r1 with
    failsHere := if fails = 3 ∨ r1.writeSlot / sectorSlots ≠ sector then 0 else fails } }
  if fails = 3 then sectorAdvice (s1.raise 0x9007 0 [word (regionOffset lifetime + sector * 0x10000), 1]) else s1

/-- `n` read-backs in a row fail. -/
def slotFailsTimes (lifetime : Bool) : Nat → State → State
  | 0, s => s
  | n + 1, s => slotFailsTimes lifetime n (slotFails lifetime .torn (roomFor lifetime s))

/-- Everything that waits for the flash is written as one step, each record in an erased slot; the read-backs of such a step succeed
(R82, R394, R399; notes/assumptions/23.md). -/
def drainStore (s : State) : State :=
  let s1 := (s.log.buffer.take s.log.flushing).foldl (fun s r => programRecord false r (roomFor false s)) s
  let s2 := s1.store.lifeOut.foldl (fun s r => programRecord true r (roomFor true s)) s1
  s1.store.lifeOut.foldl (fun s r => noteStored r s) { s2 with
    log := { s2.log with buffer := s.log.buffer.drop s.log.flushing, flushing := 0 }, store := { s2.store with lifeOut := [] } }

/-- The valid configuration bank with the higher sequence number, A if they are equal (R75): 0 A, 1 B. -/
def bestCfg (st : Store) : Option Nat :=
  if st.cfgA.valid ∧ (¬ st.cfgB.valid ∨ st.cfgB.seq.toNat ≤ st.cfgA.seq.toNat) then some 0
  else if st.cfgB.valid then some 1 else none

def cfgBankOf (st : Store) (i : Nat) : CfgBank := if i = 0 then st.cfgA else st.cfgB

/-- The configuration sequence number of GET_INFO (R136). -/
def cfgSeqNumber (s : State) : Word :=
  match bestCfg s.store with
  | some i =>
    if (cfgBankOf s.store i).bank = s.cfg.whole then (cfgBankOf s.store i).seq
    else if (cfgBankOf s.store (1 - i)).valid ∧ (cfgBankOf s.store (1 - i)).bank = s.cfg.whole then (cfgBankOf s.store (1 - i)).seq
    else 0
  | none => 0

end Sys2Proof.Machine
end

