-- ==== Sys2Proof/Machine/Boot.lean ====
section
/-! DEFINITION. Resets, supply sequence, boot, Keeper halt and heartbeat (R36, R67 to R90, R175, R383). -/

namespace Sys2Proof.Machine

/-! ### Resets (R71, R72, Table 3.4) -/

/-- A channel after a reset: every gate off, the relay de-energised, signals and models fresh. What the Keeper stored for the
channel survives: its model record (R234), with the dead times from which adaptation starts again (R257), and its delay (R248). Voltage-only protection ends by test 6 alone (R308), but for a
power-on reset, which leaves nothing to hold it. -/
def Chan.afterReset (por : Bool) (h : Chan) : Chan :=
  { fsm := { voltageOnly := h.fsm.voltageOnly && !por }
    loop := { tauStored := h.loop.tauStored, stored := (h.model.record.map (·.dts)).getD [] }
    model := {
      record := h.model.record.map fun r => { r with por := r.por || por }, recordWas := h.model.recordWas.map fun r => { r with por := r.por || por } } }

/-- What every reset source does (R71, R72): gates off, power-down, registers at their reset values, restart from BOOT with its cause.
The flash, the retention region (log records that the flash does not hold yet, and boot attempts) and the Keeper counter are kept; a
power-on reset clears them but for the flash. Any debug halt ends. -/
def resetTo (cause : Nat) (por : Bool) (s : State) : State :=
  let s1 := s.setDev .boot 9
  let r := revertStored s
  { ({} : State) with
    keeper := {
      cause := cause, strapBoot := s.keeper.strapBoot,
      counterUs := if por then 0 else s.keeper.counterUs
      attemptsA := if por then 0 else s.keeper.attemptsA
      attemptsB := if por then 0 else s.keeper.attemptsB
      bootFrom := if por then some (.boot, 9, cause) else match s1.keeper.bootFrom with
        | some (p, e, c) => some (p, e, if s.keeper.bootFrom.isSome then c else cause)
        | none => none
      holdupShort := s.keeper.holdupShort
      watchdogStage := if cause = 2 then some s.keeper.stage else if por then none else s.keeper.watchdogStage
      fwVersion := 0 }
    power := { s.power with pwrEn := 0, seqStep := 0, seqActive := false, seqDone := false, retries := 0, retryWait := false,
                            falling := false, tw := false, warnV := 84/10, warnSet := false, dipped := false }
    spi := { mem := if por then [] else s.spi.mem, mutePin := s.spi.mutePin }
    log := if por then {} else
      { nextSeq := s.log.nextSeq, buffer := s.log.buffer, lostBefore := s.log.lostBefore, waiting := s.log.waiting
        overflow := s.log.overflow }
    store := { r.store with lifeOut := [], snapNext := none, lastPending := false }
    ports := s.ports.mapIdx fun i p => { present := p.present, txdis := i != 2 }
    chans := r.chans.map (Chan.afterReset por)
    sram := if por then [] else s.sram
    misc := { sent := s.misc.sent }
    free := s.free
    pending := s.pending }

/-- The supply sequence begins with PWR_EN0 (R67), at stage 0x1. -/
def startSequence (s : State) : State :=
  { s with power := { s.power with seqActive := true, seqDone := false, seqStep := 0, pwrEn := 1, retryWait := false } }.setStage 1

/-- The Keeper island is powered and out of reset. -/
def islandUp (s : State) : Bool := !s.power.islandReset

def execPowerOnReset (strapBoot : Bool) (s : State) : Out State :=
  if s.power.islandReset then
    let s1 := resetTo 0 true s
    .next { s1 with
      power := { islandReset := false, resetN := s.power.resetN, pump := true }
      keeper := { s1.keeper with strapBoot := s.power.resetN && strapBoot } }
  else .next s

/-- The island's supply fell below its reset threshold: everything is off until POWER_ON_RESET. A last record that was still to be
written is left torn (R64). -/
def execKeeperIslandReset (s : State) : Out State :=
  if islandUp s then
    let torn := s.store.lastPending
    let s1 := resetTo 0 true s
    let lg := s1.store.log
    .next { s1 with
      power := { islandReset := true, resetN := s.power.resetN }
      store := if torn then { s1.store with log := { lg with slots := (lg.writeSlot, .torn) :: lg.slots } } else s1.store }
  else .next s

def execResetNAssert (s : State) : Out State :=
  if s.power.resetN then
    if islandUp s then .next { resetTo 1 false s with power := { (resetTo 1 false s).power with resetN := false } }
    else .next { s with power := { s.power with resetN := false } }
  else .next s

def execResetNRelease (strapBoot : Bool) (s : State) : Out State :=
  if s.power.resetN then .next s
  else
    let s1 : State := { s with power := { s.power with resetN := true } }
    if islandUp s then
      let s2 : State := { s1 with keeper := { s1.keeper with strapBoot := strapBoot } }
      .next (if s.power.pll then startSequence s2 else s2)
    else .next s1

/-- The watchdog counts (R71, R75): firmware runs, the Keeper is not halted, RESET_N is high. -/
def watchdogCounts (s : State) : Bool :=
  s.keeper.watchdog && !s.keeper.halted && s.power.resetN && islandUp s && s.keeper.stage != 2 && s.keeper.stage != 0xE && s.keeper.stage != 0xF

def execWatchdogExpiry (s : State) : Out State :=
  if watchdogCounts s then .next (startSequence (resetTo 2 false s)) else .next s

/-! ### The supply sequence (R67 to R70) -/

/-- The Keeper PLL locks whatever RESET_N does; the sequence waits until RESET_N is high (R72). -/
def execKeeperPllLock (s : State) : Out State :=
  if islandUp s && !s.power.pll then
    let s1 : State := { s with power := { s.power with pll := true } }
    .next (if s.power.resetN then startSequence s1 else s1)
  else .next s

/-- The next enable of the sequence, or its end (Table 3.3). -/
def execPwrPgHigh (strapTwin : Bool) (strapDrv : Nat) (s : State) : Out State :=
  if s.power.seqActive then
    let s1 : State := if s.power.seqStep = 0 ∧ ¬ s.keeper.straps then
        { s with keeper := { s.keeper with strapTwin := strapTwin, strapDrv := strapDrv % 16, straps := true } }
      else if s.power.seqStep = 0 ∧ s.keeper.waking ∧ ¬ s.keeper.halted then flushLog s else s
    if s.power.seqStep < 5 then
      .next { s1 with power := { s1.power with seqStep := s.power.seqStep + 1, pwrEn := s1.power.pwrEn ||| BitVec.ofNat 6 (2 ^ (s.power.seqStep + 1)) } }
    else
      let s2 : State := { s1 with power := { s1.power with seqActive := false, seqDone := true } }
      .next (s2.setStage (if s.keeper.waking then 6 else 3))
  else .next s

/-- The power-down of R69. -/
def powerDown (s : State) : State :=
  { s with power := { s.power with pwrEn := 0, seqActive := false, seqDone := false, seqStep := 0 } }

/-- After a failed sequence: a retry after 1 s, twice at most, else stage 0xF (R70). -/
def sequenceFailed (s : State) : State :=
  if s.power.retries < 2 then
    { s with power := { s.power with retries := s.power.retries + 1, retryWait := true } }
  else
    let s1 : State := { s with power := { s.power with retryWait := false } }
    let s2 := if s.keeper.waking then s1.setDev .boot 12 else s1
    ({ s2 with keeper := { s2.keeper with waking := false, watchdog := false } } : State).setStage 0xF

/-- The relays that were energised fall, and each change counts (R310). -/
def dropRelays (s : State) : State :=
  forUnits 208 (fun c s => if (s.chan c).fsm.relayOn then (s.count (chanStat c 0x104) 1).life (chanStat c 0x186) 1 else s) s

/-- Everything behind the sequenced supplies is lost: channels and rails are off, the media clock and the links stop (R359). -/
def supplyLost (s0 : State) : State :=
  let s := linkDown (dropRelays s0)
  { s with
    chans := s.chans.map fun h => { h with
      fsm := { code := 0, voltageOnly := h.fsm.voltageOnly, diagPassed := h.fsm.diagPassed, cellFallback := h.fsm.cellFallback, cellClear := h.fsm.cellClear }
      loop := { tauStored := h.loop.tauStored, stored := h.loop.stored, adapted := h.loop.adapted, ilim := h.loop.ilim, marginDue := h.loop.marginDue
                ron := h.loop.ron, ceils := h.loop.ceils, mIdxDsp := h.loop.mIdxDsp, mIdxClamp := h.loop.mIdxClamp }
      dsp := {}, model := { record := h.model.record, recordWas := h.model.recordWas }
      share := { h.share with joined := false, joinReq := false, mark := 0 } }
    dsds := Vector.replicate 4 {}
    rails := s.rails.map fun r => { cKeepRail := r.cKeepRail, cKeepDsp := r.cKeepDsp, cKeepGoal := r.cKeepGoal, vLim := r.vLim, lA := r.lA, lB := r.lB }
    media := {}
    ptp := {}
    streams := Vector.replicate 32 {}
    tdms := Vector.replicate 4 {}
    mons := Vector.replicate 8 {}
    ports := s.ports.mapIdx fun i p => if i = 2 then p else { present := p.present, txdis := true }
    tests := { s.tests with inj := Vector.replicate 65 {} }
    pwm := {} }

def execPgTimeout (s : State) : Out State :=
  if s.power.seqActive then
    .next (sequenceFailed (powerDown (s.raise 0x1005 s.power.seqStep [])))
  else .next s

/-- Nothing of the boot that was in progress counts after the supplies are lost: it goes on with the ROM once they are back. -/
def bootAgain (s : State) : State :=
  { s with keeper := { s.keeper with cfgLoaded := false, tried := 0, watchdog := false, fwBytes := [], fwSpi := false } }

/-- The island acts without firmware (R70) and the sequence starts again: STAGE shows 0x1 from here on. Where firmware already served, the
device is in BOOT and what follows is as a wake: the firmware and the configuration in Keeper SRAM are kept. Table 3.7 has no row for
this: that state, its event (9), the stage shown until the retry and what is kept are the model's choices (notes/assumptions/10.md). A last
record that was still to be written stays in the log buffer, since the flash has no supply. -/
def execPgLost (s : State) : Out State :=
  if s.power.seqDone then
    let s0 := supplyLost s
    let s1 := abortTests (fun _ => true) 0xA011 (({ s0 with
      power := { s0.power with falling := false, tw := false }
      store := { s0.store with lastPending := false } } : State).raise 0x1006 0 [])
    let s2 : State := if s.keeper.serving then
        let t := if s.keeper.dev = .standby then s1 else s1.setDev .boot 9
        { t with
          keeper := { t.keeper with waking := true, safeCauses := [], standbyWait := false }
          cfg := { t.cfg with commit := none, active := t.cfg.whole, target := t.cfg.whole } }
      else bootAgain s1
    .next (sequenceFailed (powerDown (s2.setStage 1)))
  else .next s

def execSequenceRetry (s : State) : Out State :=
  if s.power.retryWait then .next (startSequence s) else .next s

/-! ### ROM and firmware (R74, R75, R92) -/

/-- A firmware image starts (R74, R92): stage 0x6, the watchdog counts. It stands in the image area, the first 8 MB of Keeper SRAM (R383; where
in that area is the model's reading: notes/assumptions/74.md). -/
def startImage (bytes : List Byte) (bankB spi : Bool) (s : State) : State :=
  ({ s with sram := putBytes 0 bytes s.sram, keeper := { s.keeper with
      fwBank := bankB, fwSpi := spi, watchdog := true, fwBytes := bytes,
      fwVersion := word (leAt bytes 16 4), fwSeq := word (leAt bytes 4 4), fwLevel := leAt bytes 20 2 } } : State).setStage 6

/-- The choice of R74. Where STRAP_BOOT is 1 and the SFDP table is unreadable, R74's pseudocode gives stage 0x2 and R75 stage 0xE: the
model follows the pseudocode (notes/assumptions/59.md). `sfdp` is the size in MB that the table gives, none where it is unreadable; a device
larger than 256 MB is used as 256 MB (R388). -/
def execRomBankSelect (sfdp : Option Nat) (s0 : State) : Out State :=
  if s0.power.seqDone && s0.keeper.stage == 3 && !s0.keeper.halted then
    let s : State := match sfdp with
      | some mb => { s0 with store := { s0.store with flashMb := min 256 mb } }
      | none => s0
    let a := s.store.fwA.usable s.keeper.attemptsA
    let b := s.store.fwB.usable s.keeper.attemptsB
    if s.keeper.strapBoot then .next (s.setStage 2)
    else if sfdp = none then .next (s.setStage 0xE)
    else if a && (!b || decide (s.store.fwB.seq ≤ s.store.fwA.seq)) then .next (s.setStage 4)
    else if b then .next (s.setStage 5)
    else .next (s.setStage 0xE)
  else .next s0

/-- FW_BANK_FALLBACK where a valid bank with a higher SEQ was passed over (R391). -/
def fallbackRecord (bankB : Bool) (s : State) : State :=
  let run := if bankB then s.store.fwB else s.store.fwA
  let other := if bankB then s.store.fwA else s.store.fwB
  if other.valid ∧ run.seq < other.seq then s.raise 0x9004 (if bankB then 1 else 0) [word run.seq, word other.seq] else s

/-- The ROM loads the bank of the stage and starts it if its BCRC is correct, else tries the other bank once (R74). -/
def execFirmwareStart (s : State) : Out State :=
  if (s.keeper.stage = 4 ∨ s.keeper.stage = 5) ∧ ¬ s.keeper.halted then
    let bB := s.keeper.stage == 5
    let bank := if bB then s.store.fwB else s.store.fwA
    if fwBodyOk bank.bytes then
      let s1 : State := { s with keeper := { s.keeper with
        attemptsA := s.keeper.attemptsA + (if bB then 0 else 1), attemptsB := s.keeper.attemptsB + (if bB then 1 else 0) } }
      .next (fallbackRecord bB (startImage bank.bytes bB false s1))
    else
      let tried := s.keeper.tried ||| (if bB then 2 else 1)
      let s1 : State := { s with keeper := { s.keeper with tried := tried } }
      let other := if bB then s.store.fwA.usable s.keeper.attemptsA && !tried.getLsbD 0
        else s.store.fwB.usable s.keeper.attemptsB && !tried.getLsbD 1
      .next (if other then s1.setStage (if bB then 4 else 5) else s1.setStage 0xE)
  else .next s

/-- The media PLL, which the firmware starts (R36, R175), locks: the index starts at 0 with a steer of 0 (R175), and every signal state starts afresh (R441). -/
def execMediaPllLock (s : State) : Out State :=
  if s.power.seqDone && s.keeper.stage == 6 && !s.media.locked && !s.keeper.halted then
    .next { s with
      media := { locked := true }
      chans := s.chans.mapIdx fun c h => { h with dsp := {
        e := Ramp.flat (if muteLine s then 0 else 1)
        steer := [(s.nat 0x10 c 4, 1)]
        mute := Ramp.flat (if s.flag 0x10 c 3 then 0 else 1) } } }
  else .next s

/-- Whether VDRVd lies in the window of its strap (Table 2.13, R50). -/
def vdrvInWindow (silicon : Bool) (v : Rat) : Bool :=
  if silicon then decide (15/2 ≤ v) && decide (v ≤ 21/2) else decide (5 ≤ v) && decide (v ≤ 6)

/-- Every die has been brought up or has failed. -/
def bringupDone (s : State) : Bool := s.dsds.toList.all fun d => d.released || d.failed

/-- One die of R76: Table 3.5 in order; a die that fails is not released. The last one moves the boot to stage 0x7 (R77). -/
def execDsdBringup (d : Nat) (vdrv : Rat) (trim link sref : Bool) (ntcOhm : Rat) (s : State) : Out State :=
  let q := s.dsd d
  if decide (d < 4) && s.media.locked && s.keeper.stage == 6 && !s.keeper.halted && !q.released && !q.failed then
    let s1 :=
      if !vdrvInWindow (s.keeper.strapDrv / 2 ^ d % 2 == 1) vdrv then
        (s.modDsd d fun q => { q with failed := true }).raise 0x1007 d []
      else if !(trim && link && sref) then (s.modDsd d fun q => { q with failed := true }).raise 0x100A d []
      else
        let ok := decide (100 ≤ ntcOhm) && decide (ntcOhm ≤ 1000000)
        let t := ntcCelsius ntcOhm
        let s2 := s.modDsd d fun q => restoreDie s.store d { q with
          released := true, linked := true, vdrvOk := true, readings := if ok then [t] else [], zoneC := if ok then t else 0 }
        let s3 := forList (chansOf d) (fun c s => s.modFsm c fun f => { f with state := .off, bridge := holdFor s2 c }) s2
        forList [3 * d, 3 * d + 1, 3 * d + 2] (fun r s => s.modRail r fun q => q.stopped .off) s3
    .next (if bringupDone s1 && !s.keeper.waking then s1.setStage 7 else s1)
  else .next s

/-- The state that a new configuration in force gives to the units at boot (R118, R123). -/
def applyAll (s : State) : State :=
  { s with
    streams := s.streams.mapIdx fun i t => { t with
      lastOn := [512 * s.media.index, 512 * s.media.index], since := [512 * s.media.index, 512 * s.media.index]
      state := if s.cfg.active.streamOn i then .waiting else .disabled }
    tdms := s.tdms.mapIdx fun x t => { t with state := if s.cfg.active.tdmOn x then .waiting else .disabled }
    ptp := { s.ptp with state := if s.cfg.active.ptpOn 0 || s.cfg.active.ptpOn 1 then .listening else .disabled, listenAt := s.media.samples, noMaster := false }
    media := { s.media with source := s.nat 0x06 0 0, state := .free }
    ports := s.ports.mapIdx fun p q => { q with
      txdis := if p = 2 then false else !(s.cfg.active.portOn p) || !q.present
      groups := if q.up then q.groups else [] }
    chans := s.chans.mapIdx fun c h => { h with
      fsm := { h.fsm with bridge := holdFor s c }
      model := h.model.nominal s.cfg.active c
      dsp := { h.dsp with
        gain := Ramp.flat (dbGain (s.ratv 0x10 c 2)), pol := Ramp.flat (if s.flag 0x10 c 1 then -1 else 1), mute := Ramp.flat (if s.flag 0x10 c 3 then 0 else 1),
        steer := [(s.nat 0x10 c 4, 1)], e := Ramp.flat (if muteLine s then 0 else 1) } }
    pwm := (armPeriod s).pwm }

/-- The lifetime count of the reset that led here (Table 15.6). -/
def resetLife (s : State) : State :=
  match s.keeper.cause with
  | 0 => s.life (devStat 0x800) 1
  | 1 => s.life (devStat 0x805) 1
  | 2 => s.life (devStat 0x806) 1
  | _ => s.life (devStat 0x807) 1

/-! ### Keeper halt and heartbeat (R36, R90) -/

def execKeeperHalt (s : State) : Out State :=
  if islandUp s && s.power.resetN && !s.keeper.halted then .next { s with keeper := { s.keeper with halted := true } } else .next s

/-- Whether firmware runs: from stage 0x6 of a boot, and in STANDBY (R79, R90). -/
def firmwareRuns (s : State) : Bool := !s.keeper.fwBytes.isEmpty && islandUp s && s.power.resetN && !s.keeper.halted

def execHeartbeat (s : State) : Out State :=
  if firmwareRuns s then
    .next { s with
      keeper := { s.keeper with heartbeat := s.keeper.heartbeat + 1, counterUs := s.keeper.counterUs + 1000 } }
  else .next s

end Sys2Proof.Machine
end

