-- ==== Sys2Proof/Machine/Power.lean ====
section
/-! DEFINITION. The input bus, brown-out, over-voltage, reverse protection and the wake from STANDBY (R58 to R66, R78 to R82). -/

namespace Sys2Proof.Machine

/-- States in which the bus rules of R63 and R65 act. -/
def busRules (s : State) : Bool :=
  islandUp s && (s.keeper.dev == .ready || s.keeper.dev == .run || s.keeper.dev == .safe || s.keeper.dev == .update)

/-- Causes of SAFE: 1 brown-out, 2 over-voltage, 3 junction. -/
def addCause (n : Nat) (l : List Nat) : List Nat := if l.contains n then l else l ++ [n]

/-- Enter SAFE by an event of Table 3.7. The fade of RUN and MUTED channels goes on (R272). -/
def enterSafe (ev cause : Nat) (s : State) : State :=
  let s1 := (safeChannels s).setDev .safe ev
  { s1 with keeper := { s1.keeper with safeCauses := addCause cause s1.keeper.safeCauses, standbyWait := false } }

/-- An update in progress ends without a commit byte (R66). -/
def abandonUpdate (s : State) : State := { s with store := { s.store with updLen := 0, updGot := 0 } }

/-- The half-width of the band of the warning comparator's trip point (R437): the row of Table 3.1 for the default threshold, else 0.2 V and
0.5 % of the setting. -/
def warnBand (s : State) : Rat := if s.power.warnSet then 2/10 + s.power.warnV * 5/1000 else 2/10
/-- The re-arm level of the warning, 0.5 V above the threshold and above every trip point of its band (Table 3.1, R437; the typical figure:
notes/assumptions/73.md). -/
def rearmV (s : State) : Rat := s.power.warnV + 1/2

/-- The warning comparator trips at a VBUS of `v`, at or below the band of the threshold in force (R59, R437). In READY, RUN, SAFE and UPDATE
this is tw of R63. -/
def execBusWarn (v : Rat) (s : State) : Out State :=
  if !(islandUp s && !s.power.warn && decide (v ≤ s.power.warnV + warnBand s)) then .next s
  else if busRules s then
    let n := s.log.buffer.length
    let s1 := abandonUpdate (startFall s)
    let s2 : State := { s1 with
      power := { s1.power with warn := true, tw := true, dipped := false, falling := true }
      store := { s1.store with lastPending := true }
      log := { s1.log with buffer := if canLog s then [] else s1.log.buffer, flushing := if canLog s then 0 else s1.log.flushing } }
    .next ((s2.life (devStat 0x804) 1).raise 0x1001 0 [word n])
  else .next { s with power := { s.power with warn := true } }

/-- Every channel that was playing is at e = 0. -/
def allSilent (s : State) : Bool :=
  s.chans.toList.all fun h => !(h.fsm.state == .run || h.fsm.state == .muted) || h.dsp.e.now == 0

/-- Every channel silent: the low-side switches are held on and the rail controllers stop switching (R60, R63, R272). -/
def execBrownoutSilent (s : State) : Out State :=
  if s.power.falling && allSilent s then
    .next { railsOff (allOff s) with
            power := { s.power with falling := false } }
  else .next s

/-- The increments of a checkpoint since the newest snapshot (R399). -/
def increments (s : State) : List Word :=
  let base := (s.store.snap.map (·.life)).getD []
  [devStat 0x801, devStat 0x802, devStat 0x804].map fun id => SMap.get 0 id s.store.life - SMap.get 0 id base

/-- The newest 0x1001 record is programmed after `fails` read-backs that failed, and the older records are abandoned (R397). -/
def lastLog (fails : Nat) (s : State) : State :=
  match (s.log.buffer.filter fun r => r.code == 0x1001).getLast? with
  | none => s
  | some r =>
    let s1 := programRecord false r (roomFor false (slotFailsTimes false fails s))
    { s1 with log := { s1.log with buffer := s1.log.buffer.filter (fun q => decide (r.seq < q.seq)), flushing := 0 } }

/-- The checkpoint is programmed after `fails` read-backs that failed (R399). -/
def lastCheckpoint (fails : Nat) (s : State) : State :=
  let cp : Record := ⟨(recTime s).1, 0x9106, 0, s.store.lifeRegion.nextSeq, increments s, 0, (recTime s).2, false⟩
  let s1 := programRecord true cp (roomFor true (slotFailsTimes true fails s))
  { s1 with store := { s1.store with
      lifeRegion := { s1.store.lifeRegion with nextSeq := s1.store.lifeRegion.nextSeq + 1 }, checkpoint := increments s } }

/-- The last record and the checkpoint are programmed, each with its read-backs (R394), then SAFE (R63, R397, R399), in the states of R63 and
with the flash powered (R82). -/
def execLastRecord (logFails lifeFails : Nat) (s : State) : Out State :=
  if s.store.lastPending && canLog s && busRules s && flashOn s then
    let s1 := lastCheckpoint lifeFails (lastLog logFails s)
    .next (enterSafe 4 1 (abortTests (fun _ => true) 0xA011 { s1 with store := { s1.store with lastPending := false } }))
  else .next s

/-- The warning comparator re-arms at a VBUS of `v`, once that has passed the re-arm level (R437). After tw the bus has recovered (R65). -/
def execBusDip (v : Rat) (s : State) : Out State :=
  if islandUp s && s.power.warn && decide (rearmV s ≤ v) then
    let s1 : State := { s with power := { s.power with warn := false } }
    .next (if s.power.tw then (({ s1 with power := { s1.power with tw := false, dipped := true } } : State).raise 0x1008 0 []) else s1)
  else .next s

/-- The emergency multiplier after SAFE: 1, or 0 while the mute line is asserted (notes/assumptions/13.md). -/
def releaseFall (s : State) : State :=
  { s with chans := s.chans.map fun h => { h with dsp := { h.dsp with e := Ramp.flat (if muteLine s then 0 else 1) } } }

/-- 1 s above the re-arm level with `dev.autostart` at 1 (R65), where no other cause of SAFE remains. -/
def execBusRecovery (s : State) : Out State :=
  if s.keeper.dev == .safe && s.power.dipped && !s.power.warn && s.flag 0x01 0 0 && !s.power.ov && !s.misc.junctionHot
      && !s.keeper.halted && !s.store.lastPending then
    let s1 := releaseFall (s.setDev .run 8)
    .next { s1 with
      keeper := { s1.keeper with safeCauses := [] }, power := { s1.power with dipped := false, falling := false } }
  else .next s

/-- The over-voltage comparator trips; the persistence timer runs (R60). -/
def execBusOv (s : State) : Out State :=
  if islandUp s && !s.power.ov then .next { s with power := { s.power with ov := true, ovLong := false } } else .next s

/-- The comparator clears (R60, R437). -/
def execOverVoltageClear (s : State) : Out State :=
  if islandUp s && s.power.ov then
    let s1 : State := { s with power := { s.power with ov := false, ovLong := false } }
    .next (if s.power.ovLong then s1 else s1.raise 0x1002 0 [])
  else .next s

/-- The persistence time ends over the threshold (R60, Table 3.7). -/
def execBusOvLong (s : State) : Out State :=
  if islandUp s && s.power.ov && !s.power.ovLong then
    let s1 := (({ s with power := { s.power with ovLong := true } } : State)).raise 0x1003 0 []
    let d := s.keeper.dev
    if d = .ready ∨ d = .run ∨ d = .update ∨ d = .safe then
      let s2 := abortTests (fun _ => true) 0xA011 (abandonUpdate (startFall s1))
      .next (enterSafe 5 2 { s2 with power := { s2.power with falling := true } })
    else .next s1
  else .next s

/-- GATE_RS below GND while powered (R61, R62). -/
def execBusReversed (s : State) : Out State :=
  if islandUp s then .next (({ s with power := { s.power with pump := false, reversed := true } } : State).raise 0x1004 0 []) else .next s

/-- VBUS exceeds GATE_RS (R61). -/
def execReverseCurrentBlock (s : State) : Out State :=
  if islandUp s then .next { s with power := { s.power with pump := false } } else .next s

/-- GATE_RS is above VBUS again (R61). -/
def execGateRsAboveVbus (s : State) : Out State :=
  if islandUp s then .next { s with power := { s.power with pump := true, reversed := false } } else .next s

/-! ### Wake (R80 to R82) -/

/-- A wake event: held until the entry to STANDBY is complete (R81). One that comes while the device wakes adds nothing. -/
def wakeEvent (s : State) : State := if s.keeper.waking then s else { s with keeper := { s.keeper with wakeHeld := true } }

def execStandbyWakeTimer (s : State) : Out State :=
  if s.keeper.dev == .standby && !s.keeper.waking && s.nat 0x01 0 2 != 0 then .next (wakeEvent s) else .next s

/-- A wake event, held or still posted over SPI (R80, R100), starts the sequence. -/
def execWake (s : State) : Out State :=
  if s.keeper.dev == .standby && (s.keeper.wakeHeld || s.spi.posted.any (wakeFrame s)) && !s.keeper.waking && !s.keeper.halted then
    .next (startSequence { s with
      keeper := { s.keeper with wakeHeld := false, waking := true }, power := { s.power with retries := 0 } })
  else .next s

end Sys2Proof.Machine
end

