-- ==== Sys2Proof/Machine/ChannelOps.lean ====
section
/-! DEFINITION. Operations on a channel's state machine shared by several families: twin holds, mute sources, DIAG, voltage-only
protection and the return to RUN (R264, R268 to R274, R307, R320, R369, R374). -/

namespace Sys2Proof.Machine

/-- The rail of a channel regulates and accepts selections (R272, R342, R345). -/
def railUp (s : State) (c : Nat) : Bool := (s.rail (rcOf c)).state == .regulating && !(s.rail (rcOf c)).stopReq

/-- The pair shares and the link is up (R358, R380). -/
def sharing (s : State) : Bool := s.twin.effShared && s.twin.link

/-- The bridge switches: the limits are armed (R259). -/
def armed (s : State) (c : Nat) : Bool := (s.chan c).fsm.bridge == .switching

/-- Both sides drive the channel (R372). -/
def bothDrive (s : State) (c : Nat) : Bool := sharing s && (s.chan c).share.partnerDrives && armed s c

/-- The mute line of a channel: the own, and while both sides drive it also the partner's (Table 14.9). -/
def muteOf (s : State) (c : Nat) : Bool := muteLine s || (s.twin.muted && bothDrive s c)

/-- This side is the joiner of a channel (R374). A side that does not drive it is, where the partner drives, or neither does and this side is not
the LEAD; one that drives is where the partner drives too and this side joined it. -/
def joiner (s : State) (c : Nat) : Bool :=
  let h := (s.chan c).share
  s.twin.effShared && (if armed s c then h.partnerDrives && (h.joinReq || h.joined) else h.partnerDrives || s.twin.role != .lead)

/-- The starter's channel is in IDLE or MUTED (R374). -/
def starterWaits (s : State) (c : Nat) : Bool := (s.chan c).share.partnerState == 3 || (s.chan c).share.partnerState == 5

/-- A channel held by its twin role (R272, R369, R374). A side without a role drives nothing yet (notes/assumptions/14.md). -/
def heldByRole (s : State) (c : Nat) : Bool :=
  if s.nat 0x08 0 0 = 0 then false
  else if s.twin.role = .none then true
  else if s.twin.effShared then joiner s c && !(starterWaits s c && s.twin.link)
  else s.twin.role == .follow

/-- Some mute source stands at 0 on the channel (R271). -/
def muteSource (s : State) (c : Nat) : Bool :=
  let d := (s.chan c).dsp
  (s.flag 0x10 c 3 && d.mute.now == 0) || (muteOf s c && d.e.now == 0)

/-- Every mute source is released (R271). -/
def muteReleased (s : State) (c : Nat) : Bool := !s.flag 0x10 c 3 && !muteOf s c

/-- MUTED returns to RUN (R272): the admission ramp runs again where it had been cut short or never ran (R264, R273). -/
def unmute (c : Nat) (s : State) : State :=
  if (s.chan c).fsm.state = .muted ∧ (s.chan c).fsm.stop = .none ∧ muteReleased s c then
    (maskDue c s).modChan c fun h => { h with
      fsm := { h.fsm with state := .run }
      dsp := { h.dsp with fade := if h.dsp.fade.goal = 1 then h.dsp.fade else h.dsp.fade.to 1 1024 } }
  else s

/-- IDLE ends: RUN with the admission ramp, or MUTED while a mute source is present (R264, R272). -/
def admitChannel (c : Nat) (s : State) : State :=
  if muteSource s c then (maskDue c s).modFsm c fun f => { f with state := .muted, admitted := false }
  else (maskDue c s).modChan c fun h => { h with
    fsm := { h.fsm with state := .run, admitted := false }, dsp := { h.dsp with fade := ⟨0, 1, 0, 1024⟩ } }

/-- The test that follows the calibration: the cell check, the relay check or test 3 (Table 12.1, R324). -/
def firstTest (s : State) (c : Nat) (retest : Bool) : Nat :=
  if isL c then 1 else if s.flag 0x10 c 0x16 && !retest then 2 else 3

/-- Begin DIAG, or the join check that replaces it (R272, R307, R375): from no swap (R269), with the relay de-energised. A code
latched by R311 stops it at once. CELL_FAILED stays latched until the cell check passes (R303). -/
def startDiag (c : Nat) (s : State) : State :=
  let f := (s.chan c).fsm
  let s1 := (maskDue c s).modChan c fun h => { h with
    fsm := { h.fsm with
      state := .diag, bridge := if joiner s c then .open else .test, code := if f.code = chanCode c 0x44 then f.code else 0, calDone := false, diagStep := firstTest s c false
      diagPassed := 0, polRepeat := false, swapOn := s.nat 0x10 c 0x18 == 1, swapV := false, swapI := false, foundV := false, foundI := false, relayWant := false
      admitted := false, tauOk := false, trimOk := false, coilLatched := 0 }
    share := { h.share with joinReq := joiner s c, markAt := none } }
  if f.coilLatched = 0 then s1
  else enterFault c (chanCode c f.coilLatched) [wordU (1000 * f.coilRead)] s1

/-- The next test after step `n` passed. -/
def passTest (c n : Nat) (s : State) : State :=
  s.modFsm c fun f => { f with
    diagPassed := f.diagPassed ||| BitVec.ofNat 7 (2 ^ (n - 1))
    diagStep := if n = 1 then (if f.state = .diag && s.flag 0x10 c 0x16 then 2 else 3) else n + 1
    relayWant := if (n = 2 || (n = 1 && !(f.state = .diag && s.flag 0x10 c 0x16))) && s.flag 0x10 c 0x16 then true else f.relayWant }

/-- A test fails: FAULT from DIAG; in a re-test the result waits for RETEST_COMPLETE (R307, R324). -/
def failTest (c code : Nat) (data : List Word) (s : State) : State :=
  if (s.chan c).fsm.state = .retest then
    s.modFsm c fun f => { f with diagStep := 8, failCode := code, failData := data, bridge := holdFor s c }
  else enterFault c code data s

/-- Every test passes: PRECHARGE (R272). -/
def toPrecharge (c : Nat) (s : State) : State :=
  (maskDue c (noteDiag c 0 s)).modFsm c fun f => { f with state := .precharge, diagStep := 9, code := 0, relayWant := s.flag 0x10 c 0x16 }

/-- A window that is not valid breaks the run toward a convergence; after one, the last valid windows stay (R229, R233). -/
def Model.cutWindow (m : Model) : Model :=
  { m with reWin := if m.reConv then m.reWin else [], idWin := if m.idConv then m.idWin else [] }

/-- Enter voltage-only protection (R239, R320). -/
def enterVoltageOnly (c case : Nat) (s : State) : State :=
  if (s.chan c).fsm.voltageOnly then s else
    let s1 := s.modChan c fun h => { h with fsm := { h.fsm with voltageOnly := true }, model := h.model.cutWindow }
    (s1.raise (chanCode c 0x13) c [word case]).raise 0x400C c []

/-- Full protection again (R308): the measured path waits for RUN and restarts from rest there (R239). -/
def leaveVoltageOnly (c : Nat) (s : State) : State :=
  if (s.chan c).fsm.voltageOnly then
    s.modChan c fun h => { h with fsm := { h.fsm with voltageOnly := false }, model := { h.model with fromRest := true } }
  else s

/-- The cause of a latched channel code is still present (R325). -/
def causePresent (s : State) (c : Nat) : Bool :=
  let f := (s.chan c).fsm
  match f.code % 0x1000 with
  | 0x15 => !(latchesOn s.pwm c).isEmpty
  | 0x21 => decide (85 - (s.dsd (dsdOf c)).thetaK ≤ (s.dsd (dsdOf c)).zoneC)
  | 0x14 => !((s.rail (rcOf c)).state == .regulating)
  | 0x16 => !(s.dsd (dsdOf c)).linked
  | _ => false

/-- The cause that a re-test of the latched code waits for is gone (Table 12.5, R345, R377), and its twin role does not hold it: a joiner waits
until the starter's channel is in IDLE or MUTED with the link up (R369, R374, R380). -/
def retestReady (s : State) (c : Nat) : Bool :=
  retestable (s.chan c).fsm.code && !causePresent s c && railUp s c && (s.dsd (dsdOf c)).released && (s.dsd (dsdOf c)).linked
    && (latchesOn s.pwm c).isEmpty && !heldByRole s c

/-- CLEAR_FAULT on one channel (R54, R111, R272, R325), which waits in OFF where its twin role holds it (R369, R374); the 2-level fallback then ends with a passing cell check (R304). -/
def clearChannel (c : Nat) (s : State) : State :=
  let s1 := s.modFsm c fun f => { f with cellClear := f.cellClear || f.cellFallback }
  if s.enabled c ∧ (s.chan c).fsm.state = .fault ∧ !causePresent s c then (if heldByRole s c then toOff c s1 else startDiag c s1) else s1

/-- The largest trimmed offset, ±1.0 % of full scale, and the drift level, ±0.5 %, in converter LSB (R405). -/
def offsetMax : Int := 83886
def offsetDrift : Int := 41943

/-- A new offset pair (R405): held within its limits, and reported at most once per channel per 24 h beyond the drift level. The pairs of the
2.0 ms that the calibration lasts, 192 samples, are invalid, and with them the pilot window: the model takes them after the command that gives
the result (notes/assumptions/76.md). In a re-test of an S-channel the relay follows (R324). -/
def setOffsets (c : Nat) (vOff iOff : Int) (s : State) : State :=
  let s1 := s.modFsm c fun f => { f with
    calDone := true, calAt := s.media.samples, calTo := s.media.samples + 192
    relayWant := if f.state = .retest && !isL c then s.flag 0x10 c 0x16 else f.relayWant
    vOff := clampInt (-offsetMax) offsetMax vOff, iOff := clampInt (-offsetMax) offsetMax iOff }
  if offsetDrift < absInt vOff ∨ offsetDrift < absInt iOff then
    s1.raiseHeldAs (86400 * second) 0xA002 c [BitVec.ofInt 32 vOff, BitVec.ofInt 32 iOff]
  else s1

/-! ### Delays and the frequency law (R248 to R252, R286) -/

/-- MOD ticks per second at the steer in force (R27, R248). -/
def tickHz (s : State) : Rat := 196608000 * (1 + s.media.steer / 1000000)

/-- τ_cl or τ_f in force, in ns: measured since the reset, else the Keeper's stored value, else 4.000 µs or 6.000 µs (R248, R286). -/
def tauOf (s : State) (c : Nat) : Rat :=
  let l := (s.chan c).loop
  if l.tauNs = 0 then l.tauStored.getD (if isL c then 6000 else 4000) else l.tauNs

/-- The alignment delay A of a delay in ns: 2,048 − ceil(τ / t_tick) (R248). -/
def alignTicks (s : State) (tauNs : Rat) : Nat := 2048 - (tauNs * tickHz s / 1000000000).ceil.toNat
/-- A in force: before the first measurement after a reset it follows from the stored delay or 4.000 µs (R248). -/
def alignOf (s : State) (c : Nat) : Nat := if (s.chan c).loop.tauNs = 0 then alignTicks s (tauOf s c) else (s.chan c).loop.align

/-- f0_eff of a channel in kHz (R250). -/
def f0Eff (s : State) (c : Nat) : Rat := s.ratv 0x10 c 0x10 * (1 + 4/1000 * (((c % 8 : Nat) : Rat) - 7/2))

/-- The high and the low time of leg A in ms at modulation index m, and its duty (R245, R251). -/
def legHigh (s : State) (c : Nat) (m : Rat) : Rat := 1 / (2 * f0Eff s c * (1 + (s.chan c).loop.spread) * (1 - m))
def legLow (s : State) (c : Nat) (m : Rat) : Rat := 1 / (2 * f0Eff s c * (1 + (s.chan c).loop.spread) * (1 + m))
def dutyA (m : Rat) : Rat := (1 + m) / 2

/-- The trim of an S-channel has converged (R252): a comparator window, and an idle frequency within ±1 % of f0_eff·(1 + s), both free within
that. -/
def trimLoop (c : Nat) (s : State) : State :=
  let w := s.drawRat
  let e := w.2.drawRat
  e.2.modLoop c fun l => { l with
    window := absRat w.1, fswIdle := f0Eff s c * (1 + (s.chan c).loop.spread) * (1 + clampRat (-1/100) (1/100) e.1) }

end Sys2Proof.Machine
end

