-- ==== Sys2Proof/Machine/Stage.lean ====
section
/-! DEFINITION. The emergency mute, the stage temperatures and the Keeper's sensors (R312, R313, R321 to R323, R384, R398). -/

namespace Sys2Proof.Machine

/-! ### The emergency mute -/

/-- MUTE_N has been sampled at one level on `ticks` consecutive ticks: 64 of them pass its filter (R312). The MOD domain runs once the media
PLL is locked. -/
def execMuteNFiltered (low : Bool) (ticks : Nat) (s : State) : Out State :=
  if s.media.locked && decide (64 ≤ ticks) then .next { s with spi := { s.spi with mutePin := low } } else .next s

/-- The multiplier of every enabled channel heads for `goal` (R313); it does not rise where the partner's line holds it (Table 14.9). -/
def moveE (goal : Rat) (s : State) : State :=
  { s with chans := s.chans.mapIdx fun c h => if s.enabled c && !(goal != 0 && s.twin.muted && bothDrive s c) then { h with dsp := { h.dsp with e := h.dsp.e.to goal 1024 } } else h }

/-- The first window after an assertion (R313): also one that finds the mute rising. -/
def execEmuteFallStart (s : State) : Out State :=
  if s.media.locked && muteLine s && (s.misc.muteState == 0 || s.misc.muteState == 3) then
    .next { moveE 0 s with misc := { s.misc with muteState := 1 } }
  else .next s

/-- e is 0 on every enabled channel (R313). -/
def allMuted (s : State) : Bool := (List.range 208).all fun c => !s.enabled c || (s.chan c).dsp.e.now == 0

def execEmuteSilent (s : State) : Out State :=
  if s.misc.muteState == 1 && allMuted s then
    let s1 := ({ s with misc := { s.misc with muteState := 2 }, spi := { s.spi with silent := true } } : State).irq irqMuted
    .next (s1.raise 0x5050 0 [word (bit s.spi.mutePin 0 + bit s.spi.emute 1)])
  else .next s

/-- The first window after the release (R313, R272). The fall of a brown-out or of SAFE goes on (R63). -/
def execEmuteRiseStart (s : State) : Out State :=
  if s.media.locked && !muteLine s && (s.misc.muteState == 1 || s.misc.muteState == 2) then
    let s1 := if s.power.falling || s.keeper.dev == .safe then s else moveE 1 s
    let s2 : State := { s1 with misc := { s1.misc with muteState := 3 }, spi := { s1.spi with silent := false } }
    .next ((forUnits 208 unmute s2).raise 0x5051 0 [])
  else .next s

/-! ### Heatsink zones (R321 to R323) -/

/-- One more reading; the mean is over the last 16 (R321). `hotMs` counts the readings, 1 ms apart, at the shutdown level of Table 12.2, less
the ageing offset of Table 15.8. -/
def zoneTake (t : Rat) (q : Dsd) : Dsd :=
  let l := (q.readings ++ [t]).drop (q.readings.length - 15)
  let m := mean l
  { q with readings := l, zoneC := m, shut := q.shut && decide (85 - q.thetaK ≤ m), hotMs := if 105 - q.thetaK ≤ m then q.hotMs + 1 else 0 }

def ntcInRange (ohm : Rat) : Bool := decide (100 ≤ ohm) && decide (ohm ≤ 1000000)
/-- 0 in range, 1 for an open thermistor, 2 for a shorted one. -/
def ntcKind (ohm : Rat) : Nat := if ntcInRange ohm then 0 else if 1000000 < ohm then 1 else 2

/-- A reading every 1 ms (R321): one out of range is never taken into the mean, and the readings of one kind in a row are counted, also while the
die's own sensor substitutes. -/
def zoneReading (ohm dieC : Rat) (q : Dsd) : Dsd :=
  let n := if q.ntcBad = ntcKind ohm then q.ntcMs + 1 else 1
  let q1 := if q.onDie then zoneTake dieC q else if ntcInRange ohm then zoneTake (ntcCelsius ohm) q else q
  { q1 with ntcBad := ntcKind ohm, ntcMs := n }

def execZoneNtcSample (d : Nat) (ohm dieC : Rat) (s : State) : Out State :=
  if (s.dsd d).released then .next (s.modDsd d (zoneReading ohm dieC)) else .next s

/-- The failure of the thermistor that is declared, 0 for none. Where the source of T_zone changes, the mean starts afresh (R321). -/
def zoneSource (d kind : Nat) (s : State) : State :=
  s.modDsd d fun q =>
    if q.onDie = (kind != 0) then { q with ntcWas := kind }
    else { q with onDie := kind != 0, ntcWas := kind, readings := [], ntcBad := 0, ntcMs := 0, hotMs := 0 }

/-- 100 ms of readings of one kind out of range have come, and that kind is not declared. -/
def ntcFailed (q : Dsd) (kind : Nat) : Bool := q.released && q.ntcWas != kind && q.ntcBad == kind && decide (100 ≤ q.ntcMs)

def execZoneNtcOpen (d : Nat) (ohm : Rat) (s : State) : Out State :=
  if ntcFailed (s.dsd d) 1 && decide (1000000 < ohm) then
    .next ((zoneSource d 1 s).raise 0x5022 (0x100 + d) [ohmWord ohm])
  else .next s

def execZoneNtcShort (d : Nat) (ohm : Rat) (s : State) : Out State :=
  if ntcFailed (s.dsd d) 2 && decide (ohm < 100) then
    .next ((zoneSource d 2 s).raise 0x5023 (0x100 + d) [ohmWord ohm])
  else .next s

/-- 10 s of readings in range have come. -/
def execZoneNtcReturn (d : Nat) (s : State) : Out State :=
  let q := s.dsd d
  if q.released && q.onDie && q.ntcBad == 0 && decide (10000 ≤ q.ntcMs) then .next (zoneSource d 0 s) else .next s

/-- 105 °C, less the ageing offset of Table 15.8, for 100 ms (R322, R323). The die's event is raised once until T_zone has fallen below 85 °C;
each further 100 ms stops what has started since. -/
def execStageShutdown (d : Nat) (s : State) : Out State :=
  let q := s.dsd d
  if q.released && decide (100 ≤ q.hotMs) then
    let t := [wordU (10 * q.zoneC)]
    let s0 := s.modDsd d fun q => { q with shut := true, hotMs := 0 }
    let s1 := if q.shut then s0 else s0.raise 0x5021 (0x100 + d) t
    .next (forList (chansOf d) (fun c s => if (s.chan c).fsm.bridge = .switching then hardStop c (chanCode c 0x21) t s else s) s1)
  else .next s

/-! ### Junctions and Keeper sensors (R384, Table 15.1) -/

/-- The junction shutdown limit (R433). -/
def junctionLimit : Rat := clampRat 125 135 Config.junctionLimit

/-- Table 3.7 takes these states to SAFE. -/
def entersSafe (d : DevState) : Bool := d == .ready || d == .run || d == .update

/-- A junction above the shutdown limit for 10 ms (R384, R433). The crossing is reported once; a device that was in BOOT at the crossing enters
SAFE from the first state that Table 3.7 takes there. -/
def execJunctionShutdown (die : Nat) (tempC : Rat) (s : State) : Out State :=
  let d := s.keeper.dev
  if islandUp s && s.power.seqDone && (!s.misc.junctionHot || entersSafe d) && decide (die < 5) && decide (junctionLimit < tempC) then
    let s1 := if s.misc.junctionHot then s
      else ({ s with misc := { s.misc with junctionHot := true } } : State).raise 0x900C die [wordS (10 * tempC)]
    if entersSafe d ∨ d = .safe then
      let s2 := abortTests (fun _ => true) 0xA011 (abandonUpdate (startFall s1))
      .next (enterSafe 6 3 { s2 with power := { s2.power with falling := true } })
    else .next s1
  else .next s

def execJunctionWarn (die : Nat) (tempC : Rat) (s : State) : Out State :=
  if canLog s && !s.misc.junctionEp && decide (s.ratv 0x01 0 0xB ≤ tempC) then
    .next (({ s with misc := { s.misc with junctionEp := true } } : State).raise 0x900B die [wordS (10 * tempC)])
  else .next s

/-- A histogram sample: one count in bin floor(x), clamped to 0 to 31 (R398). -/
def histogram (base : Nat) (x : Rat) (s : State) : State := s.life (base + (clampInt 0 31 x.floor).toNat) 1

def maxRat (l : List Rat) : Rat := l.foldl max (l.headD 0)

/-- The periodic sensors of Table 15.1: junctions of DSD0 to DSD3 and the CD, VBUS, the supply monitors, the reference monitors and the ring
oscillators (R384, Table 15.7). Below 125 °C, the least limit of R433, the cause of a junction shutdown is gone (notes/assumptions/15.md). -/
def execKeeperSensorSample (junctions : List Rat) (vbus : Rat) (supplies srefs rings : List Rat) (s : State) : Out State :=
  if firmwareRuns s then
    let hi := maxRat junctions
    let s1 : State := { s with
      power := { s.power with vbus := vbus }
      misc := { s.misc with
        junction := junctions, supplies := supplies, srefs := srefs, rings := rings
        junctionEp := s.misc.junctionEp && !decide (hi ≤ s.ratv 0x01 0 0xB - 5)
        junctionHot := s.misc.junctionHot && decide (125 ≤ hi) } }
    if s.misc.secondAt ≤ s.keeper.counterUs then
      let s2 := histogram (devStat 0x920) (vbus / 2) { s1 with misc := { s1.misc with secondAt := s.keeper.counterUs + second } }
      if s.keeper.dev = .standby then .next s2
      else
        let s3 := histogram (devStat 0x900) (((junctions.getD 4 0) + 40) / 5) s2
        .next (forUnits 4 (fun d s => histogram (devStat (0x940 + 0x20 * d)) (((s.dsd d).zoneC + 20) / 5) s) s3)
    else .next s1
  else .next s

end Sys2Proof.Machine
end

