-- ==== Sys2Proof/Machine/NetOps.lean ====
section
/-! DEFINITION. Ethernet, IPv4, UDP and IGMP bytes, receive rings, and stream lookup (R137 to R143, R163 to R166). -/

namespace Sys2Proof.Machine

/-! ### Frames -/

/-- A port's MAC address (R138). -/
def macOf (p : Nat) : List Byte :=
  (if p = 0 then 0x02 else if p = 1 then 0x06 else 0x0A) :: be 5 (Config.serial.toNat % 2 ^ 40)

def broadcastMac : List Byte := List.replicate 6 0xFF
/-- The multicast MAC of an IPv4 group. -/
def groupMac (g : Nat) : List Byte := [0x01, 0x00, 0x5E] ++ be 3 (g % 2 ^ 23)

/-- The port's IPv4 address: that of NA or NB, or the NM address. -/
def portAddr (s : State) (p : Nat) : Nat := if p < 2 then s.nat 0x02 0 (2 + p) else s.cfg.active.nmAddr

/-- The VLAN tag of a frame: none, or its VLAN ID. -/
def vlanOf (f : List Byte) : Option Nat := if beAt f 12 2 = 0x8100 then some (beAt f 14 2 % 0x1000) else none
/-- EtherType and what follows it, without the FCS. -/
def etherType (f : List Byte) : Nat := if (vlanOf f).isSome then beAt f 16 2 else beAt f 12 2
def etherBody (f : List Byte) : List Byte := (f.take (f.length - 4)).drop (if (vlanOf f).isSome then 18 else 14)

/-- The ones'-complement sum of 16-bit words that the Internet checksums use. -/
def sum16 (l : List Byte) : Nat :=
  let s := (List.range ((l.length + 1) / 2)).foldl (fun a i => a + 256 * ((l.getD (2 * i) 0).toNat) + (l.getD (2 * i + 1) 0).toNat) 0
  let t := s % 65536 + s / 65536
  t % 65536 + t / 65536

/-- An IPv4 packet that the ports pass (R139): IHL 5, a good header checksum, whole, not a fragment. -/
def ipOk (b : List Byte) : Bool :=
  leAt b 0 1 == 0x45 && decide (20 ≤ beAt b 2 2) && decide (beAt b 2 2 ≤ b.length) && sum16 (b.take 20) == 0xFFFF && beAt b 6 2 % 0x4000 == 0
def ipProto (b : List Byte) : Nat := leAt b 9 1
def ipSrc (b : List Byte) : Nat := beAt b 12 4
def ipDst (b : List Byte) : Nat := beAt b 16 4
def ipData (b : List Byte) : List Byte := sub b 20 (beAt b 2 2 - 20)

/-- A UDP datagram whose length fits and whose checksum, if not 0, is correct (R139). -/
def udpOk (b : List Byte) : Bool :=
  let u := ipData b
  decide (8 ≤ u.length) && beAt u 4 2 == u.length
    && (beAt u 6 2 == 0 || sum16 (sub b 12 8 ++ be 2 17 ++ be 2 u.length ++ u) == 0xFFFF)
def udpPort (b : List Byte) : Nat := beAt (ipData b) 2 2
def udpData (b : List Byte) : List Byte := (ipData b).drop 8

/-! ### Groups (R141) -/

/-- 224.0.1.129, the PTP group. -/
def ptpGroup : Nat := 0xE0000181

/-- The pair group of a network beacon (R363): none without a system ID. -/
def pairGroup (b : Bank) : Option Nat :=
  let own := b.nat 0x01 0 8
  let g := if b.nat 0x08 0 0 = 0 ∨ b.nat 0x08 0 1 = 0 then own else min own (b.nat 0x08 0 1)
  if own = 0 then none else some ((239 * 256 + (252 + g / 65536 % 4)) * 65536 + g % 65536)

/-- The groups that a port has to join. -/
def wantedGroups (b : Bank) (p : Nat) : List Nat :=
  (((List.range 32).filter fun i => b.streamOn i && b.streamSide i p && groupAddr (b.streamGroup i p)).map fun i => b.streamGroup i p).dedup
    ++ (if b.ptpOn p then [ptpGroup] else []) ++ (pairGroup b).toList

/-- One IGMP message toward a group, with its checksum. -/
def igmpBytes (l : List Byte) : List Byte := l.take 2 ++ be 2 (0xFFFF - sum16 l) ++ l.drop 4

/-- A report of group records (type, group) in the mode of the querier (RFC 3376, RFC 2236, RFC 1112). Record types: 2 is, 3 to
include, 4 to exclude. -/
def igmpSent (p version : Nat) (recs : List (Nat × Nat)) : List Sent :=
  if recs.isEmpty then []
  else if 3 ≤ version then
    [⟨p, 0xE0000016, 0, igmpBytes ([0x22, 0, 0, 0, 0, 0] ++ be 2 recs.length ++ recs.flatMap fun r => [BitVec.ofNat 8 r.1, 0, 0, 0] ++ be 4 r.2)⟩]
  else recs.flatMap fun r =>
    if r.1 = 3 then (if version = 2 then [⟨p, 0xE0000002, 0, igmpBytes ([0x17, 0, 0, 0] ++ be 4 r.2)⟩] else [])
    else [⟨p, r.2, 0, igmpBytes ([if version = 2 then 0x16 else 0x12, 0, 0, 0] ++ be 4 r.2)⟩]

def sendAll (l : List Sent) (s : State) : State := l.foldl (fun s f => s.send f) s

/-- The mode of a port (RFC 3376): that of the oldest querier heard in the last 260 s, the timeout of that standard with its default values
(notes/assumptions/62.md). -/
def igmpVersion (s : State) (p : Nat) : Nat :=
  if s.keeper.counterUs < (s.port p).v1Till then 1 else if s.keeper.counterUs < (s.port p).v2Till then 2 else 3

/-- A query is heard, and answered with what the port has joined: a general one (group 0), or of one group. -/
def answerQuery (p version group : Nat) (s : State) : State :=
  let till := s.keeper.counterUs + 260 * second
  let s1 := s.modPort p fun q =>
    if version = 1 then { q with v1Till := till } else if version = 2 then { q with v2Till := till } else q
  let gs := if group = 0 then (s.port p).groups else (s.port p).groups.filter (· == group)
  sendAll (igmpSent p (igmpVersion s1 p) (gs.map fun g => (2, g))) s1

/-- A state-change report: sent now, and once more 1 s later (R141); after a halt where the Keeper is halted (R36). -/
def reportChange (p : Nat) (recs : List (Nat × Bool)) (s : State) : State :=
  if recs.isEmpty || !(s.port p).up then s
  else if s.keeper.halted then s.modPort p fun q => { q with reportHeld := q.reportHeld ++ recs }
  else
    sendAll (igmpSent p (igmpVersion s p) (recs.map fun r => (if r.2 then 4 else 3, r.1)))
      (s.modPort p fun q => { q with reportDue := q.reportDue ++ recs })

/-- Join and leave what the active configuration asks for. -/
def updateGroups (p : Nat) (s : State) : State :=
  let want := if s.cfg.active.portOn p then wantedGroups s.cfg.active p else []
  let have_ := (s.port p).groups
  reportChange p (((want.filter fun g => !have_.contains g).map fun g => (g, true)) ++ ((have_.filter fun g => !want.contains g).map fun g => (g, false)))
    (s.modPort p fun q => { q with groups := want })

/-! ### Receive rings (R165, R166) -/

/-- Word 1 of a filled descriptor (Table 6.12). -/
def descWord (sof eof discard err : Bool) (len : Nat) : Word :=
  word (bit sof 30 + bit eof 29 + bit discard 28 + bit err 27 + len)

/-- The rings in Keeper SRAM (R165): for ring p 128 descriptors of 16 bytes, then 128 buffers of 512 bytes. Where they begin, and that they
follow each other, is not stated (notes/assumptions/61.md). -/
def descAddr (p i : Nat) : Nat := 0x800000 + 4 * (Config.ringBase % 860000) + 67584 * p + 16 * i
def bufAddr (p i : Nat) : Nat := 0x800000 + 4 * (Config.ringBase % 860000) + 67584 * p + 2048 + 512 * i

/-- The four words of a descriptor: buffer address, Table 6.12, the low half of the PTP receive time, reserved. -/
def descBytes (p i : Nat) (w1 : Word) (ns : Nat) : List Byte := le 4 (bufAddr p i) ++ le 4 w1.toNat ++ le 4 ns ++ zeros 4

/-- A descriptor is filled with its buffer, or returned to the MAC with OWN. -/
def ringPut (p i : Nat) (w1 : Word) (buf : List Byte) (s : State) : State :=
  { s with sram := putBytes (bufAddr p i) buf (putBytes (descAddr p i) (descBytes p i w1 s.ptp.timeNs) s.sram) }
def ringGive (p i : Nat) (s : State) : State := { s with sram := putBytes (descAddr p i + 4) (le 4 0x80000000) s.sram }

/-- A frame into consecutive descriptors of a ring, up to the next one that belongs to the Keeper. Whether the four bytes of the FCS are written
into the buffers and counted in LENGTH is not stated: the model writes and counts the whole frame as it arrived (notes/assumptions/61.md). -/
def fillRing (p : Nat) (frame : List Byte) (bad : Bool) (s : State) : State :=
  let q := s.port p
  let n := max 1 ((frame.length + 511) / 512)
  let free := ((List.range 128).takeWhile fun j => !(q.ring.any (·.1 == (q.ringNext + j) % 128))).length
  let m := min n free
  let full := decide (free < n)
  let put := fun i =>
    ((q.ringNext + i) % 128, descWord (i == 0) (!full && i + 1 == n) (bad || full) bad (min 512 (frame.length - 512 * i)))
  let buf := fun i => ((q.ringNext + i) % 128, sub frame (512 * i) 512)
  let s1 := s.modPort p fun q => { q with
    ring := q.ring ++ (List.range m).map put
    ringBytes := q.ringBytes ++ (List.range m).map buf
    ringNext := (q.ringNext + m) % 128 }
  let s2 := (List.range m).foldl (fun s i => ringPut p (put i).1 (put i).2 (buf i).2 s) s1
  if full then s2.count (netStat (0x10 * p + 5)) 1 else s2

/-- The frames that a ring holds for the Keeper, in order; a DISCARD descriptor is skipped (R166). -/
def ringFrames (q : Port) : List (List Byte) :=
  (q.ring.foldl (fun (a : List (List Byte) × List Byte) d =>
    let buf := ((q.ringBytes.find? (·.1 == d.1)).map (·.2)).getD []
    let cur := (if d.2.getLsbD 30 then [] else a.2) ++ buf
    if d.2.getLsbD 28 then (a.1, []) else if d.2.getLsbD 29 then (a.1 ++ [cur], []) else (a.1, cur)) ([], [])).1

/-- The descriptor word at an address of Keeper SRAM: ring, descriptor and word. -/
def descOf? (a : Nat) : Option (Nat × Nat × Nat) :=
  if a < 0x800000 then none
  else
    let o := a - descAddr 0 0
    if descAddr 0 0 ≤ a ∧ o < 3 * 67584 ∧ o % 67584 < 2048 then some (o / 67584, o % 67584 / 16, o % 16 / 4) else none

/-- A descriptor word as the Keeper and PEEK see it (R165): word 1 has OWN at 1 unless the descriptor belongs to the Keeper; none for the words
that stand in SRAM as they are. -/
def descShown (s : State) (a : Nat) : Option Word :=
  match descOf? a with
  | some (p, i, 0) => some (word (bufAddr p i))
  | some (p, i, 1) => some (match (s.port p).ring.find? (·.1 == i) with | some d => d.2 | none => 0x80000000)
  | _ => none

/-- A write of word 1 of a descriptor (Table 6.12): OWN gives it to the MAC, or to the Keeper with the other fields as written. -/
def descWrite (a : Nat) (v : Word) (s : State) : State :=
  match descOf? a with
  | some (p, i, 1) => s.modPort p fun q =>
    if v.getLsbD 31 then { q with ring := q.ring.filter (·.1 != i) }
    else
      let w := v &&& 0x7800FFFF
      { q with ring := if q.ring.any (·.1 == i) then q.ring.map fun d => if d.1 == i then (i, w) else d else q.ring ++ [(i, w)] }
  | _ => s

/-- The Keeper returns every descriptor of a ring. -/
def returnRing (p : Nat) (s : State) : State :=
  ((s.port p).ring.foldl (fun s d => ringGive p d.1 s) s).modPort p fun q => { q with ring := [], ringBytes := [] }

/-! ### Host datagrams (R101, R102) -/

/-- The Keeper accepts host datagrams to the NM address and `dev.host_udp_port` (R101). Before the configuration is loaded it has neither
and takes none: the model's choice (notes/assumptions/59.md). -/
def hostPort (s : State) (dst dport : Nat) : Bool :=
  firmwareRuns s && s.keeper.cfgLoaded && dst == s.cfg.active.nmAddr && dport == s.nat 0x01 0 3

/-- A host datagram (R101, R102): written into REQi and posted, or discarded and counted in `host_dgram_drop`. A mailbox number above 3,
which is in no case of R102, is treated as they are, and header bytes 2 to 3 are not checked (notes/assumptions/59.md). -/
def hostTake (addr port dst dport : Nat) (payload : List Byte) (s : State) : State :=
  if hostPort s dst dport then
    let i := leAt payload 0 1
    let frame := payload.drop 4
    let len := leAt frame 6 2
    let good := decide (20 ≤ payload.length) && decide (i < 4) && leAt payload 1 1 == 1 && (s.spi.reqBusy &&& bit4 i) == 0
      && (s.spi.rspReady &&& bit4 i) == 0 && !heldFor s i && decide (len ≤ 240) && frame.length == 16 + len
    if good then
      ring i { s with spi := { s.spi with
        mem := putBytes (0x400 + 0x100 * i) frame s.spi.mem
        udpFrom := (i, addr, port) :: s.spi.udpFrom.filter (·.1 != i), lastUdp := some (addr, port) } }
    else s.count (netStat 0x026) 1
  else s

/-! ### What the Keeper answers (R139, R140) -/

/-- The reply to an ARP request for the port's address, or to an ICMP echo request to it. -/
def keeperReply (s : State) (p : Nat) (f : List Byte) : List Sent :=
  let a := portAddr s p
  let b := etherBody f
  if a = 0 then []
  else if etherType f = 0x0806 ∧ beAt b 6 2 = 1 ∧ beAt b 24 4 = a then
    [⟨p, beAt b 14 4, 0, sub b 0 6 ++ be 2 2 ++ macOf p ++ be 4 a ++ sub b 8 10⟩]
  else if etherType f = 0x0800 ∧ ipOk b ∧ ipProto b = 1 ∧ ipDst b = a ∧ leAt (ipData b) 0 1 = 8 then
    let d := [0, 0, 0, 0] ++ (ipData b).drop 4
    [⟨p, ipSrc b, 0, d.take 2 ++ be 2 (0xFFFF - sum16 d) ++ d.drop 4⟩]
  else []

/-- What the Keeper does with a frame of a ring: a UDP datagram of NM is a host datagram (R101), the rest is answered (R140). -/
def keeperServes (p : Nat) (f : List Byte) (s : State) : State :=
  let b := etherBody f
  if p = 2 ∧ etherType f = 0x0800 ∧ ipOk b ∧ ipProto b = 17 ∧ udpOk b then
    hostTake (ipSrc b) (beAt (ipData b) 0 2) (ipDst b) (udpPort b) (udpData b) s
  else sendAll (keeperReply s p f) s

/-- The Keeper serves a ring: not while it is halted (R36), nor that of NM in STANDBY once a wake event has come (R164). -/
def ringServed (p : Nat) (s : State) : Bool := !s.keeper.halted && !(p == 2 && s.keeper.dev == .standby && (s.keeper.wakeHeld || s.keeper.waking))

def serveRing (p : Nat) (s : State) : State :=
  if ringServed p s then returnRing p ((ringFrames (s.port p)).foldl (fun s f => keeperServes p f s) s) else s

/-- A frame reaches the Keeper through a ring; one that has to wait there is served later. -/
def keeperTakes (p : Nat) (f : List Byte) (bad : Bool) (s : State) : State := serveRing p (fillRing p f bad s)

/-! ### Wake patterns (R163, R164) -/

/-- Masked bytes and values from a position. -/
def at_ (i : Nat) (l : List Byte) : List (Nat × Byte) := l.mapIdx fun j b => (i + j, b)

/-- A pattern of Table 6.11 as masked bytes with their required values, in order. -/
def wakePattern (s : State) (n : Nat) : List (Nat × Byte) :=
  let mac := macOf 2
  let addr := be 4 s.cfg.active.nmAddr
  let port := be 2 (s.nat 0x01 0 3)
  let udp := fun (dst : List Byte) (ip : List Byte) => at_ 0 dst ++ at_ 12 [0x08, 0x00, 0x45] ++ at_ 23 [0x11] ++ at_ 30 ip ++ at_ 36 port
  let macs := fun k => (List.replicate 20 mac).flatten.take k
  let magic := fun (p : Nat) => at_ 12 [0x08, 0x00, 0x45] ++ at_ 23 [0x11] ++ at_ 36 (be 2 p) ++ at_ 42 (List.replicate 6 0xFF) ++ at_ 48 (macs 80)
  let m := s.nat 0x01 0 6
  match n with
  | 0 => udp mac addr
  | 1 => udp broadcastMac (List.replicate 4 0xFF)
  | 2 => at_ 0 broadcastMac ++ at_ 12 [0x08, 0x06] ++ at_ 20 [0x00, 0x01] ++ at_ 38 addr
  | 3 => at_ 0 mac ++ at_ 12 [0x08, 0x00, 0x45] ++ at_ 23 [0x01] ++ at_ 30 addr ++ at_ 34 [0x08]
  | 4 => magic 9
  | 5 => magic 7
  | 6 => at_ 12 [0x08, 0x42] ++ at_ 14 (List.replicate 6 0xFF) ++ at_ 20 (macs 108)
  | _ => udp broadcastMac (be 4 (s.cfg.active.nmAddr ||| (0xFFFFFFFF - m)))

/-- A frame matches a pattern: long enough, and the CRC-16 of its masked bytes equals the check value. -/
def wakeMatch (s : State) (n : Nat) (f : List Byte) : Bool :=
  let p := wakePattern s n
  (p.all fun e => decide (e.1 < f.length)) && crc16 (p.map fun e => f.getD e.1 0) == crc16 (p.map (·.2))

/-! ### Streams -/

/-- The stream that a packet on a port belongs to: side, group and UDP port (R139, R144). -/
def streamOf (s : State) (p dst port : Nat) : Option Nat :=
  (List.range 32).find? fun i =>
    s.cfg.active.streamOn i && s.cfg.active.streamSide i p && s.cfg.active.streamGroup i p == dst && s.cfg.active.streamPort i == port

/-- A status field of a stream (Table 6.13). -/
def streamStat (st f : Nat) : Nat := netStat (0x100 + 0x10 * st + f)

end Sys2Proof.Machine
end

