-- ==== Sys2Proof/Machine/StreamOps.lean ====
section
/-! DEFINITION. What a stream carries, its fades and re-entries, and the fault injectors (R145 to R157, R410, R411). -/

namespace Sys2Proof.Machine

/-! ### Times -/

/-- MEDIA ticks per sample (R174). -/
def tickPer : Nat := 512
/-- The number of the DSP window that comes next (R208): window k begins at 8k − 11. -/
def winK (s : State) : Nat := (s.media.index + 11) / 8
/-- The first play index of that window's block. -/
def winBase (s : State) : Nat := 8 * winK s
/-- The sample that enters the DSP now (Table 1.3). -/
def readPoint (s : State) : Nat := s.media.index + 18

/-- The value nearest `ref` that is `v` modulo `m`. -/
def nearMod (m v ref : Nat) : Nat :=
  let d := (v % m + m - ref % m) % m
  if 2 * d < m ∨ ref + d < m then ref + d else ref + d - m

/-! ### Injectors (R410, R411) -/

/-- One step of the 31-bit register. -/
def lfsr31 (r : Nat) : Nat := 2 * r % 2 ^ 31 + (r / 2 ^ 30 + r / 2 ^ 27) % 2

/-- The instance of an injector's codes. -/
def injInst (k : Nat) : Nat := if k = 64 then 0xFFFF else k / 2

/-- An injector that was set is cleared (INJECT_CLEARED). A packet that it holds is still released. -/
def injClear (cause k : Nat) (s : State) : State :=
  if (s.inj k).action = 0 then s
  else (s.modInj k fun j => { heldPkt := j.heldPkt }).raise 0xA005 (injInst k) [word cause]

/-- Whether the injector selects this packet, with its action, and the injector afterwards. -/
def injSelect (k : Nat) (s : State) : Nat × State :=
  let j := s.inj k
  let hit := fun (s : State) => s.count (devStat (0xB00 + k)) 1
  if j.action = 0 then (0, s)
  else if j.mode = 0 then
    let r := lfsr31^[31] j.lfsr
    let s1 := s.modInj k fun j => { j with lfsr := r }
    if r * 1000000 < j.ppm * 2 ^ 31 then (j.action, hit s1) else (0, s1)
  else if j.mode = 1 ∨ j.left ≤ 1 then (j.action, injClear 4 k (hit s))
  else (j.action, hit (s.modInj k fun j => { j with left := j.left - 1 }))

/-! ### What a stream carries -/

/-- Sample `n` of entry `c` as placed: `step` is 2 at 48 kHz, where the indices between hold nothing. -/
def placedAt (l : List Placed) (c n : Nat) : Option Int :=
  match l.find? fun p => decide (p.idx ≤ n) && decide (n < p.idx + p.step * p.frames.length) && (n - p.idx) % p.step == 0 with
  | some p => some ((p.frames.getD ((n - p.idx) / p.step) []).getD c 0)
  | none => none

/-- Index `n` lies in a placed packet. -/
def covered (l : List Placed) (n : Nat) : Bool := l.any fun p => decide (p.idx ≤ n) && decide (n < p.idx + p.step * p.frames.length)

/-- Tap j of the half-band interpolator (R146): tap 16 is 1, other even taps 0, odd taps symmetric with sum 1. -/
def halfband (j : Nat) : Rat :=
  if j = 16 then 1 else if j % 2 = 0 then 0
  else
    let i := if j < 16 then j / 2 else (32 - j) / 2
    if i < 7 then Config.halfbandTap i
    else 1/2 - sumRat ((List.range 7).map Config.halfbandTap)

/-- The samples of entry `c` at index `n`, interpolated for a stream at half the rate (R146). -/
def received (half : Bool) (l : List Placed) (c n : Nat) : Int :=
  if half then
    roundOpen 10 (sumRat ((List.range 33).map fun j => halfband j * (if j ≤ n then (placedAt l c (n - j)).getD 0 else 0)))
  else (placedAt l c n).getD 0

/-- A fade of 32 samples and a ramp of 1,024 on a value (R154, R155). -/
def fadeOf (v : Int) (i : Nat) : Int := if i < 32 then roundOpen 11 ((v : Rat) * ((31 : Int) - i) / 32) else 0
def rampOf (v : Int) (i : Nat) : Int := if i < 1024 then roundOpen 12 ((v : Rat) * (i + 1) / 1024) else v

/-- A received value at `n` under a ramp that began at `r`, where there is one. -/
def underRamp (x : Int) (r : Option Nat) (n : Nat) : Int :=
  match r with
  | some r => if r ≤ n then rampOf x (n - r) else 0
  | none => x

/-- Index `n` lies at or after the start of a ramp. -/
def fromRamp (r : Option Nat) (n : Nat) : Bool := match r with | some r => decide (r ≤ n) | none => false

/-- What entry `c` of a stream carries at play index `n`. -/
def carried (half : Bool) (t : Stream) (c n : Nat) : Int :=
  let x := received half t.placed c n
  if t.state = .disabled then 0
  else match t.fadeFrom with
    | some f =>
      if fromRamp t.rampFrom n then underRamp x t.rampFrom n
      else if n < f then underRamp x t.fadeRamp n
      else fadeOf (if t.fadeReal then underRamp x t.fadeRamp n else t.last.getD c 0) (n - f)
    | none => if t.state = .waiting then 0 else underRamp x t.rampFrom n

def Bank.streamHalf (b : Bank) (st : Nat) : Bool := !b.streamHi st

/-- The placement that R157 gives every stream now: arrival, or timestamp. -/
def arrivalNow (s : State) : Bool :=
  !(s.media.source == 1 && (s.ptp.state == .locking || s.ptp.state == .locked || s.ptp.state == .holdover))

/-- A stream plays: it has something to fade. -/
def StreamState.plays : StreamState → Bool
  | .playing | .ramping => true
  | _ => false

/-- A stream fades from play index `n`, from the value last carried or over received data; it then waits for good blocks and an SSRC. -/
def streamFade (st n : Nat) (real : Bool) (s : State) : State :=
  let half := s.cfg.active.streamHalf st
  s.modStream st fun t =>
    { t with
      state := .faded, fadeFrom := some n, fadeReal := real, fadeRamp := t.rampFrom, rampFrom := none, good := 0
      last := (List.range (s.cfg.active.streamChans st)).map fun c => carried half t c (n - 1)
      ssrc := none, arrivalBase := none, overrun := none }

/-- A stream as it is enabled at MEDIA tick `tick`. -/
def Stream.fresh (arrival : Bool) (tick : Nat) : Stream := { state := .waiting, arrival := arrival, lastOn := [tick, tick], since := [tick, tick] }

/-- Index `n` is the placed index of a sample of the stream's own rate (R145, R146): every one at 96 kHz, every other at 48 kHz. -/
def sourceAt (b : Bank) (st : Nat) (t : Stream) (n : Nat) : Bool :=
  b.streamHi st || (match t.arrivalBase with
    | some o => ((n : Int) - o) % 2 == 0
    | none => (n + b.streamL st + b.streamD st) % 2 == 0)

/-! ### One block of every stream (R154, R155, R157) -/

/-- Stream `st` at the start of a window: block k + 1 is judged, a ramp that is over ends, a change of placement begins its fade, and
placed packets that every read has passed are dropped. -/
def streamBlock (st : Nat) (s : State) : State :=
  if !s.cfg.active.streamOn st then s
  else
    let t := s.stream st
    let b := winBase s + 8
    let gone := (List.range 8).filter fun i => !covered t.placed (b + i)
    let miss := gone.length
    let lost := (gone.filter fun i => sourceAt s.cfg.active st t (b + i)).length
    let s1 := if t.state = .faded ∧ 0 < lost then s.count (streamStat st 0xC) lost else s
    let good := if 0 < miss then 0
      else match t.fadeFrom with
        | some f => if f < b then t.good + 1 else t.good
        | none => t.good + 1
    let s2 := s1.modStream st fun t =>
      let done := t.state == .ramping && (match t.rampFrom with | some r => decide (r + 1024 ≤ winBase s) | none => true)
      let u : Stream := { t with
        good := if t.state = .faded ∨ t.state = .waiting then good else 0
        placed := t.placed.filter fun p => decide (winBase s ≤ p.idx + p.step * p.frames.length + 40) }
      if done then { u with state := .playing, rampFrom := none, fadeFrom := none, fadeReal := false, fadeRamp := none } else u
    if t.arrival = arrivalNow s then s2
    else if t.state.plays then
      (streamFade st (winBase s) true s2).modStream st fun t => { t with
        arrival := arrivalNow s, placed := t.placed.filter fun p => decide (p.idx < winBase s + 32) }
    else s2.modStream st fun t => { t with arrival := arrivalNow s, arrivalBase := none, placed := [], good := 0 }

/-- A media step moves the index: no packet is placed any more, and every stream waits for good blocks (R180). -/
def streamsCleared (s : State) : State :=
  { s with streams := s.streams.map fun t => if t.state = .disabled then t else
      { t with state := .faded, placed := [], seen := [], fadeFrom := none, rampFrom := none, good := 0, arrivalBase := none, ssrc := none, overrun := none } }

end Sys2Proof.Machine
end

