-- ==== Sys2Proof/Machine/Channels.lean ====
section
/-! DEFINITION. The channel state machine: start, DIAG, precharge, idle, run, stop and re-test (R18, R248 to R275, R299 to R301, R307,
R308, R310, R311, R317, R324, R405). -/

namespace Sys2Proof.Machine

/-- OFF to DIAG (R272): enabled, in RUN, the rail regulating, not held by the twin role, no trip latch, no pending commit restart. -/
def execChannelStart (c : Nat) (s : State) : Out State :=
  let f := (s.chan c).fsm
  let d := s.dsd (dsdOf c)
  if s.enabled c && f.state == .off && !f.restart && s.keeper.dev == .run && railUp s c && d.released && d.linked && !heldByRole s c
      && (latchesOn s.pwm c).isEmpty && !f.holdTest then .next (startDiag c s)
  else .next s

/-- The channel has stood below −60 dBFM for 50 ms, and 300 s since the last calibration (R405). -/
def quietCal (s : State) (c : Nat) : Bool :=
  let f := (s.chan c).fsm
  f.state.switching && decide (4800 ≤ (s.chan c).dsp.quiet) && decide (f.calAt + 300 * 96000 ≤ s.media.samples)

/-- The SENSE_CAL test of the channel that still has to calibrate (R406, R407); with FORCE the mute multiplier has reached 0. -/
def calTest (s : State) (c : Nat) : Bool :=
  s.enabled c && s.tests.list.any fun t => t.state == 0 && t.id == 2 && t.inst == c && t.values.isEmpty
    && (!t.force || !(s.chan c).fsm.state.switching || (s.chan c).dsp.testMute.now == 0)

/-- A calibration gives a SENSE_CAL test its values: voltage and current offsets before and after (Table 16.2); the mute multiplier that FORCE
brought to 0 ramps back (R407). -/
def noteCal (c : Nat) (vOff iOff : Int) (s0 : State) : State :=
  let s := if s0.tests.list.any fun t => t.state == 0 && t.id == 2 && t.inst == c && t.values.isEmpty && t.force then
      s0.modDsp c fun d => { d with testMute := d.testMute.to 1 1024 } else s0
  let f := (s.chan c).fsm
  let held := fun (x : Int) => (BitVec.ofInt 32 (clampInt (-offsetMax) offsetMax x)).toNat
  { s with tests := { s.tests with list := s.tests.list.map fun t =>
      if t.state = 0 ∧ t.id = 2 ∧ t.inst = c ∧ t.values.isEmpty then
        { t with values := le 4 (held f.vOff) ++ le 4 (held vOff) ++ le 4 (held f.iOff) ++ le 4 (held iOff) }
      else t } }

def execSenseOffsetCal (c : Nat) (vOff iOff : Int) (s : State) : Out State :=
  let f := (s.chan c).fsm
  if ((f.state == .diag || f.state == .retest) && !f.calDone) || quietCal s c || calTest s c then
    .next (setOffsets c vOff iOff (if calTest s c then noteCal c vOff iOff s else s))
  else .next s

/-- R_m in ohms and I_d in amperes of tests 2 and 6 (R307). -/
def rOf (r : TestReading) : Rat := absRat r.vMean / (20/1000)
def idOf (r : TestReading) : Rat := absRat r.iMean

/-- Which node of two a condition names: 1 A, 2 B. -/
def nodeWord (a : Bool) (va vb : Rat) : List Word := [if a then 1 else 2, wordU (1000 * (if a then va else vb))]

/-- Tests 2 to 6 of Table 12.1 are judged (R307, R308, R319, R320). -/
def execDiagTestComplete (c : Nat) (r : TestReading) (s : State) : Out State :=
  let f := (s.chan c).fsm
  let rl := s.ratv 0x10 c 0x15
  let fitted := s.flag 0x10 c 0x16
  if (f.state == .diag || f.state == .retest) && f.calDone && !(s.chan c).share.joinReq && railUp s c then
    match f.diagStep with
    | 2 =>
      if f.relayOn then .next s
      else if rOf r ≤ 16 * rl then .next (failTest c (chanCode c 5) [wordU (1000 * rOf r)] s) else .next (passTest c 2 s)
    | 3 =>
      if fitted && !f.relayOn then .next s
      else if 2 ≤ r.nodeA ∨ 2 ≤ r.nodeB then .next (failTest c (chanCode c 2) (nodeWord (decide (2 ≤ r.nodeA)) r.nodeA r.nodeB) s)
      else .next (passTest c 3 s)
    | 4 =>
      if r.nodeA < 2 ∨ r.nodeB < 2 then .next (failTest c (chanCode c 1) (nodeWord (decide (r.nodeA < 2)) r.nodeA r.nodeB) s)
      else .next (passTest c 4 s)
    | 5 =>
      let a := decide (1/2 < absRat (r.legA - r.nodeA))
      if a || decide (1/2 < absRat (r.legB - r.nodeB)) then .next (failTest c (chanCode c 8) [if a then 1 else 2] s)
      else .next (passTest c 5 s)
    | 6 =>
      let full := decide (10/1000 ≤ idOf r) && decide (idOf r ≤ 30/1000)
      let s0 := s.modFsm c fun f => { f with diagR := rOf r }
      let s1 := if full then leaveVoltageOnly c s0 else s0
      if rOf r < rl / 4 then .next (failTest c (chanCode c 4) [wordU (1000 * rOf r)] s1)
      else if 4 * rl < rOf r then .next (failTest c (chanCode c 3) [wordU (1000 * rOf r)] s1)
      else .next (passTest c 6 (if full then s1 else enterVoltageOnly c 1 s1))
    | _ => .next s
  else .next s

/-- What Table 10.3 finds: voltage pair reversed, current pair reversed; none when undecided. -/
def polarity (voltageOnly : Bool) (v i : Rat) : Option (Bool × Bool) :=
  let vOk := decide (20/1000 ≤ v)
  let vRev := decide (v ≤ -20/1000)
  let iOk := voltageOnly || decide (10/1000 ≤ i)
  let iRev := !voltageOnly && decide (i ≤ -10/1000)
  if (vOk || vRev) && (iOk || iRev) then some (vRev, iRev) else none

/-- DIAG has passed (R272, Table 15.6). -/
def diagDone (c : Nat) (s : State) : State := toPrecharge c ((passTest c 7 s).life (chanStat c 0x187) 1)

def execPolarityCheck (c : Nat) (vMean iMean : Rat) (s : State) : Out State :=
  let f := (s.chan c).fsm
  if f.state == .diag && f.diagStep == 7 then
    let und := [wordS (1000 * vMean), wordS (1000 * iMean)]
    match polarity f.voltageOnly vMean iMean with
    | none => .next (enterFault c (chanCode c 0xB) und s)
    | some (rv, ri) =>
      let bits := fun (v i : Bool) => [word (bit v 0 + bit i 1)]
      if !rv && !ri then
        if f.polRepeat then .next (diagDone c (s.raise (chanCode c 0xA) c (bits f.swapV f.swapI)))
        else .next (diagDone c s)
      else if f.polRepeat then .next (enterFault c (chanCode c 0xB) und s)
      else
        let s1 := s.modFsm c fun f => { f with foundV := rv, foundI := ri }
        if !f.swapOn then .next (enterFault c (chanCode c 9) (bits rv ri) s1)
        else .next (s1.modFsm c fun f => { f with swapV := rv, swapI := ri, polRepeat := true })
  else .next s

/-- The sources drive the nodes toward half rail; on a joined output none acts (R262, R299, R375). The models are seeded (R235); the
generator takes the compares of the start (R300). -/
def execPrechargeStart (c : Nat) (s : State) : Out State :=
  let f := (s.chan c).fsm
  if f.state == .precharge && f.diagStep == 9 then
    .next (seedModel c ((startLegs c s).modFsm c fun f => { f with diagStep := 0, bridge := if (s.chan c).share.joinReq then .open else .precharge }))
  else .next s

/-- A dead time of `ns` in the unit of the channel's delay lines: ns on an S-channel, MOD ticks on an L-channel (R255, R288). -/
def deadUnits (c ns : Nat) : Nat := if isL c then ((ns : Rat) / (50863/10000)).ceil.toNat else ns
/-- A cycle field of a channel, 0x011 to 0x014, as its present switching cycle uses it (R116). -/
def cycWord (s : State) (c fld : Nat) : Word :=
  match (s.chan c).loop.cycOld with
  | some l => if (s.chan c).fsm.bridge = .switching then l.getD (fld - 0x11) 0 else s.cfg.active.param (pid 0x10 c fld)
  | none => s.cfg.active.param (pid 0x10 c fld)
/-- The adaptation ceiling of an edge: `chan.deadtime_ns`, or the re-planned one below it (R256, R257, R288, Table 15.8). -/
def ceilingOf (s : State) (c e : Nat) : Nat :=
  let top := (cycWord s c 0x13).toNat
  deadUnits c (match (s.chan c).loop.ceils.find? (·.1 == e) with | some p => min top p.2 | none => top)
def deadEdges (c : Nat) : Nat := if isL c then 12 else 4
def deadMin (c : Nat) : Nat := if isL c then 1 else 4
/-- The starting dead times of a release (R257, R275, R288): in adaptive mode the last adapted values, or the stored or the factory ones where
none has been adapted since the reset, within the limits; else the configured value. -/
def startDead (s : State) (c : Nat) : List Nat :=
  let l := (s.chan c).loop
  if cycWord s c 0x12 = 0 then List.replicate (deadEdges c) (deadUnits c (cycWord s c 0x13).toNat)
  else
    let fact := Config.factoryDeadtime (s.keeper.strapDrv / 2 ^ dsdOf c % 2 == 1)
    let base := if l.adapted.isEmpty then l.stored else l.adapted
    (List.range (deadEdges c)).map fun i => max (deadMin c) (min (ceilingOf s c i) (base.getD i fact))

/-- A re-planned margin that was due. -/
def applyMargin (p : Nat × Option Rat) (l : Loop) : Loop :=
  if p.1 = 1 then { l with ilim := p.2 }
  else
    let rest := l.ceils.filter (·.1 != p.1 - 2)
    { l with ceils := match p.2 with | some m => (p.1 - 2, m.floor.toNat) :: rest | none => rest }

/-- Re-planned margins act (R34, R401); an adapted dead time above a lowered ceiling takes the ceiling. -/
def takeMargins (c : Nat) (s : State) : State :=
  if (s.chan c).loop.marginDue.isEmpty then s else
    let s1 := s.modLoop c fun l => { l.marginDue.foldl (fun l p => applyMargin p l) l with marginDue := [] }
    let cut := fun (d : List Nat) => d.mapIdx fun e x => min (ceilingOf s1 c e) x
    s1.modLoop c fun l => { l with
      dead := if cycWord s1 c 0x12 = 0 then l.dead else cut l.dead, adapted := cut l.adapted, stored := cut l.stored }

/-- A switching cycle begins: re-planned margins act. The first cycle after a change of the cycle fields (R116): they are in force, and so are
the dead times under them (R257, R288): fixed mode takes the configured value at once, adaptation begins from it, and a running adaptation keeps
its values below the ceiling. The last adapted values survive a fixed mode (R256). -/
def newCycle (c : Nat) (s0 : State) : State :=
  let s := takeMargins c s0
  match (s.chan c).loop.cycOld with
  | some old =>
    if (s.chan c).loop.cycFrom ≤ s.media.index then
      let s1 := s.modLoop c fun l => { l with cycOld := none, cycFrom := 0 }
      s1.modLoop c fun l =>
        if cycWord s1 c 0x12 = 0 then { l with dead := startDead s1 c }
        else if old.getD 1 0 = 0 then
          let d := (List.range (deadEdges c)).map (ceilingOf s1 c)
          { l with dead := d, adapted := d }
        else { l with dead := l.dead.mapIdx fun e x => min (ceilingOf s1 c e) x }
    else s
  | none => s

/-- In the 2-level fallback precharge waits for the rail to be at or below the fallback ceiling, or a lower one of RSEL (R304). -/
def fallbackLow (s : State) (c : Nat) : Bool :=
  match (s.chan c).fsm.cellFallback, fallbackRow? s.cfg.active (rcOf c) with
  | true, some r => decide ((s.rail (rcOf c)).vRail ≤ s.cfg.active.setpoint (rcOf c) (min r s.misc.rselRail))
  | _, _ => true

/-- The generator of an L-channel has taken the compares of the start and the table under which they act (R292, R300). -/
def startTaken (s : State) (c : Nat) : Bool :=
  !isL c || (!s.pwm.armed.getLsbD (lOf c) && (!(s.pwmCh (lOf c)).maskDue || s.keeper.halted))

/-- A value within a part of a nominal one. -/
def nearTo (part nominal v : Rat) : Bool := decide (absRat (v - nominal) ≤ part * nominal)

/-- The precharge conditions (R262, R299): the output nodes within ±2 % of half the rail, 50 mV at most between VSP and VSN, and the flying
capacitors within ±3 %, but in the fallback. On a joined output the capacitors alone count (R375). -/
def precharged (s : State) (c : Nat) (a b diff : Rat) (caps : List Rat) : Bool :=
  let v := (s.rail (rcOf c)).vRail
  let f := (s.chan c).fsm
  ((s.chan c).share.joinReq || (nearTo (2/100) (v / 2) a && nearTo (2/100) (v / 2) b && decide (absRat diff ≤ 50/1000)))
    && (!isL c || f.cellFallback || (List.range 4).all fun i => nearTo (3/100) (legVolts v (if i % 2 = 0 then 2 else 1)) (caps.getD i 0))

/-- A join mark whose first sample is `n` is to be judged (R375). -/
def Share.startMark (n : Nat) (h : Share) : Share :=
  { h with markAt := some n, vOwnSum := 0, iOwnSum := 0, vStSum := 0, nOwn := 0, nSt := 0 }

/-- The time since the release in samples is at least `n` (R252, R264, R300, R376). -/
def sinceRelease (s : State) (c n : Nat) : Bool := decide ((s.chan c).share.releasedAt + n ≤ s.media.samples)

/-- Both legs are released together (R263, R300): IDLE, the limit armed, the spread register seeded; on an S-channel leg A is high, and the
comparator window is what it is before the trim (free). A
joiner applies its join mark of 48 blocks after 10 ms, 120 blocks (R375). -/
def execPrechargeComplete (c : Nat) (a b diff : Rat) (caps : List Rat) (s : State) : Out State :=
  let f := (s.chan c).fsm
  if f.state == .precharge && f.diagStep == 0 && f.stop == .none && precharged s c a b diff caps && fallbackLow s c && startTaken s c then
    let w := s.drawRat
    .next ((freshFeed c (countAt c (startFraction s c) (maskDue c w.2))).modChan c fun h => { h with
      fsm := { h.fsm with state := .idle, bridge := .switching, tauOk := false, trimOk := false, fcOk := false, admitted := false }
      loop := { h.loop with
        cycOld := none, cycFrom := 0, lfsr := c + 1, spread := 0, dead := startDead s c
        adapted := if cycWord s c 0x12 = 0 then h.loop.adapted else startDead s c
        limRun := 0, reverse := false, highA := !isL c
        integ := 0, window := if isL c then 0 else absRat w.1, atBound := false, clipN := none, releaseDue := false }
      share :=
        let g : Share := { h.share with releasedAt := s.media.samples, mark := if h.share.joinReq then 168 else 0 }
        if g.joinReq then g.startMark (winBase s + 960) else g })
  else .next s

def execPrechargeTimeout (c : Nat) (vsp vsn : Rat) (s : State) : Out State :=
  let f := (s.chan c).fsm
  if f.state == .precharge && f.diagStep == 0 && f.stop == .none then
    .next (enterFault c (chanCode c 0xC) [wordU (1000 * vsp), wordU (1000 * vsn)] s)
  else .next s

/-- τ_cl or τ_f is judged as soon as it is measured (R248, R286, R300). -/
def execTauMeasured (c : Nat) (tauNs : Rat) (s : State) : Out State :=
  let f := (s.chan c).fsm
  if f.state == .idle && f.stop == .none then
    if 500 ≤ tauNs ∧ tauNs ≤ (if isL c then 15000 else 9000) then
      .next (s.modChan c fun h => { h with
        fsm := { h.fsm with tauOk := true }
        loop := { h.loop with tauNs := tauNs, tauStored := some tauNs,
                              align := if isL c then h.loop.align else alignTicks s tauNs } })
    else .next (hardStop c (chanCode c (if isL c then 0x40 else 0x30)) [wordU tauNs] s)
  else .next s

/-- The trim has not converged by 100 ms (R252). -/
def execLoopRange (c : Nat) (s : State) : Out State :=
  let f := (s.chan c).fsm
  if f.state == .idle && f.stop == .none && !f.trimOk && !isL c && sinceRelease s c 9600 then .next (hardStop c (chanCode c 0x30) [0] s) else .next s

/-- 20 ms after the release the conditions of R264 or R300 hold: the channel waits for the block boundary. On an S-channel the trim has converged; on an L-channel in
4-level operation every flying capacitor is within ±3 %. -/
def execIdleComplete (c : Nat) (s : State) : Out State :=
  let f := (s.chan c).fsm
  if f.state == .idle && f.stop == .none && f.tauOk && sinceRelease s c 1920 && (!isL c || f.cellFallback || (fcOut s (lOf c)).isNone) then
    .next ((if isL c then s else trimLoop c s).modFsm c fun f => { f with admitted := true, trimOk := true, fcOk := true })
  else .next s

/-- The capacitors have not come within ±3 % (R300): the first one that is off is reported. -/
def execFcImbalanceTimeout (c : Nat) (s : State) : Out State :=
  let f := (s.chan c).fsm
  if isL c && f.state == .idle && f.stop == .none && !f.fcOk && !f.cellFallback && sinceRelease s c 9600 then
    match fcOut s (lOf c) with
    | some i => .next (hardStop c (chanCode c 0x41) [word (i + 1), wordU (1000 * fcDev s (lOf c) i)] s)
    | none => .next s
  else .next s

/-- The block boundary after IDLE (R264). A sharing pair enters RUN at its RUN block instead (R376). -/
def execEnterRun (c : Nat) (s : State) : Out State :=
  let f := (s.chan c).fsm
  if f.state == .idle && f.admitted && f.stop == .none && !sharing s then .next (admitChannel c s) else .next s

/-- RUN to MUTED (R271, R273): an admission ramp is cut short and ramps to 0. -/
def execMuteEnter (c : Nat) (s : State) : Out State :=
  let f := (s.chan c).fsm
  if f.state == .run && f.stop == .none && muteSource s c then
    .next ((maskDue c s).modChan c fun h => { h with
      fsm := { h.fsm with state := .muted }
      dsp := { h.dsp with fade := if h.dsp.fade.done then h.dsp.fade else h.dsp.fade.to 0 1024 } })
  else .next s

/-- A requested silent stop begins (R265, R273): the fade of RUN, the zero reference of IDLE and MUTED, or the discharge. -/
def execSilentStop (c : Nat) (s : State) : Out State :=
  let f := (s.chan c).fsm
  if f.stop == .requested then
    match f.state with
    | .run => .next (s.modChan c fun h => { h with fsm := { h.fsm with stop := .fading }, dsp := { h.dsp with fade := h.dsp.fade.to 0 1024 } })
    | .idle | .muted => .next ((idleEnds c s).modFsm c fun f => { f with stop := .zero, zeroBlocks := 0, admitted := false })
    | _ => .next (s.modFsm c fun f => { f with stop := .sinking, diagStep := 0, bridge := if s.cfgShared then .open else .sink })
  else .next s

/-- Two blocks at zero reference are over: all gates turn off together (R265, R301). -/
def execSilentStopGatesOff (c : Nat) (s : State) : Out State :=
  let f := (s.chan c).fsm
  if f.stop == .zero && decide (2 ≤ f.zeroBlocks) then
    .next ((countAt c 12 s).modFsm c fun f => { f with stop := .sinking, bridge := if s.cfgShared then .open else .sink })
  else .next s

/-- Every node that the sources sink from is below 1.0 V (R265, R301): both switch nodes of an S-channel, the leg outputs and capacitor nodes of
an L-channel. In SHARED nothing sinks, and the stop is over with the gates off (R371). -/
def execSilentStopDischarged (c : Nat) (nodes : List Rat) (s : State) : Out State :=
  if (s.chan c).fsm.stop == .sinking && (s.cfgShared || (List.range (if isL c then 6 else 2)).all fun i => decide (nodes.getD i 0 < 1)) then .next (toOff c s) else .next s

/-- Steps 3 to 5 have not completed in 50 ms: the low sides are held, OFF, PRECHARGE_TIMEOUT recorded (R265). -/
def execSilentStopTimeout (c : Nat) (vsp vsn : Rat) (s : State) : Out State :=
  let f := (s.chan c).fsm
  if f.stop == .sinking || (f.stop == .zero && decide (2 ≤ f.zeroBlocks)) then
    .next ((toOff c s).raise (chanCode c 0xC) c [wordU (1000 * vsp), wordU (1000 * vsn)])
  else .next s

/-- The CD link of a die is lost (R18): every channel of the die stops, the rails hold (R345). -/
def execCdLinkLost (d : Nat) (s : State) : Out State :=
  if (s.dsd d).released && (s.dsd d).linked then
    let s1 := (s.modDsd d fun q => { q with linked := false }).raise 0x5016 (0x100 + d) [word d]
    .next (forList (chansOf d) (fun c s => hardStop c (chanCode c 0x16) [word d] s) s1)
  else .next s

def execCdLinkTrained (d : Nat) (s : State) : Out State :=
  if (s.dsd d).released && !(s.dsd d).linked then .next (s.modDsd d fun q => { q with linked := true }) else .next s

/-- The re-test interval is over (R272, R324, R374). -/
def execRetestStart (c : Nat) (s : State) : Out State :=
  let f := (s.chan c).fsm
  if f.state == .fault && f.diagStep == 0 && s.flag 0x10 c 0x17 && s.enabled c && s.keeper.dev == .run && retestReady s c then
    let s1 := (maskDue c s).modChan c fun h => { h with
      fsm := { h.fsm with state := .retest, bridge := if joiner s c then .open else .test, calDone := false, diagStep := firstTest s c true,
                          diagPassed := 0, failCode := 0, failData := [], relayWant := false }
      share := { h.share with joinReq := joiner s c, markAt := none } }
    .next ((s1.count (chanStat c 0x106) 1).life (chanStat c 0x185) 1)
  else .next s

/-- A re-test ends (R324). -/
def execRetestComplete (c : Nat) (s : State) : Out State :=
  let f := (s.chan c).fsm
  if f.state == .retest && f.diagStep == 7 then .next (toPrecharge c s)
  else if f.state == .retest && f.diagStep == 8 then
    let s1 := ((maskDue c (noteDiag c f.failCode s)).life (chanStat c 0x183) 1).modFsm c fun f => { f with
      state := .fault, bridge := holdFor s c, code := f.failCode, relayWant := false, diagStep := 0 }
    .next (((s1.modShare c Share.leave).count (chanStat c 0x107) 1).raiseHeldAs (60 * second) f.failCode c f.failData)
  else .next s

/-! ### Relays (R309 to R311) -/

/-- Zero current (R310): the bridge does not switch and no precharge source drives, and |i| has stayed below 2 % of full scale, or where the
sense has failed 20 ms have passed since the bridge switched. `i` is the largest |i| of the last 100 µs. -/
def zeroCurrent (s : State) (c : Nat) (i : Rat) : Bool :=
  let f := (s.chan c).fsm
  f.bridge != .switching && f.bridge != .precharge && f.bridge != .sink &&
    (if f.voltageOnly then decide (f.swAt + 1920 ≤ s.media.samples) else decide (absRat i < 2/100 * iFull c))

/-- A pending relay change is made at zero current (R310). -/
def execRelayChange (c : Nat) (i : Rat) (s : State) : Out State :=
  let f := (s.chan c).fsm
  let want := f.relayWant && s.flag 0x10 c 0x16
  if f.relayOn != want && zeroCurrent s c i then
    .next (((s.modFsm c fun f => { f with relayOn := want }).count (chanStat c 0x104) 1).life (chanStat c 0x186) 1)
  else .next s

/-- A relay judgement of R311: a hard stop in IDLE, RUN and MUTED, else the code waits for the next DIAG; in FAULT and RETEST it is also a
suppressed cause (R326). -/
def relayFault (c low : Nat) (v : Rat) (s : State) : State :=
  let f := (s.chan c).fsm
  if f.state.switching then hardStop c (chanCode c low) [wordU (1000 * v)] s
  else
    let s1 := s.modFsm c fun f => { f with coilLatched := low, coilRead := v }
    if f.state = .fault ∨ f.state = .retest then hardStop c (chanCode c low) [wordU (1000 * v)] s1 else s1

def execRelayCoilOpen (c : Nat) (v : Rat) (s : State) : Out State :=
  if s.enabled c && s.flag 0x10 c 0x16 && !(s.chan c).fsm.relayOn && decide (v < 1) then .next (relayFault c 6 v s) else .next s

def execRelayDrive (c : Nat) (v : Rat) (s : State) : Out State :=
  if s.enabled c && s.flag 0x10 c 0x16 && (s.chan c).fsm.relayOn && decide (1 < v) then
    .next (relayFault c 7 v (((s.modFsm c fun f => { f with relayOn := false, relayWant := false }).count (chanStat c 0x104) 1).life (chanStat c 0x186) 1))
  else .next s

/-- The last four of a leg's differences, one per block, are each more than 10 % of V_rail (R317). -/
def fourApart (vRail : Rat) (l : List Rat) : Bool :=
  decide (4 ≤ l.length) && (l.drop (l.length - 4)).all fun x => decide (vRail / 10 < absRat x)

/-- Node and sense means of leg A, or else of leg B, have differed on 4 consecutive blocks (R317). -/
def execSenseOpenRun (c : Nat) (a b : List Rat) (s : State) : Out State :=
  let vr := (s.rail (rcOf c)).vRail
  if (s.chan c).fsm.bridge == .switching && (fourApart vr a || fourApart vr b) then
    .next (hardStop c (chanCode c 8) [if fourApart vr a then 1 else 2] s)
  else .next s

end Sys2Proof.Machine
end

