-- ==== Sys2Proof/Machine/Loop.lean ====
section
/-! DEFINITION. The loop of a switching channel: minimum pulse, spread, dead time, per-cycle limits and stalls (R245 to R261, R267, R288,
R293, R294, R315, R316, R319). -/

namespace Sys2Proof.Machine

/-- A sample clipped at the index limit (R207, R285, Table 15.6). -/
def indexClip (c : Nat) (s : State) : State :=
  ((s.count (chanStat c 0x007) 1).life (chanStat c 0x189) 1).raiseHeld second 0x4004 c 1 []

/-- A clipped sample counts once (R207, R247, R285). -/
def clipOnce (c n : Nat) (s : State) : State :=
  if (s.chan c).loop.clipN = some n then s else indexClip c (s.modLoop c fun l => { l with clipN := some n })

/-! ### The S-channel loop (R245 to R249) -/

/-- R_o of the droop (Table 14.8). -/
def shareOhm : Rat := 50/1000

/-- The share correction of sample n (R249, R372); where none has come, the last one holds (R380). -/
def corrAt (h : Share) (n : Nat) : Rat := match h.corrs.find? (·.1 == n) with | some p => p.2 | none => h.corr

/-- The analog droop of an S-channel at current `i` (Table 14.8): while both sides drive, a joiner once it shares (R375). A lost link leaves it
(R380). -/
def droop (s : State) (c : Nat) (i : Rat) : Rat :=
  if s.twin.effShared && (s.chan c).share.partnerDrives && armed s c && !(s.chan c).share.joinReq then -(shareOhm * i) else 0

/-- The join mark of a side at sample n (R375): a raised cosine over 4 ms, 384 samples, with a peak of 1 % of V_rail. -/
def joinMark (s : State) (c n : Nat) : Rat :=
  match (s.chan c).share.markAt with
  | some a =>
    if a ≤ n ∧ n < a + 384 then (s.rail (rcOf c)).vRail / 100 * (1 - cosTurn (((n - a : Nat) : Rat) / 384)) / 2 else 0
  | none => 0

/-- The level of a converter code, as a fraction of full scale (R246). -/
def codeLevel (code : Nat) : Rat := (2 * (code % 32 : Nat) - 31) / 31

/-- What the converter plays for code j of sample n, in volts (R246): the codes that the noise shaper makes of the samples so far, at the
V_top that the sample carries. -/
def converterOut (s : State) (d : Dsp) (n j : Nat) : Rat :=
  let i := n + d.y.length - winBase s
  match d.y[i]? with
  | some p => if n < winBase s ∧ winBase s ≤ n + d.y.length then codeLevel (Config.noiseShape ((d.y.take (i + 1)).map (·.1)) j) * p.2 else 0
  | none => 0

/-- The loop's reference ahead of the clamp (R249, R263, R265, R270): what the converter plays in RUN, else zero, with the share correction and
a join mark. -/
def loopReference (s : State) (c n j : Nat) : Rat :=
  let h := s.chan c
  (if h.fsm.state = .run ∧ h.fsm.stop ≠ .zero then converterOut s h.dsp n j else 0) + corrAt h.share n + joinMark s c n

/-- While IDLE measures τ_cl a test sequence at −70 dBFM stands on the reference (R248): a free value within it, else none. -/
def testSequence (s : State) (c : Nat) : Rat × State :=
  let f := (s.chan c).fsm
  if f.state = .idle ∧ !f.tauOk then
    let a := dbGain (-70) * (s.rail (rcOf c)).vRail
    let d := s.drawRat
    (clampRat (-a) a d.1, d.2)
  else (0, s)

/-- The comparator window under the spread offset (R245, R253). -/
def windowNow (l : Loop) : Rat := l.window / (1 + l.spread)

/-- The longest time in ns that the floor holds the state a channel's legs have taken (R258): its edges are A rising and B falling, or A falling
and B rising (Table 10.2). -/
def pulseFloor (l : Loop) : Nat :=
  40 + (if l.highA then max (l.dead.getD 0 0) (l.dead.getD 3 0) else max (l.dead.getD 1 0) (l.dead.getD 2 0))

/-- The integrator reaches the comparator (R245, R258, R260). `v` is the mean sensed voltage over `dtNs`, the time since the last edge; the
clamp holds the reference to ±m_idx·V_rail (R247), and the droop of a shared output follows it. An integral that crosses the window swaps the legs, an early one delayed and counted; the
reverse state leaves the comparator without effect, and the integrator stands at its bound until the next edge. -/
def execLoopComparatorEdge (c n j : Nat) (v i dtNs : Rat) (s : State) : Out State :=
  if armed s c && !isL c then
    let s0 := newCycle c s
    let l := (s0.chan c).loop
    let p := testSequence s0 c
    let r := loopReference s0 c n j + p.1
    let lim := l.mIdxClamp * (s0.rail (rcOf c)).vRail
    let s1 := if lim < absRat r then clipOnce c n p.2 else p.2
    let x := l.integ + (clampRat (-lim) lim r + droop s0 c i - v) * dtNs / 1000000000
    let w := windowNow l
    if l.reverse then .next s1
    else if l.atBound || (if l.highA then decide (x ≤ -w) else decide (w ≤ x)) then
      let s2 := s1.modLoop c fun l => { l with highA := !l.highA, integ := if l.highA then -w else w, atBound := false }
      .next (if dtNs < pulseFloor l then s2.count (chanStat c 0x08A) 1 else s2)
    else .next (s1.modLoop c fun l => { l with integ := x })
  else .next s

/-- One step of the 15-bit register of R253. -/
def lfsr15 (r : Nat) : Nat := (2 * r) % 0x8000 + (r / 0x4000 + r / 0x2000) % 2

/-- A new spread offset after 15 steps (R253). -/
def execSpreadDraw (c : Nat) (s : State) : Out State :=
  let sp := f32Val (cycWord s c 0x11)
  if armed s c && !isL c then
    if 0 < sp then
      let r := lfsr15^[15] (s.chan c).loop.lfsr
      .next (s.modLoop c fun l => { l with lfsr := r, spread := ((r * 65 / 32768 : Nat) - 32 : Rat) * sp / 3200 })
    else .next (s.modLoop c fun l => { l with spread := 0 })
  else .next s

/-- 64 qualifying edges of one kind (R256, R288). -/
def execDeadtimeAdapt (c edge early late : Nat) (s : State) : Out State :=
  if armed s c && cycWord s c 0x12 == 1 && decide (edge < deadEdges c) then
    let l := (s.chan c).loop
    let ceil := ceilingOf s c edge
    let d := l.dead.getD edge ceil
    let n := if late < early then min ceil (d + 1) else if early < late then max (deadMin c) (d - 1) else d
    let s1 := s.modLoop c fun l => { l with dead := l.dead.set edge n, adapted := l.dead.set edge n }
    .next (if late < early ∧ ceil ≤ d ∧ !isL c then s1.count (chanStat c 0x085) 1 else s1)
  else .next s

/-- The delay line is recalibrated (R255, Table 15.8): the step stays 1 ns. -/
def execDelayLineCal (d : Nat) (s : State) : Out State :=
  if (s.dsd d).released then .next (s.modDsd d fun q => { q with lineCal := q.lineCal + 1 }) else .next s

/-- A limited cycle counts once, in the channel's counter and in thousands over its life (R260, R293, Table 15.6). -/
def limitedCycle (c : Nat) (s : State) : State :=
  let n := (s.chan c).loop.limTotal + 1
  let s1 := (s.modLoop c fun l => { l with limTotal := n }).count (chanStat c (if isL c then 0x0CA else 0x088)) 1
  if n % 1000 = 0 then s1.life (chanStat c 0x188) 1 else s1

/-- LOAD_SHORT is declared (R315), LOAD_SHORT_REPEAT on the fourth within 60 s of the first (R316): a hardware path, timed by the sample
clock (R35). -/
def loadShort (c : Nat) (s : State) : State :=
  let now := s.media.samples
  let times := ((s.chan c).fsm.shorts.filter fun t => decide (now ≤ t + 60 * 96000)) ++ [now]
  let s1 := ((s.modFsm c fun f => { f with shorts := times }).count (chanStat c 0x105) 1).life (chanStat c 0x184) 1
  if 4 ≤ times.length then
    let first := times.getD (times.length - 4) now
    hardStop c (chanCode c 0x11) [wordU (((now - first : Nat) : Rat) / 96000)]
      (s1.modFsm c fun f => { f with shorts := [] })
  else hardStop c (chanCode c 0x10) [wordU (1000 * (s.rail (rcOf c)).vRail)] s1

/-- A trip holds the integrator at its bound until the next edge (R260). -/
def holdIntegrator (c : Nat) (s : State) : State :=
  if isL c then s else s.modLoop c fun l => { l with atBound := true, integ := if l.highA then -(windowNow l) else windowNow l }

/-- A trip forces the reverse state and counts its cycle; the eighth consecutive limited cycle declares LOAD_SHORT (R260, R315). -/
def trip (c : Nat) (newCycle consecutive : Bool) (s : State) : State :=
  let run := (s.chan c).loop.limRun
  let n := if newCycle then (if consecutive then run + 1 else 1) else run
  let s1 := (holdIntegrator c s).modLoop c fun l => { l with reverse := true, releaseDue := false, limRun := n }
  let s2 := if newCycle then limitedCycle c s1 else s1
  if newCycle ∧ 8 ≤ n then loadShort c s2 else s2

/-- A current trip (R259, R260, R293): not where the current sense has failed (R320). A current that does not fall while no drop limit of the
conducting switches has tripped (`dropped`) is a failed sense, and its trip does not count (R315, R319). `aToB` names the leg that the reverse
state takes low. -/
def execCurrentLimitTrip (c : Nat) (aToB newCycle consecutive fell dropped : Bool) (s : State) : Out State :=
  if armed s c && !(s.chan c).fsm.voltageOnly then
    let s1 := s.modLoop c fun l => { l with highA := !aToB }
    if fell || dropped then .next (trip c newCycle consecutive s1)
    else .next (enterVoltageOnly c 2 ((holdIntegrator c (if newCycle then limitedCycle c s1 else s1)).modLoop c fun l => { l with reverse := true, releaseDue := false }))
  else .next s

/-- A drop trip (R261, R294): the switch turns off, the reverse state is forced. -/
def execDropTrip (c : Nat) (aToB newCycle consecutive : Bool) (s : State) : Out State :=
  if armed s c then
    let s1 := (s.modLoop c fun l => { l with highA := !aToB }).count (chanStat c (if isL c then 0x0CB else 0x089)) 1
    .next (trip c newCycle consecutive s1)
  else .next s

/-- The current has fallen below 90 % of I_lim (R260): the comparator takes control again; an L-channel returns to its generator at the next
boundary tick (R293). -/
def execReverseStateRelease (c : Nat) (s : State) : Out State :=
  if (s.chan c).loop.reverse then
    .next (s.modLoop c fun l => if isL c then { l with releaseDue := true } else { l with reverse := false })
  else .next s

/-- 50 µs without a high-side turn-on (R267). -/
def execLoopStall (c : Nat) (s : State) : Out State :=
  if armed s c && !isL c then .next (hardStop c (chanCode c 0x31) [] s) else .next s

end Sys2Proof.Machine
end

