-- ==== Sys2Proof/Machine/Ageing.lean ====
section
/-! DEFINITION. Ageing: evaluations, baselines, re-planned margins and service advice (R400 to R402, Table 15.8). -/

namespace Sys2Proof.Machine

/-- Quantities judged against a field baseline; the others against the factory record (Table 15.8). -/
def fieldBaseline (q : Nat) : Bool := decide (q ≤ 5)

/-- What is judged: a ratio to the baseline; the need itself for quantity 2; the factory-referenced value for 6 to 8. -/
def ageValue (q : Nat) (base v : Rat) : Rat := if q = 2 ∨ 5 < q then v else v / base

/-- δ_z of Table 15.8. -/
def deltaZ (x : Rat) : Rat := 65 * (x - 1)

/-- The window of a quantity (Table 15.8). -/
def insideWindow (q : Nat) (base x : Rat) : Bool :=
  match q with
  | 1 => decide (1 ≤ x) && decide (x ≤ 144/100)
  | 2 => decide (x ≤ base + 12)
  | 3 => decide (90/100 ≤ x) && decide (x ≤ 119/100)
  | 4 => decide (1 ≤ x) && decide (x ≤ 278/100)
  | 5 => decide (0 ≤ deltaZ x) && decide (deltaZ x ≤ 15)
  | 6 => decide (-1 ≤ x) && decide (x ≤ 1)
  | 7 => decide (92/100 ≤ x)
  | _ => decide (95/100 ≤ x)

/-- The margin without a re-plan (R401). -/
def plainMargin (s : State) (q i : Nat) : Rat :=
  match q with
  | 1 => s.ratv 0x10 i 0x14
  | 2 => s.nat 0x10 (i % 256) 0x13
  | 3 => 92/100
  | 4 => 50
  | _ => 0

/-- The margin of Table 15.8 for the judged value `x`; quantities 7 and 8 have none. -/
def newMargin (s : State) (q i : Nat) (base x : Rat) : Option Rat :=
  let plain := plainMargin s q i
  match q with
  | 1 => some (if insideWindow 1 base x then plain / sqrtR x else plain * 5 / 6)
  | 2 => some (if insideWindow 2 base x then min plain (x + 6) else plain)
  | 3 => some (if insideWindow 3 base x then 92/100 - 1/2 * max 0 (x - 105/100) else 85/100)
  | 4 => some (if insideWindow 4 base x then 50 / sqrtR x else 30)
  | 5 => some (if insideWindow 5 base x then deltaZ x else 15)
  | 6 => some (clampRat (-1) 1 x)
  | _ => none

/-- A new m_idx: the lower one acts in the DSP first, the higher one in the clamp first; the other target follows (R401). -/
def setMIdx (c : Nat) (m : Rat) (s : State) : State :=
  let a := s.store.ageOf 3 c
  let old := a.pendingSecond.getD (s.chan c).loop.mIdxDsp
  if m = old then s else
    let s1 : State := { s with store := s.store.setAge 3 c { a with pendingSecond := some m } }
    s1.modLoop c fun l => { (if m < old then { l with mIdxDsp := m } else { l with mIdxClamp := m }) with mIdxAt := s.media.samples }

/-- A margin of a channel's loop is due: it acts at the next switching cycle, at once while the bridge does not switch (R34, R401). -/
def postMargin (c key : Nat) (m : Option Rat) (s : State) : State :=
  let s1 := s.modLoop c fun l => { l with marginDue := l.marginDue.filter (·.1 != key) ++ [(key, m)] }
  if armed s c then s1 else takeMargins c s1

/-- A margin of a rail controller: it acts at the next cycle while the gates switch (R34, R401). -/
def postRail (r : Nat) (m : Rat) (s : State) : State :=
  s.modRail r fun q => if q.state.gatesOn then { q with vLimDue := some m } else { q with vLim := m, vLimDue := none }

/-- The field that holds a margin takes it at the next boundary of its path (R34, R401). The instance of quantity 2 is its channel, with 256 for
each edge: Table 15.8 takes the dead-time need per edge. -/
def setMargin (q i : Nat) (m : Rat) (s : State) : State :=
  match q with
  | 1 => postMargin i 1 (some m) s
  | 2 => postMargin (i % 256) (2 + i / 256) (some m) s
  | 3 => setMIdx i m s
  | 4 => postRail i m s
  | 5 => s.modDsd i fun d => { d with thetaK := m }
  | 6 => s.modDsd i fun d => { d with gain := driftGain m }
  | _ => s

/-- A re-planned margin returns to its value without a re-plan (R401). -/
def returnMargin (q i : Nat) (s : State) : State :=
  let a := s.store.ageOf q i
  if a.replanned then
    let s1 : State := { s with store := s.store.setAge q i { a with replanned := false, margin := plainMargin s q i } }
    match q with
    | 1 => postMargin i 1 none s1
    | 2 => postMargin (i % 256) (2 + i / 256) none s1
    | _ => setMargin q i (plainMargin s q i) s1
  else s

/-- `dev.replan_enable` is 0: every re-planned margin returns (R401). -/
def returnAll (s : State) : State := s.store.age.foldl (fun s a => returnMargin a.1 a.2.1 s) s

/-- The margins of the ageing records are in force at boot (R401), with the on-resistance that V_drop follows (Table 15.8); none is while
re-planning is off or without a factory record. -/
def restoreMargin (a : Nat × Nat × Age) (s : State) : State :=
  let s1 := if a.1 = 1 ∧ a.2.2.baseline ≠ 0 ∧ a.2.2.last ≠ 0 then
      s.modLoop a.2.1 fun l => { l with ron := some (a.2.2.last * a.2.2.baseline) } else s
  if !a.2.2.replanned then s1
  else if a.1 = 3 then
    ({ s1 with store := s1.store.setAge 3 a.2.1 { a.2.2 with pendingSecond := none } } : State).modLoop a.2.1 fun l => { l with
      mIdxDsp := a.2.2.margin, mIdxClamp := a.2.2.margin }
  else setMargin a.1 a.2.1 a.2.2.margin s1

def restoreMargins (s : State) : State :=
  let s1 := s.store.age.foldl (fun s a => restoreMargin a s) s
  if s.flag 0x01 0 0xD && s.store.factoryValid then s1 else returnAll s1

/-- Step 2 of R401. -/
def recordReplan (q i : Nat) (old new x : Rat) (s : State) : State :=
  (lifeRec 0x9104 (ageInst q i) [word q, f32Of new, f32Of x] s).raise 0x9008 (ageInst q i) [word q, f32Of old, f32Of new]

/-- A judged value re-plans its margin (R401), while `dev.replan_enable` is 1 and the factory record is valid. -/
def replan (q i : Nat) (base x : Rat) (s : State) : State :=
  if s.flag 0x01 0 0xD && s.store.factoryValid then
    match newMargin s q i base x with
    | some m =>
      let a := s.store.ageOf q i
      let old := if a.replanned then a.margin else plainMargin s q i
      if m = old then s
      else recordReplan q i old m x (setMargin q i m { s with store := s.store.setAge q i { a with margin := m, replanned := true } })
    | none => s
  else returnMargin q i s

/-- The instances that one service advice stands for: every edge of a channel under quantity 2 (R402). -/
def adviceKey (q i : Nat) : Nat := if q = 2 then i % 256 else i

/-- Service advice (R402): raised once per quantity and instance; its flag ends after 5 evaluations inside. -/
def advise (q i : Nat) (ok : Bool) (x : Rat) (s : State) : State :=
  let a := s.store.ageOf q i
  if ok then
    let n := a.inside + 1
    { s with store := s.store.setAge q i { a with inside := n, flag := a.flag && decide (n < 5) } }
  else
    let s1 : State := { s with store := s.store.setAge q i { a with inside := 0, flag := true, advised := true } }
    if s.store.age.any fun b => b.1 == q && adviceKey q b.2.1 == adviceKey q i && b.2.2.advised then s1 else s1.raise 0x9009 (ageInst q i) [word q, f32Of x]

/-- The last five of a list with one more. -/
def lastFive (l : List Rat) (v : Rat) : List Rat := (l ++ [v]).drop (l.length - 4)

/-- One evaluation (R400): the median of the last five; the first five form the field baseline. -/
def takeEvaluation (q i : Nat) (med cap : Rat) (s : State) : State :=
  let a := s.store.ageOf q i
  let evals := lastFive a.evals med
  let caps := if q = 3 then lastFive a.caps cap else a.caps
  let v := median evals
  let fresh := fieldBaseline q && a.baseline == 0 && evals.length == 5
  let base := if fresh then v else a.baseline
  let b : Age := { a with evals := evals, caps := caps, baseline := base, capBase := if fresh then median caps else a.capBase }
  let s1 : State := { s with store := s.store.setAge q i b }
  let s2 := if q = 1 then s1.modLoop i fun l => { l with ron := some v } else if q = 7 then s1.modDsd i fun d => { d with lineCal := d.lineCal + 1 } else s1
  let s3 := if fresh then lifeRec 0x9105 (ageInst q i) [word q, f32Of base] s2 else s2
  if (if fieldBaseline q then base != 0 else s.store.factoryValid) then
    let x := ageValue q base v
    let s4 : State := { s3 with store := s3.store.setAge q i { b with last := x } }
    advise q i (insideWindow q base x) x (replan q i base x s4)
  else s3

/-- Whether a quantity has the instance, and a measured unit is enabled (Tables 15.8, 16.4). -/
def ageUnit (s : State) (q i : Nat) : Bool :=
  if q = 0 ∨ 8 < q then false
  else if q = 2 then decide (i % 256 < 208) && s.enabled (i % 256) && decide (i / 256 < deadEdges (i % 256))
  else if q ≤ 3 then decide (i < 208) && s.enabled i
  else if q = 4 then decide (i < 12) && s.flag 0x07 i 0
  else if q ≤ 7 then decide (i < 4) else i == 0

/-- An ageing run of one unit ends, at priority 7 (R37): records that wait for the flash go first. -/
def execAgeingEvaluation (q inst : Nat) (median cap : Rat) (s : State) : Out State :=
  if keeperFree s && !storeWaits s && s.keeper.dev != .standby && s.flag 0x01 0 0xC && ageUnit s q inst then .next (takeEvaluation q inst median cap s) else .next s

/-- Three blocks later the other target takes a new m_idx (R401), by a write of the Keeper (R36). -/
def execReplanSecondWrite (c : Nat) (s : State) : Out State :=
  let a := s.store.ageOf 3 c
  match a.pendingSecond, s.keeper.halted with
  | some m, false =>
    if s.media.locked && decide ((s.chan c).loop.mIdxAt ≤ s.media.samples) && decide (s.media.samples < (s.chan c).loop.mIdxAt + 24) then .next s
    else .next (({ s with store := s.store.setAge 3 c { a with pendingSecond := none } } : State).modLoop c fun l =>
      { l with mIdxDsp := m, mIdxClamp := m })
  | _, _ => .next s

/-- BASELINE_RESET (R406): the baseline is discarded, the margin returns, the flag of the instance clears. -/
def resetBaseline (q i : Nat) (s : State) : State :=
  let s1 := returnMargin q i s
  let a := s1.store.ageOf q i
  lifeRec 0x9105 (ageInst q i) [word q, 0] { s1 with store := s1.store.setAge q i { pendingSecond := a.pendingSecond } }

end Sys2Proof.Machine
end

