-- ==== Sys2Proof/Machine/Streams.lean ====
section
/-! DEFINITION. The stream engine: merge, placement, fades, re-entry, overruns, skew and lost paths (R143 to R157, R168). -/

namespace Sys2Proof.Machine

/-- A stream code, at most once per stream per second (R168). -/
def streamCode (code st : Nat) (s : State) : State := s.raiseHeld second code st 1 []

/-- The fixed RTP header of Table 6.2, with a payload of the stream's own size (R143). -/
def rtpOk (b : Bank) (st : Nat) (u : List Byte) : Bool :=
  decide (12 ≤ u.length) && leAt u 0 1 == 0x80
    && u.length == 12 + b.streamChans st * b.streamFrames st * (if b.streamL24 st then 3 else 2)

/-- The samples of a payload by frame and channel as pool values (R195). -/
def rtpFrames (b : Bank) (st : Nat) (u : List Byte) : List (List Int) :=
  let w := if b.streamL24 st then 3 else 2
  let ch := b.streamChans st
  (List.range (b.streamFrames st)).map fun f => (List.range ch).map fun c =>
    let x := beAt u (12 + (f * ch + c) * w) w
    if b.streamL24 st then signed 24 x else 256 * signed 16 x

/-- A sequence number received on a side; a number that leaves the last 64 without having come is a gap (Table 6.13). -/
def sideTake (st side seq : Nat) (s : State) : State :=
  let put := fun (q : Option SeqSide) => s.modStream st fun t => { t with sides := t.sides.set side q }
  match ((s.stream st).sides.getD side none) with
  | none => put (some ⟨seq + 65536, seq + 65536, [seq + 65536]⟩)
  | some q =>
    let e := nearMod 65536 seq q.hi
    if e ≤ q.hi then put (some { q with got := if q.got.contains e then q.got else e :: q.got })
    else
      let lo := max q.base (q.hi - 63)
      let gaps := ((List.range (e - 63 - lo)).filter fun i => !q.got.contains (lo + i)).length
      let s1 := put (some ⟨q.base, e, e :: q.got.filter fun x => decide (e < x + 64)⟩)
      if gaps = 0 then s1 else s1.count (streamStat st (3 + side)) gaps

/-- One second in MEDIA ticks. -/
def secondTicks : Nat := 49152000

/-- The MEDIA tick of now. -/
def nowTick (s : State) : Nat := 512 * s.media.index

/-- The path skew of a packet whose other copy is remembered, in µs (R151). -/
def skewTake (st side tick : Nat) (c : Copy) (s : State) : State :=
  if c.side = side then s
  else
    let d : Rat := ((max tick c.tick - min tick c.tick : Nat) : Rat) * 1000000 / 49152000
    s.modStream st fun t => { t with
      skewRaised := t.skewRaised && decide (1000 < slideMax secondTicks (max tick c.tick) t.skews)
      skews := slide secondTicks (max tick c.tick, d) t.skews }

/-- The largest skew and the smallest margin over the last 1 s (R151, Table 6.13). -/
def skewNow (s : State) (t : Stream) : Rat := slideMax secondTicks (nowTick s) t.skews
def marginNow (s : State) (t : Stream) : Nat := (-(slideMax secondTicks (nowTick s) t.margins)).floor.toNat

/-- An on-time packet of a side (R152): its delivery is unbroken while its packets lie within 1 s of each other. -/
def sideOnTime (side tick : Nat) (t : Stream) : Stream :=
  { t with
    since := if t.lastOn.getD side 0 + secondTicks ≤ tick then t.since.set side tick else t.since
    lastOn := t.lastOn.set side (max tick (t.lastOn.getD side 0)) }

/-- The placed index of a packet's first sample (R145, R146, R157), and the offset of arrival placement. A completion between two media indices
counts as the later one there: R157 does not say, the choice is the model's (notes/assumptions/59.md). -/
def placeOf (s : State) (st ts tick : Nat) : Nat × Option Int :=
  let b := s.cfg.active
  let t := s.stream st
  let src := fun (near : Nat) => if b.streamHi st then nearMod (2 ^ 32) ts near else 2 * nearMod (2 ^ 32) ts (near / 2)
  if t.arrival then
    match t.arrivalBase with
    | some o => (((src ((s.media.index : Int) - o).toNat : Int) + o).toNat, some o)
    | none =>
      let p := (tick + 511) / 512 + 24 + b.streamM0 st
      (p, some ((p : Int) - src s.media.index))
  else (src s.media.index + b.streamL st - b.streamD st, none)

/-- A packet with a good FCS meets the merge (R147, R149, R150, R153); every on-time packet enters the margin. The margin that R157 compares with
M0 + 128 is taken in whole samples, rounded down: the rule does not say, the choice is the model's (notes/assumptions/59.md). A packet is early
where its last sample lies beyond the window (R153). -/
def streamMerge (st side : Nat) (u : List Byte) (tick : Nat) (s : State) : State :=
  let b := s.cfg.active
  let seq := beAt u 2 2
  let ts := beAt u 4 4
  let ssrc := beAt u 8 4
  let len := u.length
  let s0 := sideTake st side seq s
  let t := s0.stream st
  let ext := match t.lastSeq with | some l => nearMod 65536 seq l | none => seq + 65536
  let copy := t.seen.find? (·.ext == ext)
  let s1 := match copy with | some c => skewTake st side tick c s0 | none => s0
  let miss := fun (s : State) => streamCode 0x2004 st (s.count (streamStat st 9) 1)
  if (match t.ssrc with | some l => l != ssrc | none => false) then miss s1
  else
    let pl := placeOf s1 st ts tick
    let p := pl.1
    let n := b.streamN st
    if (p - 24) * 512 < tick then
      (s1.count (streamStat st (5 + side)) 1).modStream st fun t => { t with margins := slide secondTicks (tick, 0) t.margins }
    else
      let m := ((p - 24) * 512 - tick) / 512
      let s2 := (s1.count (streamStat st (1 + side)) 1).modStream st fun t =>
        sideOnTime side tick { t with margins := slide secondTicks (tick, -(m : Rat)) t.margins }
      match copy with
      | some c => if c.ssrc = ssrc ∧ c.ts = ts ∧ c.len = len then s2.count (streamStat st 8) 1 else miss s2
      | none =>
        let inFade := fun (i : Nat) => t.fadeReal && match t.fadeFrom with | some f => decide (f ≤ i) && decide (i < f + 32) | none => false
        if (List.range n).any (fun i => covered t.placed (p + i) && !inFade (p + i)) then miss s2
        else if readPoint s + 512 ≤ p + n - (if b.streamHi st then 1 else 2) then s2.count (streamStat st 7) 1
        else
          s2.modStream st fun t => { t with
            ssrc := some ssrc, lastSeq := some ext, arrivalBase := pl.2
            seen := (⟨ext, ssrc, ts, len, side, tick⟩ :: t.seen).take 64
            placed := t.placed ++ [⟨p, if b.streamHi st then 1 else 2, rtpFrames b st u⟩]
            overrun := if t.arrival ∧ b.streamM0 st + 128 < m then some (m - b.streamM0 st) else t.overrun }

/-- The packet of a stream from a port's audio FIFO: outside the subset it is filtered (R143). -/
def streamTake (st side : Nat) (u : List Byte) (tick : Nat) (s : State) : State :=
  if rtpOk s.cfg.active st u then streamMerge st side u tick s else s.count (netStat (0x10 * side + 3)) 1

/-- The stream of an entry of a port's audio FIFO. -/
def entryStream (s : State) (port : Nat) (e : List Byte) : Option Nat := streamOf s port (beAt e 0 4) (beAt e 4 2)

/-- A packet of the same merged stream completed earlier on the other port and still waits there (R149). -/
def otherFirst (s : State) (port st tick : Nat) : Bool :=
  s.cfg.active.streamSides st == 3 && (s.port (1 - port)).audio.any fun e =>
    entryStream s (1 - port) e.1 == some st && (decide (e.2 < tick) || (e.2 == tick && port == 1))

/-- The head of a port's audio FIFO reaches the stream engine. The FIFO entry holds the group, the UDP port and the datagram. Packets of a merged
stream are taken in order of completion, NA first (R149): one that the other port's FIFO holds goes before. -/
def execStreamPacket (port : Nat) (s : State) : Out State :=
  match (s.port port).audio with
  | [] => .next s
  | (e, tick) :: rest =>
    let s1 := s.modPort port fun q => { q with audio := rest }
    match entryStream s port e with
    | none => .next (s1.count (netStat (0x10 * port + 3)) 1)
    | some st =>
      if otherFirst s port st tick then .next s else .next (streamTake st port (e.drop 6) tick s1)

/-- The first index that no packet supplies, up to the deadline (R154). -/
def firstMissing (s : State) (st : Nat) : Option Nat :=
  let t := s.stream st
  ((List.range 32).map (winBase s + ·)).find? fun n => decide (n < s.media.index + 32) && !covered t.placed n

def execStreamMissing (st : Nat) (s : State) : Out State :=
  if s.media.locked && s.cfg.active.streamOn st && (s.stream st).state.plays then
    match firstMissing s st with
    | some n => .next (streamCode 0x2001 st ((streamFade st n false s).count (streamStat st 0xA) 1))
    | none => .next s
  else .next s

/-- Eight good blocks are complete: the ramp begins at the next block (R155). -/
def execStreamReentry (st : Nat) (s : State) : Out State :=
  let t := s.stream st
  if s.cfg.active.streamOn st && (t.state == .waiting || t.state == .faded) && decide (8 ≤ t.good) then
    .next (streamCode 0x2003 st (s.modStream st fun t => { t with
      state := .ramping, rampFrom := some (winBase s + 8), fadeFrom := none, fadeReal := false, fadeRamp := none, good := 0 }))
  else .next s

/-- A placed packet without the samples from index `a` up to `a + x`, those after it moved back by `x`. -/
def cutPacket (a x : Nat) (p : Placed) : List Placed :=
  let front := (List.range p.frames.length).filter fun i => decide (p.idx + p.step * i < a)
  let back := (List.range p.frames.length).filter fun i => decide (a + x ≤ p.idx + p.step * i)
  let pick := fun (l : List Nat) => l.map fun i => p.frames.getD i []
  (match front with | [] => [] | _ => [{ p with frames := pick front }]) ++
    (match back with | [] => [] | i :: _ => [{ p with idx := p.idx + p.step * i - x, frames := pick back }])

/-- An overrun at the block boundary (R157): 32 samples of real data fade, the excess is discarded, in whole samples of the stream's own rate
(notes/assumptions/59.md), and the ramp begins 4 blocks later. -/
def execStreamOverrun (st : Nat) (s : State) : Out State :=
  let t := s.stream st
  match t.overrun with
  | some excess =>
    if s.cfg.active.streamOn st && t.state.plays && t.arrival then
      let x := if s.cfg.active.streamHi st then excess else excess - excess % 2
      let b := winBase s
      let s1 := (streamFade st b true s).modStream st fun u => { u with
        state := .ramping, rampFrom := some (b + 32), ssrc := t.ssrc, arrivalBase := t.arrivalBase.map (· - (x : Int))
        placed := t.placed.flatMap (cutPacket (b + 32) x) }
      .next (streamCode 0x2002 st (s1.count (streamStat st 0xB) 1))
    else .next s
  | none => .next s

/-- The largest skew of the last second is above 1,000 µs (R151): once, until it no longer is. -/
def execPathSkew (st : Nat) (s : State) : Out State :=
  let t := s.stream st
  if s.cfg.active.streamOn st && decide (1000 < skewNow s t) && !t.skewRaised then
    .next (streamCode 0x2005 st (s.modStream st fun t => { t with skewRaised := true }))
  else .next s

/-- A side has delivered nothing on time for 1 s while the other delivers, or delivers again for 1 s (R152). -/
def execPathLost (st side : Nat) (recovered : Bool) (s : State) : Out State :=
  let t := s.stream st
  let now := nowTick s
  let lost := if side = 0 then t.lostA else t.lostB
  let delivers := fun i => decide (now < t.lastOn.getD i 0 + secondTicks)
  let seen := if recovered then delivers side && decide (t.since.getD side 0 + secondTicks ≤ now) else !delivers side && delivers (1 - side)
  if s.cfg.active.streamOn st && s.cfg.active.streamSides st == 3 && lost == recovered && seen then
    .next ((s.modStream st fun t => if side = 0 then { t with lostA := !recovered } else { t with lostB := !recovered }).raiseHeld
      second 0x2006 (st + 256 * side) 1 [])
  else .next s

end Sys2Proof.Machine
end

