-- ==== Sys2Proof/Machine/Network.lean ====
section
/-! DEFINITION. The ports NA, NB and NM: filtering, routing, links, modules, IGMP, receive rings, wake patterns and monitor streams
(R137 to R142, R158, R159, R163 to R166). -/

namespace Sys2Proof.Machine

/-- A port counter of Table 6.13. -/
def portCount (p f n : Nat) (s : State) : State := s.count (netStat (0x10 * p + f)) n

/-- The sizes of the port FIFOs of Table 1.5. R33 does not say what of an entry fills the audio FIFO: its UDP payload alone counts here, not the
arrival timestamp that crosses with it, a choice of the model (notes/assumptions/59.md). -/
def audioRoom (q : Port) (n : Nat) : Bool := decide ((q.audio.map fun e => e.1.length - 6).sum + n ≤ 32768)
def keepRoom (q : Port) (n : Nat) : Bool := decide ((q.keep.map (·.length)).sum + n ≤ 16384)

/-- The destination MAC is the port's, broadcast, or that of a joined group (R139). -/
def addressed (s : State) (p : Nat) (f : List Byte) : Bool :=
  let d := f.take 6
  d == macOf p || d == broadcastMac || (s.port p).groups.any fun g => d == groupMac g

/-- The packet of an enabled stream in a frame (R139): the stream, and what the audio FIFO takes of it. -/
def streamEntry? (s : State) (port : Nat) (f : List Byte) : Option (Nat × List Byte) :=
  let b := etherBody f
  if etherType f = 0x0800 ∧ ipOk b ∧ ipProto b = 17 ∧ udpOk b then
    (streamOf s port (ipDst b) (udpPort b)).map fun st => (st, be 4 (ipDst b) ++ be 2 (udpPort b) ++ udpData b)
  else none

/-- An entry of the audio FIFO, with the completion of its packet. -/
def audioPut (port : Nat) (e : List Byte) (tick : Nat) (s : State) : State :=
  if audioRoom (s.port port) (e.length - 6) then s.modPort port fun q => { q with audio := q.audio ++ [(e, tick)] } else portCount port 4 1 s

/-- A packet of a stream completes at its injector (R410): it passes, is dropped, counts as an FCS error, or is held; a packet that comes while
one is held overtakes it and is not selectable. -/
def takePacket (st port : Nat) (e : List Byte) (tick : Nat) (s : State) : State :=
  let k := 2 * st + port
  let got := portCount port 0 1
  match (s.inj k).heldPkt with
  | some h => audioPut port h.1 tick (audioPut port e tick (got (s.modInj k fun j => { j with heldPkt := none })))
  | none =>
    let r := injSelect k s
    match r.1 with
    | 0 => audioPut port e tick (got r.2)
    | 1 => got r.2
    | 2 => portCount port 1 1 r.2
    | _ => got (r.2.modInj k fun j => { j with heldPkt := some (e, tick) })

/-- Where R139 routes an accepted frame that is no packet of a stream. -/
def route (port : Nat) (f : List Byte) (tick : Nat) (s : State) : State :=
  let b := etherBody f
  let q := s.port port
  let filtered := portCount port 3 1 s
  let drop := portCount port 4 1 s
  let keep := fun (_ : Unit) => if keepRoom q f.length then s.modPort port fun q => { q with keep := q.keep ++ [f] } else drop
  if etherType f = 0x0806 then keep ()
  else if etherType f = 0x0800 ∧ ipOk b then
    if ipProto b = 17 then
      if !udpOk b then filtered
      else if udpPort b = 319 ∨ udpPort b = 320 then
        if q.time.length < 64 then s.modPort port fun q => { q with time := q.time ++ [(udpData b, tick)] } else drop
      else if some (ipDst b) = pairGroup s.cfg.active ∧ udpPort b = 30209 then keep ()
      else filtered
    else if ipProto b = 1 ∨ ipProto b = 2 then keep ()
    else filtered
  else filtered

/-- A frame on NA or NB completes at `tick` (R139, R33). -/
def execNetworkFrame (port : Nat) (frame : List Byte) (fcsOk : Bool) (tick : Nat) (s : State) : Out State :=
  if decide (port < 2) && s.cfg.active.portOn port && (s.port port).up then
    if !fcsOk then .next (portCount port 1 1 s)
    else if frame.length < 64 ∨ 2500 < frame.length then .next (portCount port 2 1 s)
    else if (match vlanOf frame with | some v => v != 0 | none => false) || !addressed s port frame then .next (portCount port 3 1 s)
    else match streamEntry? s port frame with
      | some e => .next (takePacket e.1 port e.2 tick s)
      | none => .next (route port frame tick (portCount port 0 1 s))
  else .next s

/-! ### Links and modules (R137, R142) -/

/-- A port whose module is absent or which is disabled asserts TXDIS. -/
def txdisOf (s : State) (p : Nat) (q : Port) : Bool := p != 2 && (!s.cfg.active.portOn p || !q.present)

def execLinkUp (port : Nat) (s : State) : Out State :=
  let q := s.port port
  if decide (port < 2) && s.cfg.active.portOn port && q.present && !q.up then
    .next (updateGroups port (s.modPort port fun q => { q with up := true, state := 1, v1Till := 0, v2Till := 0, groups := [], reportDue := [], reportHeld := [] }))
  else .next s

/-- A link that was up goes down (R142): counted, and raised with the port as instance. -/
def linkLost (p : Nat) (s : State) : State :=
  if (s.port p).up then
    (portCount p 9 1 (s.modPort p fun q => { q with up := false, state := 0, reportDue := [], reportHeld := [] })).raise 0x2007 p []
  else s

/-- An enabled port whose module is absent raises 0x2008 (R168): here, where it is enabled. -/
def moduleCheck (old : Bank) (p : Nat) (s : State) : State :=
  if !old.portOn p && s.cfg.active.portOn p && !(s.port p).present then s.raise 0x2008 p [] else s

def execLinkDown (port : Nat) (s : State) : Out State :=
  if decide (port < 2) && (s.port port).up then .next (linkLost port s) else .next s

def execModuleAbsent (port : Nat) (s : State) : Out State :=
  if decide (port < 2) && (s.port port).present then
    let s1 := s.modPort port fun q => { q with present := false, txdis := true }
    .next (if s.cfg.active.portOn port then s1.raise 0x2008 port [] else s1)
  else .next s

def execModulePresent (port : Nat) (s : State) : Out State :=
  if decide (port < 2) && !(s.port port).present then
    .next (s.modPort port fun q => { q with present := true, txdis := !s.cfg.active.portOn port })
  else .next s

/-- The speed that the Keeper reads from the PHY (R137). -/
def execNmLinkUp (mbps : Nat) (fullDuplex : Bool) (s : State) : Out State :=
  if firmwareRuns s then
    if fullDuplex ∧ (mbps = 1000 ∨ mbps = 100) then
      .next (s.modPort 2 fun q => { q with up := true, state := if mbps = 1000 then 2 else 1 })
    else .next (linkLost 2 s)
  else .next s

def execNmLinkDown (s : State) : Out State := if (s.port 2).up then .next (linkLost 2 s) else .next s

/-! ### IGMP (R141) -/

/-- The second copy of the state-change reports; the Keeper sends none while it is halted (R36). -/
def execIgmpReport (port : Nat) (s : State) : Out State :=
  let q := s.port port
  if q.up && !q.reportDue.isEmpty && !s.keeper.halted then
    .next (sendAll (igmpSent port (igmpVersion s port) (q.reportDue.map fun r => (if r.2 then 4 else 3, r.1)))
      (s.modPort port fun q => { q with reportDue := [] }))
  else .next s

/-- A query is answered, after a halt where the Keeper is halted (R36). -/
def execIgmpQuery (port version group : Nat) (s : State) : Out State :=
  if decide (port < 2) && (s.port port).up then
    if s.keeper.halted then .next (s.modPort port fun q => { q with queries := q.queries ++ [(version, group)] })
    else .next (answerQuery port version group s)
  else .next s

/-! ### Frames for the Keeper (R139, R140, R165, R166) -/

/-- What a frame that cannot be delivered counts as (R166). -/
def badCount (p : Nat) (fcsOk : Bool) (s : State) : State := portCount p (if fcsOk then 2 else 1) 1 s

/-- A Keeper-bound frame leaves its port's FIFO for the receive ring; on ring 2 it comes from NM. -/
def execKeeperFrame (ring : Nat) (frame : List Byte) (fcsOk : Bool) (s : State) : Out State :=
  if ring < 2 then
    match (s.port ring).keep with
    | [] => .next s
    | f :: rest => .next (keeperTakes ring f false (s.modPort ring fun q => { q with keep := rest }))
  else if firmwareRuns s && (s.port 2).up then
    if fcsOk ∧ 64 ≤ frame.length ∧ frame.length ≤ 1522 then .next (keeperTakes 2 frame false s)
    else .next (keeperTakes 2 frame true (badCount 2 fcsOk s))
  else .next s

/-- What NM passes to the Keeper (R140): ARP, ICMP and UDP to its MAC or to broadcast. -/
def nmPasses (f : List Byte) : Bool :=
  (f.take 6 == macOf 2 || f.take 6 == broadcastMac)
    && (etherType f == 0x0806 || (etherType f == 0x0800 && (ipProto (etherBody f) == 1 || ipProto (etherBody f) == 17)))

/-- A frame matches an enabled pattern (R163). -/
def wakes (s : State) (frame : List Byte) : Bool := (List.range 8).any fun n => s.nat 0x02 0 7 / 2 ^ n % 2 == 1 && wakeMatch s n frame

/-- A matching frame is kept in the NM ring and wakes the device (R163, R164). -/
def wakeTakes (frame : List Byte) (s : State) : State := wakeEvent (portCount 2 0 1 (fillRing 2 frame false s))

/-- A frame on NM; in STANDBY it is compared with the patterns. -/
def execNmFrame (frame : List Byte) (fcsOk : Bool) (s : State) : Out State :=
  if (s.port 2).up && firmwareRuns { s with keeper := { s.keeper with halted := false } } then
    if !fcsOk ∨ frame.length < 64 ∨ 1522 < frame.length then .next (keeperTakes 2 frame true (badCount 2 fcsOk s))
    else if s.keeper.dev == .standby && wakes s frame then .next (wakeTakes frame s)
    else if nmPasses frame then .next (keeperTakes 2 frame false (portCount 2 0 1 s))
    else .next (portCount 2 3 1 s)
  else .next s

def execWakePatternMatch (frame : List Byte) (fcsOk : Bool) (s : State) : Out State :=
  if s.keeper.dev == .standby && fcsOk && wakes s frame then .next (wakeTakes frame s) else .next s

/-! ### Monitor streams (R158, R159) -/

/-- The taps of a monitor stream, in order: channel, and whether it is the current (R158). -/
def tapsOf (b : Bank) (first : Nat) : List (Nat × Bool) :=
  ((List.range 208).filter (first ≤ ·)).flatMap fun c =>
    match b.nat 0x10 c 0x1B with | 1 => [(c, false)] | 2 => [(c, true)] | 3 => [(c, false), (c, true)] | _ => []

/-- Tap j, from −35 to 35, of the half-band decimator with its delay compensated (R158): tap 0 is 1/2, other even taps 0, odd taps symmetric
with sum 1/2. Its odd taps, and how many of them are not 0, are not published; beyond 35 a packet could not leave in time (R159). -/
def decimTap (j : Int) : Rat :=
  if j = 0 then 1/2 else if j % 2 = 0 then 0
  else
    let i := j.natAbs / 2
    if i < 17 then Config.monTap i else if i = 17 then 1/4 - sumRat ((List.range 17).map Config.monTap) else 0

/-- The sense sample of a channel at a media index, 0 for an invalid pair (R211) and outside the history. -/
def senseOf (h : Chan) (current : Bool) (n : Int) : Int :=
  match h.sense.find? fun p => (p.1 : Int) == n with
  | some p => if current then p.2.2 else p.2.1
  | none => 0

/-- A decimated sample: L24 full scale is the sense full scale. -/
def monSample (h : Chan) (current : Bool) (n : Nat) : Int :=
  clampInt (-8388608) 8388607 (roundOpen 40 (sumRat ((List.range 71).map fun k =>
    decimTap ((k : Int) - 35) * (senseOf h current ((n : Int) + k - 35) : Int))))

/-- The samples of one packet from media index `n`: 6 of each slot in turn; a slot beyond the taps carries 0. -/
def monSamples (s : State) (j n : Nat) : List Byte :=
  let taps := tapsOf s.cfg.active (s.cfg.active.monFirst j)
  (List.range 6).flatMap fun f => (List.range (s.cfg.active.monCount j)).flatMap fun k =>
    match taps[k]? with
    | some t => be 3 ((monSample (s.chan t.1) t.2 (n + 2 * f)) % 16777216).toNat
    | none => zeros 3

/-- What the IPv4 and UDP headers of a monitor packet and a network beacon carry (R159, R363), and of a Delay_Req (Table 6.9): none for other
frames. -/
def Sent.isMonitor (f : Sent) : Bool := decide (f.port < 2) && f.udp == 5004
def Sent.isBeacon (f : Sent) : Bool := decide (f.port < 2) && f.udp == 30209
def Sent.dscp (f : Sent) : Option Nat := if f.isMonitor || f.isBeacon then some 34 else if decide (f.port < 2) && f.udp == 319 then some 46 else none
def Sent.ttl (f : Sent) : Option Nat := if f.isMonitor || f.isBeacon then some 16 else none
def Sent.srcPort (f : Sent) : Option Nat := if f.isMonitor || f.isBeacon then some f.udp else none

/-- A packet goes out on a side, or is dropped while the side's link is down. -/
def monSend (p j : Nat) (payload : List Byte) (s : State) : State :=
  if s.cfg.active.monSides j / 2 ^ p % 2 = 0 then s
  else if (s.port p).up then s.send ⟨p, s.nat 0x04 j 1, 5004, payload⟩
  else portCount p 8 1 s

/-- Six samples at 48 kHz have been formed: the pair 35 indices after the last of them has arrived, 3 samples after its terminal instant
(Table 1.3). The first media index of a stream's first packet is not stated: a free even one, no later than the samples at hand. -/
def execMonitorPacket (j : Nat) (s : State) : Out State :=
  let b := s.cfg.active
  let m := s.mon j
  if s.media.locked && b.monOn j then
    let start := match m.next with
      | some n => (n, s)
      | none => let d := s.draw; (2 * ((s.media.index - 48 - d.1 % 64) / 2), d.2)
    if m.next.isSome && decide (s.media.index < start.1 + 48) then .next s
    else
      let body := monSamples s j start.1
      let head := [0x80, 97] ++ be 2 (m.seq % 65536) ++ be 4 (start.1 / 2 % 2 ^ 32) ++ be 4 (Config.serial.toNat % 2 ^ 24 * 256 + j)
      let s1 := start.2.modMon j fun m => { m with seq := m.seq + 1, next := some (start.1 + 12) }
      .next (monSend 1 j (head ++ body) (monSend 0 j (head ++ body) s1))
  else .next s

/-! ### The Keeper takes up what waited (R36, R80, R164) -/

/-- The queries that came during a halt. -/
def serveQueries (p : Nat) (s : State) : State :=
  (s.port p).queries.foldl (fun s e => answerQuery p e.1 e.2 s) (s.modPort p fun q => { q with queries := [] })

/-- The firmware recovers its store (R395), with the margins that it holds (R401), and loads the valid configuration bank with the higher SEQ, else the factory defaults
(R75, R125). The pending bank equals the active one (R123). -/
def execConfigLoad (s : State) : Out State :=
  if s.keeper.stage == 7 && !s.keeper.cfgLoaded && !s.keeper.halted then
    let s1 := resetLife (recover s)
    let i := bestCfg s.store
    let b : Bank := match i with | some i => (cfgBankOf s.store i).bank | none => {}
    let s2 : State := { s1 with
      cfg := { active := b, whole := b, pending := b, target := b }
      keeper := { s1.keeper with cfgBank := i == some 1, cfgFactory := i == none, cfgLoaded := true, holdupShort := false }
      twin := { s1.twin with epoch := match i with | some i => (cfgBankOf s.store i).epoch.toNat | none => 0 } }
    .next (forUnits 2 (fun p s => if s.cfg.active.portOn p && !(s.port p).present then s.raise 0x2008 p [] else s) (applyAll s2))
  else .next s

/-- The state changes of groups that came during a halt are reported (R36, R141). -/
def serveReports (p : Nat) (s : State) : State :=
  reportChange p (s.port p).reportHeld (s.modPort p fun q => { q with reportHeld := [] })

/-- Stage 0x8 (R77, R78, R100, R105): waiting events are raised, the transitions are recorded, the device is in READY, and in RUN
with `dev.autostart` out of BOOT. On a wake it returns to READY without reloading, with
the log flushed, and serves the frames that the NM ring kept (R80, R82, R164). Table 3.7 gives RUN to a device in READY with `dev.autostart` at 1
at stage 0x8, R80 gives a wake READY: that autostart acts out of BOOT alone is the model's choice (notes/assumptions/22.md). -/
def execMailboxReady (s : State) : Out State :=
  if s.keeper.halted then .next s
  else if s.keeper.stage == 7 && s.keeper.cfgLoaded then
    let s1 : State := { s with keeper := { s.keeper with serving := true, attemptsA := 0, attemptsB := 0, bootFrom := none, watchdogStage := none } }
    let s2 := (s1.raiseWaiting).setStage 8
    let s3 := match s.keeper.watchdogStage with | some g => s2.raise 0x9005 0 [word g] | none => s2
    let s4 := match s.keeper.bootFrom with | some (p, e, c) => s3.raise 0x900D 0 [word p.code, word e, word c] | none => s3
    let s5 := if s.store.factoryValid then s4 else s4.raise 0x900A 0 []
    let s6 := s5.setDev .ready 10
    .next (if s.flag 0x01 0 0 then s6.setDev .run 2 else s6)
  else if s.keeper.stage == 6 && s.keeper.waking && bringupDone s then
    let t := drainStore s
    let s1 : State := { t with keeper := { t.keeper with waking := false, wakeHeld := false, bootFrom := none } }
    let s2 := (applyAll s1).setStage 8
    let s3 := match s.keeper.bootFrom with | some (p, e, c) => s2.raise 0x900D 0 [word p.code, word e, word c] | none => s2
    let s4 := s3.setDev .ready (if s.keeper.dev = .boot then 10 else 3)
    let s5 := if s.keeper.dev = .boot ∧ s.flag 0x01 0 0 then s4.setDev .run 2 else s4
    .next (serveRing 2 (snapshot s5))
  else .next s

/-- The Keeper resumes: bits and events that waited are set and logged, and what waited for it is served (R36, R90). -/
def execKeeperResume (s : State) : Out State :=
  if s.keeper.halted then
    let s1 : State := { s with keeper := { s.keeper with halted := false } }
    let w := s.spi.irqWait
    let s2 := ({ s1 with spi := { s1.spi with irqWait := 0 } } : State).irq w
    let s3 := if s.keeper.serving then s2.raiseWaiting else s2
    .next (forUnits 3 (fun p s => serveRing p (serveReports p (serveQueries p s))) s3)
  else .next s

end Sys2Proof.Machine
end

