-- ==== Sys2Proof/Machine/Pwm.lean ====
section
/-! DEFINITION. The PWM generators, the feeder, the trip inputs and the cell check (R276 to R304). -/

namespace Sys2Proof.Machine

/-! ### Trip inputs (R295 to R297) -/

/-- The map of an input: bit g for the channels fed by RCg (Table 11.5). -/
def tripMap (p : Pwm) (i : Nat) : Nat :=
  (if i < 2 then p.map01 else p.map23).toNat / (if i % 2 = 0 then 1 else 0x10000) % 0x1000

/-- An asserted input reaches a channel (R296). -/
def tripChannel (i c : Nat) (s : State) : State :=
  if !s.enabled c then s
  else if (s.chan c).fsm.state = .off then s.modFsm c fun f => { f with bridge := holdFor s c }
  else hardStop c (chanCode c 0x15) [word i] s

/-- The latch of an input is set with the map and levels in force (R296, R297). -/
def setLatch (i : Nat) (p : Pwm) : Pwm :=
  { p with
    asserted := p.asserted ||| bit4 i, latch := p.latch ||| bit4 i
    latchSet := if p.latch.getLsbD i then p.latchSet
      else (i, tripMap p i, p.level.toNat % 0x100, p.level.toNat / 0x100 % 0x100) :: p.latchSet.filter (·.1 != i) }

/-- The filter of an input in ticks; 0 acts as 1 (Table 11.5). -/
def tripFilter (p : Pwm) (i : Nat) : Nat := max 1 (p.filt.toNat / 256 ^ i % 256)

/-- An input is asserted: its latch is set and every mapped channel taken to its safe level (R296). -/
def assertTrip (inp : Nat) (s : State) : State :=
  let s1 : State := { s with pwm := setLatch inp s.pwm }
  let m : Nat := ((s1.pwm.latchSet.find? (·.1 == inp)).map (·.2.1)).getD 0
  forUnits 208 (fun c s => if m / 2 ^ rcOf c % 2 = 1 then tripChannel inp c s else s) s1

/-- An input has been low for `ticks` ticks (R295): N + 1 trip, fewer than N − 1 do not, and in between either may happen. -/
def execFaultNTrip (inp ticks : Nat) (s : State) : Out State :=
  if s.media.locked && decide (inp < 4) && !s.pwm.asserted.getLsbD inp then
    let f := s.filtered (tripFilter s.pwm inp - 1) (tripFilter s.pwm inp + 1) ticks
    .next (if f.1 then assertTrip inp f.2 else f.2)
  else .next s

def execFaultNRelease (inp : Nat) (s : State) : Out State :=
  if decide (inp < 4) && s.pwm.asserted.getLsbD inp then
    .next { s with pwm := { s.pwm with asserted := s.pwm.asserted &&& ~~~(bit4 inp) } }
  else .next s

/-! ### Shadows, transfers and commutation (R283, R284, R291) -/

def execLoadAll (v : Word) (s : State) : Out State := if s.media.locked then .next (loadAll v s) else .next s

def execMaskStep (k : Nat) (s : State) : Out State :=
  if s.media.locked then .next (s.modPwmCh k fun g => { g with step := true }) else .next s

/-- A PERIOD from the shadow: 786 to 1,966 (Table 11.3); for a value outside, one within that the manual leaves open. -/
def takePeriod (s : State) : State :=
  let v := s.pwm.periodSh.toNat % 0x10000
  if 786 ≤ v ∧ v ≤ 1966 then { s with pwm := { s.pwm with period := v } }
  else let p := s.draw; { p.2 with pwm := { p.2.pwm with period := 786 + p.1 % 1181 } }

/-- Trip-register writes that waited (R297). -/
def tripWrites (p : Pwm) : Pwm :=
  { p.written.foldl (fun p e => match e.1 with
      | 0x800 => { p with filt := e.2 }
      | 0x804 => { p with level := e.2 }
      | 0x808 => { p with map01 := e.2 }
      | _ => { p with map23 := e.2 }) p with written := [] }

/-! ### Cells, commutation and the boundary tick (R276, R277, R281, R283, R284, R291, R292) -/

/-- The state of cell x of a leg at a COUNT, for its compares and permutation; in the fallback every cell is in slot 0 (R277,
R304). -/
def legCell (period : Nat) (fallback : Bool) (cmps : List Nat) (perm x t : Nat) : Bool :=
  cellState period (if fallback then 0 else slotOf perm x) (cmps.getD x 0) t

/-- th of cell x (0 to 5) in ticks (R287). -/
def cellTh (s : State) (c x : Nat) : Nat :=
  let d := (s.chan c).loop.dead
  max (d.getD (2 * x) 0) (d.getD (2 * x + 1) 0) + 8

/-- The ticks that cell x, 0 to 5, has held its state at a COUNT: since its last edge by its compare, or before that since the change of its
code or longer, where that change left its state. -/
def cellHeld (s : State) (k x count : Nat) : Nat :=
  let g := s.pwmCh k
  let now := s.pwm.tick + count
  let per := s.pwm.period
  let c := cmpOf g.act x
  let q := (count + per - phaseOf per (if (s.chan (192 + k)).fsm.cellFallback then 0 else slotOf (permOf g.act (x / 3)) (x % 3))) % per
  let byCmp := if c = 0 ∨ per ≤ c then per else if q < c then q else q - c
  if g.code x = 0 ∧ byCmp ≤ now - g.codeAt.getD x 0 then byCmp else now - g.since.getD x 0

/-- HOx and LOx of cell x at a COUNT, as generator `g` in place of Lk's commands them (R276, R277, Table 11.4). -/
def gatesOf (s : State) (k : Nat) (g : PwmCh) (x count : Nat) : Bool × Bool :=
  cellSwitches (g.code x) (legCell s.pwm.period (s.chan (192 + k)).fsm.cellFallback ((List.range 6).map (cmpOf g.act) |>.drop (x / 3 * 3))
    (permOf g.act (x / 3)) (x % 3) count)
/-- HOx and LOx of cell x at a COUNT. -/
def cellGates (s : State) (k x count : Nat) : Bool × Bool := gatesOf s k (s.pwmCh k) x count

/-- What a change of entry does to cell x (R292), beside its new code: the tick at which its gate turns off, that at which the next turns on,
and the tick from which it then holds its state. A code that leaves the gates as they are changes none; another waits until the state has been
held for th ticks and passes the dead time of the edge that it makes. -/
def cellChange (s : State) (k count : Nat) (g : PwmCh) (x : Nat) : Nat × Nat × Nat :=
  let now := s.pwm.tick + count
  let new := gatesOf s k g x count
  if cellGates s k x count = new then (now, now, now - cellHeld s k x count)
  else
    let off := now + (cellTh s (192 + k) x - cellHeld s k x count)
    (off, if new.1 || new.2 then off + (s.chan (192 + k)).loop.dead.getD (2 * x + bit new.2 0) 0 else off, off)

/-- A generator goes from its present mask entry to that of `g` (R292): the cells whose code changes follow `cellChange`. -/
def maskChange (s : State) (k count : Nat) (g : PwmCh) : PwmCh :=
  let now := s.pwm.tick + count
  let same := fun (x : Nat) => g.code x == (s.pwmCh k).code x
  { g with
    evtAt := some count
    change := (List.range 6).map fun x => if same x then (g.code x, now, now) else (g.code x, (cellChange s k count g x).1, (cellChange s k count g x).2.1)
    codeAt := (List.range 6).map fun x => if same x then g.codeAt.getD x 0 else now
    since := (List.range 6).map fun x => if same x then g.since.getD x 0 else (cellChange s k count g x).2.2 }

/-- A commutation event at a COUNT (R291): events that fall on one tick advance the pointer once. -/
def commuteAt (k count : Nat) (s : State) : State :=
  let g := s.pwmCh k
  if g.evtAt = some count then s else s.modPwmCh k fun g => maskChange s k count g.commute

/-- A channel at a boundary tick: an armed set is transferred and its pointer returns to 0; else a boundary event or a requested
step advances the pointer once. Neither advances it on the tick of a transfer, which R291 leaves open: the model's choice (log entry 59). -/
def pwmBoundary (k : Nat) (s : State) : State :=
  let g := s.pwmCh k
  if s.pwm.armed.getLsbD k then s.modPwmCh k fun g => { maskChange s k 0 { g with act := g.sh, ptr := 0 } with step := false }
  else if evtBit g.act 8 || g.step then s.modPwmCh k fun g => { maskChange s k 0 g.commute with step := false }
  else s.modPwmCh k fun g => { g with evtAt := none }

/-- A boundary tick (R283, R284, R291 to R293, R297): the period ends, a PERIOD is taken that was captured with no L-channel running or finds
none running, the sets armed before it are transferred, among them the mask tables that the Keeper has rewritten since the states changed, and
reverse states that are to end return to the generator. A period that begins under a transfer takes the cycle fields and margins that wait for
it (R34, R116). -/
def execPwmBoundary (s : State) : Out State :=
  if s.media.locked then
    let r := forUnits 16 maskRewrite s
    let s0 : State := { r with pwm := { r.pwm with tick := s.pwm.tick + s.pwm.period } }
    let s1 := if s.pwm.periodPend ∧ !(s.pwm.periodHeld ∧ lBusy s) then
        takePeriod { s0 with pwm := { s0.pwm with periodPend := false, periodHeld := false } } else s0
    let s2 := forUnits 16 (fun k t => (pwmBoundary k t).modLoop (192 + k) fun l =>
      if l.releaseDue then { l with reverse := false, releaseDue := false } else l) s1
    let s3 := forUnits 16 (fun k t => if r.pwm.armed.getLsbD k ∧ armed t (192 + k) then newCycle (192 + k) t else t) s2
    .next { s3 with pwm := { tripWrites s3.pwm with armed := 0, count := 0 } }
  else .next s

/-! ### The feeder (R285 to R290) -/

/-- The longest run of ticks below `n` on which `p` holds: its first tick and its length. -/
def longestRun (p : Nat → Bool) (n : Nat) : Nat × Nat :=
  let r := (List.range n).foldl (fun (a : (Nat × Nat) × (Nat × Nat)) t =>
    let cur := if p t then (if a.2.2 = 0 then (t, 1) else (a.2.1, a.2.2 + 1)) else (t, 0)
    (if a.1.2 < cur.2 then cur else a.1, cur)) ((0, 0), (0, 0))
  r.1

/-- The midpoint of a run. -/
def midpoint (r : Nat × Nat) : Nat := (roundOpen 1 (r.1 + (r.2 : Rat) / 2)).toNat

/-- TRIG0 or TRIG1 of a leg (R289): 0xFFFF where no interval of 64 ticks has cells 1 and 2 in state 0. -/
def fcTrigger (period : Nat) (fallback : Bool) (cmps : List Nat) (perm : Nat) : Nat :=
  let r := longestRun (fun t => !legCell period fallback cmps perm 0 t && !legCell period fallback cmps perm 1 t) period
  if r.2 < 64 then 0xFFFF else midpoint r

/-- TRIG2 (R289): the middle of the longest interval without an edge of leg A. -/
def iTrigger (period : Nat) (fallback : Bool) (cmps : List Nat) (perm : Nat) : Nat :=
  midpoint (longestRun (fun t => t == 0 || (List.range 3).all fun x =>
    legCell period fallback cmps perm x t == legCell period fallback cmps perm x (t - 1)) period)

/-- Ticks that cell x has held its state at the end of a period, and holds it from the start of one. -/
def heldEnd (period slot c : Nat) : Nat :=
  if c = 0 ∨ period ≤ c then period else
    let q := (2 * period - 1 - phaseOf period slot) % period
    if q < c then q + 1 else q + 1 - c
def heldStart (period slot c : Nat) : Nat :=
  if c = 0 ∨ period ≤ c then period else
    let q := (period - phaseOf period slot) % period
    if q < c then c - q else period - q

/-- A rotation step of a leg would leave no cell in a state for less than th ticks across the boundary (R290). -/
def stepOk (period perm : Nat) (old new ths : List Nat) : Bool :=
  (List.range 3).all fun x =>
    let a := slotOf perm x
    let b := slotOf (perm + 1) x
    let o := old.getD x 0
    let n := new.getD x 0
    let th := ths.getD x 0
    let e := heldEnd period a o
    let f := heldStart period b n
    if cellState period a o (period - 1) = cellState period b n 0 then decide (th ≤ e + f) else decide (th ≤ e) && decide (th ≤ f)

/-- Short pulses and the carry of one cell (R287), in 1/256 tick: compare to write, carry, and whether the pulse is withheld. -/
def emitCell (period th : Nat) (req carry : Int) : Nat × Int × Bool :=
  let p : Int := 256 * period
  let t : Int := 256 * th
  let c := req + carry
  let r : Nat × Int × Bool :=
    if c < t then (0, c, decide (0 < c))
    else if p - c < t then (0xFFFF, c - p, decide (c < p))
    else ((c / 256).toNat, c - 256 * (c / 256), false)
  (r.1, clampInt (-t) t r.2.1, r.2.2)

/-- Linear interpolation in a list at a place counted in entries (R286); outside it, its first or last entry. -/
def lerpAt (l : List Rat) (place : Rat) : Rat :=
  let p := max 0 place
  let i := p.floor.toNat
  let a := l.getD i (l.getLastD 0)
  let b := l.getD (i + 1) (l.getLastD 0)
  a + (b - a) * (p - i)

/-- The media index, with its fraction, of the instant t_b + PERIOD/2 + τ_f of the next period (R286, R22): it begins at the gate drivers 4 ticks
after its boundary tick (Table 1.2), and a sample is 2,048 ticks. -/
def feedPlace (s : State) (k : Nat) : Rat :=
  ((s.pwm.tick + s.pwm.period + 4 : Nat) + (s.pwm.period : Rat) / 2 + tauOf s (192 + k) * tickHz s / 1000000000) / 2048

/-- The value of a list of samples that ends before media index `fin`, at a media index between two of them. -/
def sampleAt (l : List Rat) (fin : Nat) (q : Rat) : Rat := lerpAt l (l.length - ((fin : Rat) - q))

/-- V_ff at an instant (R285): the planned rail, corrected by what the rail measured 4 samples earlier differed from its plan. -/
def vFf (s : State) (q : Rail) (place : Rat) : Rat :=
  sampleAt q.plan (winBase s) place + (q.vRail - sampleAt q.plan (winBase s) (place - 4))

/-- The modulation of a period from the FIFO, whose samples carry their V_top (R246), with the share correction and a join mark (R375, Table 14.8), and whether it
clips (R285). -/
def feedM (s : State) (c : Nat) (place : Rat) : Rat × Bool :=
  let m := (sampleAt (((s.chan c).dsp.yOld ++ (s.chan c).dsp.y).map fun p => p.1 * p.2) (winBase s) place
      + corrAt (s.chan c).share place.floor.toNat + joinMark s c place.floor.toNat)
    / vFf s (s.rail (rcOf c)) place
  (clampRat (-1) 1 m, decide (1 < absRat m))

/-- The duty of leg A while the FIFO is empty (R298): `n` counts ticks, 2,048 to a sample. -/
def starveStep (period : Nat) (r : Ramp) : Ramp := { r with i := min r.n (r.i + period) }

/-- One period of a fed channel, with the duty of leg A given: its generator with the shadows written and the carries and rotation
advanced, the pulses withheld and the rotation steps made (R286, R287, R289, R290). -/
def feedWrite (k : Nat) (dA : Rat) (s : State) : PwmCh × Nat × Nat :=
  let c := 192 + k
  let g := s.pwmCh k
  let per := s.pwm.period
  let fb := (s.chan c).fsm.cellFallback
  let out := (List.range 6).map fun x =>
    let d := if x < 3 then dA else 1 - dA
    let trim := if fb then 0 else (if x < 3 then g.trimA else g.trimB).getD (x % 3) 0
    let th := if fb then max (cellTh s c (x / 3 * 3)) (max (cellTh s c (x / 3 * 3 + 1)) (cellTh s c (x / 3 * 3 + 2))) else cellTh s c x
    emitCell per th (roundOpen 2 (256 * d * per) + trim) (g.carry.getD x 0)
  let cmps := out.map (·.1)
  let ths := (List.range 6).map (cellTh s c)
  let old := (List.range 6).map fun x => cmpOf g.act x
  let turn := fun (leg rot : Nat) =>
    !fb && decide (31 ≤ rot) && stepOk per (permOf g.act leg) ((old.drop (3 * leg)).take 3) ((cmps.drop (3 * leg)).take 3) ((ths.drop (3 * leg)).take 3)
  let tA := turn 0 g.rotA
  let tB := turn 1 g.rotB
  let pA := if fb then 0 else (permOf g.act 0 + bit tA 0) % 3
  let pB := if fb then 0 else (permOf g.act 1 + bit tB 0) % 3
  let sh1 := (List.range 6).foldl (fun l x => setHalf l x (cmps.getD x 0)) g.sh
  let trigs := [fcTrigger per fb (cmps.take 3) pA, fcTrigger per fb (cmps.drop 3) pB, iTrigger per fb (cmps.take 3) pA]
  let sh2 := (List.range 3).foldl (fun l j => setHalf l (2 * wTrig01 + j) (trigs.getD j 0)) sh1
  ({ g with
      sh := sh2.set wPerm (word (pA + 16 * pB)), carry := out.map (·.2.1), duty := dA
      rotA := if tA then 0 else g.rotA + 1, rotB := if tB then 0 else g.rotB + 1 },
    (out.filter fun o => o.2.2).length, bit tA 0 + bit tB 0)

/-- The period is written, counted and armed; the writes stand 48 ticks before the boundary (R284). -/
def feedPeriod (k : Nat) (dA : Rat) (s : State) : State :=
  let w := feedWrite k dA s
  let s1 := ((s.modPwmCh k fun _ => w.1).count (chanStat (192 + k) 0x0CC) w.2.1).count (chanStat (192 + k) 0x0CD) w.2.2
  loadAll (word (2 ^ k)) { s1 with pwm := { s1.pwm with count := s.pwm.period - 48 } }

/-- One period of the feeder for Lk (R284 to R290, R298). -/
def execFeederPeriod (k : Nat) (s : State) : Out State :=
  let c := 192 + k
  if s.media.locked && decide (k < 16) && fed s k then
    if (s.chan c).fsm.feedStarved then
      let r := starveStep s.pwm.period (s.pwmCh k).starve
      .next (feedPeriod k r.now (s.modPwmCh k fun g => { g with starve := r }))
    else
      let m := feedM s c (feedPlace s k)
      .next (feedPeriod k (dutyA m.1) (if m.2 then clipOnce c (feedPlace s k).floor.toNat s else s))
  else .next s

/-! ### Samplers and balance (R282, R289, R302) -/

/-- Trims that add up to 0, in 1/256 tick: scaled down together where one would exceed ±16 ticks, rounded toward 0 but for the one that
balances the others, which is never the largest. -/
def zeroSum (d1 d2 : Rat) : List Int :=
  let d3 := -d1 - d2
  let m := max (absRat d1) (max (absRat d2) (absRat d3))
  let k : Rat := if 16 < m then 4096 / m else 256
  let tr := fun (d : Rat) => if d < 0 then -(-(k * d)).floor else (k * d).floor
  if absRat d1 = m then [tr d1, tr d2, -(tr d1 + tr d2)]
  else if absRat d2 = m then [tr d1, tr d2, -(tr d1 + tr d2)]
  else [tr d1, -(tr d1 + tr d3), tr d3]

/-- Trims of a leg after a fresh sample (R289): 0 where the current is below 2 % of full scale or both errors are within 1 %. A capacitor is
charged by i while the cell above it is in state 1 and the one below in state 0, so the two cells of a capacitor differ by 4 ticks per 1 % of
its error against the sign of i (log entry 63). -/
def newTrims (vRail e1 e2 i : Rat) : List Int :=
  if absRat i < 1 ∨ (absRat e1 ≤ vRail / 100 ∧ absRat e2 ≤ vRail / 100) then [0, 0, 0]
  else
    let per := fun (e : Rat) => (if i < 0 then 1 else -1) * 400 * e / vRail
    zeroSum ((2 * per e1 + per e2) / 3) ((per e2 - per e1) / 3)

/-- A fault that the flying-capacitor judgement finds (R302): a hard stop, and the cell check with the channel held in FAULT. -/
def fcStop (c low cap : Nat) (dev : Rat) (s : State) : State :=
  let s1 := hardStop c (chanCode c low) [word cap, wordU (1000 * dev)] s
  s1.modFsm c fun f => if f.state = .fault then { f with diagStep := 1 } else f

/-- A fresh sample of a leg (R289, R302). -/
def fcSample (k leg : Nat) (v1 v2 i : Rat) (s : State) : State :=
  let c := 192 + k
  let vr := (s.rail (rcOf c)).vRail
  let e1 := v1 - legVolts vr 2
  let e2 := v2 - legVolts vr 1
  let g := s.pwmCh k
  let lim := (if leg = 0 then g.trimA else g.trimB).any fun t => absInt t == 4096
  let run := fun (i : Nat) (e : Rat) => if vr / 10 < absRat e ∧ lim then g.devRun.getD i 0 + 1 else 0
  let r1 := run (2 * leg) e1
  let r2 := run (2 * leg + 1) e2
  let s1 := s.modPwmCh k fun g => { g with
    fc := (g.fc.set (2 * leg) v1).set (2 * leg + 1) v2, devRun := (g.devRun.set (2 * leg) r1).set (2 * leg + 1) r2 }
  if !armed s c ∨ (s.chan c).fsm.cellFallback then s1
  else if vr / 5 < absRat e1 then fcStop c 0x41 (2 * leg + 1) (absRat e1) s1
  else if vr / 5 < absRat e2 then fcStop c 0x41 (2 * leg + 2) (absRat e2) s1
  else if 16 ≤ r1 then fcStop c 0x42 (2 * leg + 1) (absRat e1) s1
  else if 16 ≤ r2 then fcStop c 0x42 (2 * leg + 2) (absRat e2) s1
  else
    s1.modPwmCh k fun g => if leg = 0 then { g with trimA := newTrims vr e1 e2 i } else { g with trimB := newTrims vr e1 e2 i }

/-- TRIGj of Lk matches (R282): its samplers are latched, and a selected match is a commutation event. -/
def execTrigMatch (k j : Nat) (v1 v2 i : Rat) (s : State) : Out State :=
  let t := trigOf (s.pwmCh k).act j
  if s.media.locked && decide (k < 16) && decide (j < 4) && decide (t < s.pwm.period) then
    let s1 := if evtBit (s.pwmCh k).act (9 + j) then commuteAt k t s else s
    let s2 : State := { s1 with pwm := { s1.pwm with count := t } }
    match j with
    | 0 => .next (fcSample k 0 v1 v2 i s2)
    | 1 => .next (fcSample k 1 v1 v2 i s2)
    | 2 => .next (s2.modPwmCh k fun g => { g with iSample := i })
    | _ => .next (s2.modPwmCh k fun g => { g with legSample := [v1, v2] })
  else .next s

/-! ### The cell check and the fallback (R303, R304) -/

/-- The first switch, 1 to 12, that does not conduct. -/
def badSwitch (conducts : Nat) : Option Nat := ((List.range 12).find? fun b => conducts / 2 ^ b % 2 == 0).map (· + 1)

/-- The check passes: the channel goes on from it. The fallback ends where a CLEAR_FAULT came before (R304), and a CELL_FAILED that a
CLEAR_FAULT has taken to DIAG is cleared (R303). -/
def cellPassed (c : Nat) (s : State) : State :=
  let s1 := s.modFsm c fun f => { f with
    cellFallback := f.cellFallback && !f.cellClear, cellClear := false, code := if f.state = .diag then 0 else f.code }
  if (s.chan c).fsm.state = .fault then s1.modFsm c fun f => { f with diagStep := 0 } else passTest c 1 s1

/-- The check leaves the channel in FAULT with CELL_FAILED. -/
def cellFailed (c : Nat) (w : Word) (s : State) : State :=
  if (s.chan c).fsm.state = .fault then
    (hardStop c (chanCode c 0x44) [w] s).modFsm c fun f => { f with diagStep := 0 }
  else failTest c (chanCode c 0x44) [w] s

/-- The channel goes on in the 2-level fallback: from a test to the next, from FAULT through PRECHARGE (R303), unless a cause that no re-test
clears has been latched since. -/
def cellFallback (c open_ : Nat) (s : State) : State :=
  let f := (s.chan c).fsm
  let s1 := (s.modFsm c fun f => { f with cellFallback := true, cellClear := false, code := if f.state = .diag then 0 else f.code }).raise
    (chanCode c 0x43) c [word open_]
  if f.state ≠ .fault then passTest c 1 s1
  else if retestable f.code then toPrecharge c s1
  else s1.modFsm c fun f => { f with diagStep := 0 }

/-- The switches that conduct, bit n − 1 for switch n of Table 2.6: a drop of at most 0.2 V (R303). -/
def conducting (drops : List Rat) : Nat := (List.range 12).foldl (fun a b => a + bit (decide (drops.getD b 0 ≤ 1/5)) b) 0
/-- The open capacitors, bit j − 1 for capacitor j: one that moves by more than 1 % of V_rail per µs (R303). -/
def openOnes (vRail : Rat) (slopes : List Rat) : Nat :=
  (List.range 4).foldl (fun a b => a + bit (decide (vRail / 100 < absRat (slopes.getD b 0))) b) 0

/-- The cell check runs with the rail present: in FAULT after a capacitor fault, else as the first test (R303). -/
def cellCheckRuns (s : State) (c : Nat) : Bool :=
  let f := (s.chan c).fsm
  isL c && f.diagStep == 1 && railUp s c && (f.state == .fault || ((f.state == .diag || f.state == .retest) && f.calDone && !(s.chan c).share.joinReq))

def execCellCheck (c : Nat) (drops slopes : List Rat) (s0 : State) : Out State :=
  let conducts := conducting drops
  let openCaps := openOnes (s0.rail (rcOf c)).vRail slopes
  let s := s0.modFsm c fun f => { f with cellConducts := conducts, cellCaps := openCaps }
  if cellCheckRuns s0 c then
    match badSwitch conducts with
    | some n => .next (cellFailed c (word n) s)
    | none =>
      if openCaps = 0 then .next (cellPassed c s)
      else match fallbackRow? s.cfg.active (rcOf c) with
        | some _ => .next (cellFallback c openCaps s)
        | none => let p := s.draw; .next (cellFailed c (word p.1) p.2)
  else .next s0

/-! ### A starved feeder (R298) -/

def execFeedUnderrun (c : Nat) (s : State) : Out State :=
  let k := lOf c
  if isL c && fed s k && !(s.chan c).fsm.feedStarved then
    let s1 := (s.modFsm c fun f => { f with feedStarved := true }).modPwmCh k fun g => { g with starve := ⟨g.duty, 1/2, 0, 32 * 2048⟩ }
    .next ((s1.count (chanStat c 0x0CE) 1).raise 0x6045 c [32])
  else .next s

def execFeedResume (c : Nat) (s : State) : Out State :=
  if isL c && fed s (lOf c) && (s.chan c).fsm.feedStarved then
    .next (s.modChan c fun h => { h with fsm := { h.fsm with feedStarved := false }, dsp := { h.dsp with fade := ⟨0, 1, 0, 1024⟩ } })
  else .next s

end Sys2Proof.Machine
end

