-- ==== Sys2Proof/Machine/Rails.lean ====
section
/-! DEFINITION. The rail controllers: ceilings, starts, limits, stops, phases, temperature, sync, spread and telemetry (R329 to R354). -/

namespace Sys2Proof.Machine

/-- A status field that the Keeper refreshes (R215). -/
def State.put (id : Nat) (w : Word) (s : State) : State := { s with status := SMap.put 0 id w s.status }

/-- The setpoint of a row in force. -/
def setpoint (s : State) (r row : Nat) : Rat := s.cfg.active.setpoint r row

/-- The effective slew σ in V/ms (R338). -/
def slew (s : State) (r : Nat) : Rat :=
  let v := s.ratv 0x07 r 2
  if r % 3 = 2 then (if v < 60 then v else 60) else v

/-- Setpoint `row` of the table that the RAIL logic works with (R338). -/
def Rail.setpoint (q : Rail) (row : Nat) : Rat := q.table.getD row 0
/-- The eight setpoints in force. -/
def setpoints (s : State) (r : Nat) : List Rat := (List.range 8).map (setpoint s r)

/-- A value moved toward a goal by at most `by_`. -/
def approach (x goal by_ : Rat) : Rat := if x < goal then min goal (x + by_) else max goal (x - by_)

/-! ### Ceilings (R335, R336) -/

/-- A row that has stood on the pins for `us` microseconds is taken by a filter of Table 13.3 whose time in microseconds is `up` to `up` + 100
for a higher row and `down` to `down` + 100 for a lower one. -/
def rselTaken (up down old row us : Nat) (s : State) : Bool × State :=
  if row = old then (false, s) else s.filtered (if old < row then up else down) ((if old < row then up else down) + 100) us

def execRselFilterRail (row us : Nat) (s : State) : Out State :=
  if s.power.seqDone then
    let p := rselTaken 500 1500 s.misc.rselRail (min row 7) us s
    .next (if p.1 then
      forUnits 12 (fun r t => ceilingChanged r (cEffRail s r) t) { p.2 with misc := { p.2.misc with rselRail := min row 7 } }
    else p.2)
  else .next s

def execRselFilterDsp (row us : Nat) (s : State) : Out State :=
  if s.media.locked then
    let p := rselTaken 1000 1000 s.misc.rselDsp (min row 7) us s
    .next (if p.1 then { p.2 with misc := { p.2.misc with rselDsp := min row 7 } } else p.2)
  else .next s

/-- The handshake register of Table 1.5: ceiling terms and the measured rail voltage. -/
def execCeilingTermsRefresh (rc : Nat) (vRail : Rat) (s : State) : Out State :=
  if s.media.locked then
    .next (s.modRail rc fun q => { q with dFaultDsp := q.dFaultRail, dTempDsp := q.dTempRail, vRail := vRail })
  else .next s

/-- The RAIL logic takes a new c_keeper. -/
def keepRail (rc row : Nat) (s : State) : State :=
  ceilingChanged rc (cEffRail s rc) (s.modRail rc fun q => { q with cKeepRail := row })

/-- A new c_keeper (R336): the DSP first when lower, the RAIL logic first when higher. The fallback holds it down (R304). -/
def execKeeperCeilingWrite (rc row : Nat) (s : State) : Out State :=
  if s.keeper.serving && !s.keeper.halted then
    let cap := if groupFallback s rc then (fallbackRow? s.cfg.active rc).getD 7 else 7
    let goal := min row cap
    let old := (s.rail rc).cKeepGoal
    let s1 := s.modRail rc fun q => { q with cKeepGoal := goal, secondDue := goal != old || q.secondDue }
    if goal < old then .next (s1.modRail rc fun q => { q with cKeepDsp := goal })
    else if old < goal then .next (keepRail rc goal s1)
    else .next s1
  else .next s

/-- The other side takes the new c_keeper 2 ms later (R336): a write of the Keeper (R36). -/
def execCKeeperSecondWrite (rc : Nat) (s : State) : Out State :=
  let q := s.rail rc
  if q.secondDue && !s.keeper.halted then
    let s1 := s.modRail rc fun q => { q with secondDue := false, cKeepDsp := q.cKeepGoal }
    .next (keepRail rc q.cKeepGoal s1)
  else .next s

/-- What the reference heads for: its target, or row 0 once every fed channel of a requested stop is in OFF or FAULT (R345). -/
def refGoal (s : State) (r : Nat) (q : Rail) : Rat := if q.stopReq && fedStopped s r then min q.ref (q.setpoint 0) else q.target

/-- How fast it moves in V/ms: in a straight line from V_pre to V_t0 over t_r during a rising soft start, else at σ (R338, R342). -/
def refRate (s : State) (r : Nat) (q : Rail) : Rat := if q.state = .softStart ∧ q.rising then q.setpoint 0 / q.cyc.softMs else slew s r

/-- One block of a reference. -/
def moveRef (s : State) (r : Nat) (q : Rail) : Rail :=
  if q.state.gatesOn then { q with ref := approach q.ref (refGoal s r q) (refRate s r q / 12) } else q

/-- The selection R(k) is applied (R338): the reference, which moves with every block, now heads for the new target. The setpoints come with the
selection. Without the CD link selections are ignored (R345). -/
def execRailSelectionApply (rc : Nat) (s : State) : Out State :=
  let q := s.rail rc
  if q.state == .regulating then
    let on := (s.dsd (rc / 3)).linked
    let row := if on then min q.sent (cEffRail s rc) else q.row
    .next (s.modRail rc fun q =>
      let t := if on then { q with table := q.sentTable } else q
      { t with row := row, target := t.setpoint row })
  else .next s

/-! ### Starts (R340 to R343) -/

/-- It is the controller's turn on its DSD: no controller before it is due or on its way to REGULATING (R340). -/
def railTurn (s : State) (r : Nat) : Bool :=
  (List.range (r % 3)).all fun i =>
    let q := s.rail (r / 3 * 3 + i)
    !(s.flag 0x07 (r / 3 * 3 + i) 0 && (q.due || q.state == .check || q.state == .softStart))

/-- The Keeper may start the controller. -/
def railMayStart (s : State) (r : Nat) : Bool :=
  s.flag 0x07 r 0 && s.keeper.dev == .run && !s.keeper.halted && (s.dsd (r / 3)).released && (s.dsd (r / 3)).linked && railTurn s r

/-- The phase offset of a phase in degrees (R350). -/
def phaseDeg (r : Nat) (phaseB : Bool) : Nat := (15 * r + if phaseB then 180 else 0) % 360

/-- Whether `rail.fsw_khz` is within ±25 % of RSYNC (R351). -/
def syncFits (s : State) (r : Nat) (hz : Rat) : Bool :=
  let f := 1000 * s.ratv 0x07 r 1
  decide (hz * 3 / 4 ≤ f) && decide (f ≤ hz * 5 / 4)

/-- The own frequency of a controller in Hz (R350): s is 0 while `rail.spread_pct` is 0 (R352). -/
def ownHz (s : State) (r : Nat) : Rat :=
  1000 * s.ratv 0x07 r 1 * (1 + if s.ratv 0x07 r 3 = 0 then 0 else (s.rail r).spread)

/-- f_ref in Hz (R350, R351): on acquisition and on loss it moves in a straight line over 200 µs. -/
def fRef (s : State) (r : Nat) : Rat :=
  let q := s.rail r
  let goal := if q.sync = 1 ∨ q.sync = 2 then s.misc.rsyncHz else ownHz s r
  if q.sync = 1 ∨ q.sync = 3 then q.cyc.fFrom + (goal - q.cyc.fFrom) * (min 200 q.cyc.moveUs) / 200 else goal

/-- A move of f_ref begins, on a controller that switches; another is at its goal. -/
def moveFreq (r : Nat) (moving there : Nat) (s : State) : State :=
  let f := fRef s r
  s.modRail r fun q =>
    if q.state.gatesOn then { q with sync := moving, cyc := { q.cyc with fFrom := f, moveUs := 0 } } else { q with sync := there }

/-- A controller meets a present RSYNC: f_ref moves to it without spread, or it is out of range (R351). The phase offset then to be made up is
not stated: a free value within half a turn. -/
def meetSync (r : Nat) (s : State) : State :=
  let hz := s.misc.rsyncHz
  let q := s.rail r
  if !s.misc.rsync || !s.flag 0x07 r 0 then s
  else if syncFits s r hz then
    if q.sync = 1 ∨ q.sync = 2 then s
    else
      let p := s.drawRat
      ((moveFreq r 1 2 p.2).modRail r fun q => { q with spread := 0, cyc := { q.cyc with slipDeg := clampRat (-180) 180 p.1 } }).raise 0x7010 r [wordU hz]
  else if q.sync = 4 then s else (s.modRail r fun q => { q with sync := 4 }).raise 0x7011 r [wordU hz]

/-- A start begins (R340), with its number in the episode and the retries left after it: CHECK, waiting for V_in. The fields of Table 5.5 that
apply at the next start are taken (R119). A disabled phase is judged again (R348); the spread register is seeded (R352). -/
def railBegin (r attempts left : Nat) (s : State) : State :=
  let old := cEffRail s r
  let s1 := s.modRail r fun q => { q.stopped .check with
    due := false, code := 0, attempts := attempts, retriesLeft := left
    cyc := { (q.stopped .check).cyc with softMs := s.ratv 0x07 r 4, retryMs := s.nat 0x07 r 6 }
    test := 0, testCode := 0, aOpen := false, aSense := false, bOpen := false, bSense := false, dFaultRail := 0, lfsr := r + 1, spread := 0, turnB := false
    table := setpoints s r, sentTable := setpoints s r }
  ceilingChanged r old (meetSync r (s1.life (railStat r 0x042) 1))

def execRailStart (rc : Nat) (s : State) : Out State :=
  let q := s.rail rc
  if q.due && q.test == 0 && (q.state == .off || q.state == .fault || q.state == .retryWait) && railMayStart s rc then
    .next (railBegin rc 1 (s.nat 0x07 rc 5) s)
  else .next s

/-- V_in enters 9.0 V to 60.0 V: check 1 begins, and with it the NTC measurement (R340, R349). -/
def execVinEntersRange (rc : Nat) (vIn : Rat) (s : State) : Out State :=
  let q := s.rail rc
  if q.state == .check && q.check == 0 && decide (9 ≤ vIn) && decide (vIn ≤ 60) then .next (s.modRail rc fun q => { q with check := 1, ntcOn := true }) else .next s

def phaseWord (b : Bool) : Word := word (bit b 0)
/-- V_lim of a running phase, in mV: halved while the other is disabled (R348). -/
def Rail.failedA (q : Rail) : Bool := q.aOpen || q.aSense
def Rail.failedB (q : Rail) : Bool := q.bOpen || q.bSense
def Rail.limMv (q : Rail) : Rat := if q.failedA || q.failedB then q.vLim / 2 else q.vLim
/-- `ilimit_mv` (Table 13.6): V_lim of phase A, which a failure of phase B halves. -/
def Rail.limShown (q : Rail) : Rat := if q.failedB then q.vLim / 2 else q.vLim
/-- I_lim in amperes across the 2.00 mΩ shunt (R344, chapter 17). -/
def Rail.iLim (q : Rail) : Rat := q.limMv / 2

/-- A phase fails (R347, R348): disabled, and the ceiling drops a row; the second failure stops the controller. -/
def phaseFail (r : Nat) (b open_ : Bool) (data : List Word) (s : State) : State :=
  let q := s.rail r
  let code := if open_ then 0x7006 else 0x7007
  let s1 := ((s.modRail r fun q =>
    if b then { q with bOpen := q.bOpen || open_, bSense := q.bSense || !open_, chargingB := false, blockedB := false }
    else { q with aOpen := q.aOpen || open_, aSense := q.aSense || !open_, chargingA := false, blockedA := false }).raise code r data).life (railStat r 0x046) 1
  if (if b then q.failedA else q.failedB) then railFault r 0x7008 [word code] s1
  else ceilingChanged r (cEffRail s r) (s1.modRail r fun q => { q with dFaultRail := 1 })

/-- SOFT_START (R342): from V_pre up to the setpoint of row 0, or down to it at σ. -/
def softStart (r : Nat) (vPre : Rat) (s : State) : State :=
  s.modRail r fun q => { q with
    state := .softStart, check := 0, ref := vPre, target := q.setpoint 0, row := 0, rising := decide (vPre < q.setpoint 0)
    cyc := { q.cyc with vPre := vPre } }

/-- t_r of a start in ms (R342). -/
def rampMs (s : State) (r : Nat) : Rat :=
  let q := s.rail r
  let v0 := q.setpoint 0
  if q.cyc.vPre < v0 then q.cyc.softMs * (v0 - q.cyc.vPre) / v0 else (q.cyc.vPre - v0) / slew s r

/-- The check that follows check n of the six, or the soft start. -/
def nextCheck (r n : Nat) (vPre : Rat) (s : State) : State :=
  if n < 6 then s.modRail r fun q => { q with check := n + 1, ntcOn := true } else softStart r vPre s

/-- Word 1 of RC_HS_SHORT (Table 13.4). -/
def hsSwitch (isx vis vos : Rat) : Word := word (bit (decide (absRat (isx - vis) ≤ 1)) 0 + bit (decide (absRat (isx - vos) ≤ 1)) 1)

/-- The two currents of a PHASE_OPEN record in mA, each an unsigned half of the word (Table 13.7, R444). -/
def currentsWord (iA iB : Rat) : Word :=
  let half := fun (i : Rat) => (clampInt 0 0xFFFF (roundEven (1000 * i))).toNat
  word (half iA + 0x10000 * half iB)

/-- A RAIL_CHECK has its controller checked with every gate off (R406, R407). -/
def railTested (q : Rail) : Bool := decide (1 ≤ q.test) && decide (q.test ≤ 6) && (q.state == .off || q.state == .fault)

/-- A check of Table 13.4 for RAIL_CHECK ends: a short ends the test, an inductance that is too small marks its phase (R341, R406). -/
def testCheck (rc : Nat) (isx vis vos rise : Rat) (s : State) : State :=
  let q := s.rail rc
  let b := decide (3 < q.test)
  let found := fun (to_ code : Nat) (data : List Word) (s : State) =>
    (s.modRail rc fun q => { q with
      test := to_, ntcOn := true, testCode := if q.testCode = 0 then code else q.testCode, cyc := { q.cyc with vPre := vos } }).raise code rc data
  let passed := fun (f : Rail → Rail) => s.modRail rc fun q => { f q with test := q.test + 1, ntcOn := true, cyc := { q.cyc with vPre := vos } }
  if q.test % 3 = 1 then
    if 1 ≤ isx then found 7 0x7001 [phaseWord b, hsSwitch isx vis vos, wordU (1000 * isx)] s else passed id
  else if q.test % 3 = 2 then
    if isx < 4/10 then found 7 0x7002 [phaseWord b, wordU (1000 * isx), phaseWord (decide (vos < 4/10))] s else passed id
  else if rise < q.iLim / 50 then
    found (q.test + 1) 0x7006 [phaseWord b, if b then currentsWord 0 rise else currentsWord rise 0, 1]
      (s.modRail rc fun q => if b then { q with bOpen := true } else { q with aOpen := true })
  else passed fun q => if b then { q with lB := vis * (4/10) / rise, bOpen := false } else { q with lA := vis * (4/10) / rise, aOpen := false }

/-- A check of Table 13.4 ends. Check 3 reads the rise of its phase while the other one is off. The operands: `isx`, VIS, VOS − VOG in volts, `rise` Δi in amperes. -/
def execRailPrecheck (rc : Nat) (isx vis vos rise : Rat) (s : State) : Out State :=
  let q := s.rail rc
  let n := if q.check = 0 then 1 else q.check
  let b := decide (3 < n)
  if railTested q && decide (9 ≤ vis) && decide (vis ≤ 60) then .next (testCheck rc isx vis vos rise s)
  else if q.state == .check && (q.check != 0 || (decide (9 ≤ vis) && decide (vis ≤ 60))) then
    if n = 1 ∨ n = 4 then
      .next (if 1 ≤ isx then railFault rc 0x7001 [phaseWord b, hsSwitch isx vis vos, wordU (1000 * isx)] (s.modRail rc fun q => { q with ntcOn := true })
        else nextCheck rc n vos s)
    else if n = 2 ∨ n = 5 then
      .next (if isx < 4/10 then railFault rc 0x7002 [phaseWord b, wordU (1000 * isx), phaseWord (decide (vos < 4/10))] s
        else nextCheck rc n vos s)
    else
      let l := vis * (4/10) / rise
      if rise < q.iLim / 50 then
        let s1 := phaseFail rc b true [phaseWord b, if b then currentsWord 0 rise else currentsWord rise 0, 1] s
        .next (if (s1.rail rc).state = .check then nextCheck rc n vos s1 else s1)
      else .next (nextCheck rc n vos (s.modRail rc fun q => if b then { q with lB := l } else { q with lA := l }))
  else .next s

/-- REGULATING (R342), `ms` after the soft start began: the reference has reached V_t0 and the rail has stayed within ±3 % of it for 1 ms.
Selections are accepted from row 0. -/
def execRailRegulating (rc : Nat) (vOut ms : Rat) (s : State) : Out State :=
  let q := s.rail rc
  let v := q.setpoint 0
  if q.state == .softStart && !q.stopReq && q.ref == v && decide (rampMs s rc + 1 ≤ ms) && decide (absRat (vOut - v) ≤ v * 3/100) then
    .next (s.modRail rc fun q => { q with state := .regulating, ref := v, target := v, row := 0, rows := [], sent := 0, rising := false, vPlan := v, plan := [] })
  else .next s

def startData (q : Rail) (v : Rat) : List Word := [wordU (1000 * v), word q.attempts]

/-- The check at t_r + 2 ms (R343). -/
def execStartShort (rc : Nat) (vOut ms : Rat) (s : State) : Out State :=
  let q := s.rail rc
  if q.state == .softStart && decide (rampMs s rc + 2 ≤ ms) && decide (vOut < q.setpoint 0 / 4) then
    .next (railFault rc 0x7003 (startData q vOut) s)
  else .next s

/-- Not in REGULATING by t_r + 20 ms (R343). -/
def execStartTimeout (rc : Nat) (vOut ms : Rat) (s : State) : Out State :=
  let q := s.rail rc
  if q.state == .softStart && decide (rampMs s rc + 20 ≤ ms) then .next (railFault rc 0x7004 (startData q vOut) s) else .next s

/-- The retry of R343, no earlier than `rail.start_retry_ms` after the stop, or RC_START_FAILED once after the last: a retry policy of the
Keeper (R36). -/
def execRailRetry (rc : Nat) (s : State) : Out State :=
  let q := s.rail rc
  if q.state == .retryWait && railMayStart s rc && decide (q.cyc.stoppedAt + 1000 * q.cyc.retryMs ≤ s.keeper.counterUs) then
    .next (railBegin rc (q.attempts + 1) (q.retriesLeft - 1) s)
  else if !s.keeper.halted && q.state == .fault && railRetried q.code && q.retriesLeft == 0 then
    .next (((s.modRail rc fun q => { q with code := 0x7005 }).life (railStat rc 0x043) 1).raise 0x7005 rc [word q.code])
  else .next s

/-! ### Regulation and limits (R330 to R334, R344) -/

/-- The mode for a ratio (Table 13.1): 1 buck, 2 buck-boost, 3 boost. Buck and boost are left for buck-boost alone; a start, which has no mode
before it, takes the one that buck-boost would be left for: the model's choice (log entry 59). -/
def railMode (old : Nat) (r : Rat) : Nat :=
  match old with
  | 1 => if r ≤ 85/100 then 1 else 2
  | 3 => if 120/100 ≤ r then 3 else 2
  | _ => if r < 80/100 then 1 else if 125/100 < r then 3 else 2

/-- The four switches of a phase, IH, IL, OL and OH (R329, R330): in its charging interval, after it, or once its discharging interval has
ended (R344). -/
def phaseGates (mode : Nat) (charging idle : Bool) : List Bool :=
  match mode with
  | 1 => [charging, !charging && !idle, false, true]
  | 2 => [charging, !charging && !idle, charging, !charging && !idle]
  | 3 => [true, false, charging, !charging && !idle]
  | _ => [false, false, false, false]

/-- The switches held for 100 ns to recharge a bootstrap capacitor, every 64 cycles (R330). -/
def refreshGates (mode : Nat) (g : List Bool) : List Bool :=
  match mode, g with
  | 1, [ih, il, _, _] => [ih, il, true, false]
  | 3, [_, _, ol, oh] => [false, true, ol, oh]
  | _, g => g

/-- The cycle is one in which the bootstrap capacitor is recharged. -/
def Rail.recharges (q : Rail) : Bool := (q.mode == 1 || q.mode == 3) && q.cyc.count % 64 == 0

/-- A phase is in its charging interval `ns` after the interval began (R332): it lasts t_on, unless the limit has ended it. -/
def Rail.charges (q : Rail) (phaseB : Bool) (ns : Rat) : Bool :=
  (if phaseB then q.chargingB else q.chargingA) && decide (ns < q.cyc.tOn.getD (bit phaseB 0) 0)

/-- The gates of a phase of a controller `ns` after its last charging interval began; a failed phase is held off (R348). In a cycle in which the
bootstrap capacitor is recharged it is so for the first 100 ns: where in the cycle R330 does not say (log entry 59). -/
def Rail.gates (q : Rail) (phaseB : Bool) (ns : Rat) : List Bool :=
  if !q.state.gatesOn || (if phaseB then q.failedB else q.failedA) then [false, false, false, false]
  else
    let g := phaseGates q.mode (q.charges phaseB ns) (q.cyc.idle.getD (bit phaseB 0) false)
    if q.recharges && decide (0 ≤ ns) && decide (ns < 100) then refreshGates q.mode g else g

/-- The charging interval in ns of Table 13.2, with the lock correction `k` and the trim of R333; never below 60 ns. -/
def onTimeNs (mode : Nat) (k trim vt vin hz : Rat) : Rat :=
  let law := match mode with
    | 1 => vt / (vin * hz)
    | 2 => vt / ((vin + vt) * hz)
    | _ => (1 - vin / vt) / hz
  max 60 ((1 + k) * (1 + trim) * law * 1000000000)

/-- The reverse limit in mV of a phase (R331, R344): 0 during the rising ramp and while V_in is 59.0 V or above. -/
def Rail.reverseMv (q : Rail) : Rat := if q.rising || decide (59 ≤ q.cyc.vIn) then 0 else -(q.limMv / 4)

/-- One cycle of phase A goes by: the move of f_ref, the phase offset, the counts of R330 and R352, and a re-planned limit acts (R34). -/
def cyclePast (hz : Rat) (q : Rail) : Rail :=
  let us := q.cyc.moveUs + 1000000 / hz
  { q with
    vLim := q.vLimDue.getD q.vLim, vLimDue := none
    sync := if 200 ≤ us then (if q.sync = 1 then 2 else if q.sync = 3 then 0 else q.sync) else q.sync
    cyc := { q.cyc with moveUs := min 200 us, slipDeg := approach q.cyc.slipDeg 0 1, count := q.cyc.count + 1, drawn := q.cyc.drawn + 1 } }

/-- The inductor voltages of a mode in and after its charging interval (R329, R330). -/
def inductorVolts (mode : Nat) (vIn vt : Rat) : Rat × Rat :=
  match mode with
  | 1 => (vIn - vt, -vt)
  | 2 => (vIn, -vt)
  | _ => (vIn, vIn - vt)

/-- The stored inductance of a phase in µH. -/
def Rail.henry (q : Rail) (phaseB : Bool) : Rat := if phaseB then q.lB else q.lA
/-- The phases that switch (R348). -/
def Rail.phases (q : Rail) : List Bool := (if q.failedA then [] else [false]) ++ (if q.failedB then [] else [true])

/-- The rise in amperes of a phase's current over its charging interval: its inductor voltage over its stored inductance (R333, R347). -/
def predictedRise (q : Rail) (phaseB : Bool) : Rat :=
  (inductorVolts q.mode q.cyc.vIn q.ref).1 * (q.cyc.tOn.getD (bit phaseB 0) 0) / (1000 * q.henry phaseB)

/-- The emulated current of a phase `ns` after its last charging interval began: from the sensed current there, the integral of the inductor
voltage over the stored inductance (R333). -/
def Rail.emulated (q : Rail) (phaseB : Bool) (ns : Rat) : Rat :=
  let on := q.cyc.tOn.getD (bit phaseB 0) 0
  let u := inductorVolts q.mode q.cyc.vIn q.ref
  q.cyc.emu.getD (bit phaseB 0) 0 + (u.1 * min ns on + u.2 * max 0 (ns - on)) / (1000 * q.henry phaseB)

/-- The sum of the emulated currents less its mean, half the rise above the anchors. -/
def Rail.ripple (q : Rail) (nsA nsB : Rat) : Rat :=
  sumRat (q.phases.map fun b => q.emulated b (if b then nsB else nsA) - (q.cyc.emu.getD (bit b 0) 0 + predictedRise q b / 2))

/-- A triangle of a given rise at a fraction of its cycle, with the charging part `d` of it. -/
def triangle (rise d t : Rat) : Rat := if t < d then rise * t / d else rise * (1 - t) / (1 - d)

/-- The peak-to-peak value of the sum of the two currents in a mode at V_t, V_in and f_ref, half a cycle apart: its corners are at the edges of the
charging intervals (R333, R350). -/
def ripplePp (q : Rail) (mode : Nat) (vIn hz : Rat) : Rat :=
  let vt := q.ref
  let d := match mode with
    | 1 => vt / vIn
    | 2 => vt / (vIn + vt)
    | _ => 1 - vIn / vt
  let rise := fun (b : Bool) => (inductorVolts mode vIn vt).1 * d * 1000000 / (hz * q.henry b)
  let frac := fun (t : Rat) => t - t.floor
  let at_ := fun (t : Rat) => sumRat (q.phases.map fun b => triangle (rise b) d (frac (if b then t + 1/2 else t)))
  let l := [at_ 0, at_ d, at_ (1/2), at_ (1/2 + d)]
  l.foldl max (at_ 0) - l.foldl min (at_ 0)

/-- The comparator of R333 triggers: the sensed rail and v_inj fall below the reference that the outer integrator corrects. The next phase's own
charging interval ended `offNs` ago; the last trigger, of the other phase where both switch, came `sinceNs` ago. -/
def railTrigger (q : Rail) (b : Bool) (vOut offNs sinceNs : Rat) : Bool :=
  let own := offNs + q.cyc.tOn.getD (bit b 0) 0
  decide (vOut + q.cyc.gInj * q.ripple (if b then sinceNs else own) (if b then own else sinceNs) < q.ref + q.cyc.outer)

/-- A correction moves by a free amount in the direction that a difference asks for, within a bound. -/
def steerBy (bound old diff amount : Rat) : Rat :=
  clampRat (-bound) bound (if diff = 0 then old else if 0 < diff then old + absRat amount else old - absRat amount)

/-- The phase whose turn it is; a failed one takes none (R348). -/
def Rail.turn (q : Rail) : Bool := if q.failedA then true else if q.failedB then false else q.turnB

/-- A trigger starts a charging interval on the next phase (R333): `i` is its sensed current, `offNs` the time since its last one ended. A
limited phase waits for 0.9·I_lim (R344); the minimum off-time is 150 ns (R332). The lock loop lengthens the interval of a phase that is too fast,
within ±15 % (R332), and the trim that of the phase with the lower mean current, within ±10 %: by how much no rule states, and it is free. The
gain G_inj, set at a change of mode or of V_t by more than 2 %, makes v_inj 1 % of V_t from peak to peak; it is free where the two currents cancel.
The outer integrator adds up the error with a crossover of 2 kHz. -/
def execRailChargeStart (rc : Nat) (vIn vOut i offNs sinceNs : Rat) (s : State) : Out State :=
  let q := s.rail rc
  let b := q.turn
  let held := (if b then q.blockedB else q.blockedA) && decide (q.iLim * 9/10 ≤ i)
  if railTrigger q b vOut offNs sinceNs && q.state.gatesOn && decide (0 < vIn) && decide (0 < fRef s rc) && !held && decide (150 ≤ offNs) then
    let mode := railMode q.mode (q.ref / vIn)
    let hz := fRef s rc
    let k := s.drawRat
    let t := k.2.drawRat
    let g := t.2.drawRat
    let ph := bit b 0
    let mean := fun (b : Bool) => (if b = q.turn then i else q.cyc.emu.getD (bit b 0) 0) + predictedRise q b / 2
    let kv := steerBy (15/100) (q.cyc.k.getD ph 0) (1000000000 / (offNs + q.cyc.tOn.getD ph 0) - hz) k.1
    let tv := steerBy (10/100) (q.cyc.trim.getD ph 0) (if q.failedA || q.failedB then 0 else mean (!b) - mean b) t.1
    let inj := mode != q.mode || decide (q.cyc.injVt * 2/100 < absRat (q.ref - q.cyc.injVt))
    let pp := ripplePp q mode vIn hz
    .next (g.2.modRail rc fun q =>
      let q1 := if b && !q.failedA then q else cyclePast hz q
      let c := { q1.cyc with
        vIn := vIn, k := q1.cyc.k.set ph kv, trim := q1.cyc.trim.set ph tv, emu := q1.cyc.emu.set ph i
        tOn := q1.cyc.tOn.set ph (onTimeNs mode kv tv q.ref vIn hz), idle := q1.cyc.idle.set ph false
        outer := q1.cyc.outer + 2 * piR * 2000 * (q.ref - vOut) * sinceNs / 1000000000
        injVt := if inj then q.ref else q1.cyc.injVt, gInj := if inj then (if pp = 0 then absRat g.1 else q.ref / 100 / pp) else q1.cyc.gInj }
      if b then { q1 with mode := mode, chargingB := true, blockedB := false, turnB := false, cyc := c }
      else { q1 with mode := mode, chargingA := true, blockedA := false, turnB := true, cyc := c })
  else .next s

/-- The shunt voltage of a phase in mV crosses V_lim, which ends the charging interval, or the reverse limit, which ends the discharging
interval (R344). -/
def execRailLimitTrip (rc : Nat) (phaseB : Bool) (mv ns : Rat) (s : State) : Out State :=
  let q := s.rail rc
  let charging := q.charges phaseB ns
  if q.state.gatesOn && !(if phaseB then q.failedB else q.failedA) then
    if !charging && decide (mv ≤ q.reverseMv) then
      .next (s.modRail rc fun q => { q with cyc := { q.cyc with idle := q.cyc.idle.set (bit phaseB 0) true } })
    else if charging && decide (q.limMv < mv) then
      let n := q.limTotal + 1
      let s1 := (s.modRail rc fun q =>
        if phaseB then { q with chargingB := false, blockedB := true, limTotal := n }
        else { q with chargingA := false, blockedA := true, limTotal := n }).count (railStat rc 0x019) 1
      .next (if n % 1000 = 0 then s1.life (railStat rc 0x044) 1 else s1)
    else .next s
  else .next s

/-- Below 80 % of the reference for 1 ms while the limit acts, once per episode (R344). -/
def execRailSag (rc : Nat) (vOut : Rat) (s : State) : Out State :=
  let q := s.rail rc
  if q.state.gatesOn && !q.sagEp && (q.blockedA || q.blockedB) && decide (vOut < q.ref * 8/10) then
    .next ((((s.modRail rc fun q => { q with sagEp := true }).count (railStat rc 0x01A) 1).life (railStat rc 0x045) 1).raise 0x7009 rc
      [wordU (1000 * vOut), wordU (1000 * q.ref)])
  else .next s

/-! ### Stops (R345) -/

/-- The over-voltage level of a rail (R345). -/
def railOvLevel (s : State) (r : Nat) : Rat := min 98 ((s.rail r).setpoint 7 * 105/100)

def execRailOv (rc : Nat) (vOut : Rat) (s : State) : Out State :=
  if (s.rail rc).state.gatesOn && decide (railOvLevel s rc < vOut) then .next (railFault rc 0x700A [wordU (1000 * vOut)] s) else .next s

/-- A RAIL_CHECK is in progress on a controller. -/
def railCheckRuns (s : State) (r : Nat) : Bool := s.tests.list.any fun t => t.state == 0 && t.onRail r

/-- A requested stop reaches its end: every fed channel is in OFF or FAULT, the reference has fallen to row 0, all gates are off. The checks of
a RAIL_CHECK follow it (R407). -/
def execRailStop (rc : Nat) (s : State) : Out State :=
  let q := s.rail rc
  if q.stopReq && q.state.gatesOn && fedStopped s rc && decide (q.ref ≤ q.setpoint 0) then
    .next (s.modRail rc fun q => { q.stopped .off with
      row := 0, ref := 0, due := q.restart || q.due, restart := false, test := bit (railCheckRuns s rc) 0, testCode := 0 })
  else .next s

/-- The Keeper asks every controller to stop (R345): one that does not switch is off at once. -/
def stopRails (s : State) : State :=
  forUnits 12 (fun r s => s.modRail r fun q =>
    if q.state.gatesOn then { q with stopReq := true, due := false, restart := false }
    else { q.stopped .off with due := false, restart := false }) s

/-! ### Phases (R347, R348) -/

def execPhaseOpen (rc : Nat) (phaseB : Bool) (iA iB : Rat) (s : State) : Out State :=
  let q := s.rail rc
  let low := if phaseB then decide (iB < iA / 10) else decide (iA < iB / 10)
  if q.state.gatesOn && !q.failedA && !q.failedB && low && decide (3/10 < (iA + iB) / (2 * q.iLim)) then
    .next (phaseFail rc phaseB true [phaseWord phaseB, currentsWord iA iB, 0] s)
  else .next s

/-- The sensed rise of the last of 64 consecutive charging intervals differs by more than 50 % from the predicted one (R347). -/
def execPhaseSenseFailed (rc : Nat) (phaseB : Bool) (sensed : Rat) (s : State) : Out State :=
  let q := s.rail rc
  let pred := predictedRise q phaseB
  if q.state.gatesOn && !(if phaseB then q.failedB else q.failedA) && decide (absRat pred / 2 < absRat (sensed - pred)) then
    .next (phaseFail rc phaseB false [phaseWord phaseB, wordU (1000 * pred), wordU (1000 * sensed)] s)
  else .next s

/-! ### Temperature (R349) -/

/-- d_temp for a temperature, from the value in force (R349). -/
def dTempOf (old : Nat) (t : Rat) : Nat :=
  let up := if t < 110 then 0 else 1 + ((t - 110) / 5).floor.toNat
  max up ((List.range old).filter fun j => decide (105 + 5 * (j : Rat) ≤ t)).length

/-- T_rc: the mean of the NTC, or T_zone plus 20 K. -/
def rcTemp (s : State) (r : Nat) (q : Rail) : Rat := if q.onZone then (s.dsd (r / 3)).zoneC + 20 else mean q.readings

/-- T_rc is judged for the ceiling, and counted at 130 °C or above. -/
def judgeTemp (r : Nat) (s : State) : State :=
  let q := s.rail r
  let t := rcTemp s r q
  let d := dTempOf q.dTempRail t
  let s1 := s.modRail r fun q => { q with tempC := t, dTempRail := d, hotMs := if 130 ≤ t then q.hotMs + 1 else 0 }
  let s2 := if q.dTempRail = 0 ∧ 0 < d then s1.raise 0x700B r [wordS (10 * t), word d] else s1
  ceilingChanged r (cEffRail s r) s2

/-- One reading of the NTC, every 1 ms (R321, R349): 100 ms of one kind out of range declare that failure and substitute T_zone, 10 s in range
return. -/
def takeNtc (r : Nat) (ohm : Rat) (s : State) : State :=
  let q := s.rail r
  let kind := ntcKind ohm
  let n := if q.ntcBad = kind then q.ntcMs + 1 else 1
  let s1 := s.modRail r fun q => { q with
    ntcBad := kind, ntcMs := n
    readings := if q.onZone ∨ kind ≠ 0 then q.readings else (q.readings ++ [ntcCelsius ohm]).drop (q.readings.length - 15) }
  if kind = 0 then
    if q.onZone ∧ 10000 ≤ n then s1.modRail r fun q => { q with onZone := false, ntcWas := 0, readings := [ntcCelsius ohm] } else s1
  else if 100 ≤ n ∧ q.ntcWas ≠ kind then
    (s1.modRail r fun q => { q with onZone := true, ntcWas := kind, readings := [] }).raise (if kind = 1 then 0x700D else 0x700E) r [ohmWord ohm]
  else s1

def execRcNtcSample (rc : Nat) (ohm : Rat) (s : State) : Out State :=
  let q := s.rail rc
  if s.flag 0x07 rc 0 && q.ntcOn then
    let s1 := takeNtc rc ohm s
    .next (if (s1.rail rc).onZone || !(s1.rail rc).readings.isEmpty then judgeTemp rc s1 else s1)
  else .next s

/-- 130 °C or above for 100 ms (R349). -/
def execRcOvertemp (rc : Nat) (s : State) : Out State :=
  let q := s.rail rc
  if (q.state.gatesOn || q.state == .check) && q.ntcOn && decide (100 ≤ q.hotMs) then .next (railFault rc 0x700C [wordS (10 * q.tempC)] s)
  else .next s

/-- A restart after RC_OVERTEMP (R343, R349): it does not count against the retries. One after a stop from REGULATING is the first of a new
episode; any other goes on with the episode in progress. -/
def execRcOvertempRestart (rc : Nat) (s : State) : Out State :=
  let q := s.rail rc
  if q.state == .fault && q.code == 0x700C && q.test == 0 && decide (q.tempC < 100) && railMayStart s rc then
    .next (railBegin rc (q.attempts + 1) q.retriesLeft s)
  else .next s

/-! ### Sync and spread (R350 to R352) -/

/-- Eight intervals in a row of 1.25 µs to 5.00 µs, none more than 15 % off the one before (R351). -/
def syncPresent (us : List Rat) : Bool :=
  us.length == 8 && us.all (fun t => decide (5/4 ≤ t) && decide (t ≤ 5)) &&
    (us.zip (us.drop 1)).all fun p => decide (absRat (p.2 - p.1) ≤ p.1 * 15/100)

/-- RSYNC is present; f_RSYNC is the reciprocal of the mean of the last 8 intervals, which it follows while RSYNC stays present (R351). -/
def execSyncAcquired (us : List Rat) (s : State) : Out State :=
  if s.power.seqDone && syncPresent us then
    .next (forUnits 12 meetSync { s with misc := { s.misc with rsync := true, rsyncHz := 1000000 / mean us } })
  else .next s

/-- The frequency of RSYNCO in Hz, a square wave of 50 % duty (R350): the reference of RC0 phase A whenever the rail oscillator runs. -/
def rsyncoHz (s : State) : Option Rat := if s.power.seqDone then some (fRef s 0) else none

/-- The intervals in µs between rising edges after which RSYNC is lost: none within twice the last one, or one outside the limits (R351). -/
def syncGone (last gap : Rat) (edge : Bool) : Bool :=
  if edge then decide (gap < 5/4) || decide (5 < gap) || decide (last * 15/100 < absRat (gap - last)) else decide (2 * last ≤ gap)

def execSyncLost (last gap : Rat) (edge : Bool) (s : State) : Out State :=
  if s.misc.rsync && syncGone last gap edge then
    .next (forUnits 12 (fun r s =>
      let was := (s.rail r).sync
      if was = 1 ∨ was = 2 then (moveFreq r 3 0 s).raise 0x700F r [wordU s.misc.rsyncHz]
      else s.modRail r fun q => { q with sync := if q.sync = 3 then 3 else 0 }) { s with misc := { s.misc with rsync := false } })
  else .next s

/-- A draw after 32 cycles of phase A (R352). -/
def execRailSpreadDraw (rc : Nat) (s : State) : Out State :=
  let q := s.rail rc
  let sp := s.ratv 0x07 rc 3
  if q.state.gatesOn && decide (32 ≤ q.cyc.drawn) then
    if q.sync != 1 && q.sync != 2 && decide (0 < sp) then
      let l := lfsr15^[15] q.lfsr
      .next (s.modRail rc fun q => { q with
        lfsr := l, spread := (((l * 21 / 32768 : Nat) : Rat) - 10) * sp / 1000, cyc := { q.cyc with drawn := 0 } })
    else .next (s.modRail rc fun q => { q with spread := 0, cyc := { q.cyc with drawn := 0 } })
  else .next s

/-! ### Telemetry (R353) -/

/-- A held extreme takes a value. -/
def fold (f : Rat → Rat → Rat) (v : Rat) : Option Rat → Option Rat
  | none => some v
  | some x => some (f x v)

/-- A rail within ±3 % of its reference (R344). -/
def nearRef (q : Rail) (v : Rat) : Bool := decide (absRat (v - q.ref) ≤ q.ref * 3/100)

/-- One second (Tables 15.6 and 15.7); an episode of R344 ends with a second in which every average was near the reference. -/
def railSecond (rc : Nat) (vOut pOut : Rat) (s : State) : State :=
  let q := s.rail rc
  let j := q.joules + pOut
  let kj := (j / 1000).floor.toNat
  let s1 := (s.modRail rc fun q => { q with joules := j - 1000 * kj, sagEp := q.sagEp && (q.cyc.sagOut || !nearRef q vOut), cyc := { q.cyc with sagOut := false } }).life (railStat rc 0x041) kj
  let s2 := if s.flag 0x07 rc 0 ∧ q.ntcOn then histogram (railStat rc 0x060) ((q.tempC + 20) / 5) s1 else s1
  if q.state = .regulating then histogram (railStat rc 0x080) (vOut / 3) (s2.life (railStat rc 0x040) 1) else s2

/-- I_out (R353): the sum of the phase currents in buck mode, else of each one times the fraction of its cycle spent discharging. -/
def railIOut (q : Rail) (iA iB fA fB : Rat) : Rat := if q.mode = 1 then iA + iB else iA * fA + iB * fB

/-- One window of the telemetry: the 1 ms averages, or with `oneSecond` those of a 1 s window. With the former the Keeper folds what the RAIL logic
has held over every 1 ms window since it last read: the highest and lowest V_out and the highest I_out, P_out and T_rc. -/
def execTelemetryRefresh (rc : Nat) (vIn vOut iA iB fA fB pOut : Rat) (held : List Rat) (oneSecond : Bool) (s : State) : Out State :=
  if keeperFree s && s.keeper.dev != .standby && s.power.seqDone then
    let iOut := railIOut (s.rail rc) iA iB fA fB
    let base := if oneSecond then 0x00B else 0x007
    let s1 := ((((s.put (railStat rc base) (f32Of vIn)).put (railStat rc (base + 1)) (f32Of vOut)).put (railStat rc (base + 2)) (f32Of iOut)).put
      (railStat rc (base + 3)) (f32Of pOut))
    let keep := fun (q : Rail) => if oneSecond then q.tele.take 4 ++ [vIn, vOut, iOut, pOut] else [vIn, vOut, iOut, pOut] ++ q.tele.drop 4
    let peak := fun (q : Rail) =>
      if oneSecond then q.peaks else
        let p := fun (i : Nat) (f : Rat → Rat → Rat) (v : Rat) => fold f (f v (held.getD i v)) (q.peaks.getD i none)
        [p 0 max vOut, p 1 min vOut, p 2 max iOut, p 3 max pOut, if q.ntcOn then p 4 max q.tempC else q.peaks.getD 4 none]
    let s2 := s1.modRail rc fun q => { q with tele := keep q, peaks := peak q, cyc := { q.cyc with sagOut := q.cyc.sagOut || !nearRef q vOut } }
    .next (if oneSecond then railSecond rc vOut pOut s2 else s2)
  else .next s

end Sys2Proof.Machine
end

