-- ==== Sys2Proof/Machine/MediaOps.lean ====
section
/-! DEFINITION. The media-clock source, media steps and what a TDM port carries (R173 to R190). -/

namespace Sys2Proof.Machine

/-! ### The source (R176, Table 7.5) -/

/-- The source delivers. -/
def delivers (s : State) : Bool :=
  if s.media.source = 1 then s.ptp.state == .locking || s.ptp.state == .locked
  else if 2 ≤ s.media.source then
    let t := s.tdm (s.media.source - 2)
    t.state == .playing || t.state == .ramping
  else false

/-- e for a PTP source in MEDIA ticks, from the latest pair (R177). -/
def ptpError? (s : State) : Option Rat :=
  s.media.pair.map fun p => (p.1 : Rat) * 49152 / 1000000 - p.2

/-- The state in which a loop with a delivering source starts. -/
def loopState (s : State) : MclkState := if s.nat 0x06 0 3 = 0 then .acquire else .track

/-- The media clock enters ACQUIRE or TRACK: far from PTP it makes a media step (R179). `keep` leaves i_term (R177, R190).
The mean of the update under way begins after the entry, without the frame that caused it: the model's choice (R177, log entry 59). -/
def loopEnter (keep : Bool) (s : State) : State :=
  let far := s.media.source == 1 && (match ptpError? s with | some e => decide (983 < absRat e) | none => false)
  { s with media := { s.media with
      state := loopState s, iTerm := if keep then s.media.iTerm else s.media.steer, below4 := 0, above256 := 0, above983 := 0
      holdoverUs := 0, alarmed := false, errSum := 0, errN := 0, stepDue := far } }

/-- The media clock enters HOLDOVER: only i_term stays (R178). -/
def holdoverEnter (s : State) : State :=
  ({ s with media := { s.media with
      state := .holdover, steer := s.media.iTerm, holdoverUs := 0, alarmed := false, stepDue := false, clampUs := 0
      clampRaised := false } } : State).raise 0x300C 0 []

/-- After a change of what the source does. -/
def sourceCheck (s : State) : State :=
  if !s.media.locked then s
  else match s.media.state with
    | .free => if delivers s then loopEnter false s else s
    | .holdover => if delivers s then loopEnter false s else s
    | .acquire => if delivers s then s else holdoverEnter s
    | .track => if delivers s then s else holdoverEnter s
    | .step => s

/-- `mclk.source` changes at its switch block (R190). -/
def sourceChange (src : Nat) (s : State) : State :=
  let s1 : State := { s with media := { s.media with source := src } }
  if !s.media.locked || s.media.state == .step then s1
  else if src = 0 then { s1 with media := { s1.media with state := .free, stepDue := false, clampUs := 0, clampRaised := false } }
  else if delivers s1 then loopEnter (s.media.state == .acquire || s.media.state == .track) s1
  else if s.media.state = .holdover then s1
  else if s.media.state = .free then
    ({ s1 with media := { s1.media with state := .holdover, iTerm := s1.media.steer, holdoverUs := 0, alarmed := false } } : State).raise
      0x300C 0 []
  else holdoverEnter s1

/-! ### A commit across a media step (R181) -/

/-- The blocks that a COMMIT in mode 1 may name (R129). -/
def inWindow (s : State) (k : Nat) : Bool :=
  let now := s.media.index / 8
  decide (now + 12 ≤ k) && decide (k ≤ now + 11520000)

/-- The units not yet switched move to the first block after the step; a commit without a unit whose named block has left the window moves
there too. -/
def commitShift (s : State) : State :=
  match s.cfg.commit with
  | none => s
  | some c => match c.k0, c.units.find? (fun u => !u.switched) with
    | some k, some u =>
      if c.named ∧ !c.units.any (·.switched) ∧ inWindow s k then s
      else { s with cfg := { s.cfg with commit := some { c with
        shift := (winK s : Int) - ((k + u.block : Nat) : Int), late := true } } }
    | some k, none =>
      if c.named ∧ c.units.isEmpty ∧ !inWindow s k then { s with cfg := { s.cfg with commit := some { c with k0 := some (winK s), late := true } } }
      else s
    | none, _ => s

/-! ### What a TDM port receives (R169, R170, Table 7.3) -/

/-- FS after FS_INV and SD on the edge that BCLK_EDGE selects. -/
def tdmSense (framing : Nat) (p : TdmBit) : Bool × Bool :=
  let e := if framing / 4 % 2 = 0 then (p.fsRise, p.sdRise) else (p.fsFall, p.sdFall)
  (e.1 != (framing / 8 % 2 == 1), e.2)

/-- Where the slots of a frame have their most significant bit, for FS from the bit period before the frame start on; none where no frame
starts there. -/
def slotPlaces (framing : Nat) (fs : List Bool) : Option (List Nat) :=
  let before := fs.headD false
  let start := (fs.drop 1).headD false
  match framing % 4 with
  | 0 => if before && !start then ((fs.drop 1).findIdx? id).map fun k => [2, k + 2] else none
  | 1 => if !before && start then ((fs.drop 1).findIdx? (!·)).map fun k => [1, k + 1] else none
  | 2 => if !before && start then some ((List.range (framing / 0x100 % 0x20)).map fun c => 1 + framing / 16 % 2 + 32 * c) else none
  | _ => none

/-- Bits 31:8 of the slot whose first bit period is `i`. -/
def slotValue (sd : List Bool) (i : Nat) : Int :=
  signed 24 ((List.range 24).foldl (fun a j => 2 * a + bit (sd.getD (i + j) false) 0) 0)

/-- The samples of a whole frame, those of the slots in use (R170). -/
def Bank.tdmSamples? (b : Bank) (x : Nat) (wave : List TdmBit) : Option (List Int) :=
  let fr := b.nat 0x05 x 0
  let seen := wave.map (tdmSense fr)
  if wave.length < 32 * b.tdmFrameSlots x then none
  else (slotPlaces fr (seen.map (·.1))).map fun l => (l.take (b.tdmSlots x)).map (slotValue (seen.map (·.2)))

/-- A frame starts in time (R172). The first one since the port was enabled or lost its clock has no frame before it and counts as in time:
the example of R187 counts it (log entry 59). -/
def Bank.tdmOnTime (b : Bank) (x period : Nat) (t : Tdm) : Bool :=
  !t.alive || (decide (period ≤ 32 * b.tdmFrameSlots x + 1) && decide (32 * b.tdmFrameSlots x ≤ period + 1))

/-! ### What a TDM port carries (R173, R174, R183, R189) -/

def tdmStat (x f : Nat) : Nat := devStat (0x210 + 8 * x + f)
def Bank.tdmStep (b : Bank) (x : Nat) : Nat := if b.tdmHi x then 1 else 2

/-- The set a port plays under: rate below 96 kHz, pool_base and slots; a replaced set plays out its fade (R190). -/
def tdmSet? (b : Bank) (x : Nat) (t : Tdm) : Option (Bool × Nat × Nat) :=
  match t.fadeSet with
  | some v => some v
  | none => if b.tdmOn x then some (!b.tdmHi x, b.nat 0x05 x 3, b.tdmSlots x) else none

/-- Slot `c` at play index `n`: ramp from `rampFrom`, fade from `fadeFrom`. -/
def tdmCarried (half : Bool) (t : Tdm) (c n : Nat) : Int :=
  let x := received half t.samples c n
  match t.fadeFrom with
  | some f =>
    if fromRamp t.rampFrom n then underRamp x t.rampFrom n
    else if n < f then underRamp x t.fadeRamp n
    else fadeOf (match t.fadeLast with | some l => l.getD c 0 | none => underRamp x t.fadeRamp n) (n - f)
  | none => if t.state = .playing ∨ t.state = .ramping then underRamp x t.rampFrom n else 0

/-- A fade is in progress at play index `n`. -/
def Tdm.fades (t : Tdm) (n : Nat) : Bool :=
  !fromRamp t.rampFrom n && (match t.fadeFrom with | some f => decide (n < f + 32) | none => false)

/-- The ramp of a port is not over at play index `n`. -/
def Tdm.ramps (t : Tdm) (n : Nat) : Bool := match t.rampFrom with | some r => decide (n < r + 1024) | none => false

/-- A port fades over the 32 samples from play index `n`; its placement ends. A fade in progress goes on (R187). A fade is made from received
data, but during a ramp (R189) or with `held` in the form of R154 (R180) from the value last carried. -/
def tdmFade (held : Bool) (x n : Nat) (s : State) : State :=
  let set := tdmSet? s.cfg.active x (s.tdm x)
  s.modTdm x fun t =>
    let u : Tdm := { t with base := none, errs := 0 }
    if t.state = .playing ∨ t.state = .ramping then
      if t.fades n then { u with state := .faded, rampFrom := none }
      else { u with
        state := .faded, fadeFrom := some n, fadeRamp := t.rampFrom, rampFrom := none
        fadeLast := if held || t.ramps n then
          set.map fun v => (List.range v.2.2).map fun c => tdmCarried v.1 t c (n - 1) else none
        samples := t.samples.filter fun p => decide (p.idx < n + 32) }
    else u

/-- A cause acts on a port (R187): a fade in progress goes on, and a cause is an event of its code unless a higher one came since the port
was last admitted. -/
def tdmCause (x rank n : Nat) (raise : State → State) (s : State) : State :=
  let was := (s.tdm x).cause
  let s1 := (tdmFade false x n s).modTdm x fun t => { t with cause := max t.cause rank }
  if was ≤ rank then raise s1 else s1

/-- A port code, at most once per port per second (R193). -/
def tdmCode (code x : Nat) (s : State) : State := s.raiseHeld second code x 1 []

/-- A port at the start of a window: a fade that is over leaves it waiting or disabled, a ramp that is over leaves it playing, and frames that
every read has passed are dropped. -/
def tdmBlock (x : Nat) (s : State) : State :=
  let base := winBase s
  let on := s.cfg.active.tdmOn x
  s.modTdm x fun t =>
    let gone := match t.fadeFrom with | some f => decide (f + 32 ≤ base) | none => false
    let u : Tdm := { t with samples := t.samples.filter fun p => decide (base ≤ p.idx + 40) }
    let v : Tdm := if gone then { u with fadeFrom := none, fadeLast := none, fadeRamp := none, fadeSet := none } else u
    match t.state with
    | .ramping => if t.ramps base then u else { v with state := .playing, rampFrom := none }
    | .faded => if gone || t.fadeFrom.isNone then { v with state := if on then .waiting else .disabled } else u
    | _ => v

end Sys2Proof.Machine
end

