-- ==== Sys2Proof/Machine/Ptp.lean ====
section
/-! DEFINITION. The PTP slave: masters, measurements and servo states (R160 to R162, R168). -/

namespace Sys2Proof.Machine

/-- The servo follows a master. -/
def PtpState.follows : PtpState → Bool
  | .acquiring | .locking | .locked => true
  | _ => false

/-- The grandmaster identity of an Announce. -/
def gmOf (a : Announce) : Nat := a.gmHi * 2 ^ 32 + a.gmLo

/-- A logMessageInterval in ns. -/
def intervalNs (log : Int) : Nat := (1000000000 * pow2 log).floor.toNat

/-- The dataset comparison of IEEE 1588-2019 (R160): the first list is lower in dictionary order. -/
def lexLess : List Nat → List Nat → Bool
  | a :: l, b :: m => decide (a < b) || (a == b && lexLess l m)
  | _, _ => false

/-- What ranks an Announce: for one grandmaster only the steps removed count, which come last, then the sourcePortIdentity. -/
def rankOf (a : Announce) : List Nat := [a.priority1, a.clockClass, a.accuracy, a.variance, a.priority2, gmOf a, a.steps]

/-- Master m goes before master x; NA on a tie (Table 6.9). -/
def betterMaster (m x : Master) : Bool :=
  if gmOf m.announce = gmOf x.announce then
    lexLess [m.announce.steps, m.announce.source, m.port, 0] [x.announce.steps, x.announce.source, x.port, 1]
  else lexLess (rankOf m.announce) (rankOf x.announce)

/-- No Announce of a master has come for 3 of its intervals at time `at_`: its receipt timeout (Table 6.9). -/
def Master.silent (at_ : Nat) (m : Master) : Bool := decide (m.heard.headD 0 + 3 * intervalNs m.announce.logInterval ≤ at_)

/-- A foreign master is qualified after 2 Announce messages in 4 intervals, until its receipt timeout (Table 6.9). -/
def Master.qualified (at_ : Nat) (m : Master) : Bool :=
  (match m.heard with | a :: b :: _ => decide (a ≤ b + 4 * intervalNs m.announce.logInterval) | _ => false) && !m.silent at_

/-- The best qualified master. -/
def bestMaster (s : State) : Option Master :=
  (s.ptp.masters.filter fun m => m.qualified s.ptp.clock && s.cfg.active.ptpOn m.port).foldl
    (fun b m => match b with
      | none => some m
      | some x => if betterMaster m x then some m else b) none

/-- LISTENING (Table 6.10): the counter runs with zero correction. -/
def listening (s : State) (p : Ptp) : Ptp := { p with state := .listening, freq := 0, listenAt := s.media.samples, noMaster := false }

/-- Enter ACQUIRING (Table 6.10): without an earlier lock the correction starts at zero, otherwise at the last one. -/
def acquire (p : Ptp) : Ptp :=
  { p with state := .acquiring, first := true, below := 0, above := 0, far := 0, since := none, freq := if p.lockedOnce then p.last else 0 }

/-- The servo follows the best master, if there is one (R161, R162). The absence of its Syncs counts from its last Announce at first. -/
def followBest (s : State) : State :=
  match bestMaster s with
  | none => s
  | some m =>
    let p := s.ptp
    let gm := gmOf m.announce
    let same := p.state.follows && p.port == m.port && p.gm == gm
    let p1 : Ptp := { p with port := m.port, gm := gm, syncAt := if same then p.syncAt else m.heard.headD 0 }
    match p.state with
    | .disabled => s
    | .listening => { s with ptp := acquire p1 }
    | .holdover =>
      if p.gm = gm then { s with ptp := acquire p1 }
      else ({ s with ptp := { acquire p1 with gmChanged := true } } : State).raise 0x3006 0 []
    | _ =>
      if p.gm = gm then { s with ptp := p1 }
      else ({ s with ptp := { p1 with gmChanged := true } } : State).raise 0x3006 0 []

/-- The TIME domain has come to time `at_`. -/
def Ptp.come (at_ : Nat) (p : Ptp) : Ptp := { p with clock := max p.clock at_ }

/-- A PTP message leaves the FIFO of its port (Table 1.5). -/
def timeTaken (port : Nat) (s : State) : State := s.modPort port fun q => { q with time := q.time.drop 1 }

/-- An Announce at time `at_` of the TIME domain: messages of other domains or outside the supported intervals are ignored (Table 6.9). -/
def execPtpAnnounce (port : Nat) (a : Announce) (at_ : Nat) (s : State) : Out State :=
  if s.cfg.active.ptpOn port then
    let s1 := timeTaken port s
    if a.domain = s.nat 0x02 0 5 ∧ -3 ≤ a.logInterval ∧ a.logInterval ≤ 3 then
      let same := fun (m : Master) => m.port == port && gmOf m.announce == gmOf a
      let old := ((s.ptp.masters.find? same).map (·.heard)).getD []
      let s2 : State := { s1 with ptp := { s1.ptp.come at_ with masters := ⟨port, a, at_ :: old.take 1⟩ :: s1.ptp.masters.filter fun m => !same m } }
      .next (sourceCheck (followBest s2))
    else .next s1
  else .next s

/-- How long a run of measurements has lasted. -/
def runOf (hit : Bool) (n : Nat) : Nat := if hit then n + 1 else 0

/-- One measurement at time `at_` in the states that follow a master (Table 6.10). Offsets in ns. -/
def measure (off : Rat) (at_ : Nat) (s : State) : State :=
  let p := s.ptp
  let a := absRat off
  let q : Ptp := { p with
    offset := off, since := if a < 250 then some (p.since.getD at_) else none, far := runOf (decide (100000 < a)) p.far, above := runOf (decide (1000 < a)) p.above
    below := runOf (decide (a < 1000)) p.below }
  match p.state with
  | .acquiring =>
    if p.first ∧ 10000 < a then
      (({ s with ptp := { q with first := false, below := 0, timeNs := ((p.timeNs : Int) - roundOpen 20 off).toNat } } : State).count (netStat 0x037) 1).raise
        0x3004 0 []
    else if 16 ≤ q.below then { s with ptp := { q with state := .locking, far := 0, above := 0 } }
    else { s with ptp := q }
  | .locking => if 4 ≤ q.far then { s with ptp := acquire q } else { s with ptp := q }
  | .locked =>
    if 4 ≤ q.far then ({ s with ptp := acquire q } : State).raise 0x3003 0 []
    else if 4 ≤ q.above then ({ s with ptp := { q with state := .locking, above := 0 } } : State).raise 0x3003 0 []
    else { s with ptp := q }
  | _ => s

/-- A Sync on the slave port at time `at_` (R161, R162), within the supported intervals (Table 6.9). The frequency correction that the loop then has is free within ±500 ppm (Table 6.9). -/
def execPtpSync (port : Nat) (deltaNs : Rat) (logInterval : Int) (at_ : Nat) (s : State) : Out State :=
  let p := s.ptp
  if s.cfg.active.ptpOn port && p.state.follows && p.port == port && decide (-7 ≤ logInterval) && decide (logInterval ≤ 1) then
    let off := deltaNs - (s.port port).pathDelay
    let s1 := (timeTaken port s).count (netStat 0x038) 1
    let s2 : State := if p.gmChanged then
        { s1 with ptp := if absRat off ≤ 100000 then { p with gmChanged := false, state := .locking, below := 0, above := 0, far := 0 }
                         else { acquire p with gmChanged := false } }
      else s1
    let s3 := measure off at_ s2
    let f := s3.drawRat
    let c := clampRat (-500) 500 f.1
    .next (sourceCheck { f.2 with ptp := { f.2.ptp.come at_ with freq := c, last := c, syncAt := at_, syncLog := logInterval } })
  else .next s

/-- The mean path delay of a port (R160). -/
def execPtpDelayResponse (port : Nat) (delayNs : Rat) (s : State) : Out State :=
  if s.cfg.active.ptpOn port then .next ((timeTaken port s).modPort port fun q => { q with pathDelay := delayNs }) else .next s

/-- A Delay_Req (Table 6.9): messageType 1 of PTP version 2, the domain and the sequence number; the bits of its fields that no rule states are
those of IEEE 1588 and left open. -/
def delayReq (s : State) (port : Nat) : List Byte :=
  let o := fun (i n : Nat) => (List.range n).map fun j => Config.openByte 0 (i + j)
  let hi := fun (i low : Nat) => BitVec.ofNat 8 ((Config.openByte 0 i).toNat / 16 * 16 + low)
  [hi 0 1, hi 1 2] ++ be 2 44 ++ be 1 (s.nat 0x02 0 5) ++ o 5 25 ++ be 2 ((s.port port).delaySeq % 65536) ++ o 32 12

def execPtpDelayReqSend (port : Nat) (s : State) : Out State :=
  if s.cfg.active.ptpOn port && (s.port port).up then
    .next ((s.send ⟨port, ptpGroup, 319, delayReq s port⟩).modPort port fun q => { q with delaySeq := q.delaySeq + 1 })
  else .next s

/-- The Announces of the master in use have been absent for 3 of its intervals at time `at_`. -/
def announceOut (p : Ptp) (at_ : Nat) : Bool :=
  match p.masters.find? fun m => m.port == p.port && gmOf m.announce == p.gm with
  | some m => m.silent at_
  | none => true
/-- Its Syncs have. -/
def syncOut (p : Ptp) (at_ : Nat) : Bool := decide (p.syncAt + 3 * intervalNs p.syncLog ≤ at_)

/-- Announce or Sync of the master is absent for 3 of its intervals (R161): another qualified master, one that is still heard, takes over, or the
correction is frozen.
Only an Announce receipt timeout counts as one. -/
def execPtpHoldover (at_ : Nat) (s : State) : Out State :=
  let p := s.ptp
  if p.state.follows && (announceOut p at_ || syncOut p at_) then
    let s1 : State := { s with ptp := { p.come at_ with masters := p.masters.filter fun m => !(m.port == p.port && gmOf m.announce == p.gm) } }
    let s2 := if announceOut p at_ then s1.count (netStat 0x039) 1 else s1
    match bestMaster s2 with
    | some _ => .next (sourceCheck (followBest s2))
    | none => .next (sourceCheck (({ s2 with ptp := { s2.ptp with state := .holdover } } : State).raise 0x3005 0 []))
  else .next s

/-- 10 s in LISTENING (R161), once: 960,000 samples. -/
def execPtpNoMaster (s : State) : Out State :=
  if s.ptp.state == .listening && !s.ptp.noMaster && decide (s.ptp.listenAt + 960000 ≤ s.media.samples) then
    .next (({ s with ptp := { s.ptp with noMaster := true } } : State).raise 0x3001 0 [])
  else .next s

/-- Every measurement has been below 250 ns for 2 s at time `at_` (R161). -/
def execPtpLocked (at_ : Nat) (s : State) : Out State :=
  if s.ptp.state == .locking && s.ptp.since.any (fun t => decide (t + 2 * 1000000000 ≤ at_)) && !s.ptp.gmChanged then
    .next (sourceCheck (({ s with ptp := { s.ptp with state := .locked, lockedOnce := true, above := 0, far := 0 } } : State).raise 0x3002 0 []))
  else .next s

/-- PTP is enabled on no port, or on some again (R160). -/
def ptpEnable (s : State) : State :=
  let on := s.cfg.active.ptpOn 0 || s.cfg.active.ptpOn 1
  if !on then (if s.ptp.state = .disabled then s else { s with ptp := { lockedOnce := s.ptp.lockedOnce, last := s.ptp.last } })
  else if s.ptp.state = .disabled then { s with ptp := listening s s.ptp }
  else if s.ptp.state.follows ∧ !s.cfg.active.ptpOn s.ptp.port then
    let s1 : State := { s with ptp := { s.ptp with masters := s.ptp.masters.filter fun m => s.cfg.active.ptpOn m.port } }
    match bestMaster s1 with
    | some _ => followBest s1
    | none => ({ s1 with ptp := { s1.ptp with state := .holdover } } : State).raise 0x3005 0 []
  else s

end Sys2Proof.Machine
end

