-- ==== Sys2Proof/Machine/Media.lean ====
section
/-! DEFINITION. The media-clock loop, media steps and the TDM ports (R172 to R190, R193). -/

namespace Sys2Proof.Machine

def execTimeMediaPair (ptpNs tick : Nat) (s : State) : Out State :=
  if s.media.locked && s.ptp.state != .disabled then
    .next { s with media := { s.media with pair := some (ptpNs, tick) }, ptp := { s.ptp with timeNs := ptpNs } }
  else .next s

/-- The loop error of this update, if there is one. -/
def loopError? (s : State) : Option Rat :=
  if s.media.source = 1 then ptpError? s
  else if s.media.errN = 0 then none else some (s.media.errSum / s.media.errN)

/-- One update of the loop (R177). Entering ACQUIRE again far from PTP is a cause of a media step (R179). -/
def loopUpdate (e : Rat) (s : State) : State :=
  let m := s.media
  let lim := s.ratv 0x06 0 2
  let fast := m.state == .acquire
  let kp : Rat := if fast then 2 else 1/20
  let ki : Rat := if fast then 1/20 else 1/10000
  let i := clampRat (-lim) lim (m.iTerm + ki * e)
  let raw := i + kp * e
  let clamped := decide (lim ≤ absRat raw) || decide (lim < absRat (m.iTerm + ki * e))
  let b4 := if fast then runOf (decide (absRat e < 4)) m.below4 else 0
  let a256 := if fast then 0 else runOf (decide (256 < absRat e)) m.above256
  let a983 := if m.source = 1 then runOf (decide (983 < absRat e)) m.above983 else 0
  let again := !fast && decide (4 ≤ a256) && s.nat 0x06 0 3 == 0
  let st : MclkState := if fast && decide (64 ≤ b4) then .track else if again then .acquire else m.state
  { s with media := { m with
      iTerm := i, steer := clampRat (-lim) lim raw, err := e, errSum := 0, errN := 0, state := st
      below4 := if st = m.state then b4 else 0, above256 := if st = m.state then a256 else 0, above983 := a983
      stepDue := m.stepDue || decide (4 ≤ a983) || (again && m.source == 1 && decide (983 < absRat e))
      clampUs := if clamped then m.clampUs + 1000 else 0, clampRaised := m.clampRaised && clamped } }

/-- The 1 ms update: free run returns to 0 by 10 ppm/s, holdover holds, the loop runs (Table 7.5). An update in which no frame of the TDM
source completed, or before any PTP pair, has no e and leaves the loop as it is: the model's choice (log entry 59). -/
def execMclkUpdate (s : State) : Out State :=
  let m := s.media
  if m.locked then
    match m.state with
    | .free => .next { s with media := { m with steer := if m.source = 0 then approach m.steer 0 (1/100) else m.steer } }
    | .holdover => .next { s with media := { m with holdoverUs := m.holdoverUs + 1000 } }
    | .step => .next s
    | _ => match loopError? s with
      | some e => .next (loopUpdate e s)
      | none => .next s
  else .next s

def execMclkHoldoverAlarm (s : State) : Out State :=
  let t := s.nat 0x06 0 1
  if s.media.state == .holdover && t != 0 && !s.media.alarmed && decide (t * second ≤ s.media.holdoverUs) then
    .next (({ s with media := { s.media with alarmed := true } } : State).raise 0x300D 0 [])
  else .next s

/-- Each second of a clamped steer counts; 0x300E once until the clamp releases (R182). -/
def execMclkSteerLimit (s : State) : Out State :=
  if decide (second ≤ s.media.clampUs) then
    let s1 := ({ s with media := { s.media with clampUs := s.media.clampUs - second, clampRaised := true } } : State).count (devStat 0x206) 1
    .next (if s.media.clampRaised then s1 else s1.raise 0x300E 0 [])
  else .next s

/-! ### Media steps (R179 to R181) -/

def execMediaStepStart (s : State) : Out State :=
  if s.media.locked && s.media.stepDue && (s.media.state == .acquire || s.media.state == .track) then
    let n := winBase s
    let s1 := forUnits 32 (fun i s => if (s.stream i).state.plays then streamFade i n false s else s) s
    let s2 := forUnits 4 (fun x s => tdmFade true x n s) s1
    .next { s2 with media := { s2.media with state := .step, stepDue := false, stepB0 := some (winK s), stepFrom := s.media.index } }
  else .next s

/-- Every signal state starts afresh (R441): no ramp, no crossfade, no history. -/
def Dsp.afresh (d : Dsp) : Dsp :=
  { d with
    path := {}, look := [], pilots := [], fin := [], finTop := [], less := [], g := 1, xf := none, y := [], yOld := []
    gain := Ramp.flat d.gain.goal, pol := Ramp.flat (d.polTo.getD d.pol.goal), polTo := none, mute := Ramp.flat d.mute.goal, testMute := Ramp.flat d.testMute.goal
    e := Ramp.flat d.e.goal, fade := Ramp.flat d.fade.goal
    steer := match d.steerHeld, d.steerTo with
      | some t, _ => [(t, 1)]
      | none, some t => [(t, 1)]
      | none, none => d.steer
    steerTo := none, steerI := 0, steerHeld := none }

/-- b0 + 132: the block ends and every channel's signal state is cleared. -/
def execMediaStepHalt (s : State) : Out State :=
  match s.media.stepB0 with
  | some b0 =>
    if s.media.state == .step && !s.media.halted && decide (b0 + 132 ≤ winK s) then
      .next { s with
        media := { s.media with halted := true, stepFrom := s.media.index }
        chans := s.chans.mapIdx fun c h => if s.enabled c then { h with dsp := h.dsp.afresh } else h }
    else .next s
  | none => .next s

/-- A signed 64-bit change in two words. -/
def words64 (x : Int) : List Word := [BitVec.ofInt 32 x, BitVec.ofInt 32 (x / 4294967296)]

/-- The source in force takes effect after the step: free run is FREE (Table 7.5). STEP keeps i_term, which R177 leaves open: the model's choice
(log entry 59). -/
def stepLeave (s : State) : State :=
  if s.media.source = 0 then { s with media := { s.media with state := .free, stepDue := false } } else loopEnter true s

/-- MEDIA resumes at the next PTP instant of an index 8k′, and the models count the wait (R180). The 4 frame periods of CLOCK_LOST
start over at the resume, which R183 leaves open: the model's choice (log entry 59). The MOD clock runs on: the last event of the generators
falls before the PTP instant (R286). -/
def execMediaStepResume (ptpNs : Nat) (s : State) : Out State :=
  if s.media.state == .step && s.media.halted then
    let idx := 8 * ((ptpNs * 96000 + 7999999999) / 8000000000)
    let s0 := modelsWait ((idx : Rat) / 96000 - (ptpNs : Rat) / 1000000000) s
    let s1 : State := { s0 with
      pwm := { s0.pwm with tick := ptpNs * 196608 / 1000000 - s0.pwm.count }
      media := { s0.media with index := idx, halted := false, stepB0 := none, pair := none, errSum := 0, errN := 0 } }
    let s2 := commitShift (streamsCleared (forUnits 4 (fun x s => s.modTdm x fun t =>
      { t with samples := [], fadeFrom := none, fadeLast := none, fadeRamp := none, fadeSet := none, rampFrom := none, base := none, judge := none
               lastTick := 512 * idx
               state := if t.state = .faded then (if s.cfg.active.tdmOn x then .waiting else .disabled) else t.state }) s1))
    let s3 := stepLeave s2
    let s4 := (s3.count (devStat 0x205) 1).raise 0x300F 0 (words64 ((idx : Int) - s.media.stepFrom))
    .next (sourceCheck s4)
  else .next s

/-! ### TDM ports -/

/-- The play index of the sample that next enters the DSP when a frame completes at `tick`: with the media index, as long as the DSP's windows
come. -/
def readAt (s : State) (tick : Nat) : Nat := min (tick / 512 + 19) (winBase s + 18)

/-- Frames in the FIFO that the DSP has not read: 64 fill it (R32). -/
def tdmFull (s : State) (t : Tdm) (tick : Nat) : Bool := decide (64 ≤ (t.samples.filter fun p => decide (readAt s tick ≤ p.idx)).length)

/-- A frame is placed (R173): frame j of the placement, with its samples or those of the frame before. A full FIFO discards it and counts it
(R32). -/
def tdmPlace (x : Nat) (samples : List Int) (tick : Nat) (s : State) : State :=
  let st := s.cfg.active.tdmStep x
  let t := s.tdm x
  let a := match t.base with | some a => a | none => (tick + 511) / 512
  let j := if t.base.isSome then t.frame else 0
  let e : Rat := ((a + st * j) * 512 : Nat) - (tick : Rat)
  let play := a + 62 + (if st = 2 then 16 else 0)
  let full := tdmFull s t tick
  let s1 := s.modTdm x fun t =>
    { t with
      base := some a, frame := j + 1, err := e, cause := if t.base.isNone then 0 else t.cause
      samples := if full then t.samples else t.samples ++ [⟨a + 62 + st * j, st, [samples]⟩]
      drops := if full then t.drops + 1 else t.drops
      state := if t.base.isNone then .ramping else t.state
      rampFrom := if t.base.isNone then some (8 * ((play + 7) / 8)) else t.rampFrom }
  if s.media.source = x + 2 then
    { s1 with media := { s1.media with errSum := s1.media.errSum + e, errN := s1.media.errN + 1 } } else s1

/-- A port that is admitted or plays takes the frame into its placement; during a media step no frame is placed (R180). -/
def tdmTakes (s : State) (t : Tdm) : Bool :=
  s.media.state != .step && (t.base.isSome || (decide (64 ≤ t.stable) && (t.state == .waiting || t.state == .faded)))

/-- A frame enters the port's counts (R172, R184). -/
def tdmNote (x : Nat) (onTime : Bool) (use : List Int) (tick : Nat) (s : State) : State :=
  let s1 := s.modTdm x fun t =>
    { t with prev := use, errs := if onTime then 0 else t.errs + 1, run := if onTime then t.run + 1 else 0, broken := t.broken || !onTime
             winLen := t.winLen + 1, alive := true, lastTick := tick }
  if onTime then s1 else s1.count (tdmStat x 2) 1

/-- The third frame error in a row forces a resync (R184); it acts before a slip of the same frame (R187). -/
def tdmJudge (x tick : Nat) (placed : Bool) (s : State) : State :=
  let t := s.tdm x
  let n := max (tick / 512 + 19) (winBase s)
  if 3 ≤ t.errs then
    (tdmCause x 2 n (tdmCode 0x3008 x) (s.count (tdmStat x 3) 1)).modTdm x fun t => { t with stable := 0 }
  else if placed ∧ 2048 < absRat t.err then tdmCause x 1 n (tdmCode 0x300A x) (s.count (tdmStat x 5) 1)
  else s

/-- The last frame of a rate window is judged (R187). -/
def tdmJudgeDue (x : Nat) (s : State) : State :=
  match (s.tdm x).judge with
  | some e => (tdmJudge x e.1 e.2 s).modTdm x fun t => { t with judge := none }
  | none => s

/-- A frame completes (R169 to R174, R184, R186): `wave` are its bit periods from the one before its start on, `period` the bit periods since
the frame start before. A frame that ends a window of 64 is judged after the window, since a rate mismatch acts alone (R187). -/
def execTdmFrame (x : Nat) (wave : List TdmBit) (period tick : Nat) (s : State) : Out State :=
  let b := s.cfg.active
  match (if s.media.locked && b.tdmOn x then b.tdmSamples? x wave else none) with
  | some mine =>
    let s0 := tdmJudgeDue x s
    let t := s0.tdm x
    let onTime := b.tdmOnTime x period t
    let use := if onTime then mine else t.prev
    let s1 := tdmNote x onTime use tick s0
    let s2 := if tdmTakes s0 t then tdmPlace x use tick s1 else s1
    .next (sourceCheck (if t.winLen = 63 then s2.modTdm x fun t => { t with judge := some (tick, tdmTakes s0 t) }
      else tdmJudge x tick (tdmTakes s0 t) s2))
  | none => .next s

/-- The play index of the sample that next enters the DSP `after` samples behind the port's last completion. -/
def tdmNext (s : State) (t : Tdm) (after : Nat) : Nat := max (t.lastTick / 512 + after + 19) (winBase s)

/-- No frame has completed for 4 frame periods (R183). -/
def execTdmClockLost (x : Nat) (s : State) : Out State :=
  let t := s.tdm x
  let late := 4 * s.cfg.active.tdmStep x
  if s.media.locked && s.cfg.active.tdmOn x && t.alive && decide (t.lastTick + 512 * late ≤ 512 * (s.media.index + 8)) then
    let s1 := tdmCause x 4 (tdmNext s t late) (tdmCode 0x3007 x) (s.count (tdmStat x 4) 1)
    .next (sourceCheck (s1.modTdm x fun t => { t with
      stable := 0, run := 0, broken := false, winLen := 0, alive := false, prev := [], judge := none
      state := if t.state = .rateMismatch then .waiting else t.state }))
  else .next s

/-- A window of 64 frames ends (R185). In one that passes, the frames of the run count as stable: all of them where no error broke it. -/
def execTdmRateCheck (x : Nat) (rateHz : Rat) (s : State) : Out State :=
  if s.media.locked && s.cfg.active.tdmOn x && decide (64 ≤ (s.tdm x).winLen) then
    let hz : Rat := s.nat 0x05 x 1
    let good := decide (absRat (rateHz - hz) ≤ hz / 1000)
    let judged := if good then tdmJudgeDue x s else s
    let t := judged.tdm x
    let s0 := judged.modTdm x fun t => { t with rate := rateHz, run := 0, broken := false, winLen := 0, judge := none }
    if good then
      let n := if 64 ≤ t.stable then t.stable else if t.broken then t.run else t.stable + t.run
      let won := decide (t.stable < 64) && decide (64 ≤ n)
      let s1 := s0.modTdm x fun t => { t with
        stable := n, cause := if won then 0 else t.cause, state := if t.state = .rateMismatch then .waiting else t.state }
      .next (sourceCheck (if won then tdmCode 0x300B x s1 else s1))
    else
      let s1 := tdmCause x 3 (tdmNext s t 0) (fun s => s.raiseHeldAs second 0x3009 x [wordU rateHz]) s0
      .next (sourceCheck (s1.modTdm x fun t => { t with stable := 0, state := .rateMismatch }))
  else .next s

end Sys2Proof.Machine
end

