-- ==== Sys2Proof/Machine/DspOps.lean ====
section
/-! DEFINITION. The arithmetic of the channel chain: mix, biquads, steering delay, FIR, look-ahead, requests and gain (R194 to R210, R219,
R222). -/

namespace Sys2Proof.Machine

/-! ### Numbers (Table 8.2, R199) -/

/-- The range of Q9.31: a 40-bit value. -/
def qMax : Int := 549755813887
def qOne : Rat := 2147483648

/-- A stage's result: saturated to Q9.31, with 1 where it saturated. -/
def sat (x : Int) : Int × Nat :=
  if x < -(qMax + 1) then (-(qMax + 1), 1) else if qMax < x then (qMax, 1) else (x, 0)

/-- Signed 32-bit coefficient at a byte offset. -/
def coef (l : List Byte) (o : Nat) : Int := signed 32 (leAt l o 4)

/-! ### Stages 1 and 2 -/

/-- The input pool entry `e` at play index `n`, as a 24-bit value (R120, R195). -/
def poolAt (s : State) (e n : Nat) : Int :=
  let b := s.cfg.active
  if e < 1024 then
    match (List.range 32).find? fun i => b.streamOn i && decide (b.nat 0x03 i 4 ≤ e) && decide (e < b.nat 0x03 i 4 + b.streamChans i) with
    | some i => carried (b.streamHalf i) (s.stream i) (e - b.nat 0x03 i 4) n
    | none => 0
  else
    let fading := fun x => (s.tdm x).fadeSet.isSome
    match ((List.range 4).filter fading ++ (List.range 4).filter (!fading ·)).findSome? (fun x =>
      (tdmSet? b x (s.tdm x)).bind fun v => if v.2.1 ≤ e ∧ e < v.2.1 + v.2.2 then some (x, v) else none) with
    | some (x, v) => tdmCarried v.1 (s.tdm x) (e - v.2.1) n
    | none => 0

/-- The mix of a block at index `n` (R195). -/
def mixAt (s : State) (mix : List Byte) (n : Nat) : Int × Nat :=
  let sum := (List.range (min (leAt mix 2 2) 8)).foldl (fun (a : Int) i =>
    let e := leAt mix (4 + 8 * i) 2
    if e = 0xFFFF then a else a + coef mix (8 + 8 * i) * poolAt s e n) 0
  sat (roundOpen 30 ((sum : Rat) / 1048576))

/-- One biquad section (R196): the remainder of the rounding is carried to the next sample. -/
def bqStep (l : List Byte) (i : Nat) (q : Bq) (x : Int) : Int × Nat × Bq :=
  let c := fun k => coef l (4 + 20 * i + 4 * k)
  let acc := c 0 * x + c 1 * q.x1 + c 2 * q.x2 - c 3 * q.y1 - c 4 * q.y2 + q.err
  let y := roundEven ((acc : Rat) / 268435456)
  let r := sat y
  (r.1, r.2, ⟨x, q.x1, r.1, q.y1, acc - y * 268435456⟩)

/-- The sections in use, in entry order; a section beyond the count passes its input and stands at zero state. -/
def bqChain (l : List Byte) (st : List Bq) (x : Int) : Int × Nat × List Bq :=
  (List.range (leAt l 2 2)).foldl (fun (a : Int × Nat × List Bq) i =>
    let r := bqStep l i (st.getD i {}) a.1
    (r.1, a.2.1 + r.2.1, a.2.2 ++ [r.2.2])) (x, 0, [])

/-! ### Stage 3 (R201, R204) -/

/-- a of R201 for a delay, and of the positions that take part (R204). -/
def aheadOf (d : Nat) : Nat := min 24 (d / 64)
def Dsp.ahead (d : Dsp) : Nat :=
  (d.steer.map (·.1) ++ d.steerTo.toList).foldl (fun a p => min a (aheadOf p)) 24

/-- The mode and look-ahead h for a (Table 8.3). -/
def modeOf (a : Nat) : Nat := if a = 24 then 0 else if 8 ≤ a then 1 else 2
def lookOf (a : Nat) : Nat := if 8 ≤ a then a - 8 else a

/-- Tap i of phase p of the steering interpolator: the taps of a phase sum to 1. -/
def steerTap (p i : Nat) : Rat := if i < 15 then Config.steerTap p i else 1 - sumRat ((List.range 15).map (Config.steerTap p))

/-- A read of the delay line at bulk delay `d`, for the sample `back` before the newest. -/
def readDelay (bulk : List Int) (back d : Nat) : Rat :=
  if 512 ≤ d then
    sumRat ((List.range 16).map fun i => steerTap (d % 64) i * (bulk.getD (back + d / 64 + i - 7) 0 : Int))
  else (bulk.getD (back + (d + 32) / 64) 0 : Int)

/-- The positions and weights of a sample. -/
def Dsp.weights (d : Dsp) : List (Nat × Rat) :=
  match d.steerTo with
  | some t =>
    let w : Rat := ((d.steerI + 1 : Nat) : Rat) / 1024
    (d.steer.map fun p => (p.1, p.2 * (1 - w))) ++ [(t, w)]
  | none => d.steer

def readMix (bulk : List Int) (back a : Nat) (ws : List (Nat × Rat)) : Int :=
  match ws with
  | [p] => if p.2 = 1 then roundOpen 31 (readDelay bulk back (p.1 - 64 * a)) else roundOpen 31 (p.2 * readDelay bulk back (p.1 - 64 * a))
  | _ => roundOpen 31 (sumRat (ws.map fun p => p.2 * readDelay bulk back (p.1 - 64 * a)))

/-- One sample of a running steering crossfade. -/
def Dsp.steerStep (d : Dsp) : Dsp :=
  match d.steerTo with
  | some t => if d.steerI + 1 < 1024 then { d with steerI := d.steerI + 1 } else { d with steer := [(t, 1)], steerTo := none, steerI := 0 }
  | none => d

/-- A new delay at a block boundary (R204): a crossfade begins, a running one is frozen, or the value is held while three positions are
active. -/
def Dsp.steerChange (t : Nat) (d : Dsp) : Dsp :=
  match d.steerTo with
  | none =>
    if d.steer.length ≤ 1 ∧ d.steer.head?.map (·.1) = some t then { d with steerHeld := none }
    else { d with steerTo := some t, steerI := 0, steerHeld := none }
  | some o =>
    if 2 ≤ d.steer.length then { d with steerHeld := some t }
    else
      let w : Rat := (d.steerI : Rat) / 1024
      { d with steer := (d.steer.map fun p => (p.1, p.2 * (1 - w))) ++ [(o, w)], steerTo := some t, steerI := 0 }

/-- The delay in force in 1/64 sample (R201, R215): the newest position taken, rounded where its bulk delay is below 8 samples. -/
def Dsp.steerNow (d : Dsp) : Nat :=
  let p := d.steerTo.getD ((d.steer.head?.map (·.1)).getD 0)
  let bulk := p - 64 * d.ahead
  if 512 ≤ bulk then p else 64 * d.ahead + 64 * ((bulk + 32) / 64)

/-- A held delay starts its crossfade when one position remains. -/
def Dsp.steerBoundary (d : Dsp) : Dsp :=
  match d.steerTo, d.steerHeld with
  | none, some t => { d with steerHeld := none }.steerChange t
  | _, _ => d

/-! ### Stages 1 to 5 of one set -/

/-- The blocks of one set for stages 1 to 5. -/
structure FilterSet where
  mix : List Byte
  inBq : List Byte
  fir : List Byte
  drvBq : List Byte
  firOn : Bool
deriving DecidableEq, Repr

def Bank.filters (b : Bank) (c : Nat) : FilterSet :=
  ⟨b.block (pid 0x20 c 0), b.block (pid 0x20 c 1), b.block (pid 0x20 c 2), b.block (pid 0x20 c 3), b.flag 0x10 c 5⟩

def XFade.filters (x : XFade) : FilterSet := ⟨x.mix, x.inBq, x.fir, x.drvBq, x.firOn⟩

/-- Longest bulk delay read: 4,095 whole samples, 8 taps and 31 samples of a block and a look-ahead line. -/
def bulkLen : Nat := 4136

/-- Stages 1 and 2 on the 8 samples of block k; counts the saturated samples. -/
def feedPath (s : State) (f : FilterSet) (base : Nat) (p : Path) : Path × Nat :=
  (List.range 8).foldl (fun (a : Path × Nat) j =>
    let x := mixAt s f.mix (base + j)
    let r := bqChain f.inBq a.1.inSt x.1
    ({ a.1 with inSt := r.2.2, bulk := (r.1 :: a.1.bulk).take bulkLen }, a.2 + x.2 + r.2.1)) (p, 0)

/-- Stages 3 to 5 for one play index; `back` places its read before the newest sample. -/
def runPath (f : FilterSet) (a back : Nat) (ws : List (Nat × Rat)) (p : Path) : Int × Nat × Path :=
  let v := sat (readMix p.bulk back a ws)
  let hist := (v.1 :: p.hist).take 1024
  let z := if f.firOn then
      sat (roundOpen 32 ((((List.range (leAt f.fir 2 2)).foldl (fun (n : Int) i => n + coef f.fir (4 + 4 * i) * hist.getD i 0) 0 : Int) : Rat) / 1073741824))
    else (v.1, 0)
  let r := bqChain f.drvBq p.drvSt z.1
  (r.1, v.2 + z.2 + r.2.1, { p with hist := hist, drvSt := r.2.2 })

/-! ### The excursion request (R222) -/

/-- One sample of the shaping of R222: the request, and the held value with its count. -/
def exHold (raw : Rat) (h : Rat × Nat) : Rat × Nat :=
  if raw ≤ h.1 then (raw, 960)
  else if 0 < h.2 then (h.1, h.2 - 1)
  else (min raw (h.1 + (1 - h.1) * (1 - expNeg (1/4800))), 0)

end Sys2Proof.Machine
end

