-- ==== Sys2Proof/Machine/Validate.lean ====
section
/-! DEFINITION. What COMMIT checks, the differences of two banks and the DSP load (R56, R120, R121, R126, R127, R144, R171, R212 to R214,
R217, R279, R355, R365, R435, R436). -/

namespace Sys2Proof.Machine

/-! ### Differences and units (R127) -/

/-- Insert into a strictly rising list. -/
def insertNat (x : Nat) : List Nat → List Nat
  | [] => [x]
  | y :: l => if x < y then x :: y :: l else if x = y then y :: l else y :: insertNat x l

def sortNat (l : List Nat) : List Nat := l.foldr insertNat []
def leastNat (l : List Nat) : Option Nat := (sortNat l).head?

/-- The IDs whose values differ, ascending. -/
def diffParams (a b : Bank) : List Nat :=
  (sortNat (a.params.map (·.1) ++ b.params.map (·.1))).filter fun id => a.param id != b.param id
def diffBlocks (a b : Bank) : List Nat :=
  (sortNat (a.blocks.map (·.1) ++ b.blocks.map (·.1))).filter fun id => a.block id != b.block id

/-- The unit of an ID in the order of R128: global classes by class and instance, then channels. -/
def unitKey (id : Nat) : Nat :=
  (if idClass id = 0x20 then 0x10 else if idClass id = 0x21 then 0x07 else idClass id) * 0x1000 + idInst id
def unitOfKey (k : Nat) : CUnit := if k / 0x1000 = 0x10 then .chan (k % 0x1000) else .global (k / 0x1000) (k % 0x1000)
def CUnit.key : CUnit → Nat
  | .global cls inst => cls * 0x1000 + inst
  | .chan c => 0x10000 + c

/-- The differing IDs of one unit. -/
def unitParams (a b : Bank) (u : CUnit) : List Nat := (diffParams a b).filter fun id => unitKey id == u.key
def unitBlocks (a b : Bank) (u : CUnit) : List Nat := (diffBlocks a b).filter fun id => unitKey id == u.key
/-- The units with differences, in order. -/
def unitsOf (a b : Bank) : List CUnit := (sortNat ((diffParams a b ++ diffBlocks a b).map unitKey)).map unitOfKey

/-! ### The digest (R365) -/

/-- The CRC-32 over classes 0x03 to 0x08, 0x10, 0x20 and 0x21, with `twin.partner_id` read as 0. -/
def digest (b : Bank) : Nat :=
  (crc32 (((allParams.filter fun id => decide (3 ≤ idClass id)).flatMap fun id =>
      le 4 id ++ le 4 (if id = pid 0x08 0 1 then 0 else (b.param id).toNat))
    ++ allBlocks.flatMap fun id => le 4 id ++ b.block id)).toNat

/-! ### DSP load (Table 8.5) -/

def blockCount (b : Bank) (c f : Nat) : Nat := leAt (b.block (pid 0x20 c f)) 2 2
/-- Biquad sections in use and FIR taps in use. -/
def filterCost (b : Bank) (c : Nat) : Nat :=
  40 * (blockCount b c 1 + blockCount b c 3) + (if b.flag 0x10 c 5 then 8 * blockCount b c 2 else 0)
def chanCost (b : Bank) (c : Nat) : Nat :=
  if b.flag 0x10 c 0 then
    600 + filterCost b c + (if b.modelBit c 0 then 1600 else 0) + (if b.modelBit c 1 then 200 else 0) + (if b.modelBit c 2 then 1200 else 0)
  else 0
def streamCost (b : Bank) (i : Nat) : Nat := if b.streamOn i then b.streamChans i * (if b.streamHi i then 16 else 136) else 0
def tdmCost (b : Bank) (x : Nat) : Nat := if b.tdmOn x then 16 * b.tdmSlots x else 0
/-- The taps of a monitor stream: those its channels give, up to its count (R158). -/
def monTaps (b : Bank) (j : Nat) : Nat :=
  if b.monOn j then
    min (b.monCount j) (((List.range 208).filter fun c => decide (b.monFirst j ≤ c)).foldl (fun n c =>
      n + (match b.nat 0x10 c 0x1B with | 0 => 0 | 3 => 2 | _ => 1)) 0)
  else 0
def monCost (b : Bank) (j : Nat) : Nat := 96 * monTaps b j
def sourceCost (b : Bank) : Nat :=
  ((List.range 32).map (streamCost b)).sum + ((List.range 4).map (tdmCost b)).sum + ((List.range 8).map (monCost b)).sum
/-- `dsp_load_lu` (Table 8.7). -/
def dspLoad (b : Bank) : Nat := ((List.range 208).map (chanCost b)).sum + sourceCost b
def dspCapacity : Nat := 3040000
/-- The transition load (R213). -/
def transitionLoad (a b : Bank) : Nat :=
  ((List.range 208).map fun c => max (chanCost a c) (chanCost b c)).sum + max (sourceCost a) (sourceCost b)
/-- The crossfade extra of a channel (R212): of which set R214 does not say, and the model takes the more costly one (log entry 59). -/
def xfadeExtra (a b : Bank) (c : Nat) : Nat := 64 + max (filterCost a c) (filterCost b c)

/-- A channel unit that changes a mix, biquad or FIR block (R132). -/
def filterChange (a b : Bank) : CUnit → Bool
  | .chan c => (List.range 4).any fun f => a.block (pid 0x20 c f) != b.block (pid 0x20 c f)
  | .global _ _ => false

/-- The IDs that R213 names: of every channel and source whose new cost exceeds its old cost, the differing IDs that enter the cost. A
channel's `mon_tap` enters the cost of the monitor streams that scan it. -/
def loadCulprits (a b : Bank) : List Nat :=
  let d := diffParams a b ++ diffBlocks a b
  let up := fun (old new : Nat) => decide (old < new)
  d.filter fun id =>
    let i := idInst id
    let f := idField id
    match idClass id with
    | 0x03 => f == 0 && up (streamCost a i) (streamCost b i)
    | 0x04 => f == 0 && up (monCost a i) (monCost b i)
    | 0x05 => (f == 0 || f == 2) && up (tdmCost a i) (tdmCost b i)
    | 0x10 => ((f == 0 || f == 5 || f == 0xD) && up (chanCost a i) (chanCost b i))
        || (f == 0x1B && (List.range 8).any fun j => up (monCost a j) (monCost b j) && decide (b.monFirst j ≤ i))
    | 0x20 => decide (f < 4) && up (chanCost a i) (chanCost b i)
    | _ => false

/-! ### Blocks (R121) -/

/-- Entries of a block kind: format code, least and greatest count, bytes per entry. -/
def blockLayout (cls f : Nat) : Nat × Nat × Nat × Nat :=
  if cls = 0x21 then (5, 8, 8, 4)
  else match f with
  | 0 => (1, 0, 8, 8)
  | 1 => (2, 0, 12, 20)
  | 2 => (3, 1, 1024, 4)
  | 3 => (2, 0, 8, 20)
  | _ => (4, 24, 24, 4)

/-- The count of a model block is not refused on an enabled channel that is not modelled (R443). -/
def countFree (b : Bank) (id : Nat) : Bool :=
  decide (idClass id = 0x20) && idField id == 4 && b.flag 0x10 (idInst id) 0 && !b.modelled (idInst id)

/-- Header, count, zero bytes and entries of a block. -/
def blockOk (b : Bank) (id : Nat) : Bool :=
  let free := countFree b id
  let l := b.block id
  let y := blockLayout (idClass id) (idField id)
  let n := leAt l 2 2
  leAt l 0 2 == y.1 && (free || (decide (y.2.1 ≤ n) && decide (n ≤ y.2.2.1))) && allZero (l.drop (4 + n * y.2.2.2))
    && (if idClass id = 0x20 ∧ idField id = 0 then
          (List.range n).all fun i => (decide (leAt l (4 + 8 * i) 2 ≤ 1087) || leAt l (4 + 8 * i) 2 == 0xFFFF) && leAt l (6 + 8 * i) 2 == 0
        else if idClass id = 0x21 then
          let hi : Rat := if idInst id % 3 = 2 then 95 else 80
          let v := (List.range 8).map fun i => f32? (word (leAt l (4 + 4 * i) 4))
          v.all (fun x => match x with | some x => decide (12 ≤ x) && decide (x ≤ hi) | none => false)
            && (List.range 7).all fun i => decide ((v.getD i none).getD 0 < (v.getD (i + 1) none).getD 0)
        else true)

/-! ### Consistency rules: each gives the IDs that take part in its failed checks -/

def when (p : Bool) (l : List Nat) : List Nat := if p then l else []

/-- The blocks; the check of a model block's count reads `chan.enable` too (R443). -/
def checkBlocks (b : Bank) : List Nat :=
  (b.blocks.map (·.1)).flatMap fun id => when (!blockOk b id)
    (if idClass id = 0x20 ∧ idField id = 4 ∧ leAt (b.block id) 2 2 ≠ 24 ∧ !countFree b id then [pid 0x10 (idInst id) 0, id] else [id])

/-- The pool ranges of the enabled sources: their IDs, first entry, length and limit (R120). -/
def poolRanges (b : Bank) : List (List Nat × Nat × Nat × Nat) :=
  ((List.range 32).filter b.streamOn).map (fun i => ([pid 0x03 i 0, pid 0x03 i 4], b.nat 0x03 i 4, b.streamChans i, 1024))
    ++ ((List.range 4).filter b.tdmOn).map fun x => ([pid 0x05 x 0, pid 0x05 x 2, pid 0x05 x 3], b.nat 0x05 x 3, b.tdmSlots x, 1088)

/-- Ranges that end beyond their limit or overlap; an empty range overlaps none. -/
def checkPools (b : Bank) : List Nat :=
  let r := poolRanges b
  (r.flatMap fun x => when (decide (x.2.2.2 < x.2.1 + x.2.2.1)) x.1)
    ++ (List.range r.length).flatMap fun i => (r.drop (i + 1)).flatMap fun y =>
      match r[i]? with
      | some x => when (decide (max x.2.1 y.2.1 < min (x.2.1 + x.2.2.1) (y.2.1 + y.2.2.1))) (x.1 ++ y.1)
      | none => []

/-- An enabled channel needs its rail controller (R56). -/
def checkRails (b : Bank) : List Nat :=
  (List.range 208).flatMap fun c => when (b.flag 0x10 c 0 && !b.flag 0x07 (rcOf c) 0) [pid 0x07 (rcOf c) 0, pid 0x10 c 0]

/-- The address of an enabled port (R435). -/
def checkPorts (b : Bank) : List Nat :=
  (List.range 2).flatMap fun p =>
    let a := b.nat 0x02 0 (2 + p)
    let m := b.nat 0x02 0 4
    let host := a % (0x100000000 - m)
    if !b.portOn p then []
    else if a = 0 then [pid 0x02 0 p, pid 0x02 0 (2 + p)]
    else when (host == 0 || host == 0xFFFFFFFF - m) [pid 0x02 0 p, pid 0x02 0 (2 + p), pid 0x02 0 4]

/-- R144 and R148 for one enabled stream. -/
def checkStream (b : Bank) (i : Nat) : List Nat :=
  let fmt := pid 0x03 i 0
  let bad := b.streamSides i == 0 || decide (2 ≤ b.streamPtime i) || (b.streamPtime i == 1 && b.streamHi i)
    || b.streamChans i == 0 || decide (64 < b.streamChans i)
  when bad [fmt]
    ++ (List.range 2).flatMap (fun p =>
      if !b.streamSide i p then [] else
        when (!groupAddr (b.streamGroup i p) && b.streamGroup i p != b.nat 0x02 0 (2 + p)) [fmt, pid 0x03 i (1 + p), pid 0x02 0 (2 + p)]
          ++ when (!b.portOn p) [fmt, pid 0x02 0 p]
          ++ (List.range i).flatMap fun j =>
            when (b.streamOn j && b.streamSide j p && b.streamGroup j p == b.streamGroup i p && b.streamPort j == b.streamPort i)
              [fmt, pid 0x03 i (1 + p), pid 0x03 j 0, pid 0x03 j (1 + p)])
    ++ when (!bad && decide (b.streamL i < b.streamN i + 36 + b.streamD i)) [fmt, pid 0x03 i 3]

/-- R436 for one enabled monitor stream. -/
def checkMon (b : Bank) (j : Nat) : List Nat :=
  let fmt := pid 0x04 j 0
  when (decide (207 < b.monFirst j) || b.monCount j == 0 || decide (64 < b.monCount j) || b.monSides j == 0) [fmt]
    ++ (List.range 2).flatMap (fun p => when (b.monSides j / 2 ^ p % 2 == 1 && !b.portOn p) [fmt, pid 0x02 0 p])
    ++ when (!groupAddr (b.nat 0x04 j 1) && !unicast (b.nat 0x04 j 1)) [fmt, pid 0x04 j 1]

/-- R171 for one enabled port. -/
def checkTdm (b : Bank) (x : Nat) : List Nat :=
  let fr := pid 0x05 x 0
  let n := b.tdmFrameSlots x
  when (b.tdmMode x == 3 || (decide (b.tdmMode x < 2) && n != 2) || decide (n < 2) || decide (16 < n)) [fr]
    ++ when (b.tdmHi x && decide (8 < n)) [fr, pid 0x05 x 1]
    ++ when (decide (n < b.tdmSlots x)) [fr, pid 0x05 x 2]

def checkSources (b : Bank) : List Nat :=
  ((List.range 32).filter b.streamOn).flatMap (checkStream b) ++ ((List.range 8).filter b.monOn).flatMap (checkMon b)
    ++ ((List.range 4).filter b.tdmOn).flatMap (checkTdm b)

/-- The media-clock source (R171). -/
def checkMclk (b : Bank) : List Nat :=
  let src := b.nat 0x06 0 0
  when (decide (2 ≤ src) && !b.tdmOn (src - 2)) [pid 0x06 0 0, pid 0x05 (src - 2) 0]
    ++ when (src == 1 && !b.portOn 0 && !b.portOn 1) [pid 0x06 0 0, pid 0x02 0 0, pid 0x02 0 1]

/-- The model block of every modelled channel (R217). -/
def checkModels (b : Bank) : List Nat :=
  (List.range 208).flatMap fun c =>
    when (b.modelled c && !modelBlockOk b c) [pid 0x10 c 0, pid 0x10 c 9, pid 0x10 c 0xD, pid 0x20 c 4]

/-- One switching frequency on the enabled L-channels (R279). -/
def checkLfsw (b : Bank) : List Nat :=
  (List.range 16).flatMap fun i => (List.range i).flatMap fun j =>
    when (b.flag 0x10 (192 + i) 0 && b.flag 0x10 (192 + j) 0 && b.param (pid 0x10 (192 + i) 0x10) != b.param (pid 0x10 (192 + j) 0x10))
      [pid 0x10 (192 + i) 0, pid 0x10 (192 + i) 0x10, pid 0x10 (192 + j) 0, pid 0x10 (192 + j) 0x10]

/-- The twin rules (R355); the strap is no parameter. Each identity of the second bullet is a check of its own: the model's choice (R126, log
entry 59). -/
def checkTwin (strap : Bool) (b : Bank) : List Nat :=
  let mode := pid 0x08 0 0
  let own := b.nat 0x01 0 8
  let peer := b.nat 0x08 0 1
  if b.nat 0x08 0 0 = 0 then []
  else when (!strap) [mode]
    ++ when (own == 0) [mode, pid 0x01 0 8] ++ when (peer == 0) [mode, pid 0x08 0 1]
    ++ when (own == peer) [mode, pid 0x08 0 1, pid 0x01 0 8]
    ++ when (b.nat 0x08 0 0 == 2 && b.nat 0x06 0 0 != 1) [mode, pid 0x06 0 0]
    ++ if b.nat 0x08 0 0 = 1 then
        (List.range 208).flatMap fun c => when (b.flag 0x10 c 0 && !b.flag 0x10 c 0x16) [mode, pid 0x10 c 0, pid 0x10 c 0x16]
      else []

/-- Every check of R126 but the DSP load. -/
def failedIds (strap : Bool) (b : Bank) : List Nat :=
  checkBlocks b ++ checkPools b ++ checkRails b ++ checkPorts b ++ checkSources b ++ checkMclk b ++ checkModels b ++ checkLfsw b ++ checkTwin strap b

/-- The lowest ID that takes part in a failed check (R126, R213); none where the bank is valid. -/
def commitRefusal (strap : Bool) (a b : Bank) : Option Nat :=
  leastNat (failedIds strap b ++ (if dspCapacity < transitionLoad a b then loadCulprits a b else []))

/-! ### The schedule (R128, R133, R367) -/

/-- The state of the pseudocode of R128: the block, what it has used, and the starts of the crossfades. -/
structure Sched where
  b : Nat := 0
  p : Nat := 0
  c : Nat := 0
  starts : List Nat := []
  out : List UnitPlan := []

/-- The first block from `b` on in which fewer than `n` crossfades of 128 blocks run; `starts` is newest first. -/
def xfadeWait (n b : Nat) (starts : List Nat) : Nat :=
  match starts.drop (n - 1) with
  | [] => b
  | t :: _ => max b (t + 128)

/-- Units of the dev, net and twin classes: an agreed commit switches them at k_a outside the budget (R367). -/
def CUnit.ownClass : CUnit → Bool
  | .global 1 _ => true
  | .global 2 _ => true
  | .global 8 _ => true
  | _ => false

/-- Assign switch blocks as offsets from k0; `nxf` is 0 where the commit crossfades no unit. -/
def schedule (agreed : Bool) (nxf : Nat) (old new : Bank) : List UnitPlan :=
  ((unitsOf old new).foldl (fun (a : Sched) u =>
    let np := (unitParams old new u).length
    let nc := (unitBlocks old new u).length
    if agreed && u.ownClass then { a with out := a.out ++ [⟨u, 0, false, false, false, false⟩] }
    else
      let x := decide (0 < nxf) && filterChange old new u
      let b1 := if 4096 < a.p + np ∨ 8 < a.c + nc then a.b + 1 else a.b
      let b2 := if x then xfadeWait nxf b1 a.starts else b1
      { b := b2, p := if b2 = a.b then a.p + np else np, c := if b2 = a.b then a.c + nc else nc
        starts := if x then b2 :: a.starts else a.starts
        out := a.out ++ [⟨u, b2, false, false, x, false⟩] }) {}).out

/-- N_xf (R214): none where the commit crossfades no unit. -/
def nXf? (old new : Bank) : Option Nat :=
  let l := (unitsOf old new).filter (filterChange old new)
  if l.isEmpty then none
  else
    let e := (l.map fun u => match u with | .chan c => xfadeExtra old new c | _ => 0).foldl max 1
    some ((dspCapacity - transitionLoad old new) / e)

/-- One unit's new values into a bank. -/
def copyUnit (new : Bank) (u : CUnit) (b : Bank) : Bank :=
  let b1 := (unitParams b new u).foldl (fun b id => b.setParam id (new.param id)) b
  (unitBlocks b new u).foldl (fun b id => b.setBlock id (new.block id)) b1

end Sys2Proof.Machine
end

