-- ==== Sys2Proof/Machine/CommitOps.lean ====
section
/-! DEFINITION. The end and the agreement of a commit, shared by the commit rows and the twin (R130, R134, R366 to R368, R446). -/

namespace Sys2Proof.Machine

/-- Low and high word of a 64-bit block number. -/
def words64n (n : Nat) : List Word := [word n, word (n / 0x100000000)]

def modCommit (f : Commit → Commit) (s : State) : State := { s with cfg := { s.cfg with commit := s.cfg.commit.map f } }

/-- The block of a unit that has not switched, where k0 is known. -/
def Commit.blockOf (c : Commit) (u : UnitPlan) : Option Nat := c.k0.map fun k => ((k + u.block : Nat) + c.shift : Int).toNat

/-- A unit that has not switched and whose block has come by block `k` (R130). -/
def Commit.due (c : Commit) (k : Nat) (u : UnitPlan) : Bool := !u.switched && (c.blockOf u).any fun b => decide (b ≤ k)

/-- The COMMIT_DONE record with IRQ_STATUS COMMIT_DONE (R134, Table 4.7). -/
def commitRecord (ticket k0 span flags : Nat) (s : State) : State :=
  (s.irq irqCommit).raise 0x9001 0 (word ticket :: words64n k0 ++ [word span, word flags])

/-- STANDBY that waited for the commit goes on (R135): the entry is left to the Keeper's next step. -/
def commitGone (s : State) : State := { s with cfg := { s.cfg with commit := none, target := s.cfg.active } }

/-- A proposal is abandoned (R368): COMMIT_DONE with span 0 and ABANDONED, COMMIT_ABANDONED. The k0 of the record, for a mode-0
proposal, is not stated: a free value. The partner's proposal is no longer held: the next one of the same epoch replaces it. -/
def abandonCommit (cause : Nat) (s : State) : State :=
  match s.cfg.commit with
  | some c =>
    let ep := c.epoch.getD 0
    let named := s.twin.own.bind (·.k0)
    let k := match named with | some k => (k, s) | none => s.draw
    let s1 := commitGone { k.2 with twin := { k.2.twin with own := s.twin.own.map (fun p => { p with state := 2 }), theirs := none } }
    (commitRecord c.ticket k.1 0 8 s1).raise 0x8007 0 [word c.ticket, word ep, word cause]
  | none => s

/-- Both proposals of one epoch with equal digests, both armed (R367). -/
def agreed? (t : Twin) : Option (Proposal × Proposal) :=
  match t.own, t.theirs with
  | some a, some b => if a.epoch = b.epoch ∧ a.digest = b.digest ∧ a.state = 1 ∧ b.state = 1 then some (a, b) else none
  | _, _ => none

/-- The agreed first block k_a (R367). -/
def agreedBlock (lead : Nat) (a b : Proposal) : Nat :=
  max (max (a.k0.getD 0) (b.k0.getD 0)) (max a.armedBlock b.armedBlock + lead)

/-! ### Restarts (R119, R131, R279, R345) -/

/-- The restart fields of a channel unit and of a controller unit, and those of the twin unit, that restart every channel. -/
def chanRestarts (a b : Bank) (c : Nat) : Bool := [0, 0x10, 0x16, 0x19].any fun f => a.param (pid 0x10 c f) != b.param (pid 0x10 c f)
def railRestarts (a b : Bank) (r : Nat) : Bool := [0, 1].any fun f => a.param (pid 0x07 r f) != b.param (pid 0x07 r f)
def twinRestarts (a b : Bank) : Bool := [0, 1].any fun f => a.param (pid 0x08 0 f) != b.param (pid 0x08 0 f)

/-- The switch of this unit restarts channel c. -/
def restartsChan (a b : Bank) (u : CUnit) (c : Nat) : Bool :=
  match u with
  | .chan d => d == c && chanRestarts a b c
  | .global 0x07 r => rcOf c == r && railRestarts a b r
  | .global 0x08 _ => twinRestarts a b
  | _ => false

/-- A channel in OFF, FAULT or RETEST takes its new set without another action (R131, R135, R274). -/
def takesSet (s : State) (c : Nat) : Bool :=
  let f := (s.chan c).fsm
  f.state == .off || f.state == .fault || f.state == .retest

/-- A channel needs no stop for unit `u`: a controller restarts only beside channels in OFF or FAULT (R119). -/
def stillFor (s : State) (u : CUnit) (c : Nat) : Bool :=
  match u with
  | .global 0x07 _ => (s.chan c).fsm.state == .off || (s.chan c).fsm.state == .fault
  | _ => takesSet s c

/-- What unit `u` restarts has stopped (R119, R131). -/
def stoppedForUnit (s : State) (u : CUnit) : Bool :=
  (List.range 208).all (fun c => !restartsChan s.cfg.active s.cfg.target u c || stillFor s u c) &&
  match u with
  | .global 0x07 r => !railRestarts s.cfg.active s.cfg.target r || (!(s.rail r).state.gatesOn && fedStopped s r)
  | _ => true

/-- A test of what unit `u` restarts (R408): on a channel, on a controller that feeds it, or on the unit's controller. -/
def restartsTest (a b : Bank) (u : CUnit) (t : Test) : Bool :=
  (List.range 208).any (fun c => restartsChan a b u c && (t.onChan c || (t.id == 3 && t.inst == rcOf c))) ||
  match u with
  | .global 0x07 r => railRestarts a b r && t.onRail r
  | _ => false

/-- The tests that a commit ends (0xA013 of Table 16.5). -/
def endForUnit (u : CUnit) (s : State) : State := abortTests (restartsTest s.cfg.active s.cfg.target u) 0xA013 s

/-- A channel in OFF that unit `u` restarts does not start before its switch block (R131). -/
def holdForUnit (u : CUnit) (s : State) : State :=
  forUnits 208 (fun c t => if restartsChan s.cfg.active s.cfg.target u c && (t.chan c).fsm.state == .off then
    t.modFsm c fun f => { f with restart := true } else t) (endForUnit u s)

/-- A unit's channels and controller stop before its switch block; a test of the unit is aborted (R408). -/
def stopForUnit (u : CUnit) (s0 : State) : State :=
  let s := endForUnit u s0
  let a := s0.cfg.active
  let b := s0.cfg.target
  let s1 := forUnits 208 (fun c s => if restartsChan a b u c && !stillFor s u c then requestStop c true s else s) s
  match u with
  | .global 0x07 r =>
    if railRestarts a b r then
      s1.modRail r fun q =>
        if q.state.gatesOn then { q with stopReq := true, due := false, restart := false } else { q.stopped .off with due := false, restart := false }
    else s1
  | _ => s1

/-- Once both sides hold both armed proposals, the commit has its first block, and what restarts is stopped; a mode-1 k0 moved later sets
LATE. -/
def agreeCommit (s : State) : State :=
  match s.cfg.commit, agreed? s.twin with
  | some c, some (a, b) =>
    if c.epoch = some a.epoch ∧ c.k0 = none then
      let k := agreedBlock (s.nat 0x08 0 2) a b
      c.units.foldl (fun s u => stopForUnit u.unit s)
        (modCommit (fun c => { c with k0 := some k, late := c.late || (match a.k0 with | some n => decide (n < k) | none => false) }) s)
    else s
  | _, _ => s

/-- The proposals of one epoch have matched (R367). -/
def matched (t : Twin) : Bool :=
  match t.own, t.theirs with
  | some a, some b => a.epoch == b.epoch && a.digest == b.digest && b.state != 2
  | _, _ => false

/-- The partner's proposal for the own epoch carries another digest, or is abandoned: the cause of R368. -/
def clash? (t : Twin) : Option Nat :=
  match t.own, t.theirs with
  | some a, some b =>
    if a.epoch ≠ b.epoch ∨ a.state = 2 then none else if b.state = 2 then some 3 else if a.digest ≠ b.digest then some 2 else none
  | _, _ => none

/-- The proposals that both sides hold are compared: one that clashes is abandoned (R368), else the commit may be agreed (R367). -/
def judgeProposals (s : State) : State :=
  match clash? s.twin with
  | some cause => abandonCommit cause s
  | none => agreeCommit s

end Sys2Proof.Machine
end

