-- ==== Sys2Proof/Machine/ModeOps.lean ====
section
/-! DEFINITION. Changes of the device state that commands ask for: STOP, STANDBY, RESET (R78 to R82, R111, R135, R399). -/

namespace Sys2Proof.Machine

/-- RUN to READY (R78): the channels stop silently, the rails after them; model records and a snapshot are stored (R234, R399). -/
def stopDevice (s : State) : State :=
  let s1 := abortTests (fun _ => true) 0xA011 (s.setDev .ready 1)
  snapshot (storeModels (stopRails (stopChannels s1)))

/-- The supplies of STANDBY are off, and what the Keeper waited for before is over. -/
def standbyOff (s : State) : State :=
  powerDown (supplyLost { s with
    keeper := { s.keeper with standbyWait := false, waking := false }
    store := { s.store with lastPending := false }
    power := { s.power with falling := false, tw := false } })

/-- The entry to STANDBY as one whole step (R79, R82): the change is recorded, models, log and snapshot are written, then the supplies go
down. Every injector is cleared (R411). -/
def enterStandby (s : State) : State :=
  standbyOff (drainStore (snapshot (flushLog (storeModels (abortTests (fun _ => true) 0xA011 (s.setDev .standby 1))))))

/-- STANDBY waits for COMMIT_DONE (R135). -/
def askStandby (s : State) : State :=
  if s.cfg.commit.isSome then { s with keeper := { s.keeper with standbyWait := true } } else enterStandby s

/-- A commit has ended: STANDBY goes on where it waited, if the device may still enter it (Table 3.7). -/
def standbyGoes (s : State) : State :=
  if s.keeper.standbyWait ∧ s.cfg.commit = none ∧ (s.keeper.dev = .ready ∨ s.keeper.dev = .run) then enterStandby s else s

/-- A reset of cause 0x3 (R71, Table 3.4, R399): the snapshot is written first, but not in STANDBY, where the flash has no supply
(R82); the supply sequence starts again. Out of UPDATE with its image committed, the event is the update's end (Table 15.10). -/
def commandReset (s : State) : State :=
  let s1 := if s.keeper.dev = .standby then s else drainStore (snapshot (flushLog s))
  let s2 : State := if s.keeper.dev = .update ∧ s.store.updLen = 0 then { s1 with keeper := { s1.keeper with bootFrom := some (.update, 11, 3) } } else s1
  startSequence (resetTo 3 false s2)

/-- After its OK answer a command resets the device: at once, or once a response that was held has been delivered (R111). -/
def resetAfter (i : Nat) (s : State) : State :=
  if s.spi.held.any (·.1 == i) then { s with keeper := { s.keeper with resetWait := some i } } else commandReset s

end Sys2Proof.Machine
end

