-- ==== Sys2Proof/Machine/Dsp.lean ====
section
/-! DEFINITION. The DSP window: chain, models, gain, envelope tap and tracker (R194 to R211, R218 to R226, R314, R322, R337, R339). -/

namespace Sys2Proof.Machine

/-! ### Terms that SHARED combines (R373, R380) -/

/-- The link of an effective SHARED pair is lost. -/
def lonely (s : State) : Bool := s.twin.effShared && !s.twin.link

def cEffOf (s : State) (c : Nat) : Nat :=
  let own := cEffDsp s (rcOf c)
  if bothDrive s c then min own (s.rail (rcOf c)).cEffPartner else own
def mIdxOf (s : State) (c : Nat) : Rat :=
  let l := (s.chan c).loop
  if bothDrive s c then min l.mIdxDsp (s.chan c).share.mIdxPartner else if lonely s then 8913/10000 * l.mIdxDsp else l.mIdxDsp
/-- The stage multiplier s of a channel (R314, R322). -/
def sMulOf (s : State) (c : Nat) : Rat :=
  let d := s.dsd (dsdOf c)
  if bothDrive s c then min (dbGain d.sDb) d.partnerS else dbGain d.sDb
/-- L_eff (R205). -/
def lEff (s : State) (c : Nat) : Rat :=
  let vo := (s.chan c).fsm.voltageOnly || (bothDrive s c && (s.chan c).share.voPartner)
  min (s.ratv 0x10 c 6) (s.ratv 0x10 c 8 - (if vo then 6 else 0)) - (if lonely s then 1 else 0)
def vCeil (s : State) (c : Nat) : Rat := setpoint s (rcOf c) (cEffOf s c)
def vTop (s : State) (c : Nat) : Rat := s.cfg.active.vTop c

/-- A fed channel is in PRECHARGE: the selection is frozen (R337). -/
def freezes (s : State) (r : Nat) : Bool := (fedBy r).any fun c => (s.chan c).fsm.state == .precharge

/-- V_reach of R339 for play index `q` in window k, without the ceiling: t_a(k) lies 31.15 µs before the first sample of block k. -/
def planAt (s : State) (r q : Nat) : Rat :=
  let p := s.rail r
  let ms : Rat := ((q : Rat) - winBase s) / 96 + 3115/100000
  if freezes s r then approach p.vPlan (setpoint s r p.sent) (slew s r * ms) else p.vPlan + slew s r * ms

/-! ### The models in a window (R220 to R226, R239 to R242) -/

/-- The load current of sample `n`: the sensed one; in SHARED with the partner's, or twice the own where it has not come. -/
def loadCurrent (s : State) (c n : Nat) (own : Rat) : Rat :=
  if s.twin.effShared then
    match (if s.twin.link then (s.chan c).share.partnerI.find? (·.1 == n) else none) with
    | some p => own + senseI c p.2
    | none => 2 * own
  else own

/-- The sensed current of sample `n`, if the pair is valid (R211); none in voltage-only protection (R239). -/
def sensedAt (sense : List SensePair) (s : State) (c n : Nat) : Option Rat :=
  if (s.chan c).fsm.voltageOnly then none
  else match sense.find? fun p => p.ch == c && p.n == n with
    | some p => if p.valid then some (loadCurrent s c n (senseI c p.i * (s.dsd (dsdOf c)).gain)) else none
    | none => none

/-- Block k − 3 on the measured path: the state, the currents and the excursions in mm. -/
def measuredBlock (sense : List SensePair) (s : State) (c : Nat) : ExState × List Rat × List Rat :=
  let m := (s.chan c).model
  let k := exConst s c
  (List.range 8).foldl (fun (a : ExState × List Rat × List Rat) j =>
    let u := let p := (s.chan c).dsp.yOld.getD j (0, 0); p.1 * p.2
    let e := exStep s.cfg.active c k u (sensedAt sense s c (winBase s + j - 24)) a.1
    (e, a.2.1 ++ [e.i], a.2.2 ++ [absRat (1000 * e.x)])) (⟨m.x, m.v, m.i⟩, [], [])

/-- Step 3 of R208: the state through block k − 3, the nodes, the thermal request and the codes of R223 and R226. After voltage-only
protection the state stays at rest up to the first block of RUN (R239). -/
def modelWindow (sense : List SensePair) (c : Nat) (s : State) : State :=
  let h := s.chan c
  if !h.model.runs || h.model.seed == 0 then s else
    let r0 := measuredBlock sense s c
    let r := if h.model.fromRest then (⟨0, 0, 0⟩, r0.2.1, []) else r0
    -- in voltage-only protection no measured path runs (R239)
    let xs := if h.fsm.voltageOnly then [] else r.2.2
    let nOver := (xs.filter fun x => decide (s.ratv 0x10 c 9 < x)).length
    let reh := if h.fsm.voltageOnly then h.model.re25 else h.model.re25 * (1 + s.entry c 14 * (h.model.tv - 25))
    let p := if h.fsm.state = .run then sumRat (r.2.1.map fun i => i * i) * reh / 8 else 0
    let s1 := s.modChan c fun h => { h with
      model := thermalStep s c (8/96000) p { h.model with
        x := r.1.x, v := r.1.v, i := r.1.i, fromRest := h.model.fromRest && h.fsm.state != .run, xPeak := xs.foldl max h.model.xPeak }
      win := { h.win with xMm := xs.foldl max h.win.xMm } }
    let coil := coilCurve s1 c
    let mag := magnetCurve s1 c
    let target := min coil mag
    let rth := if s.cfg.active.modelBit c 1 then (if target ≤ h.model.rThDb then target else min target (h.model.rThDb + 1/24000)) else 0
    let hot := decide (coilHead s1 c ≤ -10)
    let s2 := s1.modModel c fun m => { m with rThDb := rth, coilEp := m.coilEp || decide (coil < 0), magEp := m.magEp || decide (mag < 0), overEp := m.overEp || hot }
    let s2 := s2.modModel c fun m => { m with xmaxSec := m.xmaxSec || decide (0 < nOver), coilSec := m.coilSec || decide (coil < 0) }
    let s3 := if 0 < nOver then (s2.count (chanStat c 0x04C) nOver).raiseHeld second 0x400B c nOver [] else s2
    let s4 := if coil < 0 ∧ !h.model.coilEp then s3.raise 0x4008 c [] else s3
    let s5 := if mag < 0 ∧ !h.model.magEp then s4.raise 0x400A c [] else s4
    if hot ∧ !h.model.overEp then s5.raise 0x4009 c [] else s5

/-- The partner's current of sample n is there (R228, R242). -/
def partnerHas (s : State) (c n : Nat) : Bool :=
  !s.twin.effShared || (s.twin.link && ((s.chan c).share.partnerI.find? (·.1 == n)).isSome)

/-- Sample n enters the pilot window (R228, R318, R319): the load current, and the own current beside what the model predicts from the sensed
voltage, half of it where two sides drive. -/
def gatherSample (sense : List SensePair) (s : State) (c n : Nat) (w : PilotWin) : PilotWin :=
  match sense.find? fun p => p.ch == c && p.n == n && p.valid with
  | some p =>
    let v := senseV p.v
    let own := senseI c p.i * (s.dsd (dsdOf c)).gain
    let load := loadCurrent s c n own
    let e := exStep s.cfg.active c (exConst s c) v none ⟨w.x, w.v, w.i⟩
    let pred := if s.twin.effShared then e.i / 2 else e.i
    { w with
      n := w.n + 1, partner := w.partner && partnerHas s c n, v2 := w.v2 + v * v, i2 := w.i2 + load * load
      d2 := w.d2 + (own - pred) * (own - pred), p2 := w.p2 + pred * pred, x := e.x, v := e.v, i := e.i }
  | none => { w with n := w.n + 1, valid := false, partner := w.partner && partnerHas s c n }

/-- A block of the pilot window: it is cut when the channel leaves RUN, and its samples are those of block k − 3, so it begins three blocks
after the entry to RUN (R24, R228). -/
def gatherWindow (sense : List SensePair) (c : Nat) (s : State) : State :=
  let h := s.chan c
  if h.fsm.state ≠ .run then
    if h.win.age = 0 then s else s.modChan c fun h => { h with win := {}, model := h.model.cutWindow }
  else if h.win.age < 3 then
    s.modChan c fun h => { h with win := { age := h.win.age + 1, x := h.model.x, v := h.model.v, i := h.model.i } }
  else
    let w := (List.range 8).foldl (fun w j => gatherSample sense s c (winBase s + j - 24) w) h.win
    s.modChan c fun h => { h with win := { w with pilot := w.pilot && s.flag 0x10 c 0xF } }

/-- x_lim (R221). -/
def xLim (s : State) (c : Nat) : Rat :=
  let x := s.ratv 0x10 c 9
  if (s.chan c).model.identOk then x else x * (1 - (s.nat 0x10 c 0xE : Rat) / 100)

/-- The finalised values that have not been played, as fractions of V_top with that V_top. -/
def finVolts (d : Dsp) : List (Rat × Rat) := d.fin.mapIdx fun i v => ((v : Rat) / qOne, d.finTop.getD i 0)

/-- The held excursion requests of the samples in `look`, in order, after the predicted path of R220. -/
def excursionHolds (s : State) (c : Nat) (look : List Int) : List (Rat × Nat) :=
  let h := s.chan c
  if !h.model.runs || h.model.seed == 0 || !s.cfg.active.modelBit c 0 then look.map fun _ => (1, h.model.holdCnt)
  else
    let b := s.cfg.active
    let k := exConst s c
    let vt := vTop s c
    let run := fun (e : ExState) (u : Rat × Rat) => exStep b c k (u.1 * u.2) none e
    let e0 := (finVolts h.dsp).foldl run (h.dsp.y.foldl run ⟨h.model.x, h.model.v, h.model.i⟩)
    (look.foldl (fun (a : ExState × (Rat × Nat) × List (Rat × Nat)) u =>
      let e := run a.1 ((u : Rat) / qOne, vt)
      let x := absRat (1000 * e.x)
      let raw := if x = 0 then 1 else min 1 (xLim s c / x)
      let hd := exHold raw a.2.1
      (e, hd, a.2.2 ++ [hd])) (e0, (h.model.rHeld, h.model.holdCnt), [])).2.2

/-! ### Stage 9 and 10 (R205 to R207, R314) -/

/-- The limiter, model and rail requests of a sample, none above 1 (the example of R339 gives a limiter request of 1 below T). -/
structure Requests where
  lim : Rat
  model : Rat
  rail : Rat
deriving DecidableEq, Repr

def Requests.least (r : Requests) : Rat := min 1 (min r.lim (min r.model r.rail))

/-- The requests of the samples of `look`, the first of which plays at index `q0`. -/
def requestsOf (s : State) (c q0 : Nat) (look : List Int) (holds : List (Rat × Nat)) : List Requests :=
  let vt := vTop s c
  let vc := vCeil s c
  let mi := mIdxOf s c
  let t := min (vc * dbGain (lEff s c)) (mi * vc)
  let rth := dbGain (s.chan c).model.rThDb
  look.mapIdx fun i u =>
    let uv := absRat ((u : Rat) / qOne) * vt
    let reach := min vc (planAt s (rcOf c) (q0 + i))
    if uv = 0 then ⟨1, min rth (holds.getD i (1, 0)).1, 1⟩
    else ⟨min 1 (t / uv), min rth (holds.getD i (1, 0)).1, min 1 (mi * reach / uv)⟩

/-- What stage 9 counts while it finalises: samples reduced by the limiter, a model or the rail, and whether the rail reduced one. -/
structure Finals where
  d : Dsp
  limit : Nat := 0
  model : Nat := 0
  rail : Nat := 0
  sats : Nat := 0

/-- One sample is finalised: look-ahead attack, release, multipliers (R206, R314). What the pilot adds to it is known apart (R405). A channel
that has entered RUN since the last window is in RUN from block k + 1 on (R210): the values of block k, the first 8 with the `n0` finalised
before, are held at 0 and its admission ramp waits. -/
def finalise (run was : Bool) (n0 : Nat) (vt : Rat) (h : Nat) (relMs sMul : Rat) (us ps : List Int) (rs : List Requests) (f : Finals) (i : Nat) : Finals :=
  let req := fun j => ((rs[j]?).map Requests.least).getD 1
  let att := (List.range (h + 1)).foldl (fun (a : Rat) j => min a (req (i + j) + (1 - req (i + j)) * j / ((h + 1 : Nat) : Rat))) 1
  let rel := f.d.g + (1 - f.d.g) * (1 - expNeg (1 / (96 * relMs)))
  let g := min att rel
  let plays := run && (was || decide (8 ≤ n0 + i))
  let d := { f.d with fade := if run && !plays then f.d.fade else f.d.fade.step, e := f.d.e.step, mute := f.d.mute.step, testMute := f.d.testMute.step }
  let mul := d.mute.now * d.testMute.now * d.fade.now * d.e.now * sMul
  let y := if plays then sat (roundOpen 35 (g * (us.getD i 0 : Int) * mul)) else (0, 0)
  let less : Rat := if plays then (y.1 : Rat) - g * (ps.getD i 0 : Int) * mul else 0
  let r := (rs[i]?).getD ⟨1, 1, 1⟩
  let cnt := plays && decide (g < 1)
  let byLim := cnt && decide (r.lim ≤ r.model) && decide (r.lim ≤ r.rail)
  let byModel := cnt && !byLim && decide (r.model ≤ r.rail)
  let byRail := cnt && !byLim && !byModel
  { d := { d with g := g, fin := d.fin ++ [y.1], finTop := d.finTop ++ [vt], less := d.less ++ [less], grMin := min d.grMin g, grRail := d.grRail || byRail }
    limit := f.limit + bit byLim 0, model := f.model + bit byModel 0, rail := f.rail + bit byRail 0, sats := f.sats + y.2 }

/-! ### One channel's window (R208) -/

/-- The pilot at play index `q` (R227), in Q9.31. -/
def pilotAt (s : State) (c q : Nat) : Int :=
  if s.flag 0x10 c 0xF && (s.chan c).fsm.state == .run && !(s.chan c).fsm.voltageOnly then
    roundOpen 34 (1/200 * s.cfg.active.vLow c / vTop s c * sinTurn ((q : Rat) / 32000 + ((c % 8 : Nat) : Rat) / 8) * qOne)
  else 0

/-- One sample of the polarity ramp (R198): to 0 over 512 samples, and from there to the new sign over 512. -/
def Dsp.polStep (d : Dsp) : Dsp :=
  let p := d.pol.step
  match d.polTo with
  | some g => if p.done then { d with pol := p.to g 512, polTo := none } else { d with pol := p }
  | none => { d with pol := p }

/-- Stages 3 to 8 for the next play index `q`: into the look-ahead line. The pilot enters from index `p0` on: the values of a line that starts
afresh hold 0 (R441). -/
def runSample (s : State) (c a p0 q : Nat) (f : FilterSet) (st : Dsp × Nat) : Dsp × Nat :=
  let d := st.1
  let back := winBase s + 7 + a - q
  let ws := d.weights
  let new := runPath f a back ws d.path
  let old := d.xf.map fun x => (x, runPath x.filters a back ws x.path)
  let v := match old with
    | some o =>
      let w : Rat := if o.1.i < 1024 then ((o.1.i + 1 : Nat) : Rat) / 1024 else 1
      sat (roundOpen 36 ((1 - w) * (o.2.1 : Rat) + w * new.1))
    | none => (new.1, 0)
  let gain := d.gain.step
  let dp := d.polStep
  let u6 := sat (roundOpen 33 (v.1 * gain.now * dp.pol.now))
  let p := if q < p0 then 0 else pilotAt s c q
  let u := sat (u6.1 + p)
  ({ d.steerStep with
      path := new.2.2, gain := gain, pol := dp.pol, polTo := dp.polTo, look := d.look ++ [u.1], pilots := d.pilots ++ [p]
      xf := old.map fun o => { o.1 with path := o.2.2.2, i := min 1024 (o.1.i + 1) } },
   st.2 + new.2.1 + v.2 + u6.2 + u.2)

/-- The envelope tap of a channel for block k + 1 (R210): none for CEILING; `fin` holds the block in the full and partial modes. -/
def tapOf (s : State) (c : Nat) (mode : Nat) (fin : List (Rat × Rat)) : Option Nat :=
  let f := (s.chan c).fsm
  if f.state = .run then
    if mode = 2 then none
    else some (min 65535 ((fin.foldl (fun (m : Rat) v => max m (absRat (v.1 * v.2))) 0 * 500).ceil.toNat))
  else if s.cfgShared && s.enabled c && f.bridge == .open then none
  else some 0

/-- A channel that the DSP computes: `chan.enable` in force is 1 (R194). A commit that disables a channel stops it before (R131). -/
def computed (s : State) (c : Nat) : Bool := s.enabled c

/-- A crossfade of a channel that is not computed runs out (R132). -/
def idleXfade (d : Dsp) : Dsp := { d with xf := d.xf.map fun x => { x with i := min 1024 (x.i + 8) } }

/-- A silent stop's fade is over and played (R265). -/
def stopZero (h : Chan) : Chan :=
  if h.fsm.stop = .fading ∧ h.dsp.fade.done ∧ h.dsp.fin.all (· == 0) then { h with fsm := { h.fsm with stop := .zero, zeroBlocks := 0 } } else h

/-- A channel in window k. -/
def chanWindow (sense : List SensePair) (c : Nat) (s : State) : State :=
  if !computed s c then
    s.modDsp c fun d => if d.y.isEmpty then idleXfade d else { idleXfade d with
      path := {}, look := [], pilots := [], fin := [], finTop := [], less := [], y := [], yOld := [], tap := some 0, ran := false }
  else
    let s1 := (modelWindow sense c (gatherWindow sense c s)).modChan c fun h => stopZero { h with dsp := h.dsp.steerBoundary }
    let d := (s1.chan c).dsp
    let f := s.cfg.active.filters c
    let base := winBase s
    let a := d.ahead
    -- stages 1 and 2 of both sets, then stages 3 to 8
    let fed := feedPath s1 f base d.path
    let fedX := d.xf.map fun x => (x, feedPath s1 x.filters base x.path)
    let d1 : Dsp := { d with path := fed.1, xf := fedX.map fun x => { x.1 with path := x.2.1 }, grRail := false }
    let n0 := d.fin.length + d.look.length
    let ran := (List.range (8 + a - n0)).foldl (fun st j => runSample s1 c a (if n0 = 0 then base + a else 0) (base + n0 + j) f st) (d1, fed.2 + (fedX.map (·.2.2)).getD 0)
    -- models and stages 9 and 10
    let s2 := s1.modDsp c fun _ => ran.1
    let mode := modeOf a
    let plays := (s1.chan c).fsm.state == .run
    let vt := vTop s c
    let us := ran.1.look
    let holds := excursionHolds s2 c us
    let rs := requestsOf s2 c (base + d.fin.length) us holds
    let n := if mode = 2 then 8 - d.fin.length else 16 - d.fin.length
    let fi := (List.range n).foldl (fun fs i => finalise plays d.ran d.fin.length vt (lookOf a) (s.ratv 0x10 c 7) (sMulOf s c) us ran.1.pilots rs fs i) { d := ran.1 }
    let done := finVolts fi.d
    let out := (done.take 8).map fun v => if plays then v else (0, v.2)
    let outLess := (fi.d.less.take 8).mapIdx fun i v => if plays then v / qOne * fi.d.finTop.getD i 0 else 0
    let vr := (s.rail (rcOf c)).vRail
    let d2 : Dsp := { fi.d with
      look := us.drop n, pilots := ran.1.pilots.drop n, fin := fi.d.fin.drop 8, finTop := fi.d.finTop.drop 8, less := fi.d.less.drop 8, ran := plays
      y := (d.y ++ out).drop (d.y.length + out.length - 16), yOld := (d.yOld ++ d.y.take (d.y.length + out.length - 16)).drop (d.yOld.length + (d.y.length + out.length - 16) - 8)
      tap := tapOf s1 c mode (done.drop 8)
      peakY := out.foldl (fun m v => max m (absRat (v.1 * v.2))) d.peakY
      quiet := outLess.foldl (fun q v => if v = 0 ∨ absRat v * 1000 < vr then q + 1 else 0) d.quiet }
    let hold := holds.getD (n - 1) ((s1.chan c).model.rHeld, (s1.chan c).model.holdCnt)
    let s3 := s2.modChan c fun h => { h with
      dsp := d2
      share := { h.share with mark := h.share.mark - 1 }
      model := if n = 0 then h.model else { h.model with rHeld := hold.1, holdCnt := hold.2, rExcMin := (holds.take n).foldl (fun m x => min m x.1) h.model.rExcMin }
      fsm := if h.fsm.stop = .zero then { h.fsm with zeroBlocks := h.fsm.zeroBlocks + 1 } else h.fsm }
    let sats := ran.2 + fi.sats
    let s4 := if 0 < sats then (s3.count (chanStat c 0x008) sats).raiseHeld second 0x4002 c sats [] else s3
    let add := fun (f n : Nat) (s : State) => if n = 0 then s else s.count (chanStat c f) n
    add 6 fi.rail (add 5 fi.model (add 4 fi.limit s4))

/-! ### The tracker (R337) -/

/-- The row that block k + 1 needs. -/
def neededRow (s : State) (r : Nat) : Nat :=
  let ce := cEffDsp s r
  let cs := fedBy r
  let sw := fun c => (s.chan c).fsm.state.switching
  if !s.flag 0x07 r 7 || cs.any (fun c => (s.chan c).dsp.tap == none) || cs.any (fun c => sw c && !s.flag 0x10 c 0x1A) then ce
  else
    let need := 103/100 * cs.foldl (fun (m : Rat) c => max m ((((s.chan c).dsp.tap.getD 0 : Nat) : Rat) / 500 / mIdxOf s c)) 0
    let low := match (List.range 8).find? fun i => decide (need ≤ setpoint s r i) with | some i => i | none => ce
    let up := if cs.any fun c => (s.chan c).dsp.grRail then low + 1 else low
    min up ce

/-- The selection R(k), the planned trajectory up to t_a(k + 1), and the plan of the samples played. -/
def trackRail (r : Nat) (s : State) : State :=
  let q := s.rail r
  let played := (List.range 8).map fun j => min (setpoint s r (cEffDsp s r)) (planAt s r (winBase s + j))
  let keep := fun (p : List Rat) => (p ++ played).drop (p.length - 24)
  if q.state = .regulating then
    let rows := (neededRow s r :: q.rows).take 12
    let top := rows.foldl max 0
    let sel := if freezes s r then min q.sent (cEffDsp s r) else top
    s.modRail r fun q => { q with
      rows := rows, sent := sel, sentTable := setpoints s r, frozen := freezes s r, plan := keep q.plan, vPlan := approach q.vPlan (setpoint s r sel) (slew s r / 12) }
  else s.modRail r fun q => { q with plan := keep q.plan }

/-! ### The stage multiplier (R322) -/

/-- The target of Table 12.2. -/
def stageTarget (t : Rat) : Rat := if t < 90 then 0 else if t < 100 then -3/2 * (t - 90) else -15

/-- One block of a die's multiplier; an episode ends after 10 s at 0.0 dB. The ageing offset of Table 15.8 moves the table down. -/
def stageBlock (d : Nat) (s : State) : State :=
  let q := s.dsd d
  if !q.released then s else
    let t := stageTarget (q.zoneC + q.thetaK)
    let db := if t < q.sDb then max t (q.sDb - 1/600) else min t (q.sDb + 1/24000)
    let quiet := if db = 0 then q.quiet + 1 else 0
    let starts := decide (db < 0) && !q.sEpisode
    let s1 := s.modDsd d fun q => { q with sDb := db, quiet := quiet, sEpisode := (q.sEpisode || decide (db < 0)) && decide (quiet < 120000) }
    if starts then s1.raise 0x5020 (0x100 + d) [wordS (10 * q.zoneC)] else s1

/-- The mute has risen on every enabled channel (R313). -/
def riseDone (s : State) : Bool := (List.range 208).all fun c => !s.enabled c || (s.chan c).dsp.e.done

end Sys2Proof.Machine
end

