-- ==== Sys2Proof/Machine/TwinOps.lean ====
section
/-! DEFINITION. Fikezo frames, beacons, pairing, roles, the effective mode, the share correction and the adoption of model shadows
(R240 to R242, R357 to R380, R439). -/

namespace Sys2Proof.Machine

/-! ### Frames (R360, Tables 14.2 and 14.3) -/

/-- A frame that passed R360. -/
structure Fz where
  flags : Nat
  index : Nat
  seq : Nat
  body : List Byte
deriving DecidableEq, Repr

/-- Payload bytes of a type: 1 SAMPLE, 2 BLOCK, 3 MODEL, 4 BEACON, 5 EPOCH, 6 TIME. -/
def fzLength (ty : Nat) : Nat := ([0, 1672, 1116, 320, 128, 28, 24] : List Nat).getD ty 0

/-- The frame in received bytes: none where its CRC, type or length is wrong. -/
def fzParse (ty : Nat) (l : List Byte) : Option Fz :=
  let n := fzLength ty
  if 1 ≤ ty ∧ ty ≤ 6 ∧ l.length = 20 + n ∧ leAt l 0 1 = ty ∧ leAt l 2 2 = n ∧ leAt l (16 + n) 4 = (crc32 (l.take (16 + n))).toNat then
    some ⟨leAt l 1 1, leAt l 4 8, leAt l 12 4, sub l 16 n⟩
  else none

/-- A frame of a type as it is sent. -/
def fzBytes (ty flags index seq : Nat) (body : List Byte) : List Byte :=
  let h := le 1 ty ++ le 1 flags ++ le 2 body.length ++ le 8 index ++ le 4 seq ++ body
  h ++ le 4 (crc32 h).toNat

/-- The Fikezo lanes carry data (R57, R359). -/
def fzLive (s : State) : Bool := s.keeper.strapTwin && s.power.seqDone

/-- The twin function is configured. -/
def twinned (s : State) : Bool := s.nat 0x08 0 0 != 0
def sysId (s : State) : Nat := s.nat 0x01 0 8
def partnerId (s : State) : Nat := s.nat 0x08 0 1
def frameError (s : State) : State := s.count (devStat 0x60B) 1

/-! ### Effective mode and stops (R357, R358, R370, R379) -/

/-- The pair shares (R358), the link apart: both sides are paired, and the levels were equal at the pairing and have been since (Table 14.10). -/
def mayShare (s : State) : Bool :=
  s.cfgShared && s.twin.partnerMode == 2 && s.twin.paired && s.twin.partnerPaired && s.twin.levelOk && s.twin.partnerLevel == s.keeper.fwLevel
    && s.twin.partnerDigest == digest s.cfg.whole && !s.twin.paused && !s.twin.partnerPaused

/-- Channels outside OFF stop with OPEN (R370, R379). -/
def dropChannels (s : State) : State := forUnits 208 (fun c s => if (s.chan c).fsm.state = .off then s else toOff c s) s

/-- No channel shares any more: corrections, droop and integral are 0, the terms are the own ones (R372, R373). -/
def unshare (s : State) : State :=
  { s with
    chans := s.chans.map fun h => { h with share := { h.share with
      partnerDrives := false, partnerState := 0, partnerJoin := false, partnerMark := false, voPartner := false, integral := 0, corr := 0, corrs := [], delta := 0
      joinReq := false, mark := 0, joined := false } }
    twin := { s.twin with muted := false, runBlock := 0, runMap := [], theirRunBlock := 0, theirRunMap := [] } }

/-- The FOLLOW is to adopt the LEAD's shadow (R241, R242). -/
def wantShadow (raise : Bool) (t : Twin) : Twin :=
  if t.role = .follow then { t with adoptDue := true, adoptGot := [], adoptRaise := raise, badDigests := 0 } else { t with badDigests := 0 }

/-- Judge the effective mode (R358); a lost link leaves it. The FOLLOW of a pair that no longer shares stops its channels silently. -/
def judgeMode (s : State) : State :=
  if !s.twin.link then s
  else
    let now := s.cfgShared && mayShare s
    if now = s.twin.effShared then s
    else if now then { s with twin := wantShadow false { s.twin with effShared := true } }
    else
      let s1 : State := unshare { s with twin := { s.twin with effShared := false, adoptDue := false, adoptRaise := false } }
      if s.twin.role = .follow then forUnits 208 (requestStop · false) s1 else s1

/-- Yielding of two LEADs (R370). -/
def yieldLead (s : State) : State := dropChannels { s with twin := { s.twin with role := .follow } }

/-- Sharing pauses for time (R379): the FOLLOW raises TIME_OFFSET and drops what it drives. -/
def pauseSharing (s : State) : State :=
  if !s.cfgShared || s.twin.paused then s
  else
    let s1 : State := { s with twin := { s.twin with paused := true } }
    if s.twin.role = .follow then
      judgeMode (dropChannels (s1.raise 0x8008 0 [wordS s.twin.offset]))
    else judgeMode s1

/-- An offset above 1 µs, or unequal grandmasters (Table 14.10). -/
def pauseTime (s : State) : State := pauseSharing { s with twin := { s.twin with goodSince := none } }

/-- The FOLLOW becomes LEAD (R369). Where it did not share, each channel seeds its models anew, from the shadow (R240). -/
def takeover (cause : Nat) (s : State) : State :=
  let s1 : State := { s with twin := { s.twin with role := .lead } }
  let s2 := if s.twin.effShared then s1 else
    { s1 with chans := s1.chans.map fun h => if h.fsm.state = .off then { h with model := { h.model with seed := 0 } } else h }
  ((s2.count (devStat 0x60D) 1).life (devStat 0x80B) 1).raise 0x800A 0 [word cause]

/-! ### Beacons (R363, R364, Tables 14.6 and 14.7) -/

/-- Active faults (R439). -/
def activeFaults (s : State) : Nat :=
  (s.chans.toList.filter fun h => h.fsm.code != 0).length + (s.rails.toList.filter fun q => q.code != 0).length
    + ((List.range 4).filter fun i => s.pwm.latch.getLsbD i).length + bit (s.keeper.dev == .safe) 0

/-- Every channel is in OFF and no relay sinks (R369). -/
def released (s : State) : Bool := s.chans.toList.all fun h => h.fsm.state == .off && !h.fsm.relayOn

/-- A set of channels as a bit map of `n` bytes. -/
def chanMap (n : Nat) (p : Nat → Bool) : List Byte :=
  (List.range n).map fun i => BitVec.ofNat 8 ((List.range 8).foldl (fun a j => a + bit (p (8 * i + j)) j) 0)

def effMode (s : State) : Nat := if !twinned s then 0 else if s.twin.effShared then 2 else 1

/-- The daymark (Table 14.6). -/
def daymark (s : State) : List Byte :=
  let t := s.twin
  let flags := s.nat 0x08 0 0 + 4 * effMode s + bit (t.role == .lead) 4 + bit s.keeper.strapTwin 5 + bit (s.flag 0x08 0 3) 6 + bit t.paired 7
  let d := le 8 Config.serial.toNat ++ le 4 (sysId s) ++ le 2 0x0208 ++ [0x02, BitVec.ofNat 8 flags] ++ le 2 s.keeper.fwLevel ++ [0, 0]
    ++ le 4 s.keeper.fwVersion.toNat ++ le 4 (partnerId s) ++ le 4 (s.nat 0x01 0 0xA) ++ le 4 t.epoch ++ le 4 (digest s.cfg.whole)
    ++ le 4 (s.nat 0x02 0 2) ++ le 4 (s.nat 0x02 0 3) ++ zeros 12
  d ++ le 4 (crc32 d).toNat

/-- The beacon status (Table 14.7); RELEASED once every channel has been in OFF with no relay sinking for 20 ms (R369). -/
def beaconStatus (s : State) : List Byte :=
  let t := s.twin
  let armed_ := match t.own with | some p => p.state == 1 | none => false
  [BitVec.ofNat 8 s.keeper.dev.code, BitVec.ofNat 8 (bit (decide (1920 ≤ t.quiet)) 0 + bit armed_ 1 + bit t.link 2 + bit t.paused 3)]
    ++ le 2 (activeFaults s) ++ [BitVec.ofNat 8 s.ptp.state.code, BitVec.ofNat 8 s.media.state.code, 0, 0] ++ le 8 s.ptp.gm
    ++ le 4 (if t.effShared then t.modelDigest else 0) ++ le 4 (wordS t.offset).toNat ++ le 8 s.ptp.timeNs
    ++ chanMap 26 (fun c => armed s c) ++ zeros 6

def beacon (s : State) : List Byte := daymark s ++ beaconStatus s

/-- Both sides claim LEAD. -/
def dualLead (t : Twin) : Bool := t.role == .lead && t.partnerLead

/-- What a partner's beacon says. -/
def takeStatus (b : List Byte) (t : Twin) : Twin :=
  { t with
    partnerSerial := leAt b 0 8, partnerId := leAt b 8 4, partnerMode := leAt b 15 1 % 4, partnerLead := leAt b 15 1 / 16 % 2 == 1, partnerPaired := leAt b 15 1 / 128 % 2 == 1
    partnerLevel := leAt b 16 2, partnerEpoch := leAt b 32 4, partnerDigest := leAt b 36 4, partnerDev := leAt b 64 1
    partnerReleased := leAt b 65 1 % 2 == 1, partnerPaused := leAt b 65 1 / 8 % 2 == 1, partnerGm := leAt b 72 8
    partnerModelDigest := leAt b 80 4 }

/-- Two LEADs (R370): both raise DUAL_LEAD, the higher system ID yields. -/
def judgeLeads (was : Bool) (s : State) : State :=
  if dualLead s.twin then
    let s1 := if was then s else s.raise 0x800C 0 [word s.twin.partnerId]
    if s.twin.partnerId < sysId s then yieldLead s1 else s1
  else s

/-- A pair forms (R357, R358, R366). With unequal digests the last epoch that both sides hold is the lower of the two: the model's reading (R367,
notes/assumptions/79.md). -/
def formPair (s : State) : State :=
  let t := s.twin
  let lower := decide (sysId s < t.partnerId)
  let lv := t.partnerLevel == s.keeper.fwLevel
  let own := digest s.cfg.whole
  let s1 : State := { s with twin := { t with
    paired := true, levelOk := lv
    epoch := if own = t.partnerDigest then max t.epoch t.partnerEpoch else t.epoch
    common := if own = t.partnerDigest then max t.epoch t.partnerEpoch else min t.epoch t.partnerEpoch } }
  let s2 :=
    if t.role = .lead && t.partnerLead then judgeLeads false s1
    else if !lv then (if lower then { s1 with twin := { s1.twin with role := .lead } }
      else if t.role = .lead then yieldLead s1 else { s1 with twin := { s1.twin with role := .follow } })
    else if t.role = .lead then s1
    else if t.partnerLead then { s1 with twin := { s1.twin with role := .follow } }
    else { s1 with twin := { s1.twin with role := if lower then .lead else .follow } }
  let s3 := s2.raise 0x8003 0 [word t.partnerId, word s2.twin.role.code]
  let s4 := if lv then s3 else s3.raise 0x8005 0 [word s.keeper.fwLevel, word t.partnerLevel]
  if own = t.partnerDigest then s4 else s4.raise 0x8006 0 [word own, word t.partnerDigest]

/-- The LEAD leaves in order: SAFE, UPDATE or BOOT, with RELEASED (R369). -/
def cooperative (s : State) : Bool :=
  s.twin.role == .follow && !s.twin.effShared && s.twin.partnerReleased
    && (s.twin.partnerDev == 0 || s.twin.partnerDev == 4 || s.twin.partnerDev == 5)

/-- A valid beacon of the partner: `peer` for a peer beacon, which forms the pair and carries the model digest. -/
def partnerBeacon (peer : Bool) (b : List Byte) (s : State) : State :=
  let was := dualLead s.twin
  let now := s.keeper.counterUs
  let s1 : State := { s with twin := takeStatus b s.twin }
  let s2 : State := { s1 with twin :=
    if peer then { s1.twin with peerSeen := true, peerAt := now, levelOk := s1.twin.levelOk && s1.twin.partnerLevel == s.keeper.fwLevel }
    else { s1.twin with netSeen := true, netAt := now, levelOk := s1.twin.levelOk && s1.twin.partnerLevel == s.keeper.fwLevel } }
  let s3 := if peer && !s.twin.paired then formPair s2 else judgeLeads was s2
  let s4 := if s3.twin.partnerGm = s.ptp.gm then s3 else pauseTime s3
  let s5 := judgeMode (if s4.twin.role = .follow ∧ s4.twin.partnerPaused then pauseSharing s4 else s4)
  let s6 :=
    if peer && s5.twin.effShared && s5.twin.link && !s5.twin.adoptDue then
      if s5.twin.partnerModelDigest = s5.twin.modelDigest then { s5 with twin := { s5.twin with badDigests := 0 } }
      else if 1 ≤ s5.twin.badDigests then { s5 with twin := wantShadow true s5.twin }
      else { s5 with twin := { s5.twin with badDigests := 1 } }
    else s5
  if cooperative s6 then takeover 1 s6 else s6

/-- The partner counts as absent (R357, R369). -/
def noPartner (s : State) : State :=
  unshare { s with twin := { s.twin with
    peerSeen := false, netSeen := false, paired := false, effShared := false, partnerLead := false, adoptDue := false, adoptRaise := false } }

/-- The partner is absent, or a device that is not it takes its place (R357, R369): the FOLLOW takes over where it may, else it
reports; once `twin.takeover_enable` is 1 it takes over from a partner that is still absent. -/
def partnerGone (s : State) : State :=
  if s.twin.paired || s.twin.peerSeen || s.twin.netSeen then
    noPartner (if s.twin.role = .follow then (if s.flag 0x08 0 3 then takeover 2 s else s.raise 0x800B 0 []) else s)
  else if s.twin.role = .follow ∧ s.flag 0x08 0 3 then takeover 2 s
  else s

/-- A received beacon (R357, R364). -/
def takeBeacon (peer : Bool) (b : List Byte) (s : State) : State :=
  if leAt b 60 4 ≠ (crc32 (b.take 60)).toNat then frameError s
  else
    let id := leAt b 8 4
    let serial := leAt b 0 8
    if twinned s && id != 0 && id == partnerId s && leAt b 24 4 == sysId s && id != sysId s then partnerBeacon peer b s
    else
      let s1 := if id = sysId s ∧ id ≠ 0 ∧ serial ≠ Config.serial.toNat then
          s.raiseHeldAs (10 * second) 0x800F 0 [word serial, word (serial / 0x100000000)] else s
      if peer && twinned s then (partnerGone s1).raiseHeldAs (10 * second) 0x8004 0 [word id, word (leAt b 24 4)] else s1

/-! ### The share correction (R372) -/

/-- A sense pair as its DSD marks it: invalid also while the link of the die is lost and while its converter is in calibration (R18, R211, R405). -/
def marked (s : State) (p : SensePair) : SensePair :=
  { p with valid := p.valid && (s.dsd (dsdOf p.ch)).linked && decide ((s.chan p.ch).fsm.calTo ≤ s.media.samples) }

/-- The last 32 entries. -/
def lastOf (l : List (Nat × Int)) (e : Nat × Int) : List (Nat × Int) := (l ++ [e]).drop (l.length + 1 - 32)

/-- The currents of sample m on both sides, in amperes. -/
def bothCurrents (h : Share) (c m : Nat) : Option (Rat × Rat) :=
  match h.ownI.find? (·.1 == m), h.partnerI.find? (·.1 == m) with
  | some a, some b => some (senseI c a.2, senseI c b.2)
  | _, _ => none

/-- A correction enters the PEER-to-MOD FIFO of 8 samples: those that MOD has taken are gone while its clock runs, and one that finds the FIFO
full is discarded and counted (R32). -/
def Share.queueCorr (running : Bool) (n : Nat) (c : Rat) (h : Share) : Share :=
  let left := if running then h.corrs.filter fun p => decide (n ≤ p.1 + 4) else h.corrs
  if 8 ≤ left.length then { h with corrs := left, corrDrops := h.corrDrops + 1 } else { h with corr := c, corrs := left ++ [(n, c)] }

/-- A current waits in the MOD-to-PEER FIFO of 8 samples while the PEER clock stands (R32). -/
def Share.queuePeer (e : Nat × Int) (h : Share) : Share :=
  if 8 ≤ h.toPeer.length then { h with peerDrops := h.peerDrops + 1 } else { h with toPeer := h.toPeer ++ [e] }

/-- A current reaches the PEER domain, after those that waited. -/
def Share.takeOwn (e : Nat × Int) (h : Share) : Share :=
  { h with ownI := lastOf (h.toPeer.foldl lastOf h.ownI) e, toPeer := [] }

/-- The correction of sample m + 5 of one channel (Table 14.8). A joiner shares once its join check has passed (R375). -/
def correct (c m : Nat) (s : State) : State :=
  let h := (s.chan c).share
  let running := s.media.locked && !s.media.halted
  if bothDrive s c && !h.joinReq then
    match bothCurrents h c m with
    | some (own, peer) =>
      let d := (own - peer) / 2
      let lim := 2/100 * vTop s c
      let i := clampRat (-lim) lim (h.integral + 6545/10000000 * shareOhm * d)
      s.modShare c fun h => { h with
        delta := d, deltaSq := h.deltaSq + d * d, deltaN := h.deltaN + 1, integral := i
        imbRun := if iFull c / 5 < absRat d then h.imbRun + 1 else 0
        imbPeak := if iFull c / 5 < absRat d then max h.imbPeak (absRat d) else 0 }.queueCorr running (m + 5) (if isL c then -(shareOhm * d) - i else shareOhm * (own + peer) / 2 - i)
    | none => s
  else s.modShare c fun h => { h with delta := 0, integral := 0, corr := 0, corrs := [], imbRun := 0, imbPeak := 0 }

/-! ### Received frames -/

/-- Sample m lies in the central 2 ms of the join mark (R375). -/
def Share.inMark (h : Share) (m : Nat) : Bool := h.markAt.any fun a => decide (a + 96 ≤ m) && decide (m < a + 288)

/-- The partner's sensed voltage of sample m enters the mean over the mark. -/
def Share.partnerV (m : Nat) (valid : Bool) (v : Int) (h : Share) : Share :=
  if valid && h.inMark m then { h with vStSum := h.vStSum + senseV v, nSt := h.nSt + 1 } else h

/-- A SAMPLE frame (Table 14.4, R371 to R373). While the link is lost the last correction and integral stand, and the own terms count alone
(R380). -/
def takeSample (f : Fz) (s : State) : State :=
 if !s.twin.link then s else
  let m := f.index
  let gap := match s.twin.lastSample with
    | some l => (f.seq + 0x100000000 - l - 1) % 0x100000000
    | none => 0
  let back := decide (0x80000000 ≤ gap)
  let s0 := if 0 < gap ∧ !back then s.count (devStat 0x60C) gap else s
  let s1 : State := { s0 with twin := { s0.twin with
    lastSample := if back then s.twin.lastSample else some f.seq
    muted := s.twin.effShared && leAt f.body 1669 1 % 2 == 1 } }
  let s2 := forUnits 208 (fun c s =>
    let fl := leAt f.body (8 * c + 6) 1
    correct c m (s.modShare c fun h => { h with
      partnerDrives := fl / 2 % 2 == 1
      partnerI := if fl % 2 = 1 then lastOf h.partnerI (m, signed 24 (leAt f.body (8 * c + 3) 3)) else h.partnerI }.partnerV m (fl % 2 == 1) (signed 24 (leAt f.body (8 * c) 3)))) s1
  if !sharing s2 then s2
  else
    let s3 := forUnits 32 (fun st s =>
      if leAt f.body 1664 4 / 2 ^ st % 2 = 1 ∧ s.cfg.active.streamOn st then
        if (s.stream st).state.plays then streamFade st (m + 27) false s else s.modStream st fun t => { t with good := 0 }
      else s) s2
    forUnits 4 (fun x s => if leAt f.body 1668 1 / 2 ^ x % 2 = 1 ∧ s.cfg.active.tdmOn x then tdmFade false x (m + 27) s else s) s3

/-- A binary32 of a frame; a value that is no number leaves what was there. -/
def f32At (l : List Byte) (o : Nat) (old : Rat) : Rat := (f32? (word (leAt l o 4))).getD old

/-- The channels of a bit map at an offset. -/
def mapAt (l : List Byte) (o : Nat) : List Nat := (List.range 208).filter fun c => leAt l (o + c / 8) 1 / 2 ^ (c % 8) % 2 == 1

/-- The join mark of the starter, 4 ms of 48 blocks, begins with a new JOIN_REQ of the partner while its channel runs at zero reference
(R375). -/
def markFor (s : State) (c : Nat) (req : Bool) : Nat :=
  let h := s.chan c
  if sharing s && req && !h.share.partnerJoin && !h.share.joinReq && (h.fsm.state == .idle || h.fsm.state == .muted) then 48 else h.share.mark

/-- One channel's byte and modulation limit of a BLOCK frame (Table 14.5) with index `idx`. The own mark starts with the next block; that of the
starter, which the joiner judges in DIAG or RETEST, has come in the block before the one that the frame names (R375). -/
def blockChan (idx : Nat) (b : List Byte) (c : Nat) (s : State) : State :=
  let x := leAt b c 1
  let own := markFor s c (x / 32 % 2 == 1)
  let f := (s.chan c).fsm
  s.modShare c fun h =>
   let g := if own = 48 ∧ h.mark = 0 then h.startMark (winBase s)
     else if h.joinReq ∧ (f.state = .diag ∨ f.state = .retest) ∧ !h.partnerMark ∧ x / 128 % 2 = 1 then h.startMark (idx - 8) else h
   { g with
    mark := own, partnerState := x % 16, partnerDrives := x / 16 % 2 == 1, partnerJoin := x / 32 % 2 == 1, voPartner := x / 64 % 2 == 1
    partnerMark := x / 128 % 2 == 1, mIdxPartner := f32At b (236 + 4 * c) h.mIdxPartner }

/-- The run block and its map (Table 14.3). -/
def blockRun (b : List Byte) (w : Twin) : Twin := { w with theirRunBlock := leAt b 1068 8, theirRunMap := mapAt b 1076 }

/-- A BLOCK frame (Table 14.5, R373, R376). -/
def takeBlock (f : Fz) (s : State) : State :=
  let s1 := forUnits 208 (blockChan f.index f.body) s
  let s2 := forUnits 12 (fun r s => s.modRail r fun q => { q with cEffPartner := leAt f.body (208 + r) 1 }) s1
  let s3 := forUnits 4 (fun d s => s.modDsd d fun q => { q with partnerS := f32At f.body (220 + 4 * d) q.partnerS }) s2
  { s3 with twin := blockRun f.body s3.twin }

/-- The FOLLOW adopts the LEAD's shadow of one channel with the model flags that are the models' own (R240, R241). Where the model has not been
seeded, the adoption is its seed, and the measured resistance and its windows stay the own ones: R235 and R241 leave both open, and they are the
model's choice (log entry 78). -/
def adoptOne (c : Nat) (s : State) : State :=
  match (s.chan c).share.shadow with
  | some w =>
    let b := s.cfg.active
    s.modModel c fun m => { m with
      tv := w.tv, tm := w.tm, re25 := w.re, bl0 := w.bl0, fs := w.fs, qms := w.qms, kms0 := kmsOf b c w.fs, rms := rmsOf b c w.fs w.qms
      identOk := w.flags / 4 % 2 == 1, seed := if m.runs ∧ m.seed = 0 then 1 else m.seed
      reConv := w.flags % 2 == 1, reStale := w.flags / 2 % 2 == 1, hotSeed := w.flags / 16 % 2 == 1, clamped := w.flags / 128 % 2 == 1 }
  | none => s

/-- The modelled channels, ascending. -/
def modelledChans (b : Bank) : List Nat := (List.range 208).filter b.modelled

/-- Once every modelled channel's shadow has come, all are adopted at the next block boundary. -/
def adopt (s : State) : State :=
  let l := modelledChans s.cfg.active
  if s.twin.adoptDue && l.all fun c => s.twin.adoptGot.contains c then
    let s1 := forList l adoptOne { s with twin := { s.twin with adoptDue := false, adoptRaise := false, adoptGot := [] } }
    if s.twin.adoptRaise then s1.raise 0x400D 0 [] else s1
  else s

/-- The model flags of a channel's shadow and the shadow entry of 40 bytes (Table 14.3). -/
def shadowEntry (s : State) (c block : Nat) : List Byte :=
  let m := (s.chan c).model
  le 2 c ++ [0, 0] ++ ([m.tv, m.tm, m.re25, m.bl0, m.fs, m.qms].flatMap fun x => le 4 (f32Of x).toNat) ++ le 4 (modelFlags s c) ++ le 8 block

/-- The digest over the shadows of the modelled channels (R241). -/
def shadowDigest (s : State) (block : Nat) : Nat :=
  (crc32 ((modelledChans s.cfg.active).flatMap fun c => shadowEntry s c block)).toNat

/-- At every block that is a multiple of 12 each side of a pair that shares forms its digest for the next peer beacon (R241). -/
def formDigest (s : State) : State :=
  if s.twin.effShared && winK s % 12 == 0 then { s with twin := { s.twin with modelDigest := shadowDigest s (winK s) } } else s

/-- A MODEL frame: 8 entries (R240, R241, Table 14.3). -/
def takeModel (f : Fz) (s : State) : State :=
  forUnits 8 (fun i s =>
    let o := 40 * i
    let c := leAt f.body o 2
    if 208 ≤ c then s
    else
      let g := fun k => f32At f.body (o + 4 + 4 * k) 0
      let s1 := s.modShare c fun h => { h with
        shadow := some ⟨g 0, g 1, g 2, g 3, g 4, g 5, leAt f.body (o + 28) 4⟩, shadowAt := s.keeper.counterUs }
      { s1 with twin := { s1.twin with adoptGot := if s1.twin.adoptGot.contains c then s1.twin.adoptGot else c :: s1.twin.adoptGot } }) s

/-- An EPOCH frame (R367, R368). What the partner has abandoned, with no own proposal of that epoch open, is no longer held. -/
def takeEpoch (f : Fz) (s : State) : State :=
  let k := leAt f.body 8 8
  let p : Proposal := ⟨leAt f.body 0 4, leAt f.body 4 4, if k = 0xFFFFFFFFFFFFFFFF then none else some k, leAt f.body 16 1, leAt f.body 20 8⟩
  if p.state = 2 ∧ !(s.twin.own.any fun a => a.epoch == p.epoch && a.state != 2) then { s with twin := { s.twin with theirs := none } }
  else judgeProposals { s with twin := { s.twin with theirs := some p } }

/-- A TIME frame received at `t2` (R362, R378, R379). -/
def takeTime (f : Fz) (t2 : Nat) (s : State) : State :=
  let t3 := leAt f.body 0 8
  let t1e := leAt f.body 8 8
  let t2e := leAt f.body 16 8
  let s1 : State := { s with twin := { s.twin with t1Last := t3, t2Last := t2 } }
  if t1e = 0 ∨ !s.twin.link then s1
  else
    let o : Rat := (((t2e : Int) - t1e) - ((t2 : Int) - t3) : Int) / 2
    let good := decide (absRat o < 500) && s.twin.partnerGm == s.ptp.gm
    let s2 : State := { s1 with twin := { s1.twin with offset := o, goodSince := if good then some (s.twin.goodSince.getD s.media.samples) else none } }
    if 1000 < absRat o then pauseTime s2 else s2

/-- A BEACON frame: its daymark and status; 3 in a row with a good daymark let the link come up (R359). -/
def takeFzBeacon (f : Fz) (s : State) : State :=
  let ok := leAt f.body 60 4 == (crc32 (f.body.take 60)).toNat
  takeBeacon true f.body { s with twin := { s.twin with beaconsOk := if ok then s.twin.beaconsOk + 1 else 0 } }

/-- A frame discarded whole (R360); a beacon that does not arrive valid breaks the run of 3 (R359). -/
def badFrame (ty : Nat) (s : State) : State := frameError (if ty = 4 then { s with twin := { s.twin with beaconsOk := 0 } } else s)

/-- A frame that leaves the receive FIFO, by its type. -/
def fzPass (ty : Nat) (l : List Byte) (t2 : Nat) (s : State) : State :=
  match fzParse ty l with
  | none => badFrame ty s
  | some f =>
    match ty with
    | 1 => takeSample f s
    | 2 => takeBlock f s
    | 3 => takeModel f s
    | 4 => takeFzBeacon f s
    | 5 => takeEpoch f s
    | _ => takeTime f t2 s

/-- A held frame completes at the later instant `t2` (R410, Table 16.6). -/
def fzReleaseHeld (t2 : Nat) (s : State) : State :=
  match (s.inj 64).heldPkt with
  | some h => fzPass (leAt h.1 0 1) h.1 t2 (s.modInj 64 fun j => { j with heldPkt := none })
  | none => s

/-- A received frame passes the Fikezo injector (R410). -/
def fzReceive (ty : Nat) (l : List Byte) (t2 : Nat) (s : State) : State :=
  if (s.inj 64).heldPkt.isSome then fzReleaseHeld t2 (fzPass ty l t2 s)
  else
    let r := injSelect 64 s
    match r.1 with
    | 1 => r.2
    | 2 => badFrame ty r.2
    | 3 => r.2.modInj 64 fun j => { j with heldPkt := some (l, t2) }
    | _ => fzPass ty l t2 r.2

end Sys2Proof.Machine
end

