-- ==== Sys2Proof/Machine/Commit.lean ====
section
/-! DEFINITION. Commits: acceptance, arming, switching, crossfades, completion and the configuration store (R126 to R136, R142, R157, R180,
R190, R198, R203, R204, R209, R234, R279, R345, R366, R367, R408 to R411, R441, R443, R446). -/

namespace Sys2Proof.Machine

/-! ### Acceptance (R126, R129, R446) -/

/-- A valid pending bank becomes the commit target (R126); while paired it is a proposal of the epoch after the last that
both sides hold (R367), abandoned at once where the partner's of that epoch carries another digest (R368). -/
def acceptCommit (named : Option Nat) (xfade : Bool) (s : State) : State :=
  let old := s.cfg.active
  let new := s.cfg.pending
  let n := if xfade then nXf? old new else none
  let agree := twinned s && s.twin.paired
  let units := schedule agree (n.getD 0) old new
  let k0 := if agree then none else match named with
    | some k => some k
    | none => if units.isEmpty then some (winK s) else none
  let c : Commit := {
    ticket := s.cfg.ticket + 1, named := named.isSome, k0 := k0, units := units, nxf := n.getD 0
    xfadeFlag := decide (1 ≤ n.getD 0), noXfade := n == some 0, epoch := if agree then some (s.twin.common + 1) else none }
  let t : State := { s with
    cfg := { s.cfg with commit := some c, target := new, ticket := s.cfg.ticket + 1, xfadeMax := n.getD 0 }
    twin := if agree then { s.twin with own := some ⟨s.twin.common + 1, digest new, named, 0, 0⟩ } else s.twin }
  if agree then judgeProposals t else t

/-! ### Arming (R129, R367) -/

/-- The next unit is armed once what it restarts has stopped; before that its stop is asked for (R131). In mode 0, k0 is the first block
once its units are armed. A paired device arms every unit at once and says so; its units stop once the commit is agreed. -/
def execUnitArm (s : State) : Out State :=
  match s.cfg.commit with
  | none => .next s
  | some c =>
    if s.keeper.halted then .next s
    else if c.epoch.isSome then
      match s.twin.own with
      | some p =>
        if p.state = 0 then
          let s1 := modCommit (fun c => { c with units := c.units.map fun u => { u with armed := true } }) s
          let s2 : State := { s1 with twin := { s1.twin with own := some { p with state := 1, armedBlock := s.media.index / 8 } } }
          .next (judgeProposals s2)
        else .next s
      | none => .next s
    else match c.units.find? fun u => !u.armed with
      | none => .next s
      | some u =>
        if stoppedForUnit s u.unit then
          let units := c.units.map fun v => if v.unit = u.unit then { v with armed := true } else v
          let ready := c.k0.isNone && units.all fun v => v.armed || v.block != 0
          .next (holdForUnit u.unit (modCommit (fun c => { c with units := units, k0 := if ready then some (winK s) else c.k0 }) s))
        else .next (stopForUnit u.unit (modCommit (fun c => { c with
          units := c.units.map fun v => if v.unit = u.unit then { v with asked := true } else v }) s))

/-! ### What the switch of a unit does -/

/-- The old set of a crossfade (R132): its blocks on the same history. The old path keeps the `chan.fir_enable` of its set: no rule says
whether a scalar field of the new set acts on it (log entry 59). -/
def startXfade (old : Bank) (c : Nat) (d : Dsp) : Dsp :=
  let f := old.filters c
  { d with xf := some ⟨f.mix, f.inBq, f.fir, f.drvBq, f.firOn, d.path, 0⟩ }

/-- Ramps of R198, the delay of R204 and the mode of R203 at a channel's switch block. A disabled channel takes a new delay at once. -/
def switchDsp (old new : Bank) (c : Nat) (s : State) : State :=
  let ch := fun f => old.param (pid 0x10 c f) != new.param (pid 0x10 c f)
  let on := !old.flag 0x10 c 0 && new.flag 0x10 c 0
  let d := (s.chan c).dsp
  let d1 : Dsp :=
    if on then
      { d.afresh with
        polTo := none, gain := Ramp.flat (dbGain (new.rat 0x10 c 2)), pol := Ramp.flat (if new.flag 0x10 c 1 then -1 else 1)
        mute := Ramp.flat (if new.flag 0x10 c 3 then 0 else 1), testMute := Ramp.flat 1, fade := Ramp.flat 0
        e := Ramp.flat (if muteLine s then 0 else 1), steer := [(new.nat 0x10 c 4, 1)] }
    else
      let g := if ch 2 then { d with gain := d.gain.to (dbGain (new.rat 0x10 c 2)) 1024 } else d
      let p := if ch 1 then { g with pol := g.pol.to 0 512, polTo := some (if new.flag 0x10 c 1 then -1 else 1) } else g
      let m := if ch 3 then { p with mute := p.mute.to (if new.flag 0x10 c 3 then 0 else 1) 1024 } else p
      let v := if ch 4 then m.steerChange (new.nat 0x10 c 4) else m
      if new.flag 0x10 c 0 then v else { v with steer := [(new.nat 0x10 c 4, 1)], steerTo := none, steerI := 0, steerHeld := none }
  let mode := modeOf d1.ahead
  let s1 := s.modDsp c fun _ => d1
  if new.flag 0x10 c 0 && mode != 0 && (on || mode != modeOf d.ahead) then s1.raise 0x4003 c [word (lookOf d1.ahead), word mode] else s1

/-- The models at a channel's switch block (R217, R234, R235, R443). -/
def switchModel (old new : Bank) (c : Nat) (s : State) : State :=
  let on := !old.flag 0x10 c 0 && new.flag 0x10 c 0
  let runs := new.flag 0x10 c 0 && modelBlockOk new c
  let newBlock := old.block (pid 0x20 c 4) != new.block (pid 0x20 c 4)
  let forget := newBlock || (old.modelBit c 2 && !new.modelBit c 2)
  let s1 := if forget then s.modModel c fun m => { m with
      re25 := new.entry c 0, bl0 := new.entry c 2, fs := fsNom new c, qms := qmsNom new c, kms0 := new.entry c 4, rms := new.entry c 5
      identOk := false, idConv := false, idWin := [], clamped := false
      record := m.record.map fun r => { r with identOk := false, re25 := new.entry c 0, bl0 := new.entry c 2, fs := fsNom new c, qms := qmsNom new c } }
    else s
  if on then s1.modModel c (Model.nominal new c)
  else if runs && !(s.chan c).model.runs then seedModel c (s1.modModel c (Model.nominal new c))
  else if !runs then s1.modModel c fun m => { record := m.record, recordWas := m.recordWas }
  else s1

/-- The cycle fields of a channel that switches stay in force until the first cycle after the first sample of the switch block has reached
the modulator, which a sample does 3 periods before it plays (R116, Table 1.3). -/
def holdCycle (old new : Bank) (c : Nat) (s : State) : State :=
  if (s.chan c).fsm.bridge = .switching ∧ [0x11, 0x12, 0x13, 0x14].any fun f => old.param (pid 0x10 c f) != new.param (pid 0x10 c f) then
    s.modLoop c fun l => { l with
      cycOld := some (l.cycOld.getD ([0x11, 0x12, 0x13, 0x14].map fun f => old.param (pid 0x10 c f)))
      cycFrom := 8 * winK s - 3 }
  else s


/-- A channel unit takes its new set (R131, R209); a test that it restarts is over (R408); `chan.mute` that returns to 0 releases its mute source (R271, R272). -/
def switchChan (old new : Bank) (c : Nat) (x : Bool) (s : State) : State :=
  let s0 := if chanRestarts old new c then abortTests (fun t => t.onChan c || (t.id == 3 && t.inst == rcOf c)) 0xA013 s else s
  let s1 := holdCycle old new c (switchModel old new c (switchDsp old new c s0))
  let s2 := if x then s1.modDsp c (startXfade old c) else s1
  if old.flag 0x10 c 0 = new.flag 0x10 c 0 then (if old.flag 0x10 c 3 ∧ !new.flag 0x10 c 3 then unmute c s2 else s2)
  else
    let s3 := if !new.flag 0x10 c 0 ∧ (s2.chan c).fsm.state ≠ .off then toOff c s2 else s2
    if (s3.chan c).fsm.state = .off then s3.modFsm c fun f => { f with bridge := holdFor s3 c, code := 0 } else s3

/-- Injectors of a stream that is disabled or loses a side (R411). -/
def switchInjectors (new : Bank) (i : Nat) (s : State) : State :=
  forUnits 2 (fun p s => if new.streamOn i && new.streamSide i p then s else injClear 3 (2 * i + p) s) s

/-- A stream unit (R157): a disabled stream carries 0, an enabled one waits afresh. -/
def switchStream (new : Bank) (i : Nat) (s : State) : State :=
  let s1 := switchInjectors new i (s.modStream i fun _ => if new.streamOn i then Stream.fresh (arrivalNow s) (nowTick s) else {})
  forUnits 2 updateGroups s1

/-- A TDM port's unit (R190): the port fades from the switch block under its old set, and then waits for admission under the new one or is
disabled. -/
def switchTdm (old new : Bank) (x : Nat) (s : State) : State :=
  let s1 := tdmFade false x (winBase s) { s with cfg := { s.cfg with active := old } }
  ({ s1 with cfg := s.cfg } : State).modTdm x fun t =>
    let u : Tdm := { t with
      stable := 0, run := 0, broken := false, winLen := 0, alive := false, cause := 0, prev := [], judge := none
      fadeSet := if t.fadeFrom.isSome then tdmSet? old x t else none }
    if u.state = .faded then u else { u with state := if new.tdmOn x then .waiting else .disabled }

/-- The net unit (R138, R141, R142, R160). A port that is disabled loses its link; one that is enabled without a module raises 0x2008 (R168). -/
def switchNet (old : Bank) (s : State) : State :=
  let s1 := forUnits 2 (fun p s =>
    let t := s.modPort p fun q => { q with txdis := txdisOf s p q }
    updateGroups p (if t.cfg.active.portOn p then moduleCheck old p t else linkLost p t)) s
  ptpEnable s1

/-- Injection is unlocked (R409). -/
def unlocked (b : Bank) : Bool := b.nat 0x01 0 0xE == (Config.serial.setWidth 32 ^^^ 0x54524F48).toNat

/-- The dev unit: the pair groups, every injector where the unlock ends (R409), and the margins where re-planning is off (R401). -/
def switchDev (old new : Bank) (s : State) : State :=
  let s1 := forUnits 2 updateGroups s
  let s2 := if unlocked old && !unlocked new then forUnits 65 (injClear 2) s1 else s1
  if new.flag 0x01 0 0xD then s2 else returnAll s2

/-- The NTC of a disabled controller is not measured, and its measurement begins anew once it is enabled (R349). -/
def Rail.ntcFor (on : Bool) (q : Rail) : Rail :=
  if on then q else { q with ntcOn := false, onZone := false, ntcBad := 0, ntcMs := 0, ntcWas := 0, readings := [] }

/-- A controller's unit: while it regulates, new setpoints come with the next selection (R338); a restart makes it due again (R119, R345). -/
def switchRail (old new : Bank) (r : Nat) (s : State) : State :=
  let s1 := s.modRail r fun q => if q.state = .regulating then q else { q with table := (List.range 8).map (new.setpoint r) }
  if railRestarts old new r then
    s1.modRail r fun q =>
      let due := new.flag 0x07 r 0 && s.keeper.dev == .run
      if q.state.gatesOn then { q with restart := due } else { Rail.ntcFor (new.flag 0x07 r 0) (q.stopped .off) with code := 0, due := due, sync := if new.flag 0x07 r 0 then q.sync else 0 }
  else s1

/-- The twin unit: a new mode or partner ends the pair and the role (R357). -/
def switchTwin (old new : Bank) (s : State) : State :=
  let s1 := if twinRestarts old new then
      let t := noPartner s
      let t1 : State := { t with twin := { t.twin with role := .none, paused := false, own := none, theirs := none } }
      { t1 with chans := t1.chans.mapIdx fun c h =>
          if h.fsm.state = .off ∨ h.fsm.state = .fault then { h with fsm := { h.fsm with bridge := holdFor t1 c } } else h }
    else s
  forUnits 2 updateGroups s1

/-- One unit's effects, its new set being in force. -/
def switchEffects (old new : Bank) (u : CUnit) (x : Bool) (s : State) : State :=
  match u with
  | .chan c => switchChan old new c x s
  | .global 0x01 _ => switchDev old new s
  | .global 0x02 _ => switchNet old s
  | .global 0x03 i => switchStream new i s
  | .global 0x04 j => s.modMon j fun m => if !old.monOn j && new.monOn j then {} else { m with next := none }
  | .global 0x05 x => switchTdm old new x s
  | .global 0x06 _ => if old.nat 0x06 0 0 = new.nat 0x06 0 0 then s else sourceChange (new.nat 0x06 0 0) s
  | .global 0x07 r => switchRail old new r s
  | .global 0x08 _ => switchTwin old new s
  | .global _ _ => s

/-- Some unit that has not switched still changes the L-channels' frequency (R279). -/
def lPending (s : State) : Bool :=
  match s.cfg.commit with
  | none => false
  | some c => c.units.any fun u => !u.switched && match u.unit with
      | .chan d => isL d && s.cfg.active.param (pid 0x10 d 0x10) != s.cfg.target.param (pid 0x10 d 0x10)
      | _ => false

/-- A channel waits for no further unit of the commit. -/
def restartOver (s : State) (c : Nat) : Bool :=
  match s.cfg.commit with
  | none => true
  | some k => !(k.units.any fun u => !u.switched && restartsChan s.cfg.active s.cfg.target u.unit c) && !(isL c && lPending s)

/-- Channels whose last restart unit has switched may start again. -/
def releaseRestarts (s : State) : State :=
  forUnits 208 (fun c t => if (t.chan c).fsm.restart && restartOver s c then t.modFsm c fun f => { f with restart := false } else t) s

/-- The new PERIOD is armed once the last L-channel unit has switched (R279, R283). -/
def lPeriod (u : CUnit) (s : State) : State :=
  match u with
  | .chan c =>
    if isL c && !lPending s then armPeriod s else s
  | _ => s

/-- Unit `u` switches in block `b`. -/
def switchUnit (u : UnitPlan) (b : Nat) (s : State) : State :=
  let old := s.cfg.active
  let new := copyUnit s.cfg.target u.unit old
  let s1 : State := { s with cfg := { s.cfg with active := new } }
  let s2 := switchEffects old new u.unit u.xfade s1
  let s3 := modCommit (fun c => { c with
    units := c.units.map fun v => if v.unit = u.unit then { v with switched := true } else v
    first := match c.first with | some f => some f | none => some b
    last := max c.last (if u.xfade then b + 127 else b)
    xfading := match u.unit, u.xfade with | .chan c', true => c.xfading ++ [c'] | _, _ => c.xfading }) s2
  releaseRestarts (lPeriod u.unit s3)

/-- A window begins: a unit whose switch block has come switches if it is armed and what it restarts has stopped; otherwise it and all later
ones move, and the whole commit moves while a unit of its first block is not armed (R130, R131, R209). What has started since its unit was armed
is stopped. -/
def execUnitSwitch (s : State) : Out State :=
  match s.cfg.commit with
  | none => .next s
  | some c =>
    match c.units.find? (c.due (winK s)) with
    | none => .next s
    | some u =>
      let b := (c.blockOf u).getD 0
      if !s.media.locked || s.media.halted then .next s
      else if c.first.isNone && c.units.any (fun v => v.block == 0 && !v.armed) then
        .next (modCommit (fun c => { c with k0 := some (winK s + 1), late := true }) s)
      else if u.armed && stoppedForUnit s u.unit then .next (switchUnit u b s)
      else
        let s1 := modCommit (fun c => { c with shift := c.shift + ((winK s + 1 : Nat) : Int) - b, late := true }) s
        .next (if u.armed && !s.keeper.halted then stopForUnit u.unit s1 else s1)

/-! ### Crossfades and completion (R132 to R134, R446) -/

def execCrossfadeEnd (c : Nat) (s : State) : Out State :=
  match (s.chan c).dsp.xf with
  | some x =>
    if 1024 ≤ x.i then
      .next (modCommit (fun k => { k with xfading := k.xfading.erase c }) (s.modDsp c fun d => { d with xf := none }))
    else .next s
  | none => .next s

/-- Every unit has switched and every crossfade has ended, be it cut off by a media step; a commit without a unit is done when block k0
begins, at media index 8·k0 (R16, R134, R446). -/
def commitOver (s : State) (c : Commit) : Bool :=
  if c.units.isEmpty then (match c.k0 with | some k => s.media.locked && decide (8 * k ≤ s.media.index) | none => false)
  else c.units.all (·.switched) && c.xfading.all fun k => (s.chan k).dsp.xf.isNone

/-- A valid bank in flash already holds the configuration (R136). -/
def inFlash (st : Store) (b : Bank) : Bool := (st.cfgA.valid && st.cfgA.bank == b) || (st.cfgB.valid && st.cfgB.bank == b)

def execCommitDone (s : State) : Out State :=
  match s.cfg.commit with
  | none => .next s
  | some c =>
    if s.keeper.halted || !commitOver s c then .next s
    else
      let empty := c.units.isEmpty
      let k0 := c.first.getD (c.k0.getD 0)
      let flags := if empty then 0 else bit c.late 0 + bit c.xfadeFlag 1 + bit c.noXfade 2
      let new := s.cfg.target
      let s1 : State := { s with
        cfg := { s.cfg with
          active := new, whole := new, commit := none
          storePending := if new.flag 0x01 0 9 && !inFlash s.store new then some c.ticket else none }
        twin := { s.twin with
          epoch := match c.epoch with | some e => e | none => if twinned s then s.twin.epoch + 1 else s.twin.epoch
          common := c.epoch.getD s.twin.common
          own := none, theirs := none } }
      let s2 := commitRecord c.ticket k0 (if empty then 0 else c.last + 1 - k0) flags (releaseRestarts (s1.life (devStat 0x809) 1))
      .next (standbyGoes (judgeMode s2))

/-! ### The configuration store (R136) -/

/-- The bank to write: the one that does not hold the valid bank with the highest sequence number, A where neither is valid. -/
def storeBank (st : Store) : Nat := match bestCfg st with | some 0 => 1 | some _ => 0 | none => 0
/-- One above the highest valid sequence number. -/
def storeSeq (st : Store) : Word := match bestCfg st with | some i => (cfgBankOf st i).seq + 1 | none => 1

def setCfgBank (i : Nat) (b : CfgBank) (st : Store) : Store := if i = 0 then { st with cfgA := b } else { st with cfgB := b }

/-- The write ends; `verifyOk` false means that its read-back failed twice, and the bank has no commit byte. -/
def execCfgStore (verifyOk : Bool) (s : State) : Out State :=
  match s.cfg.storePending with
  | some t =>
    if keeperFree s && canLog s && flashOn s && s.keeper.dev != .standby && !s.store.lastPending then
      let i := storeBank s.store
      let q := storeSeq s.store
      let bank : CfgBank := ⟨if verifyOk then 0xA5 else 0xFF, q, word s.twin.epoch, s.cfg.whole⟩
      let s1 : State := { s with store := (setCfgBank i bank s.store).countErase (2 + i), cfg := { s.cfg with storePending := none } }
      .next (if verifyOk then s1.raise 0x9002 0 [word t, word i, q] else s1.raise 0x9003 0 [word t, word i])
    else .next s
  | none => .next s

end Sys2Proof.Machine
end

