-- ==== Sys2Proof/Machine/Operands.lean ====
section
/-! DEFINITION. The operand forms of request payloads (R106, Table 4.15). -/

namespace Sys2Proof.Machine

/-- The entries of a SET_PARAM payload: ID and value. -/
def paramEntries (p : List Byte) : List (Nat × Word) :=
  (List.range (leAt p 0 2)).map fun j => (leAt p (4 + 8 * j) 4, word (leAt p (8 + 8 * j) 4))

/-- The IDs of a GET_PARAM payload. -/
def idList (p : List Byte) : List Nat := (List.range (leAt p 2 2)).map fun j => leAt p (4 + 4 * j) 4

/-- The words of a POKE payload. -/
def wordList (p : List Byte) : List Word := (List.range (leAt p 4 1)).map fun j => word (leAt p (8 + 4 * j) 4)

/-- Words as bytes, least significant first (R6). -/
def wordBytes (l : List Word) : List Byte := l.flatMap fun w => le 4 w.toNat

/-- Bytes `o` to `o + data.length − 1` of a block replaced. -/
def overlay (b : List Byte) (o : Nat) (data : List Byte) : List Byte := b.take o ++ data ++ b.drop (o + data.length)

end Sys2Proof.Machine
end

