-- ==== Sys2Proof/Machine/Spi.lean ====
section
/-! DEFINITION. The SPI window, the doorbells, the image port and the UDP path to the mailboxes (R84 to R103, R438). -/

namespace Sys2Proof.Machine

/-- SPI_ERR counts `n` (R438, R11); where it increments, IRQ_STATUS SPI_ERR is set (Table 4.7). -/
def spiErr (n : Nat) (s : State) : State :=
  let e := satAdd 16 s.spi.errCount n
  if e = s.spi.errCount then s else ({ s with spi := { s.spi with errCount := e } } : State).irq irqSpiErr

def execSpiUnknownInstruction (_op : Byte) (s : State) : Out State :=
  if windowLive s then .next (spiErr 1 { s with spi := { s.spi with sdo := [0] } }) else .next s

/-- Before the window answers, writes are discarded without counting (R87). -/
def execSpiWriteUnmapped (_addr : Nat) (_b : Byte) (s : State) : Out State :=
  if windowLive s then .next (spiErr 1 s) else .next s

/-- DOORBELL: ascending mailbox number; in STANDBY a frame may wake the device (R80, R97). -/
def ringAll (v : Word) (s : State) : State :=
  let s1 := forUnits 4 (fun i s => if v.getLsbD i then ring i s else s) s
  if s.keeper.dev = .standby ∧ !s.keeper.halted ∧ s1.spi.posted.any (wakeFrame s1) then wakeEvent s1 else s1

def execDoorbell (v : Word) (s : State) : Out State :=
  if windowLive s then .next (ringAll v s) else .next s

/-- RSP_READY bits clear (Table 4.6). -/
def releaseRsp (v : Word) (s : State) : State :=
  { s with spi := { s.spi with rspReady := s.spi.rspReady &&& ~~~(BitVec.ofNat 4 (v.toNat / 256)) } }

def execRspReadyRelease (v : Word) (s : State) : Out State :=
  if windowLive s then .next (releaseRsp v s) else .next s

/-- The response held longest for RSPi goes out once RSPi is released (R98). -/
def execHeldResponseWrite (i : Nat) (s : State) : Out State :=
  match s.spi.held.find? (·.1 == i) with
  | some h =>
    if !s.keeper.halted && (s.spi.rspReady &&& bit4 i) == 0 then
      let s1 := deliverSpi i h.2 { s with spi := { s.spi with held := s.spi.held.erase h } }
      .next (if s.keeper.resetWait = some i then commandReset s1 else s1)
    else .next s
  | none => .next s

/-- W1C of IRQ_STATUS (R91). -/
def clearIrq (v : Word) (s : State) : State := { s with spi := { s.spi with irqStatus := s.spi.irqStatus &&& ~~~v } }

def execIrqStatusClear (v : Word) (s : State) : Out State :=
  if windowLive s then .next (clearIrq v s) else .next s

/-- Bit 0 of EMUTE (R89). -/
def setEmute (b : Bool) (s : State) : State := { s with spi := { s.spi with emute := b } }

def execEmuteRegisterWrite (v : Word) (s : State) : Out State :=
  if windowLive s then .next (setEmute (v.getLsbD 0) s) else .next s

/-- The stages in which the ROM takes an image (R92). -/
def imageStage (s : State) : Bool := s.keeper.stage == 2 || s.keeper.stage == 0xE

/-- The size of a firmware bank (Table 15.3). -/
def bankSize : Nat := 0x800000

def imageByte (b : Byte) (s : State) : State :=
  if imageStage s then
    { s with keeper := { s.keeper with
        imgState := 1, imgCount := s.keeper.imgCount + 1,
        img := if s.keeper.imgCount < bankSize then s.keeper.img ++ [b] else s.keeper.img } }
  else spiErr 1 s

def execImagePortWrite (b : Byte) (s : State) : Out State :=
  if windowLive s then .next (imageByte b s) else .next s

def clearImage (s : State) : State :=
  if imageStage s then { s with keeper := { s.keeper with img := [], imgCount := 0, imgState := 0 } } else s

def execImgClear (s : State) : Out State :=
  if windowLive s then .next (clearImage s) else .next s

/-- The header CRC decides; an image that was truncated fails (R92). -/
def goImage (s : State) : State :=
  if imageStage s then
    if s.keeper.imgCount ≤ bankSize ∧ fwHeadOk s.keeper.img then
      startImage s.keeper.img false true { s with keeper := { s.keeper with imgState := 3 } }
    else { s with keeper := { s.keeper with imgState := 2 } }
  else s

def execImgGo (s : State) : Out State :=
  if windowLive s then .next (goImage s) else .next s

/-- A register write of one transaction (R86): whole writes take effect, partial ones count; RO registers ignore a write. IMG_CTRL with
both bits set clears first and then checks an empty image: the order is the model's choice (notes/assumptions/59.md). -/
def execRegisterWrite (off n : Nat) (v : Word) (s : State) : Out State :=
  if !windowLive s ∨ n = 0 then .next s
  else if n < 4 then .next (spiErr 1 s)
  else match off with
    | 0x10 => .next (ringAll v s)
    | 0x14 => .next (releaseRsp v s)
    | 0x18 => .next (clearIrq v s)
    | 0x1C => .next { s with spi := { s.spi with irqMask := v &&& 0xFFF } }
    | 0x20 => .next (setEmute (v.getLsbD 0) s)
    | 0x2C =>
      let s1 := if v.getLsbD 1 then clearImage s else s
      .next (if v.getLsbD 0 then goImage s1 else s1)
    | _ => .next s

def execMailboxByteWrite (addr : Nat) (b : Byte) (s : State) : Out State :=
  if windowLive s && decide (0x400 ≤ addr) && decide (addr < 0x800) then
    .next { s with spi := { s.spi with mem := SMap.put 0 addr b s.spi.mem } }
  else .next s

/-- A read of `n` bytes from offset 0 of SPI_ERR; only a read of the whole 16-bit COUNT clears it (R10, Table 4.9). Before the window
answers the bytes are 0. -/
def execSpiErrRead (n : Nat) (s : State) : Out State :=
  if windowLive s then
    .next { s with spi := { s.spi with
      sdo := le n s.spi.errCount, errCount := if 2 ≤ n then 0 else s.spi.errCount } }
  else .next { s with spi := { s.spi with sdo := zeros n } }

/-- A host datagram reaches the Keeper (R101). -/
def execHostDatagram (addr port dst dport : Nat) (payload : List Byte) (s : State) : Out State :=
  .next (hostTake addr port dst dport payload s)

end Sys2Proof.Machine
end

