-- ==== Sys2Proof/Machine/Xbar.lean ====
section
/-! DEFINITION. The crossbar: targets, the flash window and the PWM registers (R280 to R284, R385 to R389, Tables 11.2, 11.3, 11.5, 15.2 to
15.4). -/

namespace Sys2Proof.Machine

/-! ### Targets (R385, R386) -/

/-- What a word address reaches. -/
inductive Target where
  | sram (a : Nat)
  | flash (off : Nat)
  | pwm (off : Nat)
  | plain (a : Nat)
deriving DecidableEq, Repr

/-- The targets whose registers the manual lays out nowhere. -/
def plainTargets : List (Nat × Nat) :=
  [(0x01000000, 0x10000), (0x20000000, 0x1000000), (0x21000000, 0x100000), (0x22000000, 0x30000), (0x23000000, 0x10000),
   (0x24000000, 0x10000), (0x26000000, 0x10000)]

/-- The target of a word; none for the default target. A die that is not released or not linked is detached. -/
def target? (s : State) (a : Nat) (write : Bool) : Option Target :=
  if a < 0xC00000 then some (.sram a)
  else if 0x10000000 ≤ a ∧ a < 0x10000000 + s.store.flashMb * 0x100000 then (if write then none else some (.flash (a - 0x10000000)))
  else if 0x25000000 ≤ a ∧ a < 0x25001000 then some (.pwm (a - 0x25000000))
  else if plainTargets.any fun t => decide (t.1 ≤ a) && decide (a < t.1 + t.2) then some (.plain a)
  else if 0x30000000 ≤ a ∧ a < 0x34000000 then
    (if (s.dsd ((a - 0x30000000) / 0x1000000)).released && (s.dsd ((a - 0x30000000) / 0x1000000)).linked then some (.plain a) else none)
  else none

/-! ### Flash contents (Tables 15.3 to 15.5) -/

/-- The body of a configuration bank: every parameter value, then every block, in ascending ID order. -/
def cfgBody (b : Bank) : List Byte := (allParams.flatMap fun id => le 4 (b.param id).toNat) ++ allBlocks.flatMap b.block

/-- A configuration bank's bytes: header and body. -/
def cfgBankBytes (k : CfgBank) : List Byte :=
  let body := cfgBody k.bank
  let mid := le 4 k.seq.toNat ++ le 4 body.length ++ le 4 (crc32 body).toNat ++ le 4 k.epoch.toNat ++ le 2 0 ++ le 2 0x0208 ++ le 4 2 ++ zeros 32
  [k.commit, 0, 0, 0] ++ mid ++ le 4 (crc32 mid).toNat ++ body

/-- A byte of a bank that was written, 0xFF beyond; an erased bank reads 0xFF. -/
def erased (l : List Byte) (o : Nat) : Byte := l.getD o 0xFF

/-- A firmware bank: its commit byte, then the bytes of the image. -/
def fwByte (k : FwBank) (o : Nat) : Byte := if o = 0 then k.commit else erased k.bytes o

/-- A byte of a configuration bank that was never written reads 0xFF. -/
def cfgByte (k : CfgBank) (o : Nat) : Byte := if k.commit = 0xFF ∧ k.seq = 0 then 0xFF else erased (cfgBankBytes k) o

/-- A byte of a record region; what a torn or corrupt slot holds is open, but for the COMMIT of a torn one, which is 0xFF (R395), and the
bytes before it, which no program step of R394 reaches. -/
def regionByte (r : Region) (o : Nat) : Option Byte :=
  match r.slots.find? (·.1 == o / 64) with
  | none => some 0xFF
  | some (_, .valid v) => some ((recordBytes v).getD (o % 64) 0xFF)
  | some (_, .torn) => if 60 ≤ o % 64 then some 0xFF else none
  | some (_, .corrupt) => none

/-- A byte of the flash; none where the manual does not say what stands there (the factory record, damaged slots). -/
def flashByte (st : Store) (o : Nat) : Option Byte :=
  if o < 0x800000 then some (fwByte st.fwA o)
  else if o < 0x1000000 then some (fwByte st.fwB (o - 0x800000))
  else if o < 0x1200000 then some (cfgByte st.cfgA (o - 0x1000000))
  else if o < 0x1400000 then some (cfgByte st.cfgB (o - 0x1200000))
  else if o < 0x1410000 then none
  else if o < 0x1500000 then some 0xFF
  else if o < 0x2000000 then regionByte st.lifeRegion (o - 0x1500000)
  else regionByte st.log (o - 0x2000000)

/-- A word of the flash window; an open byte is a free value. -/
def flashWord (o : Nat) (s : State) : Word × State :=
  let p := (List.range 4).foldl (fun (a : List Byte × State) i =>
    match flashByte s.store (o + i) with
    | some b => (a.1 ++ [b], a.2)
    | none => let d := a.2.draw; (a.1 ++ [BitVec.ofNat 8 d.1], d.2)) ([], s)
  (word (ofLe p.1), p.2)

/-! ### The PWM block -/

/-- CH_STATUS of Lk (Table 11.3). -/
def chStatus (s : State) (k : Nat) : Word :=
  let c := 192 + k
  word (bit (s.enabled c && !(latchesOn s.pwm c).isEmpty) 31 + bit (s.chan c).loop.reverse 30 + lMode s k * 2 ^ 28 + bit (fed s k) 27 + (s.pwmCh k).ptr % 8 * 2 ^ 24)

/-- The word of a channel's register offset in the shadow list, in the order of Table 11.2. -/
def pwmIndex (o : Nat) : Option Nat :=
  if o < 0x1C then some (o / 4) else if 0x20 ≤ o ∧ o < 0x40 then some (wMask0 + (o - 0x20) / 4) else none

/-- The channel and offset within it of a block offset. -/
def pwmChan (off : Nat) : Option (Nat × Nat) := if 0x100 ≤ off ∧ off < 0x500 then some ((off - 0x100) / 0x40, (off - 0x100) % 0x40) else none

/-- A trip register reads as it was last written (R7), also before that value is in force (R297). -/
def tripShown (s : State) (off : Nat) (v : Word) : Word := ((s.pwm.written.filter (·.1 == off)).getLast?.map (·.2)).getD v

/-- A read of a PWM register. COUNT between two events of its tick is open below PERIOD. -/
def pwmRead (off : Nat) (s : State) : Word × State :=
  match pwmChan off with
  | some (k, o) =>
    if o = 0x1C then (chStatus s k, s)
    else match pwmIndex o with
      | some i => ((s.pwmCh k).sh.getD i 0, s)
      | none => (0, s)
  | none =>
    match off with
    | 0x000 => (s.pwm.periodSh, s)
    | 0x004 => (word s.pwm.period, s)
    | 0x008 => if s.media.locked then let d := s.draw; (word (d.1 % s.pwm.period), d.2) else (0, s)
    | 0x010 => (word (s.pwm.armed.toNat + bit s.pwm.periodPend 16), s)
    | 0x800 => (tripShown s off s.pwm.filt, s)
    | 0x804 => (tripShown s off s.pwm.level, s)
    | 0x808 => (tripShown s off s.pwm.map01, s)
    | 0x80C => (tripShown s off s.pwm.map23, s)
    | 0x810 => (word (s.pwm.asserted.toNat * 16 + s.pwm.latch.toNat), s)
    | _ => (0, s)

/-- A write of a PWM register: reserved bits stay 0; a trip register takes its value at the next boundary tick (R297). -/
def pwmWrite (off : Nat) (v : Word) (s : State) : State :=
  match pwmChan off with
  | some (k, o) =>
    if o = 0x1C then s
    else match pwmIndex o with
      | some i => s.modPwmCh k fun g => { g with
          sh := g.sh.set i (v &&& wMaskOf i), step := g.step || (i == wMaskCtrl && v.getLsbD 13) }
      | none => s
  | none =>
    let trip := fun (m : Word) => { s with pwm := { s.pwm with written := s.pwm.written ++ [(off, v &&& m)] } }
    match off with
    | 0x000 => { s with pwm := { s.pwm with periodSh := v &&& 0xFFFF } }
    | 0x00C => loadAll v s
    | 0x800 => trip 0xFFFFFFFF
    | 0x804 => trip 0xFFFF
    | 0x808 => trip 0x0FFF0FFF
    | 0x80C => trip 0x0FFF0FFF
    | _ => s

/-! ### Words -/

/-- The retention region: the last 512 KB of Keeper SRAM (R383). -/
def retentionBase : Nat := 0xB80000

/-- A word of a target whose registers the manual lays out nowhere (R385): 0 where `Config.regKind` puts no register, what was last written
where it puts a plain one, else a free value. -/
def plainRead (a : Nat) (s : State) : Word × State :=
  if Config.regKind a = 0 then (0, s)
  else match (if Config.regKind a = 1 then s.regs.find? (·.1 == a) else none) with
    | some e => (e.2, s)
    | none => let d := s.draw; (word d.1, d.2)

/-- A write there is held by a plain register; nothing else of the state is known to follow it. -/
def plainWrite (a : Nat) (v : Word) (s : State) : State :=
  if Config.regKind a = 1 then { s with regs := (a, v) :: s.regs.filter (·.1 != a) } else s

/-- PEEK of one word (R109, R385); none where the default target answers. The retention region holds the log buffer and the boot attempts in
a form that no rule states: a word of it reads a free value (R383, notes/assumptions/74.md); a receive descriptor reads as R165 gives. -/
def xbarRead (a : Nat) (s : State) : Option (Word × State) :=
  match target? s a false with
  | none => none
  | some (.sram a) =>
    if a < retentionBase then some ((descShown s a).getD (word (ofLe (getBytes a 4 s.sram))), s) else let d := s.draw; some (word d.1, d.2)
  | some (.flash o) => some (flashWord o s)
  | some (.pwm o) => some (pwmRead o s)
  | some (.plain a) => some (plainRead a s)

/-- POKE of one word (R109, R385, R387). -/
def xbarWrite (a : Nat) (v : Word) (s : State) : Option State :=
  match target? s a true with
  | none => none
  | some (.sram a) => some (descWrite a v { s with sram := putBytes a (le 4 v.toNat) s.sram })
  | some (.flash _) => none
  | some (.pwm o) => some (pwmWrite o v s)
  | some (.plain a) => some (plainWrite a v s)

end Sys2Proof.Machine
end

