-- ==== Sys2Proof/Machine/Mailbox.lean ====
section
/-! DEFINITION. Mailbox commands but for tests, injection and updates (R78, R79, R89, R93 to R112, R122 to R126, R385, R439, R440, R445). -/

namespace Sys2Proof.Machine

/-! ### State of the device (R78, R79, R106, R111) -/

/-- NOP (Table 4.15). -/
def execNop (i : Nat) (s : State) : Out State :=
  serve i 0x01 (fun r t => reply i r stOk (le 4 t.keeper.heartbeat.toNat ++ [BitVec.ofNat 8 t.keeper.dev.code, 0, 0, 0]) t) s

/-- The payload of GET_INFO (Table 4.15). -/
def infoBytes (s : State) : List Byte :=
  le 8 Config.serial.toNat ++ le 4 s.keeper.fwVersion.toNat ++ le 4 s.keeper.fwSeq.toNat ++ le 4 (cfgSeqNumber s).toNat ++
    le 4 (s.nat 0x01 0 8) ++ le 4 (bootStatus s.keeper).toNat ++ le 2 (activeFaults s) ++ [0, 0]

def execGetInfo (i : Nat) (s : State) : Out State := serve i 0x02 (fun r t => reply i r stOk (infoBytes t) t) s

def execRun (i : Nat) (s : State) : Out State := serve i 0x10 (fun r t => reply i r stOk [] (t.setDev .run 1)) s

def execStop (i : Nat) (s : State) : Out State := serve i 0x11 (fun r t => reply i r stOk [] (stopDevice t)) s

def execStandby (i : Nat) (s : State) : Out State := serve i 0x12 (fun r t => askStandby (reply i r stOk [] t)) s

def execReset (i : Nat) (s : State) : Out State := serve i 0x13 (fun r t => resetAfter i (reply i r stOk [] t)) s

/-! ### CLEAR_FAULT (R111, R272, R296, R325, R343, R439) -/

/-- Every channel of FAULT_N input i's map lies in the scope. -/
def scopeCovers (s : State) (scope i : Nat) : Bool := scope == 0xFFFF || tripMap s.pwm i == 0

/-- Channels at rest take the hold that is left without the latches that cleared (R296). -/
def freshHolds (s : State) : State :=
  forUnits 208 (fun c t =>
    if (t.chan c).fsm.stop = .none ∧ ((t.chan c).fsm.state = .off ∨ (t.chan c).fsm.state = .fault) then
      t.modFsm c fun f => { f with bridge := holdFor s c }
    else t) s

/-- The FAULT_N latches of the scope whose LEVEL bit is 0 clear (R296). -/
def clearLatches (scope : Nat) (s : State) : State :=
  let s1 := forUnits 4 (fun i s =>
    if s.pwm.latch.getLsbD i && !s.pwm.asserted.getLsbD i && scopeCovers s scope i then
      { s with pwm := { s.pwm with latch := s.pwm.latch &&& ~~~bit4 i, latchSet := s.pwm.latchSet.filter (·.1 != i) } }
    else s) s
  if s1.pwm.latch = s.pwm.latch then s else freshHolds s1

/-- A controller in FAULT starts a new attempt (R343); RC_OVERTEMP stays until T_rc is below 100 °C (R349). -/
def clearRail (r : Nat) (s : State) : State :=
  let q := s.rail r
  if q.state = .fault ∧ ¬(q.code = 0x700C ∧ 100 ≤ rcTemp s r q) then
    s.modRail r fun q => { q with state := .off, code := 0, due := s.flag 0x07 r 0 && s.keeper.dev == .run }
  else s

/-- No cause of SAFE remains (Table 3.7, R437). -/
def safeOver (s : State) : Bool := !s.power.warn && !s.power.ov && !s.misc.junctionHot && !s.store.lastPending

/-- SAFE to READY (Table 3.7): every channel is held and the emergency multiplier is released. -/
def leaveSafe (s : State) : State :=
  let s1 := releaseFall ((railsOff (allOff s)).setDev .ready 7)
  { s1 with keeper := { s1.keeper with safeCauses := [] }, power := { s1.power with falling := false, dipped := false } }

/-- CLEAR_FAULT on its scope: a channel, or every channel and the device. -/
def clearFaults (scope : Nat) (s : State) : State :=
  let s1 := clearLatches scope s
  if scope = 0xFFFF then
    let s2 := forUnits 208 clearChannel (forUnits 12 clearRail s1)
    if s2.keeper.dev = .safe ∧ safeOver s2 then leaveSafe s2 else s2
  else clearChannel scope s1

/-- The active faults of a scope (R439). -/
def faultsLeft (scope : Nat) (s : State) : Nat :=
  if scope = 0xFFFF then activeFaults s else bit ((s.chan scope).fsm.code != 0) 0

def execClearFault (i : Nat) (s : State) : Out State :=
  serve i 0x14 (fun r t =>
    let scope := leAt r.payload 0 2
    if 207 < scope ∧ scope ≠ 0xFFFF then reply i r errArg [] t
    else
      let u := clearFaults scope t
      reply i r stOk (le 2 (faultsLeft scope u) ++ [0, 0]) u) s

def execEmute (i : Nat) (s : State) : Out State :=
  serve i 0x15 (fun r t =>
    let v := leAt r.payload 0 1
    if 1 < v then reply i r errArg [] t else reply i r stOk [] (setEmute (v == 1) t)) s

/-! ### Parameters and blocks (R107, R113 to R115, R122 to R124) -/

/-- The status of a SET_PARAM entry (R107, R114, R115). -/
def entryStatus (id : Nat) (w : Word) : Nat :=
  match cfgField id with
  | some f => if f.kind.admits w then stOk else errRange
  | none => if isStat id then errReadonly else errParamId

/-- Entries into the pending bank up to the first that fails (R107): the status, the count written and the bank. -/
def setEntries : List (Nat × Word) → Nat → Bank → Nat × Nat × Bank
  | [], n, b => (stOk, n, b)
  | (id, w) :: l, n, b =>
    if entryStatus id w = stOk then setEntries l (n + 1) (b.setParam id w) else (entryStatus id w, n, b)

def execSetParam (i : Nat) (s : State) : Out State :=
  serve i 0x20 (fun r t =>
    let n := leAt r.payload 0 2
    if n = 0 ∨ 29 < n then reply i r errArg [] t
    else
      let q := setEntries (paramEntries r.payload) 0 t.cfg.pending
      reply i r q.1 (le 2 q.2.1 ++ [0, 0]) { t with cfg := { t.cfg with pending := q.2.2 } }) s

/-- The fields of Tables 15.6 and 15.7. -/
def lifeField (id : Nat) : Bool :=
  let f := idField id
  match idClass id with
  | 0x80 => (decide (0x800 ≤ f) && decide (f < 0x80C)) || (decide (0x900 ≤ f) && decide (f < 0x9C0))
  | 0x81 => (decide (0x180 ≤ f) && decide (f < 0x18C)) || (decide (0x200 ≤ f) && decide (f < 0x280))
  | 0x82 => (decide (0x040 ≤ f) && decide (f < 0x047)) || (decide (0x060 ≤ f) && decide (f < 0x0A0))
  | _ => false

/-- The held peak that an ID names (Table 13.6, R353). -/
def peakField (id : Nat) : Option Nat :=
  if idClass id = 0x82 ∧ 0x10 ≤ idField id ∧ idField id < 0x15 then some (idField id - 0x10) else none

/-- A held peak is read and starts again from the next 1 ms average; with none since the last read the value is open (R353). -/
def readPeak (r k : Nat) (s : State) : Word × State :=
  match (s.rail r).peaks.getD k none with
  | some v => (f32Of v, s.modRail r fun q => { q with peaks := q.peaks.set k none })
  | none => let d := s.draw; (word d.1, d.2)

/-- A status field as GET_PARAM reads it (R9 to R11, R115, R398): a lifetime value stays, a counter clears, any other value is the one last
refreshed. -/
def readStat (id : Nat) (s : State) : Word × State :=
  match peakField id with
  | some k => readPeak (idInst id) k s
  | none =>
    if lifeField id then (SMap.get 0 id s.store.life, s)
    else
      let c := SMap.get 0 id s.counters
      (if c = 0 then SMap.get 0 id s.status else c, { s with counters := SMap.put 0 id 0 s.counters })

/-- One parameter of GET_PARAM, none for an unknown ID. -/
def readParam (pendingBank : Bool) (id : Nat) (s : State) : Option (Word × State) :=
  match cfgField id with
  | some _ => some ((if pendingBank then s.cfg.pending else s.cfg.active).param id, s)
  | none => if isStat id then some (readStat id s) else none

/-- Values up to the first unknown ID (R107): the status, the values and the state. -/
def readParams (pendingBank : Bool) : List Nat → List Word → State → Nat × List Word × State
  | [], vs, s => (stOk, vs, s)
  | id :: l, vs, s =>
    match readParam pendingBank id s with
    | some p => readParams pendingBank l (vs ++ [p.1]) p.2
    | none => (errParamId, vs, s)

def execGetParam (i : Nat) (s : State) : Out State :=
  serve i 0x21 (fun r t =>
    let n := leAt r.payload 2 2
    let bank := leAt r.payload 0 1
    if 1 < bank ∨ n = 0 ∨ 59 < n then reply i r errArg [] t
    else
      let q := readParams (bank == 1) (idList r.payload) [] t
      reply i r q.1 (le 2 q.2.1.length ++ [0, 0] ++ wordBytes q.2.1) q.2.2) s

def execWriteBlock (i : Nat) (s : State) : Out State :=
  serve i 0x22 (fun r t =>
    let id := leAt r.payload 0 4
    let o := leAt r.payload 4 4
    let data := r.payload.drop 8
    match blockSize id with
    | none => reply i r (if (cfgField id).isSome || isStat id then errReadonly else errParamId) [] t
    | some n =>
      if o % 4 ≠ 0 ∨ data.length % 4 ≠ 0 then reply i r errAlign [] t
      else if n < o + data.length then reply i r errArg [] t
      else reply i r stOk [] { t with cfg := { t.cfg with pending := t.cfg.pending.setBlock id (overlay (t.cfg.pending.block id) o data) } }) s

def execReadBlock (i : Nat) (s : State) : Out State :=
  serve i 0x23 (fun r t =>
    let bank := leAt r.payload 0 1
    let id := leAt r.payload 4 4
    let o := leAt r.payload 8 4
    let n := leAt r.payload 12 2
    if 1 < bank then reply i r errArg [] t
    else match blockSize id with
    | none => reply i r errParamId [] t
    | some size =>
      if o % 4 ≠ 0 ∨ n % 4 ≠ 0 then reply i r errAlign [] t
      else if n < 4 ∨ 232 < n ∨ size < o + n then reply i r errArg [] t
      else
        let b := if bank = 1 then t.cfg.pending else t.cfg.active
        reply i r stOk (le 4 id ++ le 4 o ++ sub (b.block id) o n) t) s

/-! ### COMMIT and DISCARD (R108, R124, R126, R129, R213) -/

/-- The least and the greatest distance of a named block from the block in progress (R129). -/
def namedMin : Nat := 12
def namedMax : Nat := 11520000

/-- A named block is far enough ahead of the block in progress, and not too far; none is while the media clock has no index. -/
def namedOk (s : State) (k : Nat) : Bool :=
  s.media.locked && decide (s.media.index / 8 + namedMin ≤ k) && decide (k ≤ s.media.index / 8 + namedMax)

/-- A load beyond the capacity is reported (R213). -/
def reportLoad (s : State) : State :=
  let load := transitionLoad s.cfg.active s.cfg.pending
  if dspCapacity < load then s.raise 0x4001 0 [word load, word dspCapacity] else s

def execCommit (i : Nat) (s : State) : Out State :=
  serve i 0x24 (fun r t =>
    let mode := leAt r.payload 0 1
    let k := leAt r.payload 4 8
    if t.cfg.commit.isSome then reply i r errBusy [] t
    else if 1 < mode ∨ (mode = 1 ∧ !namedOk t k) then reply i r errArg [] t
    else match commitRefusal t.keeper.strapTwin t.cfg.active t.cfg.pending with
      | some id => reply i r errRefused (zeros 4 ++ le 4 id) (reportLoad t)
      | none =>
        let u := acceptCommit (if mode = 1 then some k else none) (leAt r.payload 1 1 % 2 == 1) t
        reply i r stAccepted (le 4 u.cfg.ticket) u) s

def execDiscard (i : Nat) (s : State) : Out State :=
  serve i 0x25 (fun r t => reply i r stOk []
    { t with cfg := { t.cfg with pending := if t.cfg.commit.isSome then t.cfg.target else t.cfg.active } }) s

/-! ### GET_EVENTS, PEEK and POKE (R109, R110, R385, R386) -/

/-- The flags of GET_EVENTS, the records and the state: with no record the number of the first is open (R110). -/
def eventsFrom (first n : Nat) (s : State) : Nat × List Record × Nat × State :=
  let later := s.log.queue.filter fun r => decide (first ≤ r.seq)
  let out := later.take n
  let lost := decide (first < s.log.nextSeq) && !(s.log.queue.any fun r => r.seq == first)
  let head := match out.head? with
    | some r => (r.seq, s)
    | none => s.draw
  (bit lost 0 + bit (decide (n < later.length)) 1, out, head.1, head.2)

def execGetEvents (i : Nat) (s : State) : Out State :=
  serve i 0x30 (fun r t =>
    let n := leAt r.payload 4 1
    if n = 0 ∨ 3 < n then reply i r errArg [] t
    else
      let e := eventsFrom (leAt r.payload 0 4) n t
      reply i r stOk ([BitVec.ofNat 8 e.2.1.length, BitVec.ofNat 8 e.1, 0, 0] ++ le 4 e.2.2.1 ++ e.2.1.flatMap recordBytes) e.2.2.2) s

/-- Words from an address on, up to the first that lies in no target. -/
def peekWords : Nat → Nat → List Word → State → Bool × List Word × State
  | 0, _, vs, s => (true, vs, s)
  | n + 1, a, vs, s =>
    match xbarRead (a % 0x100000000) s with
    | some p => peekWords n (a + 4) (vs ++ [p.1]) p.2
    | none => (false, vs, s)

/-- The same for writes, with the count written. -/
def pokeWords : List Word → Nat → Nat → State → Bool × Nat × State
  | [], _, n, s => (true, n, s)
  | v :: l, a, n, s =>
    match xbarWrite (a % 0x100000000) v s with
    | some t => pokeWords l (a + 4) (n + 1) t
    | none => (false, n, s)

/-- The default target answered: `xbar_errors` counts (R386). -/
def xbarError (ok : Bool) (s : State) : State := if ok then s else s.count (devStat 0x705) 1

def execPeek (i : Nat) (s : State) : Out State :=
  serve i 0x40 (fun r t =>
    let a := leAt r.payload 0 4
    let n := leAt r.payload 4 1
    if n = 0 ∨ 58 < n then reply i r errArg [] t
    else if a % 4 ≠ 0 then reply i r errAlign [] t
    else
      let q := peekWords n a [] t
      reply i r (if q.1 then stOk else errDecode) (le 4 a ++ [BitVec.ofNat 8 q.2.1.length, 0, 0, 0] ++ wordBytes q.2.1) (xbarError q.1 q.2.2)) s

def execPoke (i : Nat) (s : State) : Out State :=
  serve i 0x41 (fun r t =>
    let a := leAt r.payload 0 4
    let n := leAt r.payload 4 1
    if n = 0 ∨ 58 < n then reply i r errArg [] t
    else if a % 4 ≠ 0 then reply i r errAlign [] t
    else
      let q := pokeWords (wordList r.payload) a 0 t
      reply i r (if q.1 then stOk else errDecode) [BitVec.ofNat 8 q.2.1, 0, 0, 0] (xbarError q.1 q.2.2)) s

end Sys2Proof.Machine
end

