-- ==== Sys2Proof/Machine/Window.lean ====
section
/-! DEFINITION. The DSP window as a whole: streams, ports, channels, trackers and stages of one block (R24, R32, R35, R208, R211, R241). -/

namespace Sys2Proof.Machine

/-- The energy of a valid sense pair into its load, in kJ over the channel's life (Table 15.6). -/
def addEnergy (s : State) (p : SensePair) : State :=
  if !p.valid then s else
    let j := (s.chan p.ch).fsm.energyJ + senseV p.v * senseI p.ch p.i / 96000
    let kj := (j / 1000).floor.toNat
    let s1 := s.modFsm p.ch fun f => { f with energyJ := j - 1000 * kj }
    if kj = 0 then s1 else s1.life (chanStat p.ch 0x182) kj

/-- A block of 8 samples in whole ns: three of them are 250 µs. -/
def blockNs (s : State) : Nat := if s.media.samples / 8 % 3 = 2 then 83334 else 83333

/-- The sample clock goes on by a block, also while a media step holds the windows (R35, R180), and with it what is timed by it: when a bridge
last switched (R310), how long every channel has been released (R369), and PTP time, which no halt of the Keeper stops (R160). The references of the
rails move (R338, R342). `dev.bus_warn_v` acts from a block boundary (R34, R59). -/
def blockPasses (s : State) : State :=
  { s with
    media := { s.media with samples := s.media.samples + 8 }
    ptp := if s.ptp.state = .disabled then s.ptp else { s.ptp with timeNs := s.ptp.timeNs + blockNs s }
    chans := s.chans.map fun h => if h.fsm.bridge = .switching then { h with fsm := { h.fsm with swAt := s.media.samples + 8 } } else h
    rails := s.rails.mapIdx fun r q => moveRef s r q
    twin := { s.twin with quiet := if released s then s.twin.quiet + 8 else 0 }
    power := if s.keeper.cfgLoaded then { s.power with warnV := s.ratv 0x01 0 1, warnSet := true } else s.power }

/-- The own pair of sample m enters the means over the join mark (R375). -/
def Share.ownPair (c m : Nat) (v i : Int) (h : Share) : Share :=
  if h.inMark m then { h with vOwnSum := h.vOwnSum + senseV v, iOwnSum := h.iOwnSum + senseI c i, nOwn := h.nOwn + 1 } else h

/-- A sense pair enters its channel's history (R211). -/
def keepSense (s : State) (p : SensePair) : State :=
  s.modChan p.ch fun h => { h with
    sense := ((p.n, if p.valid then (p.v, p.i) else (0, 0)) :: h.sense).take 128
    share := if p.valid then h.share.ownPair p.ch p.n p.v p.i else h.share }

/-- A pair waits while the DSP takes none: 32 to a channel, beyond which it is discarded and counted (R32). -/
def queueSense (p : SensePair) (s : State) : State :=
  let m := s.misc
  { s with misc :=
      if 32 ≤ (m.senseFifo.filter fun q => q.ch == p.ch).length then { m with senseDrops := m.senseDrops + 1 }
      else { m with senseFifo := m.senseFifo ++ [p] } }

/-- The partner's mute line on a channel that both sides drive (Table 14.9): the multiplier falls in the first window after its assertion, and rises
in the first after its release or after one side has stopped, unless the own line, a brown-out or SAFE holds it. -/
def partnerMute (c : Nat) (s : State) : State :=
  let e := (s.chan c).dsp.e
  if !s.enabled c || muteLine s then s
  else if s.twin.muted && bothDrive s c then (if e.goal = 0 then s else s.modDsp c fun d => { d with e := d.e.to 0 1024 })
  else if e.goal = 0 ∧ (s.misc.muteState = 0 ∨ s.misc.muteState = 3) ∧ !s.power.falling ∧ s.keeper.dev ≠ .safe then
    unmute c (s.modDsp c fun d => { d with e := d.e.to 1 1024 })
  else s

/-- DSP window k and what the MOD, the tracker and the models take from it at its end. -/
def execDspWindow (pairs : List SensePair) (s0 : State) : Out State :=
  let s := if s0.media.locked then blockPasses s0 else s0
  let new := pairs.map (marked s0)
  if s.media.locked && !s.media.halted then
    let sense := s.misc.senseFifo ++ new
    let s0 := if s.cfgShared then forUnits 208 partnerMute s else s
    let s1 := adopt (forUnits 4 tdmBlock (forUnits 32 streamBlock s0))
    let s2 := forUnits 208 (chanWindow sense) (sense.foldl (fun s p => addEnergy (keepSense s p) p) s1)
    let s3 := formDigest (forUnits 4 stageBlock (forUnits 12 trackRail s2))
    .next (sourceCheck { s3 with
      media := { s3.media with index := s3.media.index + 8 }
      misc := { s3.misc with senseFifo := [], muteState := if s3.misc.muteState = 3 ∧ riseDone s3 then 0 else s3.misc.muteState } })
  else .next (new.foldl (fun s p => queueSense p s) s)

end Sys2Proof.Machine
end

