-- ==== Sys2Proof/Machine/Models.lean ====
section
/-! DEFINITION. The loudspeaker measurements: pilot windows, convergence, identification, stale resistance and re-seeding (R228 to R237,
R226, R318, R319). -/

namespace Sys2Proof.Machine

/-- Re_w of a window (R228). -/
def pilotRe (s : State) (c : Nat) (p : PilotReading) : Rat :=
  (p.vRe * p.iRe + p.vIm * p.iIm) / (p.iRe * p.iRe + p.iIm * p.iIm) - s.entry c 20

/-- The squared amplitude of a phasor sum over 96,000 samples. -/
def amp2 (re im : Rat) : Rat := 4 * (re * re + im * im) / (96000 * 96000)

/-- T of R230 for a resistance. -/
def tempOf (s : State) (c : Nat) (re : Rat) : Rat := 25 + (re / (s.chan c).model.re25 - 1) / s.entry c 14

/-- The conditions of R228 other than the last. -/
def windowOk (s : State) (c : Nat) (p : PilotReading) : Bool :=
  let w := (s.chan c).win
  w.pilot && !(s.chan c).fsm.voltageOnly && w.valid && decide (1/1000000 ≤ amp2 p.iRe p.iIm) && decide (p.subBandDbfm ≤ -66) && w.partner

def tempOk (s : State) (c : Nat) (t : Rat) : Bool := decide (-40 ≤ t) && decide (t ≤ s.ratv 0x10 c 0xA + 60)

/-- Every value of a list lies within a fraction of the mean. -/
def within (f : Rat) (l : List Rat) : Bool := l.all fun x => decide (absRat (x - mean l) ≤ f * absRat (mean l))

/-- The cold re-reference at the first convergence after a seed (R231): none with a window of 0. -/
def coldReference (c : Nat) (re : Rat) (s : State) : State :=
  let m := (s.chan c).model
  if !m.coldDue then s
  else if s.entry c 21 = 0 then s.modModel c fun m => { m with coldDue := false }
  else
    let nom := s.entry c 0
    let w := nom * s.entry c 21 / 100
    let v := re / (1 + s.entry c 14 * (m.seedTv - 25))
    let h := clampRat (nom - w) (nom + w) v
    let s1 := s.modModel c fun m => { m with re25 := h, coldDue := false }
    if v = h then s1 else s1.raise 0x4007 c [0]

/-- The coil node is corrected by a measurement (R230). -/
def correctCoil (c : Nat) (first : Bool) (s : State) : State :=
  s.modModel c fun m =>
    let t := 25 + (m.reMeas / m.re25 - 1) / s.entry c 14
    if first ∧ m.hotSeed then
      { m with tv := t, tm := min m.tm (max t (s.entry c 19) + 15), hotSeed := false }
    else if m.tv ≤ t then { m with tv := t } else { m with tv := m.tv - (m.tv - t) / 2 }

/-- A valid pilot window (R229). -/
def takeRe (c : Nat) (re : Rat) (s : State) : State :=
  let m := (s.chan c).model
  let win := (m.reWin ++ [re]).drop (m.reWin.length - 3)
  let s1 := (s.count (chanStat c 0x04D) 1).modModel c fun m => { m with reWin := win, reAt := s.media.samples }
  if m.reConv then correctCoil c false (s1.modModel c fun m => { m with reMeas := mean win })
  else if win.length = 4 ∧ within (5/1000) win then
    let s2 := (s1.modModel c fun m => { m with reConv := true, reStale := false, reMeas := mean win }).raise 0x4005 c []
    correctCoil c true (coldReference c (mean win) s2)
  else s1

/-- An identified value held within its window about the nominal one (R233). -/
def holdIdent (pct nom v : Rat) : Rat := clampRat (nom * (1 - pct / 100)) (nom * (1 + pct / 100)) v

/-- The motional admittance of a line: 1 / (Z − Re_h − cable_ohm − jω·Le), with Re_h the measured resistance (R232). -/
def motionalY (re le : Rat) (l : PilotLine) : Rat × Rat :=
  let z := cdiv (l.vRe, l.vIm) (l.iRe, l.iIm)
  cdiv (1, 0) (z.1 - re, z.2 - 2 * piR * l.hz * le)

/-- The least-squares fit of R232. With Mms held, Z(ω) has the motional admittance (Rms + j·(ω·Mms − Kms0/ω)) / Bl0², which is linear in
1/Bl0², Rms/Bl0² and Kms0/Bl0²; the weights of the lines are not stated (log entry 64). Bl0, fs and Qms, where the lines give them. -/
def fitZ (re le mms : Rat) (lines : List PilotLine) : Option (Rat × Rat × Rat) :=
  let sum := fun (f : PilotLine → Rat) => sumRat (lines.map fun l => Config.fitWeight l.hz * f l)
  let w := fun (l : PilotLine) => 2 * piR * l.hz
  let y := motionalY re le
  let pp := sum fun l => (w l * mms) * (w l * mms)
  let pq := sum fun _ => -mms
  let qq := sum fun l => 1 / (w l * w l)
  let pi := sum fun l => w l * mms * (y l).2
  let qi := sum fun l => -(y l).2 / w l
  let det := pp * qq - pq * pq
  let n := sum fun _ => 1
  if det = 0 ∨ n = 0 then none
  else
    let a := (pi * qq - qi * pq) / det
    let c := (qi * pp - pi * pq) / det
    let b := (sum fun l => (y l).1) / n
    if a ≤ 0 ∨ b ≤ 0 ∨ c ≤ 0 then none
    else
      let rms := b / a
      let kms := c / a
      some (sqrtR (1 / a), sqrtR (kms / mms) / (2 * piR), sqrtR (kms * mms) / rms)

/-- The fit of a window on a channel: Le and Mms at their block values. -/
def fitWindow (s : State) (c : Nat) (p : PilotReading) : Option (Rat × Rat × Rat) :=
  fitZ ((s.chan c).model.reMeas + s.entry c 20) (s.entry c 1 / 1000) (s.entry c 3 / 1000) p.lines

/-- A window valid for identification (R232, R233). Each parameter held at a window edge is reported once per convergence. -/
def takeIdent (c : Nat) (v : Rat × Rat × Rat) (s : State) : State :=
  let m := (s.chan c).model
  let b := s.cfg.active
  let win := (m.idWin ++ [v]).drop (m.idWin.length - 7)
  let s1 := s.modModel c fun m => { m with idWin := win }
  let ok := win.length == 8 && within (2/100) (win.map (·.1)) && within (2/100) (win.map (·.2.1)) && within (2/100) (win.map (·.2.2))
  if m.idConv ∨ ok then
    let pct := s.entry c 22
    let raw := [mean (win.map (·.1)), mean (win.map (·.2.1)), mean (win.map (·.2.2))]
    let nom := [b.entry c 2, fsNom b c, qmsNom b c]
    let use := (List.range 3).map fun i => holdIdent pct (nom.getD i 0) (raw.getD i 0)
    let edges := (List.range 3).filter fun i => raw.getD i 0 != use.getD i 0
    let told := if m.idConv then m.clampSet else []
    let fresh := edges.filter fun i => !told.contains i
    let s2 := s1.modModel c fun m => { m with
      idConv := true, identOk := true, bl0 := use.getD 0 0, fs := use.getD 1 0, qms := use.getD 2 0
      kms0 := kmsOf b c (use.getD 1 0), rms := rmsOf b c (use.getD 1 0) (use.getD 2 0)
      clampSet := told ++ fresh, clamped := (m.idConv && m.clamped) || !edges.isEmpty }
    let s3 := if m.idConv then s2 else s2.raise 0x4006 c []
    forList fresh (fun i s => s.raise 0x4007 c [word (i + 1)]) s3
  else s1

/-- R318: which test finds an open load, if one does. The level of an RMS voltage is that of a sine wave with it (R14). -/
def openLoad (s : State) (c : Nat) (p : PilotReading) : Option Nat :=
  let peak := 1/200 * s.cfg.active.vLow c
  let vr := (s.rail (rcOf c)).vRail
  let w := (s.chan c).win
  if s.flag 0x10 c 0xF ∧ !(s.chan c).fsm.voltageOnly ∧ peak * peak / 4 ≤ amp2 p.vRe p.vIm ∧ amp2 p.iRe p.iIm < 4/100000000 then some 1
  else if dbGain (-40) * dbGain (-40) * vr * vr * 96000 ≤ 2 * w.v2 ∧ w.i2 * (16 * s.ratv 0x10 c 0x15) * (16 * s.ratv 0x10 c 0x15) < w.v2 then some 2
  else none

def judgeOpen (c : Nat) (p : PilotReading) (s : State) : State :=
  match openLoad s c p with
  | none => s.modChan c fun h => { h with fsm := { h.fsm with openLoad := false }, model := { h.model with openWin := 0 } }
  | some t =>
    let n := (s.chan c).model.openWin + 1
    let s1 := s.modModel c fun m => { m with openWin := n }
    if 4 ≤ n ∧ !(s.chan c).fsm.openLoad then
      (s1.modFsm c fun f => { f with openLoad := true }).raise (chanCode c 0x12) c [word t]
    else s1

/-- R319, case 3. -/
def judgeSense (c : Nat) (s : State) : State :=
  let w := (s.chan c).win
  let bad := decide (w.p2 / 4 < w.d2) && decide (2/100 * iFull c * (2/100 * iFull c) * 96000 ≤ w.p2)
  let n := if bad then (s.chan c).model.diffWin + 1 else 0
  let s1 := s.modModel c fun m => { m with diffWin := n }
  if 3 ≤ n ∧ !(s.chan c).fsm.voltageOnly then enterVoltageOnly c 3 s1 else s1

/-- The next pilot window follows without a gap (R228). -/
def nextWindow (c : Nat) (s : State) : State :=
  s.modChan c fun h => { h with win := { age := h.win.age, x := h.win.x, v := h.win.v, i := h.win.i } }

/-- The measurements of a window on a channel whose models run (R228 to R233). -/
def takeWindow (c : Nat) (p : PilotReading) (s : State) : State :=
  let m := (s.chan c).model
  let w := (s.chan c).win
  let ok := windowOk s c p
  let re := pilotRe s c p
  let s1 := if ok && tempOk s c (tempOf s c re) then takeRe c re s
    else
      let t := s.modModel c fun m => { m with reWin := if m.reConv then m.reWin else [] }
      if ok then t.raiseHeld (60 * second) 0x400E c 1 [] else t
  let idOk := s.cfg.active.modelBit c 2 && (s1.chan c).model.reConv && decide (-40 ≤ p.fsBandDbfm) && decide (w.xMm ≤ s.ratv 0x10 c 9 / 2)
    && w.valid && !(s.chan c).fsm.voltageOnly && w.partner
  match (if idOk then fitWindow s1 c p else none) with
  | some v => takeIdent c v s1
  | none => if m.idConv then s1 else s1.modModel c fun m => { m with idWin := [] }

/-- A pilot window of 96,000 samples ends (R228). -/
def execPilotWindow (c : Nat) (p : PilotReading) (s : State) : Out State :=
  let h := s.chan c
  if s.enabled c && h.fsm.state == .run && decide (96000 ≤ h.win.n) then
    let s1 := judgeOpen c p s
    .next (nextWindow c (if h.model.runs && h.model.seed != 0 then judgeSense c (takeWindow c p s1) else s1))
  else .next s

/-- 30 s without a valid window after a convergence (R229): by the sample clock. -/
def execReStale (c : Nat) (s : State) : Out State :=
  let m := (s.chan c).model
  if m.reConv && decide (m.reAt + 30 * 96000 ≤ s.media.samples + 8) then
    .next (s.modModel c fun m => { m with reConv := false, reStale := true, reWin := [], reMeas := 0 })
  else .next s

/-- Model records are stored during play (R234), by the Keeper in its turn (R37): at priority 6, after the records that wait for the flash. -/
def execModelRecordStore (s : State) : Out State :=
  if keeperFree s && !storeWaits s && s.keeper.dev == .run then .next (storeModels s) else .next s

/-- The servo has locked within 30 s of a hot-start seed (R237): the seed is then a decayed stored state, from which a cold re-reference may be
made (R231). -/
def execLateReseed (c : Nat) (s : State) : Out State :=
  let m := (s.chan c).model
  match m.record with
  | some r =>
    if m.runs && m.hotSeed && !m.reConv && m.seed == 3 && s.ptp.state == .locked && decide (s.keeper.counterUs ≤ m.reseedUntil) && r.ptpNs.isSome then
      match elapsed? s r with
      | some t =>
        let d := decayed s c r t
        if d.1 < m.tv then .next (s.modModel c fun m => { m with tv := d.1, tm := d.2, seed := 2, seedTv := d.1, coldDue := coldSeed s c d.1 }) else .next s
      | none => .next s
    else .next s
  | none => .next s

/-- A curve has stood at 0.0 dB for 10 s (R226). -/
def execFoldbackEpisodeEnd (c : Nat) (magnet : Bool) (s : State) : Out State :=
  if magnet then
    if (s.chan c).model.magEp && magnetCurve s c == 0 then .next (s.modModel c fun m => { m with magEp := false }) else .next s
  else if (s.chan c).model.coilEp && coilCurve s c == 0 then .next (s.modModel c fun m => { m with coilEp := false, overEp := false })
  else .next s

end Sys2Proof.Machine
end

