-- ==== Sys2Proof/Machine/SelfTest.lean ====
section
/-! DEFINITION. Requested tests (R406 to R408, R413, Tables 16.2 to 16.5). -/

namespace Sys2Proof.Machine

/-! ### Units and checks of SELF_TEST (R406) -/

/-- What a test has as its unit: 0 a channel, 1 a controller, 2 a die, 3 the device. -/
def testUnit (id arg inst : Nat) : Nat × Nat :=
  let q := arg % 256
  match id with
  | 1 | 2 => (0, inst)
  | 3 => (1, inst)
  | 6 | 7 => if q ≤ 3 then (0, inst) else if q = 4 then (1, inst) else if q ≤ 7 then (2, inst) else (3, 0)
  | _ => (3, 0)

/-- Two tests share a unit; that of RAIL_CHECK takes in the channels that the controller feeds. -/
def unitsMeet (id arg inst : Nat) (t : Test) : Bool :=
  let a := testUnit id arg inst
  let b := testUnit t.id t.arg t.inst
  a == b || (id == 3 && b.1 == 0 && rcOf b.2 == inst) || (t.id == 3 && a.1 == 0 && rcOf a.2 == t.inst)

/-- The tests in progress. -/
def running (s : State) : List Test := s.tests.list.filter fun t => t.state == 0

/-- Test ID, instance and argument lie in Tables 16.2 and 16.4, and the unit is enabled. -/
def testArgs (id inst : Nat) (args : List Byte) (s : State) : Bool :=
  let q := leAt args 0 1
  match id with
  | 1 | 2 => args.isEmpty && decide (inst < 208) && s.enabled inst
  | 3 => args.isEmpty && decide (inst < 12) && s.flag 0x07 inst 0
  | 4 | 5 => args.isEmpty && inst == 0
  | 6 => args.length == 4 && allZero (args.drop 1) && ageUnit s q inst
  | 7 => args.length == 4 && allZero (args.drop 1) && decide (q ≤ 5) && ageUnit s q inst
  | _ => false

/-- A unit that is running answers ERR_BUSY to a test without FORCE (Tables 16.2 and 16.3); a starting controller with it too. -/
def unitBusy (id inst : Nat) (force : Bool) (s : State) : Bool :=
  match id with
  | 1 => !force && (match (s.chan inst).fsm.state with | .precharge | .idle | .run | .muted => true | _ => false)
  | 2 => !force && (s.chan inst).fsm.state.switching
  | 3 => match (s.rail inst).state with
    | .check | .softStart | .retryWait => true
    | .regulating => !force
    | _ => false
  | _ => false

/-- A RAIL_CHECK with FORCE takes its unit from the tests of the fed channels (Table 16.5). -/
def takesUnit (id inst : Nat) (force : Bool) (s : State) (t : Test) : Bool :=
  id == 3 && force && (s.rail inst).state == .regulating && (t.id == 1 || t.id == 2) && rcOf t.inst == inst

/-- The status of SELF_TEST's own checks. -/
def testStatus (id inst : Nat) (force : Bool) (args : List Byte) (s : State) : Nat :=
  if !testArgs id inst args s then errArg
  else if id = 1 ∧ (s.keeper.dev ≠ .run ∨ s.cfgShared) then errState
  else if id = 6 ∧ !s.flag 0x01 0 0xC then errLocked
  else if 16 ≤ (running s).length ∨ unitBusy id inst force s then errBusy
  else if (running s).any fun t => unitsMeet id (leAt args 0 4) inst t && !takesUnit id inst force s t then errBusy
  else stOk

/-! ### Starting a test (R407) -/

/-- LOAD_DIAG acts by the state of its channel (Table 16.3). -/
def startLoadDiag (ticket c : Nat) (s : State) : State :=
  let f := (s.chan c).fsm
  match f.state with
  | .diag | .retest => s
  | .fault => if causePresent s c then endTest ticket 2 f.code (diagValues c f) s else clearChannel c s
  | .off => endTest ticket 2 0xA010 [] s
  | _ => requestStop c false s

/-- SENSE_CAL with FORCE on a playing channel: the mute multiplier of stage 10 ramps to 0 (R407). -/
def startSenseCal (c : Nat) (force : Bool) (s : State) : State :=
  if force && (s.chan c).fsm.state.switching then s.modDsp c fun d => { d with testMute := d.testMute.to 0 1024 } else s

/-- RAIL_CHECK with FORCE on a regulating controller: its channels stop, then the controller (R407). -/
def startRailCheck (r : Nat) (s : State) : State :=
  if (s.rail r).state = .regulating then
    let s1 := abortTests (fun t => (t.id == 1 || t.id == 2) && rcOf t.inst == r) 0xA014 s
    (forList (fedBy r) (fun c s => (requestStop c false s).modFsm c fun f => { f with holdTest := true }) s1).modRail r fun q => { q with
      stopReq := true, due := false, restart := false }
  else s.modRail r fun q => { q with test := 1, testCode := 0 }

/-- FORCE has an effect on the unit as it stands. -/
def forceActs (id inst : Nat) (s : State) : Bool :=
  match id with
  | 1 => match (s.chan inst).fsm.state with | .precharge | .idle | .run | .muted => true | _ => false
  | 2 => (s.chan inst).fsm.state.switching
  | 3 => (s.rail inst).state == .regulating
  | _ => false

/-- A test starts with the next ticket; the 32 most recent tickets are kept, and every test in progress (R406). -/
def startTest (id inst arg : Nat) (force : Bool) (s : State) : State :=
  let n := s.tests.next
  let acts := force && forceActs id inst s
  let s1 : State := { s with tests := { s.tests with
    next := n + 1
    list := (s.tests.list.filter fun t => t.state == 0 || decide (n < t.ticket + 32)) ++ [{ ticket := n, id := id, inst := inst, arg := arg, force := acts }] } }
  match id with
  | 1 => startLoadDiag n inst s1
  | 2 => startSenseCal inst acts s1
  | 3 => startRailCheck inst s1
  | _ => s1

def execSelfTest (i : Nat) (s : State) : Out State :=
  serve i 0x50 (fun r t =>
    let id := leAt r.payload 0 2
    let inst := leAt r.payload 2 2
    let args := r.payload.drop 4
    let st := testStatus id inst r.force args t
    if st = stOk then reply i r stAccepted (le 4 t.tests.next) (startTest id inst (leAt args 0 4) r.force t)
    else reply i r st [] t) s

/-- The kept test of a ticket (R406). -/
def keptTest (n : Nat) (s : State) : Option Test := s.tests.list.find? fun t => t.ticket == n && decide (s.tests.next ≤ n + 32)

/-- GET_TEST_RESULT (Table 4.15): a test in progress has no values yet. -/
def execGetTestResult (i : Nat) (s : State) : Out State :=
  serve i 0x51 (fun r t =>
    let n := leAt r.payload 0 4
    match keptTest n t with
    | none => reply i r errArg [] t
    | some u => reply i r stOk (le 4 n ++ [BitVec.ofNat 8 u.state, 0] ++ le 2 u.code ++ (if u.state = 0 then [] else u.values.take 232)) t) s

/-! ### The end of a test (R406 to R408) -/

/-- LOAD_DIAG ends with the result of the pass that it waited for (R407), or in OFF where the channel cannot start: held by its twin role, the
rail not regulating, or the device not in RUN (Table 16.5). -/
def endLoadDiag (t : Test) (s : State) : State :=
  let f := (s.chan t.inst).fsm
  if !t.values.isEmpty then endTest t.ticket (if t.code = 0 then 1 else 2) t.code t.values s
  else if f.state = .off ∧ (heldByRole s t.inst ∨ !railUp s t.inst ∨ s.keeper.dev ≠ .run) then endTest t.ticket 2 0xA010 [] s
  else s

/-- RAIL_CHECK's values (Table 16.2). -/
def railValues (q : Rail) : List Byte :=
  le 4 (bit q.aOpen 0 + bit q.aSense 1 + bit q.bOpen 2 + bit q.bSense 3) ++ [q.lA, q.lB, q.cyc.vPre].flatMap fun x => le 4 (f32Of x).toNat

/-- RAIL_CHECK ends with what the checks of R341 gave, once all of them are done. -/
def endRailCheck (t : Test) (s : State) : State :=
  let q := s.rail t.inst
  if q.test = 7 then endTest t.ticket (if q.testCode = 0 then 1 else 2) q.testCode (railValues q) s else s

/-- The unit of a block or parameter (R127): its channel, or 0x100 and the global class, that of the rail controllers for a setpoint block. -/
def blockUnit (id : Nat) : Nat :=
  if idClass id = 0x10 ∨ idClass id = 0x20 then idInst id else 0x100 + (if idClass id = 0x21 then 0x07 else idClass id)

/-- DSP_MEM_CHECK: a mismatch raises DSP_MEM_ERROR on the unit that the values name; the set in force is armed again, so nothing else
changes. -/
def endMemCheck (t : Test) (values : List Byte) (s : State) : State :=
  let v := (values ++ zeros 12).take 12
  let id := leAt v 8 4
  if leAt v 4 4 = 0 then endTest t.ticket 1 0 v s
  else endTest t.ticket 2 0xA020 v (s.raise 0xA003 (blockUnit id) [word id])

/-- FLASH_VERIFY reads the regions (Table 16.2). -/
def flashRegions (st : Store) : Nat :=
  bit st.fwA.valid 0 + bit st.fwB.valid 1 + bit st.cfgA.valid 2 + bit st.cfgB.valid 3 + bit st.factoryValid 4 + bit st.snap.isSome 5

def endFlashVerify (t : Test) (s : State) : State :=
  let ok := s.store.fwA.valid && s.store.fwB.valid && s.store.factoryValid
  endTest t.ticket (if ok then 1 else 2) (if ok then 0 else 0xA021) (le 4 (flashRegions s.store)) s

/-- The ageing instances of a test: every edge of its channel under quantity 2 (Tables 15.8 and 16.4). -/
def ageInsts (q i : Nat) : List Nat := if q = 2 then (List.range (deadEdges i)).map fun e => i + 256 * e else [i]

/-- The margin in force of a quantity on an instance. -/
def ageMargin (s : State) (q i : Nat) : Rat := let a := s.store.ageOf q i; if a.replanned then a.margin else plainMargin s q i

/-- AGEING_RUN: the values give the median since the last evaluation and the filter capacitance, for quantity 2 the median of each edge in turn;
without a measurement it fails. Of several edges the highest need and the lowest margin are returned (notes/assumptions/50.md). -/
def endAgeing (t : Test) (code : Nat) (values : List Byte) (s : State) : State :=
  if code = 0xA022 then endTest t.ticket 2 0xA022 [] s
  else
    let q := t.arg % 256
    let l := ageInsts q t.inst
    let u := (List.range l.length).foldl (fun s k =>
      takeEvaluation q (l.getD k 0) (f32Val (word (leAt values (4 * k) 4))) (f32Val (word (leAt values 4 4))) s) s
    let hi := l.foldl (fun m i => max m (u.store.ageOf q i).last) (u.store.ageOf q t.inst).last
    let lo := l.foldl (fun m i => min m (ageMargin u q i)) (ageMargin u q t.inst)
    endTest t.ticket 1 0 (le 4 (f32Of hi).toNat ++ le 4 (f32Of lo).toNat) u

/-- A requested test ends and its result is recorded. `code` and `values` are what the test found where the state does not show it; a test
that R408 aborts is ended by the row that aborts it. -/
def execSelfTestDone (ticket _state code : Nat) (values : List Byte) (s : State) : Out State :=
  match s.tests.list.find? (fun t => t.ticket == ticket && t.state == 0) with
  | none => .next s
  | some t =>
    if !canLog s then .next s
    else match t.id with
    | 1 => .next (endLoadDiag t s)
    | 2 => .next (if t.values.isEmpty then s else endTest ticket 1 0 t.values s)
    | 3 => .next (endRailCheck t s)
    | 4 => .next (endMemCheck t values s)
    | 5 => .next (endFlashVerify t s)
    | 6 => .next (endAgeing t code values s)
    | _ => .next (endTest ticket 1 0 [] ((ageInsts (t.arg % 256) t.inst).foldl (fun s i => resetBaseline (t.arg % 256) i s) s))

end Sys2Proof.Machine
end

