-- ==== Sys2Proof/Machine/Status.lean ====
section
/-! DEFINITION. STATUS_REFRESH: the RO fields of Tables 6.13, 7.7, 8.6, 8.7, 9.4, 10.7, 11.7, 12.3, 12.4, 13.6, 14.11, 14.12, 15.9 and 16.7 and
the lifetime values of Tables 15.6 and 15.7 (R215, R398, R403). -/

namespace Sys2Proof.Machine

/-- A level in dB of a factor: −144.0 at 0 and below. -/
def floorDb (x : Rat) : Rat := if x ≤ 0 then -144 else max (-144) (gainDb x)

/-! ### The RO fields, by class and table -/

/-- Table 6.13. How a path skew that is no whole number of µs becomes the u32 of `skew_us` is not stated: it is rounded as R444 rounds a reading, by
the model's choice (notes/assumptions/59.md). -/
def netFieldsNow (s : State) : List (Nat × Word) :=
  let p := s.ptp
  (List.range 3).map (fun i => (netStat (0x10 * i + 0xA), word (s.port i).state)) ++
  [(netStat 0x030, word p.state.code), (netStat 0x031, word p.port), (netStat 0x032, f32Of p.offset),
   (netStat 0x033, f32Of (if p.port < 2 then (s.port p.port).pathDelay else 0)), (netStat 0x034, f32Of p.freq),
   (netStat 0x035, word (p.gm / 0x100000000)), (netStat 0x036, word p.gm)] ++
  (List.range 32).flatMap fun i =>
    let t := s.stream i
    [(streamStat i 0, word t.state.code), (streamStat i 0xD, wordU (skewNow s t)), (streamStat i 0xE, word (bit t.arrival 0)),
     (streamStat i 0xF, word (marginNow s t))]

/-- Tables 7.7 and 8.7. -/
def mediaFieldsNow (s : State) : List (Nat × Word) :=
  let m := s.media
  let load := dspLoad s.cfg.active
  [(devStat 0x200, word m.state.code), (devStat 0x201, word m.source), (devStat 0x202, f32Of m.steer), (devStat 0x203, f32Of m.err),
   (devStat 0x204, word (if m.state = .holdover then m.holdoverUs / second else 0))] ++
  (List.range 4).flatMap (fun x =>
    let t := s.tdm x
    [(devStat (0x210 + 8 * x), word t.state.code), (devStat (0x211 + 8 * x), f32Of t.rate), (devStat (0x216 + 8 * x), f32Of (t.err / 512))]) ++
  [(devStat 0x300, word load), (devStat 0x301, word dspCapacity), (devStat 0x302, f32Of (100 * load / dspCapacity)),
   (devStat 0x303, word s.cfg.xfadeMax)]

/-- Table 12.4. -/
def stageFieldsNow (s : State) : List (Nat × Word) :=
  (List.range 4).flatMap (fun d =>
    let q := s.dsd d
    [(devStat (0x400 + 4 * d), f32Of q.zoneC), (devStat (0x401 + 4 * d), word (bit q.onDie 0)), (devStat (0x402 + 4 * d), f32Of q.sDb)]) ++
  [(devStat 0x410, word s.misc.muteState)]

/-- Why a configured pair does not share (Table 14.11). -/
def shareBlocked (s : State) : Nat :=
  let t := s.twin
  if !s.cfgShared then 0
  else bit (t.paired && !(t.levelOk && t.partnerLevel == s.keeper.fwLevel)) 0 + bit (t.paused || t.partnerPaused) 1
    + bit (t.paired && (t.partnerMode != 2 || t.partnerDigest != digest s.cfg.whole)) 2 + bit (!t.link) 3 + bit (!(t.paired && t.partnerPaired)) 4

/-- A kind of beacon has arrived from the partner within its time, in µs (R369). -/
def seenNow (s : State) (seen : Bool) (at_ us : Nat) : Bool := seen && decide (s.keeper.counterUs ≤ at_ + us)

/-- Table 14.11. -/
def twinFieldsNow (s : State) : List (Nat × Word) :=
  let t := s.twin
  [(devStat 0x600, word (effMode s)), (devStat 0x601, word t.role.code), (devStat 0x602, word (bit t.link 0)),
   (devStat 0x603, word (bit (seenNow s t.peerSeen t.peerAt 5000) 0 + bit (seenNow s t.netSeen t.netAt 300000) 1)), (devStat 0x604, word t.partnerSerial),
   (devStat 0x605, word (t.partnerSerial / 0x100000000)), (devStat 0x606, f32Of t.offset), (devStat 0x607, word t.epoch),
   (devStat 0x608, word (digest s.cfg.whole)), (devStat 0x609, word t.partnerDigest), (devStat 0x60A, word (shareBlocked s)),
   (devStat 0x60F, word s.keeper.fwLevel)]

/-- `service_flags` (Table 15.9). -/
def serviceFlags (s : State) : Nat :=
  (List.range 8).foldl (fun n q => n + bit (s.store.age.any fun a => a.1 == q + 1 && a.2.2.flag) q) 0
    + bit (decide (64 ≤ s.store.log.retired.length + s.store.lifeRegion.retired.length)) 8

/-- The highest erase count of any sector (Table 15.9): those of the record regions, and those of the banks, which are erased whole. -/
def eraseMax (st : Store) : Nat := ((st.log.erases ++ st.lifeRegion.erases).map (·.2)).foldl max (st.bankErases.foldl max 0)

/-- Table 15.9, class 0x80, and Table 16.7. The Keeper's load is an open value. -/
def storeFieldsNow (load : Rat) (s : State) : List (Nat × Word) :=
  let st := s.store
  [(devStat 0x700, f32Of load), (devStat 0x701, word (s.log.nextSeq - 1)), (devStat 0x702, word s.log.flushedSeq),
   (devStat 0x703, word s.log.buffer.length), (devStat 0x706, word (st.log.retired.length + st.lifeRegion.retired.length)),
   (devStat 0x707, word (eraseMax st)), (devStat 0x708, word st.snapAge),
   (devStat 0x709, word st.flashMb), (devStat 0x70A, word (bit st.factoryValid 0)), (devStat 0x70B, word (serviceFlags s))] ++
  (List.range 4).flatMap (fun d =>
    [(devStat (0xA00 + 4 * d), f32Of (st.ageOf 5 d).last), (devStat (0xA01 + 4 * d), f32Of (st.ageOf 6 d).last),
     (devStat (0xA02 + 4 * d), f32Of (st.ageOf 7 d).last)]) ++
  [(devStat 0xA10, f32Of (st.ageOf 8 0).last), (devStat 0xB41, word (bit (unlocked s.cfg.active) 0)),
   (devStat 0xB42, word (running s).length)]

/-- The extra cost of a crossfade that runs (Table 8.5): 64, and the old set's biquad sections and FIR taps. That it is the old set is the
model's choice (R214, log entry 59). -/
def xfadeCost (x : XFade) : Nat :=
  64 + 40 * (leAt x.inBq 2 2 + leAt x.drvBq 2 2) + (if x.firOn then 8 * leAt x.fir 2 2 else 0)

/-- Tables 8.6 and 9.4 for a channel. -/
def dspFieldsNow (c : Nat) (s : State) : List (Nat × Word) :=
  let h := s.chan c
  let d := h.dsp
  let m := h.model
  let vr := (s.rail (rcOf c)).vRail
  [(chanStat c 0x000, word (modeOf d.ahead)), (chanStat c 0x001, word (lookOf d.ahead)), (chanStat c 0x002, word d.steerNow),
   (chanStat c 0x003, f32Of (floorDb d.grMin)), (chanStat c 0x009, f32Of (if vr ≤ 0 then -144 else floorDb (d.peakY / vr))),
   (chanStat c 0x00A, f32Of (mIdxOf s c)), (chanStat c 0x00B, word (chanCost s.cfg.active c + (match d.xf with | some x => xfadeCost x | none => 0))),
   (chanStat c 0x040, f32Of m.tv), (chanStat c 0x041, f32Of m.tm), (chanStat c 0x042, f32Of (if m.reConv && !m.reStale then m.reMeas else 0)),
   (chanStat c 0x043, f32Of m.re25), (chanStat c 0x044, f32Of m.bl0), (chanStat c 0x045, f32Of m.fs), (chanStat c 0x046, f32Of m.qms),
   (chanStat c 0x047, word (modelFlags s c)), (chanStat c 0x048, f32Of m.xPeak), (chanStat c 0x049, f32Of m.rThDb),
   (chanStat c 0x04A, f32Of (floorDb m.rExcMin)), (chanStat c 0x04B, word m.seed)]

/-- `off_hold` (Table 10.7). -/
def offHold (s : State) (c : Nat) : Nat :=
  if (s.chan c).fsm.state = .off ∨ !(latchesOn s.pwm c).isEmpty then
    match holdFor s c with | .open => 0 | .high => 3 | _ => 1
  else 2

/-- I_lim as a percentage of full scale (R259) and V_drop (R261). -/
def iLimPct (s : State) (c : Nat) : Rat :=
  min (f32Val (cycWord s c 0x14)) ((s.chan c).loop.ilim.getD (f32Val (cycWord s c 0x14)))
def ronOf (s : State) (c : Nat) : Rat := (s.chan c).loop.ron.getD (Config.factoryRon (s.keeper.strapDrv / 2 ^ dsdOf c % 2 == 1))
def vDrop (s : State) (c : Nat) : Rat := clampRat (3/10) 3 (3/2 * (iLimPct s c / 100 * iFull c) * ronOf s c)

/-- The dead times that a status field shows (Tables 10.7 and 11.7): in force while switching, else those of the next release. -/
def deadShown (s : State) (c : Nat) : List Nat := if (s.chan c).fsm.state.switching then (s.chan c).loop.dead else startDead s c

/-- Table 10.7 for a channel, with f0_eff of R250. -/
def loopFieldsNow (c : Nat) (s : State) : List (Nat × Word) :=
  let h := s.chan c
  [(chanStat c 0x080, word h.fsm.state.code), (chanStat c 0x081, word (offHold s c))] ++
  (if isL c then [] else
    [(chanStat c 0x086, f32Of (iLimPct s c)), (chanStat c 0x087, f32Of (vDrop s c)), (chanStat c 0x08D, word (senseFlags h.fsm)),
     (chanStat c 0x082, f32Of (f0Eff s c)), (chanStat c 0x083, f32Of h.loop.fswIdle),
     (chanStat c 0x084, (dtWords c (deadShown s c)).getD 0 0), (chanStat c 0x08B, word (alignOf s c)), (chanStat c 0x08C, f32Of h.loop.tauNs)])

/-- Table 11.7 for an L-channel. -/
def pwmFieldsNow (c : Nat) (s : State) : List (Nat × Word) :=
  if !isL c then [] else
    let g := s.pwmCh (lOf c)
    let dt := dtWords c (deadShown s c)
    let trips := (List.range 4).foldl (fun n i => n + bit (s.enabled c && (latchesOn s.pwm c).any (·.1 == i)) i) 0
    [(chanStat c 0x0C0, word (lMode s (lOf c))), (chanStat c 0x0C1, word s.pwm.period)] ++
    (List.range 4).map (fun i => (chanStat c (0x0C2 + i), f32Of (g.fc.getD i 0))) ++
    [(chanStat c 0x0C6, word (permOf g.act 0 + 16 * permOf g.act 1)), (chanStat c 0x0C7, dt.getD 0 0), (chanStat c 0x0C8, dt.getD 1 0),
     (chanStat c 0x0C9, f32Of (s.chan c).loop.tauNs), (chanStat c 0x0CF, word trips)]

/-- `relay_state` (Table 12.3). -/
def relayState (s : State) (c : Nat) : Nat :=
  let f := (s.chan c).fsm
  if !s.flag 0x10 c 0x16 then 2 else if f.relayOn != f.relayWant then 3 else bit f.relayOn 0

/-- `twin_state` (Table 14.12). -/
def twinState (s : State) (c : Nat) : Nat :=
  let h := s.chan c
  if !twinned s then 0 else if h.share.joinReq then 4
  else if armed s c then (if h.share.partnerDrives && s.twin.effShared then 2 else 1) else 3

/-- RMS of Δ over the last 100 ms in percent of full scale. -/
def deltaPct (c : Nat) (h : Share) : Rat := if h.deltaN = 0 then 0 else 100 * sqrtR (h.deltaSq / h.deltaN) / iFull c

/-- `dt_need_ns` (Table 15.9): the highest need of the channel's edges (notes/assumptions/50.md). -/
def dtNeed (s : State) (c : Nat) : Rat := (List.range 12).foldl (fun m e => max m (s.store.ageOf 2 (c + 256 * e)).last) 0

/-- Tables 12.3, 14.12 and 15.9 for a channel. -/
def faultFieldsNow (c : Nat) (s : State) : List (Nat × Word) :=
  let h := s.chan c
  let f := h.fsm
  let a := s.store.ageOf 3 c
  let cr := if a.capBase = 0 then 0 else median a.caps / a.capBase
  [(chanStat c 0x100, word f.code), (chanStat c 0x101, f32Of f.diagR), (chanStat c 0x102, word f.diagPassed.toNat),
   (chanStat c 0x103, word (relayState s c)), (chanStat c 0x108, word (bit f.voltageOnly 0)), (chanStat c 0x109, word (bit f.openLoad 0)),
   (chanStat c 0x140, word (twinState s c)), (chanStat c 0x141, f32Of (deltaPct c h.share)), (chanStat c 0x142, f32Of h.share.integral),
   (chanStat c 0x1C0, f32Of (s.store.ageOf 1 c).last), (chanStat c 0x1C1, f32Of (dtNeed s c)), (chanStat c 0x1C2, f32Of a.last),
   (chanStat c 0x1C3, f32Of cr), (chanStat c 0x1C4, f32Of (if a.last = 0 ∨ cr = 0 then 0 else 1 / (a.last * a.last * cr)))]

/-- `phase_flags` (Table 13.6). -/
def phaseFlags (q : Rail) : Nat := bit q.aOpen 0 + bit q.aSense 1 + bit q.bOpen 2 + bit q.bSense 3

/-- Table 13.6 without the telemetry, and `esr_ratio`. -/
def railFieldsNow (r : Nat) (s : State) : List (Nat × Word) :=
  let q := s.rail r
  [(railStat r 0x000, word q.state.code), (railStat r 0x001, word q.mode), (railStat r 0x002, word q.code), (railStat r 0x003, word s.misc.rselRail),
   (railStat r 0x004, word (cEffRail s r)), (railStat r 0x005, word q.row), (railStat r 0x006, f32Of q.ref), (railStat r 0x00F, f32Of (rcTemp s r q)),
   (railStat r 0x015, word (phaseFlags q)), (railStat r 0x016, f32Of q.lA), (railStat r 0x017, f32Of q.lB), (railStat r 0x018, f32Of q.limShown),
   (railStat r 0x01B, word q.sync), (railStat r 0x01C, word q.attempts), (railStat r 0x01D, word (bit q.onZone 0)),
   (railStat r 0x0A0, f32Of (s.store.ageOf 4 r).last)]

/-- Put a list of fields. -/
def putAll (l : List (Nat × Word)) (s : State) : State := l.foldl (fun s p => s.put p.1 p.2) s

/-- Every RO field is refreshed. -/
def putStatus (s : State) : State :=
  let d := s.drawRat
  let s1 := putAll (netFieldsNow s ++ mediaFieldsNow s ++ stageFieldsNow s ++ twinFieldsNow s ++ storeFieldsNow d.1 s) d.2
  let s2 := forUnits 208 (fun c t => putAll (dspFieldsNow c s ++ loopFieldsNow c s ++ pwmFieldsNow c s ++ faultFieldsNow c s) t) s1
  forUnits 12 (fun r t => putAll (railFieldsNow r s) t) s2

/-! ### Histograms and seconds (R398) -/

/-- The 100 ms samples of a channel in RUN (Table 15.7). -/
def runSamples (c : Nat) (s : State) : State :=
  let h := s.chan c
  if h.fsm.state = .run then
    let vr := (s.rail (rcOf c)).vRail
    let peak := if vr ≤ 0 then -144 else floorDb (h.dsp.peakY / vr)
    let s1 := histogram (chanStat c 0x220) ((peak + 64) / 2) s
    let s2 := histogram (chanStat c 0x240) (20 * (h.model.xPeak / s.ratv 0x10 c 9)) s1
    histogram (chanStat c 0x260) (-(floorDb h.dsp.grMin)) s2
  else s

/-- The extremes of the last 100 ms start again. -/
def clearTenth (h : Chan) : Chan :=
  { h with
    dsp := { h.dsp with grMin := 1, peakY := 0 }
    model := { h.model with xPeak := 0, rExcMin := 1 }
    share := { h.share with deltaSq := 0, deltaN := 0 } }

/-- `n` seconds are counted where a condition holds. -/
def lifeIf (b : Bool) (id : Nat) (s : State) : State := if b then s.life id 1 else s

/-- One second of a channel (Tables 15.6 and 15.7). -/
def chanSecond (c : Nat) (s : State) : State :=
  let h := s.chan c
  let s1 := lifeIf (h.fsm.state == .run) (chanStat c 0x180) s
  let s2 := lifeIf h.fsm.state.switching (chanStat c 0x181) s1
  let s3 := lifeIf h.model.xmaxSec (chanStat c 0x18A) s2
  let s4 := lifeIf h.model.coilSec (chanStat c 0x18B) s3
  let s5 := if s.enabled c then histogram (chanStat c 0x200) ((h.model.tv + 20) / 10) s4 else s4
  s5.modModel c fun m => { m with xmaxSec := false, coilSec := false }

/-- One second of the device: its lifetime seconds, the fold-back seconds, the snapshot's age, and the skews that no longer last. -/
def deviceSecond (s : State) : State :=
  let standby := s.keeper.dev == .standby
  let s1 := lifeIf (s.keeper.dev == .run) (devStat 0x802) (lifeIf standby (devStat 0x803) (lifeIf (!standby) (devStat 0x801) s))
  let s2 := forUnits 4 (fun d s => if (s.dsd d).sDb < 0 then s.count (devStat (0x403 + 4 * d)) 1 else s) s1
  let s3 := forUnits 208 chanSecond s2
  { s3 with
    store := { s3.store with snapAge := s3.store.snapAge + 1 }
    streams := s3.streams.map fun t => { t with skewRaised := t.skewRaised && decide (1000 < skewNow s t) } }

/-- The trim of an S-channel in MUTED runs, and is measured every 100 ms (R252, R275). -/
def trimMuted (c : Nat) (s : State) : State := if (s.chan c).fsm.state = .muted ∧ !isL c then trimLoop c s else s

/-- The 100 ms values begin anew. -/
def clearTenths (s : State) : State := { s with chans := s.chans.map clearTenth }
/-- What a second brings once it has passed. -/
def secondPasses (s : State) : State :=
  if s.misc.lifeAt ≤ s.keeper.counterUs then deviceSecond { s with misc := { s.misc with lifeAt := s.keeper.counterUs + second } } else s

/-- A refresh (R215, R403): the fields, the 100 ms samples, and what a second brings once it has passed. -/
def refresh (s : State) : State :=
  secondPasses (clearTenths (forUnits 208 runSamples (putStatus (forUnits 208 trimMuted s))))

def execStatusRefresh (s : State) : Out State := if keeperFree s then .next (refresh s) else .next s

end Sys2Proof.Machine
end

