-- ==== Sys2Proof/Machine/Store.lean ====
section
/-! DEFINITION. The log and lifetime regions, snapshots (R394, R395, R397, R399) and held packets (R410). -/

namespace Sys2Proof.Machine

/-- The Keeper can write the flash for its store (R82, R394, R397): not in STANDBY before VIO is up in a wake,
and not before the last record of a brown-out; nothing of a higher priority waits (R37). -/
def storeServes (s : State) : Bool := keeperFree s && flashOn s && (s.keeper.dev != .standby || s.keeper.waking) && !s.store.lastPending

def execLogFlush (s : State) : Out State := if storeServes s then .next (flushLog s) else .next s

/-- A write pointer that enters a new sector counts its failures afresh. -/
def freshFails (lifetime : Bool) (sector : Nat) (s : State) : State :=
  let go := fun (r : Region) => if r.writeSlot / sectorSlots = sector then r else { r with failsHere := 0 }
  { s with store := s.store.setRegion lifetime (go (s.store.region lifetime)) }

/-- The records that wait for a region, oldest first. -/
def waitingFor (lifetime : Bool) (s : State) : List Record := if lifetime then s.store.lifeOut else s.log.buffer.take s.log.flushing

/-- The oldest record that waits for a region has been programmed. -/
def recordDone (lifetime : Bool) (x : Record) (s : State) : State :=
  if lifetime then noteStored x { s with store := { s.store with lifeOut := s.store.lifeOut.drop 1 } }
  else { s with log := { s.log with buffer := s.log.buffer.drop 1, flushing := s.log.flushing - 1 } }

/-- The oldest record that waits for a region is programmed and verified in an erased slot (R394). `readBack` 0: both read-backs succeed;
1: that of bytes 0 to 59 fails; else that of COMMIT fails. -/
def execRecordWrite (lifetime : Bool) (readBack : Nat) (s : State) : Out State :=
  let r := s.store.region lifetime
  match waitingFor lifetime s with
  | [] => .next s
  | x :: _ =>
    if storeServes s && !(r.slots.any (·.1 == r.writeSlot)) then
      .next (if readBack = 0 then recordDone lifetime x (freshFails lifetime (r.writeSlot / sectorSlots) (programRecord lifetime x s))
        else slotFails lifetime (if readBack = 1 then .torn else .corrupt) s)
    else .next s

/-- The sector that SECTOR_ERASE erases (R394): that of the write slot where a record stands in that slot, else the one ahead. -/
def eraseTarget (cap : Nat) (r : Region) : Nat :=
  if r.slots.any (·.1 == r.writeSlot) then r.writeSlot / sectorSlots
  else nextSlot cap r.retired (r.retired.length + 1) ((r.writeSlot / sectorSlots + 1) * sectorSlots) / sectorSlots

/-- The oldest sector ahead of the write slot is erased where records stand in it; an erase that fails leaves them and is reported
(R394, R404). -/
def execSectorErase (lifetime ok : Bool) (s : State) : Out State :=
  let r := s.store.region lifetime
  let x := eraseTarget (regionSlots lifetime s.store.flashMb) r
  if storeServes s && r.slots.any (fun p => p.1 / sectorSlots == x) then
    .next (if ok then { s with store := s.store.setRegion lifetime (r.eraseSector x) }
      else s.raise 0x9007 0 [word (regionOffset lifetime + x * 0x10000), 2])
  else .next s

/-- No periodic snapshot is written in STANDBY, nor before READY in a wake (R82). -/
def execSnapshot (s : State) : Out State := if storeServes s && s.keeper.dev != .standby then .next (snapshot s) else .next s

/-- A held packet, an entry of its port's audio FIFO, is passed 1 ms after it was held (R410, Table 16.6); its completion is the later
instant. MEDIA counts 49,152 ticks in 1 ms; a stamp is in ns. -/
def execInjectReorderRelease (inj : Nat) (s : State) : Out State :=
  if inj = 64 then .next (fzReleaseHeld (((s.inj 64).heldPkt.map (·.2)).getD 0 + 1000000) s)
  else match (s.inj inj).heldPkt with
  | some h => .next (streamTake (inj / 2) (inj % 2) (h.1.drop 6) (h.2 + 49152) (s.modInj inj fun j => { j with heldPkt := none }))
  | none => .next s

end Sys2Proof.Machine
end

