-- ==== Sys2Proof/Machine/Twin.lean ====
section
/-! DEFINITION. The Fikezo link, beacons, roles, takeover, agreed commits, joining and sharing (R240, R357 to R380). -/

namespace Sys2Proof.Machine

/-! ### The link (R359) -/

/-- Both lanes are aligned and 3 beacons in a row were valid. A returning link compares the digests again, and the FOLLOW of a pair that
shares adopts the shadow (R242, R380). -/
def execPeerLinkUp (s : State) : Out State :=
  if fzLive s && !s.twin.link && decide (3 ≤ s.twin.beaconsOk) then
    let s1 := ({ s with twin := { s.twin with link := true, badDigests := 0 } } : State).raise 0x8002 0 []
    let s2 := judgeMode s1
    .next (if s.twin.effShared && s2.twin.effShared then { s2 with twin := wantShadow false s2.twin } else s2)
  else .next s

def execPeerLinkDown (s : State) : Out State := if s.twin.link then .next (linkDown s) else .next s

/-! ### Received frames -/

def execSampleFrame (frame : List Byte) (s : State) : Out State := if fzLive s then .next (fzReceive 1 frame 0 s) else .next s
def execBlockFrame (frame : List Byte) (s : State) : Out State := if fzLive s then .next (fzReceive 2 frame 0 s) else .next s
def execModelFrame (frame : List Byte) (s : State) : Out State := if fzLive s then .next (fzReceive 3 frame 0 s) else .next s
def execPeerBeacon (frame : List Byte) (s : State) : Out State := if fzLive s then .next (fzReceive 4 frame 0 s) else .next s
def execEpochFrame (frame : List Byte) (s : State) : Out State := if fzLive s then .next (fzReceive 5 frame 0 s) else .next s
def execTimeFrame (frame : List Byte) (t2 : Nat) (s : State) : Out State := if fzLive s then .next (fzReceive 6 frame t2 s) else .next s

/-! ### Sent frames (R361, R363, R376) -/

/-- A frame of a type goes out with its FLAGS and its own sequence number. -/
def fzSend (ty index : Nat) (body : List Byte) (s : State) : State :=
  let q := s.twin.seqs.getD (ty - 1) 0
  let flags := bit (s.twin.role == .lead) 0 + bit s.twin.effShared 1
  ({ s with twin := { s.twin with seqs := s.twin.seqs.set (ty - 1) (q + 1) } } : State).send ⟨3, 0, 0, fzBytes ty flags index q body⟩

/-- One channel's part of a SAMPLE payload (Table 14.4). -/
def samplePart (sense : List SensePair) (s : State) (c : Nat) : List Byte :=
  match sense.find? (·.ch == c) with
  | some p => le 3 (BitVec.ofInt 24 p.v).toNat ++ le 3 (BitVec.ofInt 24 p.i).toNat ++ [BitVec.ofNat 8 (bit p.valid 0 + bit (armed s c) 1), 0]
  | none => zeros 6 ++ [BitVec.ofNat 8 (bit (armed s c) 1), 0]

/-- The SAMPLE payload for index m. -/
def sampleBody (sense : List SensePair) (m : Nat) (s : State) : List Byte :=
  let b := s.cfg.active
  let miss := (List.range 32).foldl (fun a st => a + bit (b.streamOn st && !covered (s.stream st).placed (m + 27)) st) 0
  let tdm := (List.range 4).foldl (fun a x => a + bit ((s.tdm x).fadeFrom == some (m + 27)) x) 0
  (List.range 208).flatMap (samplePart sense s) ++ le 4 miss ++ [BitVec.ofNat 8 tdm, BitVec.ofNat 8 (bit (s.spi.mutePin || s.spi.emute) 0), 0, 0]

/-- The own currents of sample m are kept for the correction. -/
def keepOwn (sense : List SensePair) (m : Nat) (s : State) : State :=
  sense.foldl (fun s p => if p.valid then s.modShare p.ch (·.takeOwn (m, p.i)) else s) s

/-- The currents of sample m wait for the PEER clock, which stands while the interface is off (R32). -/
def waitOwn (sense : List SensePair) (m : Nat) (s : State) : State :=
  sense.foldl (fun s p => if p.valid then s.modShare p.ch (·.queuePeer (m, p.i)) else s) s

/-- JOIN_REQ as it is sent: from the start of a join until R264 is met on the joiner. How long JOIN_REQ lasts is not stated, and no other field of
Table 14.5 tells the starter that R264 is met there (R376): the model's choice (notes/assumptions/80.md). -/
def joinWaits (s : State) (c : Nat) : Bool :=
  let h := s.chan c
  h.share.joinReq || (h.share.joined && h.fsm.state == .idle && !h.fsm.admitted)

/-- The BLOCK payload (Table 14.5). -/
def blockBody (s : State) : List Byte :=
  (List.range 208).map (fun c =>
      let h := s.chan c
      BitVec.ofNat 8 (h.fsm.state.code + bit (armed s c) 4 + bit (joinWaits s c) 5 + bit h.fsm.voltageOnly 6 + bit (decide (0 < h.share.mark) && decide (h.share.mark ≤ 48)) 7))
    ++ (List.range 12).map (fun r => BitVec.ofNat 8 (cEffDsp s r))
    ++ (List.range 4).flatMap (fun d => le 4 (f32Of (dbGain (s.dsd d).sDb)).toNat)
    ++ (List.range 208).flatMap (fun c => le 4 (f32Of (s.chan c).loop.mIdxDsp).toNat)
    ++ le 8 s.twin.runBlock ++ chanMap 26 (fun c => s.twin.runMap.contains c) ++ zeros 14

/-- Eight modelled channels from the next one on, in turn. -/
def modelTurn (s : State) : List Nat :=
  let l := modelledChans s.cfg.active
  (List.range 8).map fun i => l.getD ((s.twin.modelNext + i) % l.length) 0

/-- The starter may name a channel for RUN (R376): R264 holds on its side, and the joiner is in IDLE with R264 met, is held or in FAULT, or has
had 200 ms. -/
def mayName (s : State) (c : Nat) : Bool :=
  let h := s.chan c
  h.fsm.state == .idle && h.fsm.admitted && !joiner s c &&
    (h.share.partnerState == 3 && !h.share.partnerJoin || h.share.partnerState == 0 || h.share.partnerState == 6 || sinceRelease s c 19200)

/-- The starter names its next RUN block: at least 3 blocks ahead; how far is not stated. -/
def nameRun (s : State) : State :=
  if s.twin.runBlock ≠ 0 ∨ !sharing s then s
  else
    let l := (List.range 208).filter (mayName s)
    if l.isEmpty then s
    else let d := s.draw; { d.2 with twin := { d.2.twin with runBlock := winK s + 3 + d.1, runMap := l } }

/-- The EPOCH payload of a proposal. -/
def epochBody (p : Proposal) : List Byte :=
  le 4 p.epoch ++ le 4 p.digest ++ le 8 (p.k0.getD 0xFFFFFFFFFFFFFFFF) ++ [BitVec.ofNat 8 p.state, 0, 0, 0] ++ le 8 p.armedBlock

/-- A frame of type `ty` is sent where Table 14.3 has it sent. Beacons go out while the lanes carry data, since the link needs three of
them to come up (notes/assumptions/31.md). -/
def execPeerFrameSend (ty : Nat) (pairs : List SensePair) (s : State) : Out State :=
  let sense := pairs.map (marked s)
  let k := s.media.index / 8
  let m := (sense.head?.map (·.n)).getD (s.media.index - 3)
  if !(fzLive s && s.media.locked) then .next (if ty = 1 ∧ s.media.locked then waitOwn sense m s else s)
  else match ty with
    | 1 =>
      if s.twin.link then
        .next (fzSend 1 m (sampleBody sense m s) (keepOwn sense m s))
      else .next s
    | 2 =>
      if s.twin.link then
        let s1 := nameRun s
        .next (fzSend 2 (8 * winK s) (blockBody s1) s1)
      else .next s
    | 3 =>
      if s.twin.link && s.twin.role == .lead && !(modelledChans s.cfg.active).isEmpty then
        let l := modelTurn s
        .next (fzSend 3 (8 * k) (l.flatMap fun c => shadowEntry s c k)
          { s with twin := { s.twin with modelNext := (s.twin.modelNext + 8) % (modelledChans s.cfg.active).length } })
      else .next s
    | 4 =>
      if k % 12 = 0 then .next (fzSend 4 (8 * k) (beacon s) s) else .next s
    | 5 =>
      match s.twin.own with
      | some p => if s.twin.link then .next (fzSend 5 (8 * k) (epochBody p) s) else .next s
      | none => .next s
    | 6 =>
      if s.twin.link then .next (fzSend 6 (8 * k) (le 8 s.ptp.timeNs ++ le 8 s.twin.t1Last ++ le 8 s.twin.t2Last) s) else .next s
    | _ => .next s

/-- The network beacon on each enabled port whose link is up, every 1,200 blocks (R363). -/
def execNetworkBeaconSend (s : State) : Out State :=
  match pairGroup s.cfg.active with
  | some g =>
    if s.media.locked && canLog s && s.media.index / 8 % 1200 == 0 then
      .next (forUnits 2 (fun p s => if s.cfg.active.portOn p && (s.port p).up then s.send ⟨p, g, 30209, beacon s⟩ else s) s)
    else .next s
  | none => .next s

/-- A network beacon reaches the Keeper (R364). -/
def execNetworkBeacon (port : Nat) (beacon : List Byte) (s : State) : Out State :=
  if decide (port < 2) && s.cfg.active.portOn port && canLog s && beacon.length == 128 then .next (takeBeacon false beacon s) else .next s

/-! ### Roles (R357, R369) -/

/-- No peer beacon for 5 ms and no network beacon for 300 ms. -/
def execPartnerAbsent (s : State) : Out State := if twinned s then .next (partnerGone s) else .next s

/-- 2 s in RUN without the partner. -/
def execTakeLeadAlone (s : State) : Out State :=
  if twinned s && s.keeper.dev == .run && !s.twin.paired && !s.twin.peerSeen && !s.twin.netSeen && s.twin.role != .lead
      && (s.twin.role == .none || s.flag 0x08 0 3) then
    .next (if s.twin.role = .follow then takeover 2 s else { s with twin := { s.twin with role := .lead } })
  else .next s

/-! ### Agreed commits (R368) -/

def execCommitAbandoned (s : State) : Out State :=
  match s.cfg.commit with
  | some c => if !s.keeper.halted && c.epoch.isSome && c.k0.isNone && !matched s.twin then .next (abandonCommit 1 s) else .next s
  | none => .next s

/-! ### Joining (R375 to R377) -/

/-- A join check fails (R375). -/
def joinFailed (c low : Nat) (data : List Word) (s : State) : State :=
  (if (s.chan c).fsm.state = .idle then hardStop c (chanCode c low) data s else failTest c (chanCode c low) data s).raise 0x800E c [word (chanCode c low)]

/-- The voltage check of a joiner in DIAG or RETEST. -/
def joinVoltage (c : Nat) (vOwn iOwn vStarter : Rat) (s : State) : State :=
  let f := (s.chan c).fsm
  let r := vOwn / vStarter
  let bits := fun (v i : Bool) => [word (bit v 0 + bit i 1)]
  let und := [wordS (1000 * vOwn), wordS (1000 * iOwn)]
  if vStarter = 0 then joinFailed c 0xB und s
  else if 1/2 ≤ r then
    let s1 := if f.polRepeat then s.raise (chanCode c 0xA) c (bits f.swapV f.swapI) else s
    if f.state = .retest then s1.modFsm c fun f => { f with diagStep := 7 }
    else toPrecharge c (s1.life (chanStat c 0x187) 1)
  else if r ≤ -1/2 ∧ !f.polRepeat then
    if s.nat 0x10 c 0x18 = 0 then joinFailed c 9 (bits true false) (s.modFsm c fun f => { f with foundV := true })
    else (s.modFsm c fun f => { f with foundV := true, swapV := !f.swapV, polRepeat := true }).modShare c fun h => { h with vOwnSum := -h.vOwnSum }
  else joinFailed c 0xB und s

/-- The current check of a joiner in IDLE, 10 ms after its release. -/
def joinCurrent (c : Nat) (vOwn iOwn : Rat) (s : State) : State :=
  let done := fun (s : State) => s.modShare c fun h => { h with joined := true, joinReq := false, mark := 0 }
  if 10/1000 ≤ iOwn then done s
  else if iOwn < 0 then
    let s1 := s.modFsm c fun f => { f with foundI := true }
    if s.nat 0x10 c 0x18 = 0 then joinFailed c 9 [2] s1
    else
      let s2 := s1.modFsm c fun f => { f with swapI := !f.swapI }
      done (s2.raise (chanCode c 0xA) c [word (bit (s2.chan c).fsm.swapV 0 + bit (s2.chan c).fsm.swapI 1)])
  else joinFailed c 0xB [wordS (1000 * vOwn), wordS (1000 * iOwn)] s

/-- A mean over `n` samples; 0 where none came. -/
def meanOver (sum : Rat) (n : Nat) : Rat := if n = 0 then 0 else sum / n

/-- The central 2 ms of the mark are over, and the joiner judges the means over them (R375). -/
def execJoinCheck (c : Nat) (s : State) : Out State :=
  let f := (s.chan c).fsm
  let h := (s.chan c).share
  if sharing s && h.joinReq && f.stop == .none && h.markAt.any fun a => decide (a + 288 ≤ winBase s) then
    if f.state == .diag || f.state == .retest && f.diagStep != 8 then .next (joinVoltage c (meanOver h.vOwnSum h.nOwn) (meanOver h.iOwnSum h.nOwn) (meanOver h.vStSum h.nSt) s)
    else if f.state == .idle then .next (joinCurrent c (meanOver h.vOwnSum h.nOwn) (meanOver h.iOwnSum h.nOwn) s)
    else .next s
  else .next s

/-- A channel at a RUN block that the partner named: it enters RUN, or a joiner that is not ready stops (R376). -/
def joinRun (c : Nat) (s : State) : State :=
  let f := (s.chan c).fsm
  if f.state = .idle ∧ f.admitted ∧ !(s.chan c).share.joinReq ∧ f.stop = .none then admitChannel c s
  else if f.state = .diag ∨ f.state = .precharge ∨ f.state = .idle then requestStop c false s
  else s

/-- A channel at a RUN block that this side named. -/
def starterRun (c : Nat) (s : State) : State :=
  let f := (s.chan c).fsm
  if f.state = .idle ∧ f.admitted ∧ f.stop = .none then admitChannel c s else s

/-- Block k begins and is a RUN block (R376). -/
def execRunBlockReached (s : State) : Out State :=
  let k := winK s
  let own := s.twin.runBlock != 0 && decide (s.twin.runBlock ≤ k)
  let theirs := s.twin.theirRunBlock != 0 && decide (s.twin.theirRunBlock ≤ k)
  if s.media.locked && (own || theirs) then
    let s1 : State := if own then { forList s.twin.runMap starterRun s with twin := { s.twin with runBlock := 0, runMap := [] } } else s
    .next (if theirs then
      let s2 := forList s1.twin.theirRunMap joinRun s1
      { s2 with twin := { s2.twin with theirRunBlock := 0, theirRunMap := [] } } else s1)
  else .next s

/-- |Δ| above 20 % of full scale on 96 samples in a row: the FOLLOW's channel stops (R377). -/
def execShareImbalance (c : Nat) (s : State) : Out State :=
  let h := (s.chan c).share
  if bothDrive s c && s.twin.role == .follow && decide (96 ≤ h.imbRun) then .next (hardStop c 0x800D [wordU (1000 * h.imbPeak)] s) else .next s

/-- The offset has stayed below 0.5 µs for 1 s with equal grandmasters (R378, R379); the FOLLOW resumes with the LEAD. -/
def execSharingResumed (s : State) : Out State :=
  if s.twin.paused && s.twin.link && !(s.twin.role == .follow && s.twin.partnerPaused) && s.twin.goodSince.any (fun g => decide (g + 96000 ≤ s.media.samples)) && s.twin.partnerGm == s.ptp.gm then
    let s1 : State := { s with twin := { s.twin with paused := false } }
    .next (judgeMode (if s.twin.role = .follow then s1.raise 0x8009 0 [] else s1))
  else .next s

end Sys2Proof.Machine
end

