-- ==== Sys2Proof/Machine/Update.lean ====
section
/-! DEFINITION. Firmware updates (R390, R391) and the fault injectors' command (R409 to R411). -/

namespace Sys2Proof.Machine

/-! ### Firmware updates (R390, R391) -/

/-- How a bank ranks for the choice of the target while FW_SPI is 1: a bank that is not valid lies below every valid one. -/
def bankRank (b : FwBank) : Nat := if b.valid then b.seq + 1 else 0

/-- The target bank (R390): true for B. -/
def targetB (s : State) : Bool :=
  if s.keeper.fwSpi then decide (bankRank s.store.fwB < bankRank s.store.fwA) else !s.keeper.fwBank

/-- FW_UPDATE_BEGIN refuses its arguments (R391). -/
def updateArgsBad (len seq : Nat) (s : State) : Bool :=
  decide (len < 64) || decide (bankSize < len) || (s.store.fwA.valid && decide (seq ≤ s.store.fwA.seq)) ||
    (s.store.fwB.valid && decide (seq ≤ s.store.fwB.seq))

/-- The bank under update. -/
def Store.updBank (st : Store) : FwBank := if st.updBankB then st.fwB else st.fwA
def Store.setUpdBank (b : FwBank) (st : Store) : Store := if st.updBankB then { st with fwB := b } else { st with fwA := b }

/-- The device enters UPDATE, or starts again on the same bank, which is erased (R111, R391). -/
def beginUpdate (len seq : Nat) (s : State) : State :=
  let b := if s.keeper.dev = .update then s.store.updBankB else targetB s
  let st : Store := { s.store with updLen := len, updSeq := word seq, updGot := 0, updBankB := b }
  let s1 : State := { s with store := (st.setUpdBank {}).countErase (bit b 0) }
  if s.keeper.dev = .update then s1 else abortTests (fun _ => true) 0xA011 (s1.setDev .update 1)

def execFwUpdateBegin (i : Nat) (s : State) : Out State :=
  serve i 0x60 (fun r t =>
    let len := leAt r.payload 0 4
    let seq := leAt r.payload 4 4
    if updateArgsBad len seq t then reply i r errArg [] t else reply i r stOk [] (beginUpdate len seq t)) s

/-- The bytes come in order from offset 0, within the image, and byte 0 is 0xFF (R391). -/
def updateData (o : Nat) (data : List Byte) (s : State) : Bool :=
  o == s.store.updGot && decide (o + data.length ≤ s.store.updLen) && (o != 0 || data.head? == some 0xFF)

def execFwUpdateData (i : Nat) (s : State) : Out State :=
  serve i 0x61 (fun r t =>
    let o := leAt r.payload 0 4
    let data := r.payload.drop 4
    if updateData o data t then
      let st : Store := { t.store with updGot := o + data.length }
      reply i r stOk [] { t with store := st.setUpdBank { st.updBank with bytes := st.updBank.bytes ++ data } }
    else reply i r errArg [] t) s

/-- The read-back image passes every check of R391. -/
def imageGood (crc : Nat) (st : Store) : Bool :=
  let b := st.updBank.bytes
  (crc32 b).toNat == crc && fwHeadOk b && fwBodyOk b && fwKindOk b && word st.updBank.seq == st.updSeq

/-- The update is complete: the snapshot is in the flash, then the commit byte (R391, R399, Table 15.6). -/
def commitUpdate (s : State) : State :=
  let s1 := drainStore (snapshot (s.life (devStat 0x808) 1))
  { s1 with store := { s1.store.setUpdBank { s1.store.updBank with commit := 0xA5 } with updLen := 0, updGot := 0 } }

/-- `imageOk`: the image read back equals the bytes that were sent; `commitOk`: COMMIT reads back 0xA5. Where it does not, no rule states the
answer: ERR_FLASH, with no valid commit byte (notes/assumptions/75.md). -/
def execFwUpdateEnd (i : Nat) (imageOk commitOk : Bool) (s : State) : Out State :=
  serve i 0x62 (fun r t =>
    if t.store.updLen = 0 ∨ t.store.updGot < t.store.updLen then reply i r errArg [] t
    else if imageOk && imageGood (leAt r.payload 0 4) t.store then
      if commitOk then resetAfter i (reply i r stOk [] (commitUpdate t)) else reply i r errFlash [] (drainStore (snapshot t))
    else reply i r errFlash [] t) s

/-! ### INJECT (R409 to R411) -/

/-- The injector that INJECT names: its number, or none where its arguments are refused (R410). -/
def injectorOf (b : Bank) (stream side : Nat) : Option Nat :=
  if stream = 0xFFFF then (if side = 2 then some 64 else none)
  else if stream < 32 ∧ side < 2 ∧ b.streamOn stream ∧ b.streamSide stream side then some (2 * stream + side) else none

/-- The seed of mode 0 (R411). -/
def injSeed (q stream side : Nat) : Nat := q % 32768 * 65536 + stream % 256 * 256 + side + 1

/-- An injector is set (R410, R411, Table 16.8), or cleared by action 0. -/
def setInjector (k stream side action mode ppm burst : Nat) (s : State) : State :=
  let q := s.tests.injSeq + 1
  let s1 : State := { s with tests := { s.tests with injSeq := q } }
  if action = 0 then injClear 1 k s1
  else
    let seed := if mode = 0 then injSeed q stream side else 0
    (s1.modInj k fun j => { heldPkt := j.heldPkt, action := action, mode := mode, ppm := ppm, left := burst, lfsr := seed }).raise 0xA004 stream
      [word side, word action, word mode, word (if mode = 0 then ppm else if mode = 2 then burst else 0), word seed]

def execInject (i : Nat) (s : State) : Out State :=
  serve i 0x52 (fun r t =>
    let p := r.payload
    let stream := leAt p 0 2
    let side := leAt p 2 1
    let action := leAt p 3 1
    let mode := leAt p 4 1
    let ppm := leAt p 8 4
    let burst := leAt p 12 2
    if !unlocked t.cfg.active then reply i r errLocked [] t
    else match injectorOf t.cfg.active stream side with
    | none => reply i r errArg [] t
    | some k =>
      if 3 < action ∨ (2 < mode ∧ action ≠ 0) ∨ 1000000 < ppm ∨ (mode = 2 ∧ burst = 0) then reply i r errArg [] t
      else reply i r stOk [] (setInjector k stream side action mode ppm burst t)) s

end Sys2Proof.Machine
end

