-- ==== Sys2Proof/Machine/Dispatch.lean ====
section
/-! DEFINITION. One arm for each command: a direct call of its meaning. -/

namespace Sys2Proof.Machine

def exec (i : Instr) (s : State) : Host.Outcome State Fault Refusal :=
  match i with
  | .nop m => Sys2Proof.Machine.execNop m s
  | .getInfo m => Sys2Proof.Machine.execGetInfo m s
  | .run m => Sys2Proof.Machine.execRun m s
  | .stop m => Sys2Proof.Machine.execStop m s
  | .standby m => Sys2Proof.Machine.execStandby m s
  | .reset m => Sys2Proof.Machine.execReset m s
  | .clearFault m => Sys2Proof.Machine.execClearFault m s
  | .emute m => Sys2Proof.Machine.execEmute m s
  | .setParam m => Sys2Proof.Machine.execSetParam m s
  | .getParam m => Sys2Proof.Machine.execGetParam m s
  | .writeBlock m => Sys2Proof.Machine.execWriteBlock m s
  | .readBlock m => Sys2Proof.Machine.execReadBlock m s
  | .commit m => Sys2Proof.Machine.execCommit m s
  | .discard m => Sys2Proof.Machine.execDiscard m s
  | .getEvents m => Sys2Proof.Machine.execGetEvents m s
  | .peek m => Sys2Proof.Machine.execPeek m s
  | .poke m => Sys2Proof.Machine.execPoke m s
  | .selfTest m => Sys2Proof.Machine.execSelfTest m s
  | .getTestResult m => Sys2Proof.Machine.execGetTestResult m s
  | .inject m => Sys2Proof.Machine.execInject m s
  | .fwUpdateBegin m => Sys2Proof.Machine.execFwUpdateBegin m s
  | .fwUpdateData m => Sys2Proof.Machine.execFwUpdateData m s
  | .fwUpdateEnd m imageOk commitOk => Sys2Proof.Machine.execFwUpdateEnd m imageOk commitOk s
  | .spiUnknownInstruction op => Sys2Proof.Machine.execSpiUnknownInstruction op s
  | .spiWriteUnmapped addr b => Sys2Proof.Machine.execSpiWriteUnmapped addr b s
  | .registerWrite off n v => Sys2Proof.Machine.execRegisterWrite off n v s
  | .mailboxByteWrite addr b => Sys2Proof.Machine.execMailboxByteWrite addr b s
  | .doorbell v => Sys2Proof.Machine.execDoorbell v s
  | .rspReadyRelease v => Sys2Proof.Machine.execRspReadyRelease v s
  | .heldResponseWrite m => Sys2Proof.Machine.execHeldResponseWrite m s
  | .irqStatusClear v => Sys2Proof.Machine.execIrqStatusClear v s
  | .emuteRegisterWrite v => Sys2Proof.Machine.execEmuteRegisterWrite v s
  | .spiErrRead n => Sys2Proof.Machine.execSpiErrRead n s
  | .imagePortWrite b => Sys2Proof.Machine.execImagePortWrite b s
  | .imgClear => Sys2Proof.Machine.execImgClear s
  | .imgGo => Sys2Proof.Machine.execImgGo s
  | .hostDatagram addr port dst dport payload => Sys2Proof.Machine.execHostDatagram addr port dst dport payload s
  | .powerOnReset strapBoot => Sys2Proof.Machine.execPowerOnReset strapBoot s
  | .keeperIslandReset => Sys2Proof.Machine.execKeeperIslandReset s
  | .resetNAssert => Sys2Proof.Machine.execResetNAssert s
  | .resetNRelease strapBoot => Sys2Proof.Machine.execResetNRelease strapBoot s
  | .watchdogExpiry => Sys2Proof.Machine.execWatchdogExpiry s
  | .busWarn v => Sys2Proof.Machine.execBusWarn v s
  | .brownoutSilent => Sys2Proof.Machine.execBrownoutSilent s
  | .lastRecord logFails lifeFails => Sys2Proof.Machine.execLastRecord logFails lifeFails s
  | .busDip v => Sys2Proof.Machine.execBusDip v s
  | .busRecovery => Sys2Proof.Machine.execBusRecovery s
  | .busOv => Sys2Proof.Machine.execBusOv s
  | .busOvLong => Sys2Proof.Machine.execBusOvLong s
  | .busReversed => Sys2Proof.Machine.execBusReversed s
  | .reverseCurrentBlock => Sys2Proof.Machine.execReverseCurrentBlock s
  | .pwrPgHigh strapTwin strapDrv => Sys2Proof.Machine.execPwrPgHigh strapTwin strapDrv s
  | .pgTimeout => Sys2Proof.Machine.execPgTimeout s
  | .pgLost => Sys2Proof.Machine.execPgLost s
  | .sequenceRetry => Sys2Proof.Machine.execSequenceRetry s
  | .romBankSelect sfdp => Sys2Proof.Machine.execRomBankSelect sfdp s
  | .firmwareStart => Sys2Proof.Machine.execFirmwareStart s
  | .mediaPllLock => Sys2Proof.Machine.execMediaPllLock s
  | .dsdBringup d vdrv trim link sref ntcOhm => Sys2Proof.Machine.execDsdBringup d vdrv trim link sref ntcOhm s
  | .configLoad => Sys2Proof.Machine.execConfigLoad s
  | .mailboxReady => Sys2Proof.Machine.execMailboxReady s
  | .wakePatternMatch frame fcsOk => Sys2Proof.Machine.execWakePatternMatch frame fcsOk s
  | .standbyWakeTimer => Sys2Proof.Machine.execStandbyWakeTimer s
  | .wake => Sys2Proof.Machine.execWake s
  | .keeperHalt => Sys2Proof.Machine.execKeeperHalt s
  | .keeperResume => Sys2Proof.Machine.execKeeperResume s
  | .heartbeat => Sys2Proof.Machine.execHeartbeat s
  | .statusRefresh => Sys2Proof.Machine.execStatusRefresh s
  | .unitArm => Sys2Proof.Machine.execUnitArm s
  | .unitSwitch => Sys2Proof.Machine.execUnitSwitch s
  | .crossfadeEnd c => Sys2Proof.Machine.execCrossfadeEnd c s
  | .commitDone => Sys2Proof.Machine.execCommitDone s
  | .cfgStore verifyOk => Sys2Proof.Machine.execCfgStore verifyOk s
  | .dspWindow sense => Sys2Proof.Machine.execDspWindow sense s
  | .railSelectionApply rc => Sys2Proof.Machine.execRailSelectionApply rc s
  | .ceilingTermsRefresh rc vRail => Sys2Proof.Machine.execCeilingTermsRefresh rc vRail s
  | .rselFilterRail row us => Sys2Proof.Machine.execRselFilterRail row us s
  | .rselFilterDsp row us => Sys2Proof.Machine.execRselFilterDsp row us s
  | .keeperCeilingWrite rc row => Sys2Proof.Machine.execKeeperCeilingWrite rc row s
  | .networkFrame port frame fcsOk tick => Sys2Proof.Machine.execNetworkFrame port frame fcsOk tick s
  | .streamPacket port => Sys2Proof.Machine.execStreamPacket port s
  | .streamMissing st => Sys2Proof.Machine.execStreamMissing st s
  | .streamReentry st => Sys2Proof.Machine.execStreamReentry st s
  | .streamOverrun st => Sys2Proof.Machine.execStreamOverrun st s
  | .pathSkew st => Sys2Proof.Machine.execPathSkew st s
  | .pathLost st side recovered => Sys2Proof.Machine.execPathLost st side recovered s
  | .linkUp port => Sys2Proof.Machine.execLinkUp port s
  | .linkDown port => Sys2Proof.Machine.execLinkDown port s
  | .moduleAbsent port => Sys2Proof.Machine.execModuleAbsent port s
  | .igmpReport port => Sys2Proof.Machine.execIgmpReport port s
  | .igmpQuery port version group => Sys2Proof.Machine.execIgmpQuery port version group s
  | .keeperFrame ring frame fcsOk => Sys2Proof.Machine.execKeeperFrame ring frame fcsOk s
  | .nmFrame frame fcsOk => Sys2Proof.Machine.execNmFrame frame fcsOk s
  | .nmLinkUp mbps fullDuplex => Sys2Proof.Machine.execNmLinkUp mbps fullDuplex s
  | .monitorPacket j => Sys2Proof.Machine.execMonitorPacket j s
  | .ptpSync port deltaNs logInterval atNs => Sys2Proof.Machine.execPtpSync port deltaNs logInterval atNs s
  | .ptpAnnounce port a atNs => Sys2Proof.Machine.execPtpAnnounce port a atNs s
  | .ptpDelayResponse port delayNs => Sys2Proof.Machine.execPtpDelayResponse port delayNs s
  | .ptpDelayReqSend port => Sys2Proof.Machine.execPtpDelayReqSend port s
  | .ptpHoldover atNs => Sys2Proof.Machine.execPtpHoldover atNs s
  | .ptpNoMaster => Sys2Proof.Machine.execPtpNoMaster s
  | .ptpLocked atNs => Sys2Proof.Machine.execPtpLocked atNs s
  | .timeMediaPair ptpNs tick => Sys2Proof.Machine.execTimeMediaPair ptpNs tick s
  | .mclkUpdate => Sys2Proof.Machine.execMclkUpdate s
  | .mclkHoldoverAlarm => Sys2Proof.Machine.execMclkHoldoverAlarm s
  | .mclkSteerLimit => Sys2Proof.Machine.execMclkSteerLimit s
  | .mediaStepStart => Sys2Proof.Machine.execMediaStepStart s
  | .mediaStepHalt => Sys2Proof.Machine.execMediaStepHalt s
  | .mediaStepResume ptpNs => Sys2Proof.Machine.execMediaStepResume ptpNs s
  | .tdmFrame x wave period tick => Sys2Proof.Machine.execTdmFrame x wave period tick s
  | .tdmClockLost x => Sys2Proof.Machine.execTdmClockLost x s
  | .tdmRateCheck x rateHz => Sys2Proof.Machine.execTdmRateCheck x rateHz s
  | .pilotWindow c p => Sys2Proof.Machine.execPilotWindow c p s
  | .reStale c => Sys2Proof.Machine.execReStale c s
  | .modelRecordStore => Sys2Proof.Machine.execModelRecordStore s
  | .lateReseed c => Sys2Proof.Machine.execLateReseed c s
  | .foldbackEpisodeEnd c magnet => Sys2Proof.Machine.execFoldbackEpisodeEnd c magnet s
  | .channelStart c => Sys2Proof.Machine.execChannelStart c s
  | .senseOffsetCal c vOff iOff => Sys2Proof.Machine.execSenseOffsetCal c vOff iOff s
  | .diagTestComplete c r => Sys2Proof.Machine.execDiagTestComplete c r s
  | .polarityCheck c vMean iMean => Sys2Proof.Machine.execPolarityCheck c vMean iMean s
  | .prechargeStart c => Sys2Proof.Machine.execPrechargeStart c s
  | .prechargeComplete c a b diff caps => Sys2Proof.Machine.execPrechargeComplete c a b diff caps s
  | .prechargeTimeout c vsp vsn => Sys2Proof.Machine.execPrechargeTimeout c vsp vsn s
  | .tauMeasured c tauNs => Sys2Proof.Machine.execTauMeasured c tauNs s
  | .loopRange c => Sys2Proof.Machine.execLoopRange c s
  | .idleComplete c => Sys2Proof.Machine.execIdleComplete c s
  | .fcImbalanceTimeout c => Sys2Proof.Machine.execFcImbalanceTimeout c s
  | .loopComparatorEdge c n j v m dtNs => Sys2Proof.Machine.execLoopComparatorEdge c n j v m dtNs s
  | .spreadDraw c => Sys2Proof.Machine.execSpreadDraw c s
  | .deadtimeAdapt c edge early late => Sys2Proof.Machine.execDeadtimeAdapt c edge early late s
  | .currentLimitTrip c aToB newCycle consecutive fell dropped => Sys2Proof.Machine.execCurrentLimitTrip c aToB newCycle consecutive fell dropped s
  | .dropTrip c aToB newCycle consecutive => Sys2Proof.Machine.execDropTrip c aToB newCycle consecutive s
  | .reverseStateRelease c => Sys2Proof.Machine.execReverseStateRelease c s
  | .loopStall c => Sys2Proof.Machine.execLoopStall c s
  | .senseOpenRun c a b => Sys2Proof.Machine.execSenseOpenRun c a b s
  | .enterRun c => Sys2Proof.Machine.execEnterRun c s
  | .muteNFiltered low ticks => Sys2Proof.Machine.execMuteNFiltered low ticks s
  | .emuteFallStart => Sys2Proof.Machine.execEmuteFallStart s
  | .emuteSilent => Sys2Proof.Machine.execEmuteSilent s
  | .emuteRiseStart => Sys2Proof.Machine.execEmuteRiseStart s
  | .muteEnter c => Sys2Proof.Machine.execMuteEnter c s
  | .silentStop c => Sys2Proof.Machine.execSilentStop c s
  | .silentStopGatesOff c => Sys2Proof.Machine.execSilentStopGatesOff c s
  | .silentStopDischarged c nodes => Sys2Proof.Machine.execSilentStopDischarged c nodes s
  | .silentStopTimeout c vsp vsn => Sys2Proof.Machine.execSilentStopTimeout c vsp vsn s
  | .cdLinkLost d => Sys2Proof.Machine.execCdLinkLost d s
  | .retestStart c => Sys2Proof.Machine.execRetestStart c s
  | .retestComplete c => Sys2Proof.Machine.execRetestComplete c s
  | .relayChange c m => Sys2Proof.Machine.execRelayChange c m s
  | .relayCoilOpen c v => Sys2Proof.Machine.execRelayCoilOpen c v s
  | .relayDrive c v => Sys2Proof.Machine.execRelayDrive c v s
  | .zoneNtcSample d ohm dieC => Sys2Proof.Machine.execZoneNtcSample d ohm dieC s
  | .zoneNtcOpen d ohm => Sys2Proof.Machine.execZoneNtcOpen d ohm s
  | .zoneNtcShort d ohm => Sys2Proof.Machine.execZoneNtcShort d ohm s
  | .zoneNtcReturn d => Sys2Proof.Machine.execZoneNtcReturn d s
  | .stageShutdown d => Sys2Proof.Machine.execStageShutdown d s
  | .junctionShutdown die tempC => Sys2Proof.Machine.execJunctionShutdown die tempC s
  | .junctionWarn die tempC => Sys2Proof.Machine.execJunctionWarn die tempC s
  | .faultNTrip inp ticks => Sys2Proof.Machine.execFaultNTrip inp ticks s
  | .faultNRelease inp => Sys2Proof.Machine.execFaultNRelease inp s
  | .loadAll v => Sys2Proof.Machine.execLoadAll v s
  | .maskStep k => Sys2Proof.Machine.execMaskStep k s
  | .pwmBoundary => Sys2Proof.Machine.execPwmBoundary s
  | .feederPeriod k => Sys2Proof.Machine.execFeederPeriod k s
  | .trigMatch k j v1 v2 m => Sys2Proof.Machine.execTrigMatch k j v1 v2 m s
  | .cellCheck c drops slopes => Sys2Proof.Machine.execCellCheck c drops slopes s
  | .feedUnderrun c => Sys2Proof.Machine.execFeedUnderrun c s
  | .feedResume c => Sys2Proof.Machine.execFeedResume c s
  | .railStart rc => Sys2Proof.Machine.execRailStart rc s
  | .railPrecheck rc isx vis vos rise => Sys2Proof.Machine.execRailPrecheck rc isx vis vos rise s
  | .railRegulating rc vOut ms => Sys2Proof.Machine.execRailRegulating rc vOut ms s
  | .startShort rc vOut ms => Sys2Proof.Machine.execStartShort rc vOut ms s
  | .startTimeout rc vOut ms => Sys2Proof.Machine.execStartTimeout rc vOut ms s
  | .railRetry rc => Sys2Proof.Machine.execRailRetry rc s
  | .railChargeStart rc vIn vOut m offNs sinceNs => Sys2Proof.Machine.execRailChargeStart rc vIn vOut m offNs sinceNs s
  | .railLimitTrip rc phaseB mv ns => Sys2Proof.Machine.execRailLimitTrip rc phaseB mv ns s
  | .railSag rc vOut => Sys2Proof.Machine.execRailSag rc vOut s
  | .railOv rc vOut => Sys2Proof.Machine.execRailOv rc vOut s
  | .railStop rc => Sys2Proof.Machine.execRailStop rc s
  | .phaseOpen rc phaseB iA iB => Sys2Proof.Machine.execPhaseOpen rc phaseB iA iB s
  | .phaseSenseFailed rc phaseB sensed => Sys2Proof.Machine.execPhaseSenseFailed rc phaseB sensed s
  | .rcNtcSample rc ohm => Sys2Proof.Machine.execRcNtcSample rc ohm s
  | .rcOvertemp rc => Sys2Proof.Machine.execRcOvertemp rc s
  | .rcOvertempRestart rc => Sys2Proof.Machine.execRcOvertempRestart rc s
  | .syncAcquired us => Sys2Proof.Machine.execSyncAcquired us s
  | .syncLost last gap edge => Sys2Proof.Machine.execSyncLost last gap edge s
  | .railSpreadDraw rc => Sys2Proof.Machine.execRailSpreadDraw rc s
  | .telemetryRefresh rc vIn vOut iA iB fA fB pOut held oneSecond => Sys2Proof.Machine.execTelemetryRefresh rc vIn vOut iA iB fA fB pOut held oneSecond s
  | .peerLinkUp => Sys2Proof.Machine.execPeerLinkUp s
  | .peerLinkDown => Sys2Proof.Machine.execPeerLinkDown s
  | .sampleFrame frame => Sys2Proof.Machine.execSampleFrame frame s
  | .blockFrame frame => Sys2Proof.Machine.execBlockFrame frame s
  | .modelFrame frame => Sys2Proof.Machine.execModelFrame frame s
  | .peerBeacon frame => Sys2Proof.Machine.execPeerBeacon frame s
  | .epochFrame frame => Sys2Proof.Machine.execEpochFrame frame s
  | .timeFrame frame t2 => Sys2Proof.Machine.execTimeFrame frame t2 s
  | .peerFrameSend ty sense => Sys2Proof.Machine.execPeerFrameSend ty sense s
  | .networkBeaconSend => Sys2Proof.Machine.execNetworkBeaconSend s
  | .networkBeacon port beacon => Sys2Proof.Machine.execNetworkBeacon port beacon s
  | .partnerAbsent => Sys2Proof.Machine.execPartnerAbsent s
  | .takeLeadAlone => Sys2Proof.Machine.execTakeLeadAlone s
  | .commitAbandoned => Sys2Proof.Machine.execCommitAbandoned s
  | .joinCheck c => Sys2Proof.Machine.execJoinCheck c s
  | .runBlockReached => Sys2Proof.Machine.execRunBlockReached s
  | .shareImbalance c => Sys2Proof.Machine.execShareImbalance c s
  | .sharingResumed => Sys2Proof.Machine.execSharingResumed s
  | .logFlush => Sys2Proof.Machine.execLogFlush s
  | .recordWrite lifetime readBack => Sys2Proof.Machine.execRecordWrite lifetime readBack s
  | .sectorErase lifetime ok => Sys2Proof.Machine.execSectorErase lifetime ok s
  | .snapshot => Sys2Proof.Machine.execSnapshot s
  | .ageingEvaluation q inst median cap => Sys2Proof.Machine.execAgeingEvaluation q inst median cap s
  | .replanSecondWrite c => Sys2Proof.Machine.execReplanSecondWrite c s
  | .delayLineCal d => Sys2Proof.Machine.execDelayLineCal d s
  | .selfTestDone ticket state code values => Sys2Proof.Machine.execSelfTestDone ticket state code values s
  | .injectReorderRelease inj => Sys2Proof.Machine.execInjectReorderRelease inj s
  | .overVoltageClear => Sys2Proof.Machine.execOverVoltageClear s
  | .modulePresent port => Sys2Proof.Machine.execModulePresent port s
  | .nmLinkDown => Sys2Proof.Machine.execNmLinkDown s
  | .cdLinkTrained d => Sys2Proof.Machine.execCdLinkTrained d s
  | .keeperPllLock => Sys2Proof.Machine.execKeeperPllLock s
  | .vinEntersRange rc vIn => Sys2Proof.Machine.execVinEntersRange rc vIn s
  | .cKeeperSecondWrite rc => Sys2Proof.Machine.execCKeeperSecondWrite rc s
  | .gateRsAboveVbus => Sys2Proof.Machine.execGateRsAboveVbus s
  | .keeperSensorSample junctions vbus supplies srefs rings => Sys2Proof.Machine.execKeeperSensorSample junctions vbus supplies srefs rings s

end Sys2Proof.Machine
end

