-- ==== Sys2Proof/Safety.lean ====
section
/-! DEFINITION. What a sound state and a safe run are. -/

namespace Sys2Proof.Machine

/-- The byte memories stand in their canonical form: the mailboxes of the SPI window (R87) and the Keeper SRAM (R385). -/
def MemSound (s : State) : Prop := Memory.wf s.spi.mem = true ∧ Memory.wf s.sram = true

/-- Run commands one after another; a fault or a refusal ends the run. -/
def runAll : List Instr → State → Out State
  | [], s => .next s
  | c :: l, s => match exec c s with
    | .next t => runAll l t
    | .fault f => .fault f
    | .refused r => .refused r

/-- A run is safe where it ends in a state with sound memories. -/
def SafeRun (l : List Instr) (s : State) : Prop := ∃ t, runAll l s = .next t ∧ MemSound t

/-- The queue of commands, the window memory, the Keeper SRAM and the configuration stand. -/
def Quiet (s t : State) : Prop := t.pending = s.pending ∧ t.spi.mem = s.spi.mem ∧ t.sram = s.sram ∧ t.cfg = s.cfg

/-- The Keeper takes a correct frame that carries `cmd` from REQi now (R95, R97). -/
def Served (i cmd : Nat) (s : State) : Prop :=
  canTake s i = true ∧ (reqOf s i).cmd = cmd ∧ checkReq s.keeper.dev (reqOf s i) = stOk

/-- A record of `code` for `inst` with `data` is new in the event queue, or the event is new among those that wait for the Keeper, or its
crossing has saturated and reports the overflow (R30, R105). -/
def Raised (code inst : Nat) (data : List Word) (s t : State) : Prop :=
  (∃ r ∈ t.log.queue, r.seq = s.log.nextSeq ∧ r.code = code ∧ r.inst = inst ∧ r.data = data ∧ r.level = levelOf code) ∨
  (code, inst, data) ∈ t.log.waiting.drop s.log.waiting.length ∨ (code, inst) ∈ t.log.overflow

/-- A reset led to BOOT with its cause: every channel is in OFF with its bridge open and its relay de-energised, every controller is off, and
the banks of the flash stand (R71, Table 3.4). -/
def Rebooted (cause : Nat) (s t : State) : Prop :=
  t.keeper.dev = .boot ∧ t.keeper.cause = cause ∧ t.store.fwA = s.store.fwA ∧ t.store.fwB = s.store.fwB ∧
  t.store.cfgA = s.store.cfgA ∧ t.store.cfgB = s.store.cfgB ∧ (∀ r : Nat, (t.rail r).state = .off) ∧
  ∀ c : Nat, (t.chan c).fsm.state = .off ∧ (t.chan c).fsm.bridge = .open ∧ (t.chan c).fsm.relayOn = false

/-- From `s` to `t` only the log, its counts, interrupt bits and sent notices may differ. -/
def Reports (s t : State) : Prop :=
  t = { s with log := t.log, counters := t.counters, misc := { s.misc with sent := t.misc.sent },
               spi := { s.spi with irqStatus := t.spi.irqStatus, irqWait := t.spi.irqWait } }

/-- From `s` to `t` only the window, counters and sent frames may differ: what an answer or an interrupt changes. -/
def Answers (s t : State) : Prop :=
  t = { s with spi := t.spi, counters := t.counters, misc := { s.misc with sent := t.misc.sent } }

/-- From `s` to `t` only channels, controllers, generator registers, requested tests, the log with its notices and interrupt bits,
counted values and the count of free values may differ. -/
def Touches (s t : State) : Prop :=
  t = { s with chans := t.chans, rails := t.rails, pwm := t.pwm, free := t.free, tests := t.tests, log := t.log, counters := t.counters,
               misc := { s.misc with sent := t.misc.sent }, store := { s.store with life := t.store.life },
               spi := { s.spi with irqStatus := t.spi.irqStatus, irqWait := t.spi.irqWait } }

/-- Of the units only channel `c` may differ. -/
def TouchesChan (c : Nat) (s t : State) : Prop := Touches s t ∧ t.rails = s.rails ∧ ∀ k, k ≠ c → t.chan k = s.chan k

/-- Of the units only controller `r` may differ. -/
def TouchesRail (r : Nat) (s t : State) : Prop := Touches s t ∧ t.chans = s.chans ∧ ∀ k, k ≠ r → t.rail k = s.rail k

/-- Two values of a channel that drives alike: only what the end of a forced test undoes may differ (R407). -/
def SameDrive (a b : Chan) : Prop :=
  b.fsm.state = a.fsm.state ∧ b.fsm.code = a.fsm.code ∧ b.fsm.bridge = a.fsm.bridge ∧ b.fsm.stop = a.fsm.stop ∧
  b.loop = a.loop ∧ b.model = a.model ∧ b.share = a.share

/-- Two values of a controller of which only what the end of a test ends and starts again may differ (R406, R407). -/
def SameRail (a b : Rail) : Prop := b = { a with restart := b.restart, due := b.due, test := b.test, testCode := b.testCode }

/-- Of the units only channel `c` may drive otherwise. -/
def DrivesChan (c : Nat) (s t : State) : Prop :=
  Touches s t ∧ (∀ k, k ≠ c → SameDrive (s.chan k) (t.chan k)) ∧ ∀ r, SameRail (s.rail r) (t.rail r)

/-- Channel `c` is in FAULT with a latched code, its bridge held; no other unit drives otherwise (R266, R272). -/
def Faulted (c code : Nat) (s t : State) : Prop :=
  DrivesChan c s t ∧ (t.chan c).fsm.state = .fault ∧ (t.chan c).fsm.code = code ∧ (t.chan c).fsm.bridge = holdFor s c ∧ (t.chan c).fsm.stop = .none

/-! ### What the manual says of the unpublished filters

Their coefficients are free values; a claim that rests on one of these bounds takes it as a premise. -/

/-- The response at `f` Hz of taps at whole delays, 96,000 samples a second, has the cosine part `c` and the sine part `d`. -/
def ResponseAt (taps : List (Int × Rat)) (f c d : ℝ) : Prop :=
  c = (taps.map fun t => (t.2 : ℝ) * Real.cos (2 * Real.pi * f * t.1 / 96000)).sum ∧
  d = (taps.map fun t => (t.2 : ℝ) * Real.sin (2 * Real.pi * f * t.1 / 96000)).sum

/-- The magnitude stays within `db` of unity from 0 Hz to `top`. -/
def FlatTo (taps : List (Int × Rat)) (db top : ℝ) : Prop :=
  ∀ f c d : ℝ, 0 ≤ f → f ≤ top → ResponseAt taps f c d → |10 * Real.logb 10 (c ^ 2 + d ^ 2)| ≤ db

/-- The taps of the half-band interpolator about its centre, against its gain of 2 over zero-stuffed samples. -/
def halfbandTaps : List (Int × Rat) := (List.range 33).map fun (j : Nat) => ((j : Int) - 16, halfband j / 2)
/-- R146: ripple of ±0.05 dB to 20 kHz, and 60 dB of rejection from 28 kHz to 48 kHz. -/
def HalfbandBounds : Prop :=
  FlatTo halfbandTaps (5/100) 20000 ∧
  ∀ f c d : ℝ, 28000 ≤ f → f ≤ 48000 → ResponseAt halfbandTaps f c d → c ^ 2 + d ^ 2 ≤ 1 / 10 ^ 6

/-- The taps of phase p of the steering interpolator about its whole delay. -/
def steerTaps (p : Nat) : List (Int × Rat) := (List.range 16).map fun (i : Nat) => ((i : Int) - 7, steerTap p i)
/-- R201: phase p delays 1 kHz by p/64 sample within 0.001 sample, and is flat within ±0.1 dB to 20 kHz. -/
def SteeringBounds : Prop :=
  ∀ p < 64, FlatTo (steerTaps p) (1/10) 20000 ∧
    ∀ c d c1 d1 : ℝ, ResponseAt (steerTaps p) 1000 c d → ResponseAt ((steerTaps p).map fun t => (t.1, (t.1 : Rat) * t.2)) 1000 c1 d1 →
      |(c1 * c + d1 * d) / (c ^ 2 + d ^ 2) - p / 64| ≤ 1 / 1000

end Sys2Proof.Machine
end

