-- ==== Sys2Proof/WellFormed.lean ====
section
/-! DEFINITION. Which commands are well formed: every unit number lies within the counts of R3 and Table 5.1, and every
written value within its field. A command that is not well formed names a unit that the block does not have. -/

namespace Sys2Proof

/-- Samples and codes of a sense pair are 24-bit two's complement, and the channel exists (R211). -/
def SensePair.wf (p : SensePair) : Bool :=
  decide (p.ch < 208) && decide (-8388608 ≤ p.v) && decide (p.v ≤ 8388607) && decide (-8388608 ≤ p.i) && decide (p.i ≤ 8388607)

/-- The bounds of a command's operands. -/
def Instr.wf : Instr → Bool
  | .nop i => decide (i < 4)
  | .getInfo i => decide (i < 4)
  | .run i => decide (i < 4)
  | .stop i => decide (i < 4)
  | .standby i => decide (i < 4)
  | .reset i => decide (i < 4)
  | .clearFault i => decide (i < 4)
  | .emute i => decide (i < 4)
  | .setParam i => decide (i < 4)
  | .getParam i => decide (i < 4)
  | .writeBlock i => decide (i < 4)
  | .readBlock i => decide (i < 4)
  | .commit i => decide (i < 4)
  | .discard i => decide (i < 4)
  | .getEvents i => decide (i < 4)
  | .peek i => decide (i < 4)
  | .poke i => decide (i < 4)
  | .selfTest i => decide (i < 4)
  | .getTestResult i => decide (i < 4)
  | .inject i => decide (i < 4)
  | .fwUpdateBegin i => decide (i < 4)
  | .fwUpdateData i => decide (i < 4)
  | .fwUpdateEnd i _ _ => decide (i < 4)
  | .spiUnknownInstruction op => op != 0x02 && op != 0x0B
  | .spiWriteUnmapped addr _ => decide (addr < 0x10000) && !(decide (addr < 0x34) || (decide (0x400 ≤ addr) && decide (addr < 0x800)) || (decide (0xC00 ≤ addr) && decide (addr < 0xD00)))
  | .registerWrite off n _ => decide (off % 4 = 0) && decide (off < 0x34) && decide (n ≤ 4)
  | .mailboxByteWrite addr _ => decide (0x400 ≤ addr) && decide (addr < 0x800)
  | .doorbell _ => true
  | .rspReadyRelease _ => true
  | .heldResponseWrite i => decide (i < 4)
  | .irqStatusClear _ => true
  | .emuteRegisterWrite _ => true
  | .spiErrRead n => decide (1 ≤ n) && decide (n ≤ 4)
  | .imagePortWrite _ => true
  | .imgClear => true
  | .imgGo => true
  | .hostDatagram _ _ _ _ _ => true
  | .powerOnReset _ => true
  | .keeperIslandReset => true
  | .resetNAssert => true
  | .resetNRelease _ => true
  | .watchdogExpiry => true
  | .busWarn _ => true
  | .brownoutSilent => true
  | .lastRecord _ _ => true
  | .busDip _ => true
  | .busRecovery => true
  | .busOv => true
  | .busOvLong => true
  | .busReversed => true
  | .reverseCurrentBlock => true
  | .pwrPgHigh _ _ => true
  | .pgTimeout => true
  | .pgLost => true
  | .sequenceRetry => true
  | .romBankSelect _ => true
  | .firmwareStart => true
  | .mediaPllLock => true
  | .dsdBringup d _ _ _ _ _ => decide (d < 4)
  | .configLoad => true
  | .mailboxReady => true
  | .wakePatternMatch _ _ => true
  | .standbyWakeTimer => true
  | .wake => true
  | .keeperHalt => true
  | .keeperResume => true
  | .heartbeat => true
  | .statusRefresh => true
  | .unitArm => true
  | .unitSwitch => true
  | .crossfadeEnd c => decide (c < 208)
  | .commitDone => true
  | .cfgStore _ => true
  | .dspWindow sense => sense.all SensePair.wf
  | .railSelectionApply rc => decide (rc < 12)
  | .ceilingTermsRefresh rc _ => decide (rc < 12)
  | .rselFilterRail row _ => decide (row < 8)
  | .rselFilterDsp row _ => decide (row < 8)
  | .keeperCeilingWrite rc row => decide (rc < 12) && decide (row < 8)
  | .networkFrame port _ _ _ => decide (port < 2)
  | .streamPacket port => decide (port < 2)
  | .streamMissing st => decide (st < 32)
  | .streamReentry st => decide (st < 32)
  | .streamOverrun st => decide (st < 32)
  | .pathSkew st => decide (st < 32)
  | .pathLost st side _ => decide (st < 32) && decide (side < 2)
  | .linkUp port => decide (port < 2)
  | .linkDown port => decide (port < 2)
  | .moduleAbsent port => decide (port < 2)
  | .igmpReport port => decide (port < 2)
  | .igmpQuery port version _ => decide (port < 2) && decide (1 ≤ version) && decide (version ≤ 3)
  | .keeperFrame ring _ _ => decide (ring < 3)
  | .nmFrame _ _ => true
  | .nmLinkUp _ _ => true
  | .monitorPacket j => decide (j < 8)
  | .ptpSync port _ _ _ => decide (port < 2)
  | .ptpAnnounce port _ _ => decide (port < 2)
  | .ptpDelayResponse port _ => decide (port < 2)
  | .ptpDelayReqSend port => decide (port < 2)
  | .ptpHoldover _ => true
  | .ptpNoMaster => true
  | .ptpLocked _ => true
  | .timeMediaPair _ _ => true
  | .mclkUpdate => true
  | .mclkHoldoverAlarm => true
  | .mclkSteerLimit => true
  | .mediaStepStart => true
  | .mediaStepHalt => true
  | .mediaStepResume _ => true
  | .tdmFrame x _ _ _ => decide (x < 4)
  | .tdmClockLost x => decide (x < 4)
  | .tdmRateCheck x _ => decide (x < 4)
  | .pilotWindow c _ => decide (c < 208)
  | .reStale c => decide (c < 208)
  | .modelRecordStore => true
  | .lateReseed c => decide (c < 208)
  | .foldbackEpisodeEnd c _ => decide (c < 208)
  | .channelStart c => decide (c < 208)
  | .senseOffsetCal c _ _ => decide (c < 208)
  | .diagTestComplete c _ => decide (c < 208)
  | .polarityCheck c _ _ => decide (c < 208)
  | .prechargeStart c => decide (c < 208)
  | .prechargeComplete c _ _ _ _ => decide (c < 208)
  | .prechargeTimeout c _ _ => decide (c < 208)
  | .tauMeasured c _ => decide (c < 208)
  | .loopRange c => decide (c < 208)
  | .idleComplete c => decide (c < 208)
  | .fcImbalanceTimeout c => decide (192 ≤ c) && decide (c < 208)
  | .loopComparatorEdge c _ j _ _ dtNs => decide (c < 208) && decide (j < 128) && decide (0 ≤ dtNs)
  | .spreadDraw c => decide (c < 208)
  | .deadtimeAdapt c edge _ _ => decide (c < 208) && decide (edge < 12)
  | .currentLimitTrip c _ _ _ _ _ => decide (c < 208)
  | .dropTrip c _ _ _ => decide (c < 208)
  | .reverseStateRelease c => decide (c < 208)
  | .loopStall c => decide (c < 208)
  | .senseOpenRun c _ _ => decide (c < 208)
  | .enterRun c => decide (c < 208)
  | .muteNFiltered _ _ => true
  | .emuteFallStart => true
  | .emuteSilent => true
  | .emuteRiseStart => true
  | .muteEnter c => decide (c < 208)
  | .silentStop c => decide (c < 208)
  | .silentStopGatesOff c => decide (c < 208)
  | .silentStopDischarged c _ => decide (c < 208)
  | .silentStopTimeout c _ _ => decide (c < 208)
  | .cdLinkLost d => decide (d < 4)
  | .retestStart c => decide (c < 208)
  | .retestComplete c => decide (c < 208)
  | .relayChange c _ => decide (c < 208)
  | .relayCoilOpen c _ => decide (c < 208)
  | .relayDrive c _ => decide (c < 208)
  | .zoneNtcSample d _ _ => decide (d < 4)
  | .zoneNtcOpen d _ => decide (d < 4)
  | .zoneNtcShort d _ => decide (d < 4)
  | .zoneNtcReturn d => decide (d < 4)
  | .stageShutdown d => decide (d < 4)
  | .junctionShutdown die _ => decide (die < 5)
  | .junctionWarn die _ => decide (die < 5)
  | .faultNTrip inp _ => decide (inp < 4)
  | .faultNRelease inp => decide (inp < 4)
  | .loadAll _ => true
  | .maskStep k => decide (k < 16)
  | .pwmBoundary => true
  | .feederPeriod k => decide (k < 16)
  | .trigMatch k j _ _ _ => decide (k < 16) && decide (j < 4)
  | .cellCheck c drops slopes => decide (192 ≤ c) && decide (c < 208) && drops.length == 12 && slopes.length == 4
  | .feedUnderrun c => decide (c < 208)
  | .feedResume c => decide (c < 208)
  | .railStart rc => decide (rc < 12)
  | .railPrecheck rc _ _ _ _ => decide (rc < 12)
  | .railRegulating rc _ _ => decide (rc < 12)
  | .startShort rc _ _ => decide (rc < 12)
  | .startTimeout rc _ _ => decide (rc < 12)
  | .railRetry rc => decide (rc < 12)
  | .railChargeStart rc _ _ _ _ _ => decide (rc < 12)
  | .railLimitTrip rc _ _ _ => decide (rc < 12)
  | .railSag rc _ => decide (rc < 12)
  | .railOv rc _ => decide (rc < 12)
  | .railStop rc => decide (rc < 12)
  | .phaseOpen rc _ _ _ => decide (rc < 12)
  | .phaseSenseFailed rc _ _ => decide (rc < 12)
  | .rcNtcSample rc _ => decide (rc < 12)
  | .rcOvertemp rc => decide (rc < 12)
  | .rcOvertempRestart rc => decide (rc < 12)
  | .syncAcquired _ => true
  | .syncLost _ _ _ => true
  | .railSpreadDraw rc => decide (rc < 12)
  | .telemetryRefresh rc _ _ _ _ _ _ _ held _ => decide (rc < 12) && held.length == 5
  | .peerLinkUp => true
  | .peerLinkDown => true
  | .sampleFrame _ => true
  | .blockFrame _ => true
  | .modelFrame _ => true
  | .peerBeacon _ => true
  | .epochFrame _ => true
  | .timeFrame _ _ => true
  | .peerFrameSend ty sense => decide (1 ≤ ty) && decide (ty ≤ 6) && sense.all SensePair.wf
  | .networkBeaconSend => true
  | .networkBeacon port _ => decide (port < 2)
  | .partnerAbsent => true
  | .takeLeadAlone => true
  | .commitAbandoned => true
  | .joinCheck c => decide (c < 208)
  | .runBlockReached => true
  | .shareImbalance c => decide (c < 208)
  | .sharingResumed => true
  | .logFlush => true
  | .recordWrite _ r => decide (r < 3)
  | .sectorErase _ _ => true
  | .snapshot => true
  | .ageingEvaluation q inst _ _ => decide (1 ≤ q) && decide (q ≤ 8) && decide (inst < (if q ≤ 3 then 208 else if q = 4 then 12 else if q = 8 then 1 else 4))
  | .replanSecondWrite c => decide (c < 208)
  | .delayLineCal d => decide (d < 4)
  | .selfTestDone _ state _ _ => decide (2 ≤ state) || state == 1
  | .injectReorderRelease inj => decide (inj < 65)
  | .overVoltageClear => true
  | .modulePresent port => decide (port < 2)
  | .nmLinkDown => true
  | .cdLinkTrained d => decide (d < 4)
  | .keeperPllLock => true
  | .vinEntersRange rc _ => decide (rc < 12)
  | .cKeeperSecondWrite rc => decide (rc < 12)
  | .gateRsAboveVbus => true
  | .keeperSensorSample _ _ _ _ _ => true

end Sys2Proof
end

