-- ==== Sys2Proof/Certificates/Slice0/Obligations.lean ====
section
/-! DEFINITION. The statements for the provers: what the rules of the manual say the rows of the opcode table do. -/

open Sys2Proof Sys2Proof.Machine

/-- With command c at the front of the queue, a step is exec of c on the state whose queue is the rest; with an empty
queue the block idles, which is the model's choice (notes/assumptions/1.md). -/
def Obligations.StepRunsTheFrontCommand : Prop :=
  (∀ (c : Instr) (q : List Instr) (s : State), step { s with pending := c :: q } = exec c { s with pending := q }) ∧
  (∀ s : State, s.pending = [] → step s = .next s)

/-- Whatever the command and the state, the next state that exec answers holds the same queue of waiting commands, so that
each step consumes exactly the command at the front and the commands run in the order in which they were sent. -/
def Obligations.ExecLeavesTheQueue : Prop :=
  (∀ (c : Instr) (s t : State), exec c s = .next t → t.pending = s.pending) ∧
  (∀ s t : State, step s = .next t → t.pending = s.pending.tail)

/-- If the memory of the SPI window and the Keeper SRAM stand in their canonical form (addresses strictly rising, no byte
listed that reads 0), then after any step that answers a next state they stand in it again. -/
def Obligations.StepKeepsMemoriesSound : Prop :=
  ∀ s t : State, MemSound s → step s = .next t → MemSound t

/-- State.reset has both memories in canonical form, no waiting command, device state BOOT at stage 0x0, no mailbox busy
or ready, IRQ_STATUS and IRQ_MASK 0, SPI_ERR 0 and HEARTBEAT 0. -/
def Obligations.ResetStateIsSound : Prop :=
  MemSound State.reset ∧ State.reset.pending = [] ∧ State.reset.keeper.dev = .boot ∧ State.reset.keeper.stage = 0 ∧
  State.reset.spi.reqBusy = 0 ∧ State.reset.spi.rspReady = 0 ∧ hwReg State.reset 0x18 = 0 ∧ hwReg State.reset 0x1C = 0 ∧
  hwReg State.reset 0x24 = 0 ∧ hwReg State.reset 0x28 = 0

/-- Every command on every state answers a next state: no row of the table ends in a fault or a refusal. What each command
then does is said by the statements about its family. -/
def Obligations.EveryCommandAnswersANextState : Prop :=
  ∀ (c : Instr) (s : State), ∃ t, exec c s = .next t

/-- When the Keeper takes a correct frame from REQi, NOP answers HEARTBEAT and DEV_STATE; GET_INFO its payload; GET_EVENTS
for 1 to 3 records the first records of the queue from the number asked on, with LOST and MORE, if there is one;
READ_BLOCK of an aligned range within a block its bytes in the bank asked; GET_TEST_RESULT of a kept ticket its state,
code and values, without values while it runs. Nothing else changes but that the mailbox is free again and the
response is delivered or held. -/
def Obligations.QueryCommandsAnswer : Prop :=
  ∀ (i : Nat) (s : State),
    (Served i 0x01 s → exec (.nop i) s = .next (reply i (reqOf s i) stOk
      (le 4 s.keeper.heartbeat.toNat ++ [BitVec.ofNat 8 s.keeper.dev.code, 0, 0, 0]) (take i s))) ∧
    (Served i 0x02 s → exec (.getInfo i) s = .next (reply i (reqOf s i) stOk (infoBytes s) (take i s))) ∧
    (∀ (n first : Nat) (r : Record) (l : List Record), Served i 0x30 s → leAt (reqOf s i).payload 4 1 = n → 1 ≤ n → n ≤ 3 →
      leAt (reqOf s i).payload 0 4 = first → s.log.queue.filter (fun q => decide (first ≤ q.seq)) = r :: l →
      exec (.getEvents i) s = .next (reply i (reqOf s i) stOk
        ([BitVec.ofNat 8 ((r :: l).take n).length,
          BitVec.ofNat 8 ((if first < s.log.nextSeq ∧ ∀ q ∈ s.log.queue, q.seq ≠ first then 1 else 0) + (if n < (r :: l).length then 2 else 0)), 0, 0]
          ++ le 4 r.seq ++ ((r :: l).take n).flatMap recordBytes) (take i s))) ∧
    (∀ (bank id o n size : Nat), Served i 0x23 s → leAt (reqOf s i).payload 0 1 = bank → bank ≤ 1 → leAt (reqOf s i).payload 4 4 = id →
      blockSize id = some size → leAt (reqOf s i).payload 8 4 = o → leAt (reqOf s i).payload 12 2 = n → o % 4 = 0 → n % 4 = 0 →
      4 ≤ n → n ≤ 232 → o + n ≤ size →
      exec (.readBlock i) s = .next (reply i (reqOf s i) stOk
        (le 4 id ++ le 4 o ++ sub ((if bank = 1 then s.cfg.pending else s.cfg.active).block id) o n) (take i s))) ∧
    (∀ (n : Nat) (u : Test), Served i 0x51 s → leAt (reqOf s i).payload 0 4 = n → keptTest n s = some u →
      exec (.getTestResult i) s = .next (reply i (reqOf s i) stOk
        (le 4 n ++ [BitVec.ofNat 8 u.state, 0] ++ le 2 u.code ++ (if u.state = 0 then [] else u.values.take 232)) (take i s)))

/-- GET_PARAM of 1 to 59 configuration parameters answers OK with their number and their values in the bank asked, in the
order asked, and changes nothing. PEEK of 1 to 58 words from an aligned address that all lie in the Keeper SRAM below
its last 512 KB answers OK with the address, the number and the words, little-endian, and changes nothing: words 0 and
1 of a receive descriptor as R165 gives them, any other word from its bytes. In the last 512 KB, the retention region,
whose form is open, it answers OK with that many words (free values: notes/assumptions/74.md). -/
def Obligations.GetParamAndPeekReadValues : Prop :=
  ∀ (i : Nat) (s : State),
    (∀ (bank n : Nat), Served i 0x21 s → leAt (reqOf s i).payload 0 1 = bank → bank ≤ 1 → leAt (reqOf s i).payload 2 2 = n → 1 ≤ n → n ≤ 59 →
      (∀ id ∈ idList (reqOf s i).payload, (cfgField id).isSome = true) →
      exec (.getParam i) s = .next (reply i (reqOf s i) stOk (le 2 n ++ [0, 0] ++
        wordBytes ((idList (reqOf s i).payload).map fun id => (if bank = 1 then s.cfg.pending else s.cfg.active).param id)) (take i s))) ∧
    (∀ (a n : Nat), Served i 0x40 s → leAt (reqOf s i).payload 0 4 = a → leAt (reqOf s i).payload 4 1 = n → 1 ≤ n → n ≤ 58 → a % 4 = 0 →
      a + 4 * n ≤ 0xB80000 →
      exec (.peek i) s = .next (reply i (reqOf s i) stOk (le 4 a ++ [BitVec.ofNat 8 n, 0, 0, 0] ++
        wordBytes ((List.range n).map fun j => (descShown s (a + 4 * j)).getD (word (ofLe (getBytes (a + 4 * j) 4 s.sram))))) (take i s))) ∧
    (∀ (a n : Nat), Served i 0x40 s → leAt (reqOf s i).payload 0 4 = a → leAt (reqOf s i).payload 4 1 = n → 1 ≤ n → n ≤ 58 → a % 4 = 0 →
      0xB80000 ≤ a → a + 4 * n ≤ 0xC00000 →
      ∃ (vs : List Word) (f : Nat), vs.length = n ∧
        exec (.peek i) s = .next (reply i (reqOf s i) stOk (le 4 a ++ [BitVec.ofNat 8 n, 0, 0, 0] ++ wordBytes vs) { take i s with free := f }))

/-- SET_PARAM of 1 to 29 entries that all pass answers OK with their number and leaves the pending bank with the entries
written in order; WRITE_BLOCK of an aligned range within a block answers OK and leaves the block with those bytes
replaced. The active bank, the target and the commit in progress stand, and so does everything else but the mailbox
and the response. -/
def Obligations.PendingBankCommands : Prop :=
  ∀ (i : Nat) (s : State),
    (∀ n : Nat, Served i 0x20 s → leAt (reqOf s i).payload 0 2 = n → 1 ≤ n → n ≤ 29 →
      (∀ e ∈ paramEntries (reqOf s i).payload, entryStatus e.1 e.2 = stOk) →
      exec (.setParam i) s = .next (reply i (reqOf s i) stOk (le 2 n ++ [0, 0]) { take i s with
        cfg := { s.cfg with pending := (paramEntries (reqOf s i).payload).foldl (fun b e => b.setParam e.1 e.2) s.cfg.pending } })) ∧
    (∀ (id o size : Nat), Served i 0x22 s → leAt (reqOf s i).payload 0 4 = id → blockSize id = some size →
      leAt (reqOf s i).payload 4 4 = o → o % 4 = 0 → ((reqOf s i).payload.drop 8).length % 4 = 0 →
      o + ((reqOf s i).payload.drop 8).length ≤ size →
      exec (.writeBlock i) s = .next (reply i (reqOf s i) stOk [] { take i s with
        cfg := { s.cfg with pending := s.cfg.pending.setBlock id (overlay (s.cfg.pending.block id) o ((reqOf s i).payload.drop 8)) } }))

/-- If entry j of a SET_PARAM fails and every entry before it passes, the command answers the status of entry j with j as
the number written, and the pending bank holds the entries before j and no later one; an unknown ID gives
ERR_PARAM_ID, a status field ERR_READONLY and a value outside its range ERR_RANGE. -/
def Obligations.SetParamStopsAtFirstFailure : Prop :=
  (∀ (i : Nat) (s : State) (before after : List (Nat × Word)) (id : Nat) (w : Word), Served i 0x20 s →
    1 ≤ leAt (reqOf s i).payload 0 2 → leAt (reqOf s i).payload 0 2 ≤ 29 →
    paramEntries (reqOf s i).payload = before ++ (id, w) :: after → (∀ e ∈ before, entryStatus e.1 e.2 = stOk) → entryStatus id w ≠ stOk →
    exec (.setParam i) s = .next (reply i (reqOf s i) (entryStatus id w) (le 2 before.length ++ [0, 0]) { take i s with
      cfg := { s.cfg with pending := before.foldl (fun b e => b.setParam e.1 e.2) s.cfg.pending } })) ∧
  (∀ (id : Nat) (w : Word), cfgField id = none → entryStatus id w = if isStat id then errReadonly else errParamId) ∧
  (∀ (id : Nat) (w : Word) (f : Field), cfgField id = some f → f.kind.admits w = false → entryStatus id w = errRange)

/-- DISCARD sets the pending bank equal to the commit target where a commit is in progress, and otherwise equal to the
active bank; nothing else changes but the mailbox and the response OK. -/
def Obligations.DiscardSetsThePendingBank : Prop :=
  ∀ (i : Nat) (s : State), Served i 0x25 s →
    (∀ k : Commit, s.cfg.commit = some k →
      exec (.discard i) s = .next (reply i (reqOf s i) stOk [] { take i s with cfg := { s.cfg with pending := s.cfg.target } })) ∧
    (s.cfg.commit = none →
      exec (.discard i) s = .next (reply i (reqOf s i) stOk [] { take i s with cfg := { s.cfg with pending := s.cfg.active } }))

/-- When the Keeper takes a correct frame: RUN enters RUN by event 1 of Table 3.7. STOP stops the device into READY: a
channel in FAULT goes to OFF, one outside OFF and FAULT is asked for its silent stop. STANDBY answers and enters
STANDBY, at once without a commit in progress: every channel is in OFF and the sequenced supplies are down. RESET
answers OK and then, where no response is held for its mailbox, resets the device: BOOT at stage 0x1 with cause 0x3,
every channel and controller off, the flash banks as they were. CLEAR_FAULT of a channel below 208 or of 0xFFFF clears
what can be cleared in its scope and answers how much is left: a channel in FAULT whose cause is gone, that its twin
role does not hold and that latches no relay code starts DIAG; one whose cause is present keeps FAULT and its code.
EMUTE with 0 or 1 sets bit 0 of EMUTE to it. -/
def Obligations.DeviceStateCommands : Prop :=
  ∀ (i : Nat) (s : State),
    (Served i 0x10 s → exec (.run i) s = .next (reply i (reqOf s i) stOk [] ((take i s).setDev .run 1))) ∧
    (Served i 0x11 s → exec (.stop i) s = .next (reply i (reqOf s i) stOk [] (stopDevice (take i s)))) ∧
    (Served i 0x12 s → s.cfg.commit = none → exec (.standby i) s = .next (enterStandby (reply i (reqOf s i) stOk [] (take i s)))) ∧
    (Served i 0x12 s → ∀ k : Commit, s.cfg.commit = some k → ∃ t, exec (.standby i) s = .next t ∧ t.keeper.standbyWait = true ∧
      t.keeper.dev = s.keeper.dev ∧ t.cfg = s.cfg) ∧
    (Served i 0x13 s → (∀ h ∈ s.spi.held, h.1 ≠ i) → (s.spi.rspReady &&& bit4 i) = 0 →
      exec (.reset i) s = .next (commandReset (reply i (reqOf s i) stOk [] (take i s)))) ∧
    (∀ scope : Nat, Served i 0x14 s → leAt (reqOf s i).payload 0 2 = scope → scope < 208 ∨ scope = 0xFFFF →
      exec (.clearFault i) s = .next (reply i (reqOf s i) stOk
        (le 2 (faultsLeft scope (clearFaults scope (take i s))) ++ [0, 0]) (clearFaults scope (take i s)))) ∧
    (∀ v : Nat, Served i 0x15 s → leAt (reqOf s i).payload 0 1 = v → v ≤ 1 →
      exec (.emute i) s = .next (reply i (reqOf s i) stOk [] { take i s with spi := { (take i s).spi with emute := v == 1 } })) ∧
    ((stopDevice s).keeper.dev = .ready ∧ (stopDevice s).cfg = s.cfg ∧ ∀ c : Nat, c < 208 →
      ((stopDevice s).chan c).fsm.state = (if (s.chan c).fsm.state = .fault then .off else (s.chan c).fsm.state) ∧
      ((s.chan c).fsm.state ≠ .off → (s.chan c).fsm.state ≠ .fault → (s.chan c).fsm.stop = .none → ((stopDevice s).chan c).fsm.stop = .requested)) ∧
    ((enterStandby s).keeper.dev = .standby ∧ (enterStandby s).cfg = s.cfg ∧ (enterStandby s).power.pwrEn = 0 ∧ (enterStandby s).power.seqDone = false ∧
      ∀ c : Nat, c < 208 → ((enterStandby s).chan c).fsm.state = .off ∧ ((enterStandby s).chan c).fsm.relayOn = false) ∧
    ((commandReset s).keeper.cause = 3 ∧ (commandReset s).keeper.dev = .boot ∧ (commandReset s).keeper.stage = 1 ∧
      (commandReset s).store.fwA = s.store.fwA ∧ (commandReset s).store.fwB = s.store.fwB ∧
      (commandReset s).store.cfgA = s.store.cfgA ∧ (commandReset s).store.cfgB = s.store.cfgB ∧
      (∀ c : Nat, c < 208 → ((commandReset s).chan c).fsm.state = .off) ∧ ∀ r : Nat, r < 12 → ((commandReset s).rail r).state = .off) ∧
    (∀ c : Nat, c < 208 → (s.chan c).fsm.state = .fault →
      (s.enabled c = true → causePresent (clearLatches c s) c = false → heldByRole (clearLatches c s) c = false → (s.chan c).fsm.coilLatched = 0 →
        ((clearFaults c s).chan c).fsm.state = .diag) ∧
      (causePresent (clearLatches c s) c = true →
        ((clearFaults c s).chan c).fsm.state = .fault ∧ ((clearFaults c s).chan c).fsm.code = (s.chan c).fsm.code))

/-- With no commit in progress, mode 0, or mode 1 with a named block far enough ahead, and no refusal of the pending bank,
COMMIT answers ACCEPTED with the next ticket; the target is then the pending bank, a commit of that ticket is in
progress, and the active bank, the channels and the controllers are as before. Of a paired device it is the proposal
of the epoch after the last that both sides hold, with the digest of the target and the named block; where the
partner's held proposal of that epoch carries another digest it is abandoned, and no commit is in progress. -/
def Obligations.CommitIsAccepted : Prop :=
  ∀ (i mode k : Nat) (s : State), Served i 0x24 s → s.cfg.commit = none → leAt (reqOf s i).payload 0 1 = mode →
    leAt (reqOf s i).payload 4 8 = k → (mode = 0 ∨ (mode = 1 ∧ namedOk s k = true)) →
    commitRefusal s.keeper.strapTwin s.cfg.active s.cfg.pending = none →
    ∃ u, exec (.commit i) s = .next (reply i (reqOf s i) stAccepted (le 4 (s.cfg.ticket + 1)) u) ∧
      u.cfg.ticket = s.cfg.ticket + 1 ∧ u.cfg.active = s.cfg.active ∧ u.cfg.pending = s.cfg.pending ∧
      u.chans = s.chans ∧ u.rails = s.rails ∧ u.keeper = s.keeper ∧
      ((twinned s && s.twin.paired) = false ∨ s.twin.theirs = none →
        u.cfg.target = s.cfg.pending ∧ ∃ c, u.cfg.commit = some c ∧ c.ticket = s.cfg.ticket + 1) ∧
      ((twinned s && s.twin.paired) = true → s.twin.theirs = none →
        u.twin.own = some ⟨s.twin.common + 1, digest s.cfg.pending, if mode = 1 then some k else none, 0, 0⟩) ∧
      (∀ b : Proposal, (twinned s && s.twin.paired) = true → s.twin.theirs = some b → b.epoch = s.twin.common + 1 → b.digest ≠ digest s.cfg.pending →
        u.cfg.commit = none ∧ u.cfg.target = s.cfg.active)

/-- POKE of 1 to 58 words from an aligned address that all lie in the Keeper SRAM answers OK with their number; afterwards
the bytes from that address on are the words, little-endian, every other byte of the SRAM reads as before, and the
configuration, the channels, the controllers and every byte of the window outside the response mailbox of the command
stand; outside the receive descriptors nothing else of the device changes. Both memories are assumed in canonical
form, which every step keeps. -/
def Obligations.PokeWritesKeeperSram : Prop :=
  ∀ (i a n : Nat) (s : State), Served i 0x41 s → leAt (reqOf s i).payload 0 4 = a → leAt (reqOf s i).payload 4 1 = n → 1 ≤ n → n ≤ 58 →
    a % 4 = 0 → a + 4 * n ≤ 0xC00000 → MemSound s →
    ∃ u t, exec (.poke i) s = .next t ∧ t = reply i (reqOf s i) stOk [BitVec.ofNat 8 n, 0, 0, 0] u ∧
      t.cfg = s.cfg ∧ t.chans = s.chans ∧ t.rails = s.rails ∧
      getBytes a (wordBytes (wordList (reqOf s i).payload)).length t.sram = wordBytes (wordList (reqOf s i).payload) ∧
      (∀ k : Nat, k < a ∨ a + (wordBytes (wordList (reqOf s i).payload)).length ≤ k → SMap.get 0 k t.sram = SMap.get 0 k s.sram) ∧
      (∀ k : Nat, k < 0x800 + 0x100 * i ∨ 0x900 + 0x100 * i ≤ k → SMap.get 0 k t.spi.mem = SMap.get 0 k s.spi.mem) ∧
      ((∀ j : Nat, j < n → descOf? (a + 4 * j) = none) → u = { take i s with sram := u.sram })

/-- SELF_TEST whose own checks pass answers ACCEPTED with the next ticket and starts the test; a started DSP_MEM_CHECK
(test 4) or AGEING_RUN (test 6) is listed in progress under that ticket and the next ticket is one higher. INJECT with
injection unlocked and arguments in range answers OK, sets the injector that stream and side name and leaves every
other injector, the configuration, the channels and the streams; action 0 clears that injector. -/
def Obligations.TestAndInjectCommands : Prop :=
  ∀ (i : Nat) (s : State),
    (Served i 0x50 s →
      testStatus (leAt (reqOf s i).payload 0 2) (leAt (reqOf s i).payload 2 2) (reqOf s i).force ((reqOf s i).payload.drop 4) s = stOk →
      exec (.selfTest i) s = .next (reply i (reqOf s i) stAccepted (le 4 s.tests.next)
        (startTest (leAt (reqOf s i).payload 0 2) (leAt (reqOf s i).payload 2 2) (leAt ((reqOf s i).payload.drop 4) 0 4) (reqOf s i).force (take i s)))) ∧
    (∀ (id inst arg : Nat) (force : Bool), id = 4 ∨ id = 6 →
      (startTest id inst arg force s).tests.next = s.tests.next + 1 ∧
      ∃ u ∈ (startTest id inst arg force s).tests.list, u.ticket = s.tests.next ∧ u.state = 0 ∧ u.id = id ∧ u.inst = inst) ∧
    (∀ (stream side action mode ppm burst k : Nat), Served i 0x52 s → leAt (reqOf s i).payload 0 2 = stream → leAt (reqOf s i).payload 2 1 = side →
      leAt (reqOf s i).payload 3 1 = action → leAt (reqOf s i).payload 4 1 = mode → leAt (reqOf s i).payload 8 4 = ppm →
      leAt (reqOf s i).payload 12 2 = burst → unlocked s.cfg.active = true → injectorOf s.cfg.active stream side = some k →
      1 ≤ action → action ≤ 3 → mode ≤ 2 → ppm ≤ 1000000 → (mode = 2 → burst ≠ 0) →
      ∃ u, exec (.inject i) s = .next (reply i (reqOf s i) stOk [] u) ∧ u.cfg = s.cfg ∧ u.chans = s.chans ∧ u.streams = s.streams ∧
        (u.inj k).action = action ∧ (u.inj k).mode = mode ∧ (u.inj k).ppm = ppm ∧ (u.inj k).left = burst ∧
        ∀ j : Nat, j ≠ k → u.inj j = s.inj j) ∧
    (∀ (stream side k : Nat), Served i 0x52 s → leAt (reqOf s i).payload 0 2 = stream → leAt (reqOf s i).payload 2 1 = side →
      leAt (reqOf s i).payload 3 1 = 0 → leAt (reqOf s i).payload 8 4 ≤ 1000000 →
      (leAt (reqOf s i).payload 4 1 = 2 → leAt (reqOf s i).payload 12 2 ≠ 0) → unlocked s.cfg.active = true →
      injectorOf s.cfg.active stream side = some k →
      ∃ u, exec (.inject i) s = .next (reply i (reqOf s i) stOk [] u) ∧ u.cfg = s.cfg ∧ u.chans = s.chans ∧ (u.inj k).action = 0 ∧
        ∀ j : Nat, j ≠ k → u.inj j = s.inj j)

/-- BEGIN in READY with a good length and sequence number answers OK, enters UPDATE and erases the target bank, A or B by
R390, with nothing received yet; the other bank, the configuration and the channels stand. DATA that follows on the
bytes received, within the image, its first byte 0xFF, answers OK and appends the bytes to that bank. END of a whole
image that reads back as sent and whose checks pass answers OK, writes the commit byte 0xA5 of that bank and resets
the device with cause 0x3, and END of one that fails answers ERR_FLASH and leaves the bank without a commit byte; the
other bank stands in both. Where COMMIT does not read back, END answers ERR_FLASH without a valid commit byte: the
model's choice (notes/assumptions/75.md). -/
def Obligations.FirmwareUpdateCommands : Prop :=
  ∀ (i : Nat) (s : State),
    (∀ len seq : Nat, Served i 0x60 s → leAt (reqOf s i).payload 0 4 = len → leAt (reqOf s i).payload 4 4 = seq → updateArgsBad len seq s = false →
      exec (.fwUpdateBegin i) s = .next (reply i (reqOf s i) stOk [] (beginUpdate len seq (take i s)))) ∧
    (∀ o : Nat, Served i 0x61 s → leAt (reqOf s i).payload 0 4 = o → updateData o ((reqOf s i).payload.drop 4) s = true →
      ∃ t, exec (.fwUpdateData i) s = .next t ∧ t.store.updGot = o + ((reqOf s i).payload.drop 4).length ∧
        t.store.updBank.bytes = s.store.updBank.bytes ++ (reqOf s i).payload.drop 4 ∧
        (s.store.updBankB = true → t.store.fwA = s.store.fwA) ∧ (s.store.updBankB = false → t.store.fwB = s.store.fwB) ∧
        t.cfg = s.cfg ∧ t.chans = s.chans) ∧
    (Served i 0x62 s → s.store.updLen ≠ 0 → s.store.updLen ≤ s.store.updGot → imageGood (leAt (reqOf s i).payload 0 4) s.store = true →
      exec (.fwUpdateEnd i true true) s = .next (resetAfter i (reply i (reqOf s i) stOk [] (commitUpdate (take i s)))) ∧
      ∃ t, exec (.fwUpdateEnd i true false) s = .next (reply i (reqOf s i) errFlash [] t) ∧
        t.store.fwA = s.store.fwA ∧ t.store.fwB = s.store.fwB ∧ t.cfg = s.cfg) ∧
    (∀ imageOk commitOk : Bool, Served i 0x62 s → s.store.updLen ≠ 0 → s.store.updLen ≤ s.store.updGot →
      imageOk = false ∨ imageGood (leAt (reqOf s i).payload 0 4) s.store = false →
      exec (.fwUpdateEnd i imageOk commitOk) s = .next (reply i (reqOf s i) errFlash [] (take i s))) ∧
    (∀ len seq : Nat, s.keeper.dev = .ready →
      (beginUpdate len seq s).keeper.dev = .update ∧ (beginUpdate len seq s).store.updLen = len ∧ (beginUpdate len seq s).store.updGot = 0 ∧
      (beginUpdate len seq s).store.updBankB = targetB s ∧ (beginUpdate len seq s).store.updBank = {} ∧
      (targetB s = true → (beginUpdate len seq s).store.fwA = s.store.fwA) ∧ (targetB s = false → (beginUpdate len seq s).store.fwB = s.store.fwB) ∧
      (beginUpdate len seq s).cfg = s.cfg) ∧
    ((commitUpdate s).store.updBank = { s.store.updBank with commit := 0xA5 } ∧ (commitUpdate s).store.updLen = 0 ∧
      (s.store.updBankB = true → (commitUpdate s).store.fwA = s.store.fwA) ∧ (s.store.updBankB = false → (commitUpdate s).store.fwB = s.store.fwB)) ∧
    (∀ u : State, (∀ h ∈ u.spi.held, h.1 ≠ i) → (resetAfter i u).keeper.cause = 3 ∧ (resetAfter i u).keeper.dev = .boot ∧
      (resetAfter i u).keeper.stage = 1 ∧ (resetAfter i u).store.fwA = u.store.fwA ∧ (resetAfter i u).store.fwB = u.store.fwB)

/-- While the register window answers: an unknown instruction or a write outside the map counts one in SPI_ERR and sets
its interrupt bit; a partial register write counts, too; a whole write of IRQ_MASK sets its twelve bits; a byte
written to a request mailbox is stored at its address; a write of 1 to IRQ_STATUS or RSP_READY bits clears them; bit 0
of EMUTE follows the write; a doorbell outside STANDBY rings the mailboxes in ascending number. Before the window
answers a write changes nothing. -/
def Obligations.SpiWindowWrites : Prop :=
  ∀ s : State,
    (windowLive s = true →
      (∀ op : Byte, exec (.spiUnknownInstruction op) s = .next (spiErr 1 { s with spi := { s.spi with sdo := [0] } })) ∧
      (∀ (a : Nat) (b : Byte), exec (.spiWriteUnmapped a b) s = .next (spiErr 1 s)) ∧
      (∀ (off n : Nat) (v : Word), 1 ≤ n → n < 4 → exec (.registerWrite off n v) s = .next (spiErr 1 s)) ∧
      (∀ (n : Nat) (v : Word), 4 ≤ n → exec (.registerWrite 0x1C n v) s = .next { s with spi := { s.spi with irqMask := v &&& 0xFFF } }) ∧
      (∀ (a : Nat) (b : Byte), 0x400 ≤ a → a < 0x800 →
        exec (.mailboxByteWrite a b) s = .next { s with spi := { s.spi with mem := SMap.put 0 a b s.spi.mem } }) ∧
      (∀ v : Word, exec (.irqStatusClear v) s = .next { s with spi := { s.spi with irqStatus := s.spi.irqStatus &&& ~~~v } }) ∧
      (∀ v : Word, exec (.rspReadyRelease v) s =
        .next { s with spi := { s.spi with rspReady := s.spi.rspReady &&& ~~~(BitVec.ofNat 4 (v.toNat / 256)) } }) ∧
      (∀ v : Word, exec (.emuteRegisterWrite v) s = .next { s with spi := { s.spi with emute := v.getLsbD 0 } }) ∧
      (∀ v : Word, s.keeper.dev ≠ .standby →
        exec (.doorbell v) s = .next (forUnits 4 (fun i s => if v.getLsbD i then ring i s else s) s))) ∧
    (windowLive s = false →
      (∀ (a : Nat) (b : Byte), exec (.spiWriteUnmapped a b) s = .next s ∧ exec (.mailboxByteWrite a b) s = .next s) ∧
      (∀ (off n : Nat) (v : Word), exec (.registerWrite off n v) s = .next s) ∧
      (∀ v : Word, exec (.doorbell v) s = .next s ∧ exec (.irqStatusClear v) s = .next s ∧ exec (.rspReadyRelease v) s = .next s ∧
        exec (.emuteRegisterWrite v) s = .next s))

/-- Ringing mailbox i below 4 while its REQ_BUSY bit is 0 sets that bit and appends i to the posted mailboxes, and changes
nothing else; while the bit is 1 it posts nothing and sets DB_OVERRUN in IRQ_STATUS. -/
def Obligations.DoorbellPostsOrOverruns : Prop :=
  ∀ (i : Nat) (s : State), i < 4 →
    ((s.spi.reqBusy &&& bit4 i) = 0 → ring i s = { s with spi := { s.spi with reqBusy := s.spi.reqBusy ||| bit4 i, posted := s.spi.posted ++ [i] } }) ∧
    ((s.spi.reqBusy &&& bit4 i) ≠ 0 → (ring i s).spi.posted = s.spi.posted ∧ (ring i s).spi.reqBusy = s.spi.reqBusy ∧
      (ring i s).spi.irqStatus = s.spi.irqStatus ||| irqOverrun)

/-- SPI_ERR is the one RC field of the register window. Its COUNT field is 16 bits wide. A single access that reads at
least its 2 bytes returns the count and leaves 0; an access that reads 1 byte returns that byte and clears nothing. -/
def Obligations.SpiErrReadClearsWhole : Prop :=
  ∀ (n : Nat) (s : State), windowLive s = true →
    (2 ≤ n → exec (.spiErrRead n) s = .next { s with spi := { s.spi with sdo := le n s.spi.errCount, errCount := 0 } }) ∧
    (n < 2 → exec (.spiErrRead n) s = .next { s with spi := { s.spi with sdo := le n s.spi.errCount } })

/-- While the window answers in stage 0x2 or 0xE, a byte written to the image port is appended and IMG_STATE becomes 1;
IMG_CLEAR discards what was received and makes IMG_STATE 0; IMG_GO of an image no larger than a bank whose header
check passes starts it as firmware at stage 0x6 with FW_SPI set and IMG_STATE 3, with the flash as it was, and IMG_GO
of one that fails makes IMG_STATE 2 with the stage unchanged. -/
def Obligations.ImagePortCommands : Prop :=
  ∀ s : State, windowLive s = true → s.keeper.stage = 2 ∨ s.keeper.stage = 0xE →
    (∀ b : Byte, s.keeper.imgCount < bankSize → exec (.imagePortWrite b) s = .next { s with keeper := { s.keeper with
      imgState := 1, imgCount := s.keeper.imgCount + 1, img := s.keeper.img ++ [b] } }) ∧
    (exec .imgClear s = .next { s with keeper := { s.keeper with img := [], imgCount := 0, imgState := 0 } }) ∧
    (s.keeper.imgCount ≤ bankSize → fwHeadOk s.keeper.img = true → ∃ t, exec .imgGo s = .next t ∧ t.keeper.stage = 6 ∧ t.keeper.imgState = 3 ∧
      t.keeper.fwSpi = true ∧ t.keeper.fwBytes = s.keeper.img ∧ t.store = s.store ∧ t.cfg = s.cfg) ∧
    (s.keeper.imgCount ≤ bankSize → fwHeadOk s.keeper.img = false →
      exec .imgGo s = .next { s with keeper := { s.keeper with imgState := 2 } })

/-- While firmware runs with its configuration loaded, of the datagrams to the NM address and `dev.host_udp_port`: one of
at least 20 bytes for a free mailbox i below 4 with no response, marker 1 and a frame as long as its LENGTH says is
written into REQi, its source is kept for the answer, and REQi is posted; one that is shorter than 20 bytes, or whose
marker is not 1, whose mailbox number is above 3 (notes/assumptions/59.md), is busy, holds a response or has one
waiting, or whose LENGTH is above 240 or does not fit its length, changes nothing but `host_dgram_drop`. A datagram to
another address or port changes nothing. With the Keeper running and RSPi released, the response held longest for RSPi
is delivered and no longer held, where no reset waits for it. -/
def Obligations.DatagramAndHeldResponse : Prop :=
  ∀ s : State,
    (∀ (addr port dst dport i : Nat) (p : List Byte), firmwareRuns s = true → s.keeper.cfgLoaded = true → dst = s.cfg.active.nmAddr →
      dport = s.nat 0x01 0 3 → heldFor s i = false → 20 ≤ p.length → leAt p 0 1 = i → i < 4 →
      leAt p 1 1 = 1 → (s.spi.reqBusy &&& bit4 i) = 0 → (s.spi.rspReady &&& bit4 i) = 0 → leAt (p.drop 4) 6 2 ≤ 240 →
      (p.drop 4).length = 16 + leAt (p.drop 4) 6 2 →
      exec (.hostDatagram addr port dst dport p) s = .next { s with spi := { s.spi with
        mem := putBytes (0x400 + 0x100 * i) (p.drop 4) s.spi.mem, udpFrom := (i, addr, port) :: s.spi.udpFrom.filter (·.1 != i)
        lastUdp := some (addr, port), reqBusy := s.spi.reqBusy ||| bit4 i, posted := s.spi.posted ++ [i] } }) ∧
    (∀ (addr port dst dport : Nat) (p : List Byte), firmwareRuns s = true → s.keeper.cfgLoaded = true → dst = s.cfg.active.nmAddr →
      dport = s.nat 0x01 0 3 →
      p.length < 20 ∨ 4 ≤ leAt p 0 1 ∨ leAt p 1 1 ≠ 1 ∨ (s.spi.reqBusy &&& bit4 (leAt p 0 1)) ≠ 0 ∨ (s.spi.rspReady &&& bit4 (leAt p 0 1)) ≠ 0 ∨
        heldFor s (leAt p 0 1) = true ∨ 240 < leAt (p.drop 4) 6 2 ∨ (p.drop 4).length ≠ 16 + leAt (p.drop 4) 6 2 →
      exec (.hostDatagram addr port dst dport p) s = .next (s.count (netStat 0x026) 1)) ∧
    (∀ (addr port dst dport : Nat) (p : List Byte), dst ≠ s.cfg.active.nmAddr ∨ dport ≠ s.nat 0x01 0 3 →
      exec (.hostDatagram addr port dst dport p) s = .next s) ∧
    (∀ (i : Nat) (h : Nat × List Byte), s.spi.held.find? (·.1 == i) = some h → s.keeper.halted = false → (s.spi.rspReady &&& bit4 i) = 0 →
      s.keeper.resetWait ≠ some i →
      exec (.heldResponseWrite i) s = .next (deliverSpi i h.2 { s with spi := { s.spi with held := s.spi.held.erase h } }))

/-- POWER_ON_RESET, KEEPER_ISLAND_RESET, RESET_N_ASSERT, WATCHDOG_EXPIRY and the RESET command each leave the device in
BOOT with the cause of Table 3.4 (0x0, 0x0, 0x1, 0x2, 0x3), every channel in OFF with its bridge open and its relay
de-energised, every controller in OFF, and the four flash banks as they were. The island's resets clear the Keeper
SRAM and the log; the others keep the SRAM and the Keeper counter, RESET_N_ASSERT and WATCHDOG_EXPIRY also the log
records that the flash does not hold yet (RESET flushes them first). RESET_N_ASSERT switches every supply off;
WATCHDOG_EXPIRY and RESET start the supply sequence at stage 0x1, and WATCHDOG_EXPIRY keeps the stage it ended. RESET
acts after its answer OK, where no response is held for its mailbox. RESET_N_RELEASE samples STRAP_BOOT and begins the
supply sequence where the PLL is locked. -/
def Obligations.ResetSourcesReturnToBoot : Prop :=
  ∀ s : State,
    (∀ b : Bool, s.power.islandReset = true → ∃ t, exec (.powerOnReset b) s = .next t ∧ Rebooted 0 s t ∧ t.power.islandReset = false ∧
      t.power.pump = true ∧ t.keeper.strapBoot = (s.power.resetN && b) ∧ t.sram = [] ∧ t.log.buffer = [] ∧ t.keeper.counterUs = 0) ∧
    (s.power.islandReset = false → ∃ t, exec .keeperIslandReset s = .next t ∧ Rebooted 0 s t ∧ t.power.islandReset = true ∧
      t.power.pwrEn = 0 ∧ t.sram = [] ∧ t.log.buffer = [] ∧ t.keeper.counterUs = 0) ∧
    (s.power.resetN = true → s.power.islandReset = false → ∃ t, exec .resetNAssert s = .next t ∧ Rebooted 1 s t ∧ t.power.resetN = false ∧
      t.power.pwrEn = 0 ∧ t.keeper.stage = 0 ∧ t.sram = s.sram ∧ t.log.buffer = s.log.buffer ∧ t.keeper.counterUs = s.keeper.counterUs) ∧
    (∀ b : Bool, s.power.resetN = false → s.power.islandReset = false → s.power.pll = true → ∃ t, exec (.resetNRelease b) s = .next t ∧
      t.power.resetN = true ∧ t.keeper.strapBoot = b ∧ t.keeper.stage = 1 ∧ t.power.pwrEn = 1 ∧ t.power.seqActive = true ∧ t.chans = s.chans) ∧
    (watchdogCounts s = true → ∃ t, exec .watchdogExpiry s = .next t ∧ Rebooted 2 s t ∧ t.keeper.stage = 1 ∧ t.power.pwrEn = 1 ∧
      t.keeper.watchdogStage = some s.keeper.stage ∧ t.sram = s.sram ∧ t.log.buffer = s.log.buffer ∧
      t.keeper.counterUs = s.keeper.counterUs ∧ t.keeper.attemptsA = s.keeper.attemptsA) ∧
    (∀ i : Nat, Served i 0x13 s → (∀ h ∈ s.spi.held, h.1 ≠ i) → (s.spi.rspReady &&& bit4 i) = 0 → ∃ t, exec (.reset i) s = .next t ∧
      Rebooted 3 s t ∧ t.keeper.stage = 1 ∧ t.power.pwrEn = 1 ∧ t.sram = s.sram ∧ t.keeper.counterUs = s.keeper.counterUs)

/-- With the bus rules in force and no warning yet, BUS_WARN at or below the band of the threshold in force raises 0x1001
with the number of unflushed records, starts the emergency fall over 1,024 samples on every channel and asks for the
last record. BROWNOUT_SILENT, once every channel is silent, leaves every channel and every controller in OFF.
LAST_RECORD, in those states with the flash powered, enters SAFE with its cause kept, whatever number of read-backs
fails first. BUS_DIP at or above the re-arm level, 0.5 V above the threshold (the model's choice among the levels of
Table 3.1: log entry 73), ends the warning, with 0x1008 after a tw. BUS_RECOVERY returns from SAFE to RUN under the
conditions of R65. -/
def Obligations.BrownOutRows : Prop :=
  ∀ s : State,
    (∀ v : Rat, busRules s = true → s.power.warn = false → v ≤ s.power.warnV + warnBand s → ∃ t, exec (.busWarn v) s = .next t ∧ t.power.warn = true ∧ t.store.lastPending = true ∧
      Raised 0x1001 0 [word s.log.buffer.length] s t ∧ Quiet s t ∧
      ∀ c : Nat, c < 208 → (t.chan c).dsp.e = (s.chan c).dsp.e.to 0 1024 ∧ (t.chan c).fsm = (s.chan c).fsm) ∧
    (s.power.falling = true → allSilent s = true → ∃ t, exec .brownoutSilent s = .next t ∧ t.power.falling = false ∧ Quiet s t ∧
      t.keeper = s.keeper ∧ (∀ c : Nat, c < 208 → (t.chan c).fsm.state = .off) ∧ ∀ r : Nat, r < 12 → (t.rail r).state = .off) ∧
    (∀ a b : Nat, s.store.lastPending = true → canLog s = true → busRules s = true → flashOn s = true → ∃ t, exec (.lastRecord a b) s = .next t ∧
      t.keeper.dev = .safe ∧ 1 ∈ t.keeper.safeCauses ∧ t.store.lastPending = false ∧ Quiet s t) ∧
    (∀ v : Rat, s.power.islandReset = false → s.power.warn = true → s.power.warnV + 1 / 2 ≤ v → ∃ t, exec (.busDip v) s = .next t ∧
      (s.power.tw = true → Reports { s with power := { s.power with warn := false, tw := false, dipped := true } } t ∧ Raised 0x1008 0 [] s t) ∧
      (s.power.tw = false → t = { s with power := { s.power with warn := false } })) ∧
    (s.keeper.dev = .safe → s.power.dipped = true → s.power.warn = false → s.flag 0x01 0 0 = true → s.power.ov = false →
      s.misc.junctionHot = false → s.keeper.halted = false → s.store.lastPending = false →
      ∃ t, exec .busRecovery s = .next t ∧ t.keeper.dev = .run ∧ t.keeper.safeCauses = [] ∧ t.power.dipped = false ∧ Quiet s t)

/-- While the Keeper island is up: BUS_OV starts the persistence timer; OVER_VOLTAGE_CLEAR ends it and raises 0x1002
unless it had run out; BUS_OV_LONG reports 0x1003 (stated where no self-test ends with it) and in READY, RUN, SAFE or
UPDATE enters SAFE with cause 2, starts the fall and ends an update, the controllers, the media clock and the flash
banks as they were; elsewhere it only reports; BUS_REVERSED raises 0x1004 with the pump off; REVERSE_CURRENT_BLOCK
turns the pump off and GATE_RS_ABOVE_VBUS on again. Beside that, only the log and its notices differ. -/
def Obligations.OverVoltageAndReverseProtection : Prop :=
  ∀ s : State, s.power.islandReset = false →
    (s.power.ov = false → exec .busOv s = .next { s with power := { s.power with ov := true, ovLong := false } }) ∧
    (s.power.ov = true → s.power.ovLong = false → ∃ t, exec .overVoltageClear s = .next t ∧
      Reports { s with power := { s.power with ov := false, ovLong := false } } t ∧ Raised 0x1002 0 [] s t) ∧
    (s.power.ov = true → s.power.ovLong = true →
      exec .overVoltageClear s = .next { s with power := { s.power with ov := false, ovLong := false } }) ∧
    (s.power.ov = true → s.power.ovLong = false → s.keeper.dev = .ready ∨ s.keeper.dev = .run ∨ s.keeper.dev = .update ∨ s.keeper.dev = .safe →
      ∃ t, exec .busOvLong s = .next t ∧ t.keeper.dev = .safe ∧ 2 ∈ t.keeper.safeCauses ∧ Quiet s t ∧
      t.power = { s.power with ovLong := true, falling := true } ∧ t.store.updLen = 0 ∧ t.store.fwA = s.store.fwA ∧ t.store.fwB = s.store.fwB ∧
      t.media = s.media ∧ (s.tests.list = [] → Raised 0x1003 0 [] s t ∧ t.rails = s.rails)) ∧
    (s.power.ov = true → s.power.ovLong = false → s.keeper.dev = .boot ∨ s.keeper.dev = .standby →
      ∃ t, exec .busOvLong s = .next t ∧ Reports { s with power := { s.power with ovLong := true } } t ∧ Raised 0x1003 0 [] s t) ∧
    (∃ t, exec .busReversed s = .next t ∧ Reports { s with power := { s.power with pump := false, reversed := true } } t ∧
      Raised 0x1004 0 [] s t) ∧
    exec .reverseCurrentBlock s = .next { s with power := { s.power with pump := false } } ∧
    exec .gateRsAboveVbus s = .next { s with power := { s.power with pump := true, reversed := false } }

/-- With RESET_N high, KEEPER_PLL_LOCK starts the sequence at stage 0x1 with PWR_EN0. PWR_PG_HIGH at steps 0 to 4 adds the
next enable, sampling the straps once at step 0; at step 5 the sequence is complete and the stage is 0x3, or 0x6 on a
wake. PG_TIMEOUT reports 0x1005 with the step, takes every enable away, and retries twice before stage 0xF. PG_LOST
takes every enable away, leaves every channel in OFF with its bridge open and its relay de-energised and every
controller in OFF, unlocks the media clock and ends the twin link. SEQUENCE_RETRY starts the sequence again. -/
def Obligations.SupplySequence : Prop :=
  ∀ s : State,
    (s.power.islandReset = false → s.power.resetN = true → s.power.pll = false → ∃ t, exec .keeperPllLock s = .next t ∧ t.power.pll = true ∧
      t.keeper.stage = 1 ∧ t.power.pwrEn = 1 ∧ t.power.seqActive = true ∧ t.power.seqStep = 0 ∧ Quiet s t) ∧
    (∀ (b : Bool) (n : Nat), s.power.seqActive = true → s.power.seqStep < 5 → s.keeper.waking = false →
      ∃ t, exec (.pwrPgHigh b n) s = .next t ∧ t.power.seqStep = s.power.seqStep + 1 ∧
      t.power.pwrEn = s.power.pwrEn ||| BitVec.ofNat 6 (2 ^ (s.power.seqStep + 1)) ∧ t.power.seqActive = true ∧ Quiet s t ∧
      (s.power.seqStep = 0 → s.keeper.straps = false → t.keeper.strapTwin = b ∧ t.keeper.strapDrv = n % 16) ∧
      (s.keeper.straps = true → t.keeper.strapTwin = s.keeper.strapTwin ∧ t.keeper.strapDrv = s.keeper.strapDrv)) ∧
    (∀ (b : Bool) (n : Nat), s.power.seqActive = true → 5 ≤ s.power.seqStep → ∃ t, exec (.pwrPgHigh b n) s = .next t ∧ t.power.seqDone = true ∧
      t.power.seqActive = false ∧ t.keeper.stage = (if s.keeper.waking then 6 else 3) ∧ Quiet s t) ∧
    (s.power.seqActive = true → ∃ t, exec .pgTimeout s = .next t ∧ t.power.pwrEn = 0 ∧ t.power.seqActive = false ∧ Quiet s t ∧
      (s.power.retries < 2 → t.power.retryWait = true ∧ t.power.retries = s.power.retries + 1 ∧ Raised 0x1005 s.power.seqStep [] s t) ∧
      (2 ≤ s.power.retries → t.power.retryWait = false ∧ t.keeper.stage = 0xF)) ∧
    (s.power.seqDone = true → ∃ t, exec .pgLost s = .next t ∧ t.power.pwrEn = 0 ∧ t.power.seqDone = false ∧ t.media.locked = false ∧ t.twin.link = false ∧
      t.sram = s.sram ∧ t.pending = s.pending ∧ (∀ c : Nat, c < 208 → (t.chan c).fsm.state = .off ∧ (t.chan c).fsm.bridge = .open ∧
        (t.chan c).fsm.relayOn = false) ∧ ∀ r : Nat, r < 12 → (t.rail r).state = .off) ∧
    (s.power.retryWait = true → ∃ t, exec .sequenceRetry s = .next t ∧ t.power.pwrEn = 1 ∧ t.power.seqActive = true ∧ t.keeper.stage = 1 ∧
      t.power.retryWait = false ∧ Quiet s t)

/-- The Keeper not halted: at stage 0x3 after the sequence, ROM_BANK_SELECT goes to stage 0x2 with STRAP_BOOT, to 0xE
without a readable SFDP table, to 0x4 or 0x5 for the usable bank with the higher SEQ (A when equal), else to 0xE, and
takes the flash size that the table gives, 256 MB at most. FIRMWARE_START of a good body starts that bank at stage
0x6, counts its attempt and puts the image into the Keeper SRAM (at its start: log entry 74). MEDIA_PLL_LOCK starts
the media index at 0. DSD_BRINGUP releases a die that passes, with its channels and controllers in OFF, and fails one
whose VDRV lies outside its window, with 0x1007, or whose trim, link or reference fails, with 0x100A. CONFIG_LOAD
makes active, pending and target equal. MAILBOX_READY reaches stage 0x8 and READY, or RUN with dev.autostart. -/
def Obligations.BootRows : Prop :=
  ∀ s : State,
    (∀ sfdp : Option Nat, s.power.seqDone = true → s.keeper.stage = 3 → s.keeper.halted = false → ∃ t, exec (.romBankSelect sfdp) s = .next t ∧ Quiet s t ∧
      t.store.flashMb = (match sfdp with | some mb => min 256 mb | none => s.store.flashMb) ∧
      t.keeper.stage = (if s.keeper.strapBoot then 2 else if sfdp = none then 0xE
        else if s.store.fwA.usable s.keeper.attemptsA ∧ (s.store.fwB.usable s.keeper.attemptsB = false ∨ s.store.fwB.seq ≤ s.store.fwA.seq) then 4
        else if s.store.fwB.usable s.keeper.attemptsB then 5 else 0xE)) ∧
    (s.keeper.stage = 4 → s.keeper.halted = false → fwBodyOk s.store.fwA.bytes = true → ∃ t, exec .firmwareStart s = .next t ∧ t.keeper.stage = 6 ∧
      t.keeper.fwBank = false ∧ t.keeper.fwSpi = false ∧ t.keeper.watchdog = true ∧ t.keeper.attemptsA = s.keeper.attemptsA + 1 ∧
      t.keeper.fwBytes = s.store.fwA.bytes ∧ t.sram = putBytes 0 s.store.fwA.bytes s.sram ∧
      t.pending = s.pending ∧ t.spi.mem = s.spi.mem ∧ t.cfg = s.cfg) ∧
    (s.keeper.stage = 5 → s.keeper.halted = false → fwBodyOk s.store.fwB.bytes = true → ∃ t, exec .firmwareStart s = .next t ∧ t.keeper.stage = 6 ∧
      t.keeper.fwBank = true ∧ t.keeper.attemptsB = s.keeper.attemptsB + 1 ∧ t.keeper.fwBytes = s.store.fwB.bytes ∧
      t.sram = putBytes 0 s.store.fwB.bytes s.sram ∧ t.pending = s.pending ∧ t.spi.mem = s.spi.mem ∧ t.cfg = s.cfg) ∧
    (s.power.seqDone = true → s.keeper.stage = 6 → s.media.locked = false → s.keeper.halted = false → ∃ t, exec .mediaPllLock s = .next t ∧ t.media.locked = true ∧
      t.media.index = 0 ∧ t.media.steer = 0 ∧ Quiet s t ∧ t.keeper = s.keeper) ∧
    (∀ (d : Nat) (vdrv ntc : Rat) (trim link sref : Bool), d < 4 → s.media.locked = true → s.keeper.stage = 6 → s.keeper.halted = false → (s.dsd d).released = false →
      (s.dsd d).failed = false → ∃ t, exec (.dsdBringup d vdrv trim link sref ntc) s = .next t ∧ Quiet s t ∧
      (vdrvInWindow (s.keeper.strapDrv / 2 ^ d % 2 == 1) vdrv = false → (t.dsd d).failed = true ∧ (t.dsd d).released = false ∧
        Raised 0x1007 d [] s t) ∧
      (vdrvInWindow (s.keeper.strapDrv / 2 ^ d % 2 == 1) vdrv = true → (trim && link && sref) = false →
        (t.dsd d).failed = true ∧ (t.dsd d).released = false ∧ Raised 0x100A d [] s t) ∧
      (vdrvInWindow (s.keeper.strapDrv / 2 ^ d % 2 == 1) vdrv = true → (trim && link && sref) = true →
        (t.dsd d).released = true ∧ (t.dsd d).failed = false ∧ (t.dsd d).linked = true ∧
        (∀ c : Nat, c < 208 → dsdOf c = d → (t.chan c).fsm.state = .off) ∧ ∀ r : Nat, r < 12 → r / 3 = d → (t.rail r).state = .off)) ∧
    (s.keeper.stage = 7 → s.keeper.cfgLoaded = false → s.keeper.halted = false → ∃ t, exec .configLoad s = .next t ∧ t.keeper.cfgLoaded = true ∧
      t.cfg.pending = t.cfg.active ∧ t.cfg.target = t.cfg.active ∧ t.cfg.commit = none ∧
      t.cfg.active = (match bestCfg s.store with | some i => (cfgBankOf s.store i).bank | none => {}) ∧ t.keeper.cfgFactory = (bestCfg s.store == none)) ∧
    (s.keeper.halted = false → s.keeper.stage = 7 → s.keeper.cfgLoaded = true → ∃ t, exec .mailboxReady s = .next t ∧ t.cfg = s.cfg ∧ t.keeper.stage = 8 ∧ t.keeper.serving = true ∧
      t.keeper.dev = (if s.flag 0x01 0 0 then .run else .ready))

/-- KEEPER_HALT halts a running Keeper and nothing else; KEEPER_RESUME ends the halt with the interrupt bits that waited
set and none waiting; where no frame and no query waits for the Keeper it leaves the memories and the configuration.
HEARTBEAT while firmware runs counts one in HEARTBEAT and 1,000 microseconds in the Keeper counter. In STANDBY the
wake timer, with dev.standby_wake_s not 0, and a matching wake pattern hold a wake event, the frame in the ring of NM;
WAKE with a wake event held and the Keeper running starts the supply sequence. -/
def Obligations.KeeperClockAndWake : Prop :=
  ∀ s : State,
    (s.power.islandReset = false → s.power.resetN = true → s.keeper.halted = false →
      exec .keeperHalt s = .next { s with keeper := { s.keeper with halted := true } }) ∧
    (s.keeper.halted = true → ∃ t, exec .keeperResume s = .next t ∧ t.keeper.halted = false ∧
      ((∀ p : Nat, p < 3 → (s.port p).ring = [] ∧ (s.port p).queries = []) → Quiet s t) ∧ t.spi.irqWait = 0 ∧ t.spi.irqStatus &&& s.spi.irqWait = s.spi.irqWait) ∧
    (firmwareRuns s = true → exec .heartbeat s = .next { s with
      keeper := { s.keeper with heartbeat := s.keeper.heartbeat + 1, counterUs := s.keeper.counterUs + 1000 } }) ∧
    (s.keeper.dev = .standby → s.keeper.waking = false → s.nat 0x01 0 2 ≠ 0 →
      exec .standbyWakeTimer s = .next { s with keeper := { s.keeper with wakeHeld := true } }) ∧
    (∀ (n : Nat) (frame : List Byte), s.keeper.dev = .standby → n < 8 → s.nat 0x02 0 7 / 2 ^ n % 2 = 1 → s.keeper.waking = false → wakeMatch s n frame = true →
      ∃ t, exec (.wakePatternMatch frame true) s = .next t ∧ t.keeper.wakeHeld = true ∧
        t.sram = (fillRing 2 frame false s).sram ∧ t.spi.mem = s.spi.mem ∧ t.cfg = s.cfg ∧ t.pending = s.pending) ∧
    (s.keeper.dev = .standby → s.keeper.wakeHeld = true → s.keeper.waking = false → s.keeper.halted = false →
      ∃ t, exec .wake s = .next t ∧ t.keeper.waking = true ∧ t.keeper.wakeHeld = false ∧ t.power.seqActive = true ∧ t.power.pwrEn = 1 ∧
        t.keeper.stage = 1 ∧ Quiet s t)

/-- JUNCTION_SHUTDOWN of one of the five dies above the limit of R433, with the supplies up: from READY, RUN or UPDATE it
enters SAFE with cause 3 and the fall starts, also where the crossing came before; the first crossing is reported by
0x900C with the temperature (stated where no self-test ends with it), also in SAFE, and alone in BOOT and STANDBY;
JUNCTION_WARN at or above dev.temp_warn_c begins one episode and raises 0x900B with the temperature;
KEEPER_SENSOR_SAMPLE, between two seconds of the Keeper counter, keeps the bus voltage, the junctions, the supply and
reference monitors and the ring oscillators and ends the episode 5 K below the threshold; STATUS_REFRESH, once nothing
of a higher priority waits, refreshes the status fields and leaves the configuration and the memories. -/
def Obligations.KeeperSensorRows : Prop :=
  ∀ s : State,
    (∀ (die : Nat) (c : Rat), die < 5 → junctionLimit < c → s.power.islandReset = false → s.power.seqDone = true →
      s.keeper.dev = .ready ∨ s.keeper.dev = .run ∨ s.keeper.dev = .update ∨ (s.keeper.dev = .safe ∧ s.misc.junctionHot = false) →
      ∃ t, exec (.junctionShutdown die c) s = .next t ∧ t.keeper.dev = .safe ∧ 3 ∈ t.keeper.safeCauses ∧ t.power.falling = true ∧
        t.misc.junctionHot = true ∧ Quiet s t ∧ (s.misc.junctionHot = false → s.tests.list = [] → Raised 0x900C die [wordS (10 * c)] s t)) ∧
    (∀ (die : Nat) (c : Rat), die < 5 → junctionLimit < c → s.power.islandReset = false → s.power.seqDone = true → s.misc.junctionHot = false →
      s.keeper.dev = .boot ∨ s.keeper.dev = .standby → ∃ t, exec (.junctionShutdown die c) s = .next t ∧
        Reports { s with misc := { s.misc with junctionHot := true } } t ∧ Raised 0x900C die [wordS (10 * c)] s t) ∧
    (∀ (die : Nat) (c : Rat), canLog s = true → s.misc.junctionEp = false → s.ratv 0x01 0 0xB ≤ c →
      ∃ t, exec (.junctionWarn die c) s = .next t ∧ Reports { s with misc := { s.misc with junctionEp := true } } t ∧
        Raised 0x900B die [wordS (10 * c)] s t) ∧
    (∀ (l : List Rat) (v : Rat) (m x g : List Rat), firmwareRuns s = true → s.keeper.counterUs < s.misc.secondAt →
      exec (.keeperSensorSample l v m x g) s = .next { s with power := { s.power with vbus := v }, misc := { s.misc with
        junction := l, supplies := m, srefs := x, rings := g, junctionEp := s.misc.junctionEp && !decide (maxRat l ≤ s.ratv 0x01 0 0xB - 5)
        junctionHot := s.misc.junctionHot && decide (125 ≤ maxRat l) } }) ∧
    (canLog s = true → keeperFree s = true → ∃ t, exec .statusRefresh s = .next t ∧ t = refresh s ∧ Quiet s t)

/-- For a commit that no twin agreement governs: UNIT_ARM arms the next unit where what it restarts has stopped, keeping
the channels in OFF that it restarts from starting, asks for that stop otherwise, and leaves every bank; UNIT_SWITCH,
at the block of a unit, copies that unit from the target into the active bank if it is armed and what it restarts has
stopped, and otherwise sets LATE and moves the units that have not switched, while what has started since its unit was
armed is asked to stop again; while a unit of the first block is not armed, the whole commit moves; CROSSFADE_END
after 1,024 samples ends the crossfade; COMMIT_DONE makes the target the active bank and ends the commit; CFG_STORE
writes the bank that does not hold the highest valid sequence number, leaves the other, and raises 0x9002, or 0x9003
without a commit byte. The queue and memories stand. -/
def Obligations.CommitRows : Prop :=
  ∀ s : State,
    (∀ (c : Commit) (u : UnitPlan), s.cfg.commit = some c → c.epoch = none → s.keeper.halted = false → c.units.find? (fun v => !v.armed) = some u →
      (stoppedForUnit s u.unit = true → ∃ c' t, exec .unitArm s = .next t ∧ Quiet { s with cfg := { s.cfg with commit := some c' } } t ∧
        c'.units = c.units.map (fun v => if v.unit = u.unit then { v with armed := true } else v) ∧ (c.k0 ≠ none → c'.k0 = c.k0) ∧
        ∀ d : Nat, d < 208 → (t.chan d).fsm.state = (s.chan d).fsm.state ∧
          (restartsChan s.cfg.active s.cfg.target u.unit d = true → (s.chan d).fsm.state = .off → (t.chan d).fsm.restart = true)) ∧
      (stoppedForUnit s u.unit = false → ∃ t, exec .unitArm s = .next t ∧ Quiet { s with cfg := { s.cfg with commit := some { c with
        units := c.units.map fun v => if v.unit = u.unit then { v with asked := true } else v } } } t)) ∧
    (∀ (c : Commit) (u : UnitPlan), s.cfg.commit = some c → s.media.locked = true → s.media.halted = false →
      c.units.find? (c.due (winK s)) = some u →
      ∃ t, exec .unitSwitch s = .next t ∧ t.cfg.pending = s.cfg.pending ∧ t.cfg.target = s.cfg.target ∧ t.pending = s.pending ∧
        t.spi.mem = s.spi.mem ∧ t.sram = s.sram ∧
        (c.first = none → (∃ v ∈ c.units, v.block = 0 ∧ v.armed = false) → t = { s with cfg := { s.cfg with
          commit := some { c with k0 := some (winK s + 1), late := true } } }) ∧
        ((c.first = none → ∀ v ∈ c.units, v.block = 0 → v.armed = true) → u.armed = true → stoppedForUnit s u.unit = true → t.cfg.active = copyUnit s.cfg.target u.unit s.cfg.active ∧
          ∃ c', t.cfg.commit = some c' ∧ c'.units = c.units.map fun v => if v.unit = u.unit then { v with switched := true } else v) ∧
        ((c.first = none → ∀ v ∈ c.units, v.block = 0 → v.armed = true) → u.armed = false ∨ (stoppedForUnit s u.unit = false ∧ s.keeper.halted = true) →
          t = { s with cfg := { s.cfg with commit := some { c with
            shift := c.shift + ((winK s + 1 : Nat) : Int) - ((c.blockOf u).getD 0 : Nat), late := true } } }) ∧
        ((c.first = none → ∀ v ∈ c.units, v.block = 0 → v.armed = true) → u.armed = true → stoppedForUnit s u.unit = false → s.keeper.halted = false →
          Quiet { s with cfg := { s.cfg with commit := some { c with
            shift := c.shift + ((winK s + 1 : Nat) : Int) - ((c.blockOf u).getD 0 : Nat), late := true } } } t)) ∧
    (∀ (c : Nat) (x : XFade), (s.chan c).dsp.xf = some x → 1024 ≤ x.i → c < 208 → ∃ t, exec (.crossfadeEnd c) s = .next t ∧
      (t.chan c).dsp = { (s.chan c).dsp with xf := none } ∧ t.cfg.active = s.cfg.active ∧
      t.cfg.commit = s.cfg.commit.map (fun k => { k with xfading := k.xfading.erase c }) ∧ t.rails = s.rails ∧ t.log = s.log) ∧
    (∀ c : Commit, s.cfg.commit = some c → s.keeper.halted = false → commitOver s c = true → ∃ t, exec .commitDone s = .next t ∧
      t.cfg.active = s.cfg.target ∧ t.cfg.whole = s.cfg.target ∧ t.cfg.pending = s.cfg.pending ∧ t.cfg.commit = none ∧
      t.pending = s.pending ∧ t.spi.mem = s.spi.mem ∧ t.sram = s.sram) ∧
    (∀ (ticket : Nat) (ok : Bool), s.cfg.storePending = some ticket → keeperFree s = true → canLog s = true → flashOn s = true → s.keeper.dev ≠ .standby →
      s.store.lastPending = false → ∃ t, exec (.cfgStore ok) s = .next t ∧
        cfgBankOf t.store (storeBank s.store) = ⟨if ok then 0xA5 else 0xFF, storeSeq s.store, word s.twin.epoch, s.cfg.whole⟩ ∧
        cfgBankOf t.store (1 - storeBank s.store) = cfgBankOf s.store (1 - storeBank s.store) ∧
        t.cfg = { s.cfg with storePending := none } ∧
        Raised (if ok then 0x9002 else 0x9003) 0 (if ok then [word ticket, word (storeBank s.store), storeSeq s.store] else [word ticket, word (storeBank s.store)]) s t)

/-- RSEL_FILTER_RAIL and RSEL_FILTER_DSP set their own domain's row, at most 7, once it differs for the greatest filter
time of its direction, and change nothing below the least; of a controller the former changes at most row and target.
CEILING_TERMS_REFRESH copies d_fault and d_temp to the DSP. KEEPER_CEILING_WRITE takes the lower of its row and the
fallback's row as goal: a lower goal goes to the DSP first, a higher one to the RAIL logic first, with the second
write due; C_KEEPER_SECOND_WRITE leaves both equal to the goal. RAIL_SELECTION_APPLY of a regulating controller takes
the selected row, capped at c_eff, with the table that came with it, as its target while the link is up, and keeps row
and table otherwise; the reference itself moves with each block, by at most one twelfth of the slew toward its goal. -/
def Obligations.CeilingRows : Prop :=
  ∀ s : State,
    (∀ row us least : Nat, s.power.seqDone = true → least = (if s.misc.rselRail < min row 7 then 500 else 1500) →
      (least + 100 ≤ us → ∃ t, exec (.rselFilterRail row us) s = .next t ∧ t.misc.rselRail = min row 7 ∧ t.chans = s.chans ∧
        Quiet s t ∧ ∀ r, t.rail r = { s.rail r with row := (t.rail r).row, target := (t.rail r).target }) ∧
      (us < least → exec (.rselFilterRail row us) s = .next s)) ∧
    (∀ row us : Nat, s.media.locked = true →
      (1100 ≤ us → exec (.rselFilterDsp row us) s = .next { s with misc := { s.misc with rselDsp := min row 7 } }) ∧
      (us < 1000 → exec (.rselFilterDsp row us) s = .next s)) ∧
    (∀ (rc : Nat) (v : Rat), s.media.locked = true → ∃ t, exec (.ceilingTermsRefresh rc v) s = .next t ∧ TouchesRail rc s t ∧
      (rc < 12 → t.rail rc = { s.rail rc with dFaultDsp := (s.rail rc).dFaultRail, dTempDsp := (s.rail rc).dTempRail, vRail := v })) ∧
    (∀ rc row goal : Nat, rc < 12 → canLog s = true →
      goal = min row (if groupFallback s rc then (fallbackRow? s.cfg.active rc).getD 7 else 7) →
      ∃ t, exec (.keeperCeilingWrite rc row) s = .next t ∧ TouchesRail rc s t ∧ (t.rail rc).cKeepGoal = goal ∧
        (goal < (s.rail rc).cKeepGoal → (t.rail rc).cKeepDsp = goal ∧ (t.rail rc).cKeepRail = (s.rail rc).cKeepRail ∧ (t.rail rc).secondDue = true) ∧
        ((s.rail rc).cKeepGoal < goal → (t.rail rc).cKeepRail = goal ∧ (t.rail rc).cKeepDsp = (s.rail rc).cKeepDsp ∧ (t.rail rc).secondDue = true) ∧
        (goal = (s.rail rc).cKeepGoal → t.rail rc = s.rail rc)) ∧
    (∀ rc : Nat, rc < 12 → (s.rail rc).secondDue = true → s.keeper.halted = false → ∃ t, exec (.cKeeperSecondWrite rc) s = .next t ∧ TouchesRail rc s t ∧
      (t.rail rc).cKeepRail = (s.rail rc).cKeepGoal ∧ (t.rail rc).cKeepDsp = (s.rail rc).cKeepGoal ∧ (t.rail rc).secondDue = false) ∧
    (∀ rc row : Nat, rc < 12 → (s.rail rc).state = .regulating → row = min (s.rail rc).sent (cEffRail s rc) →
      ∃ t, exec (.railSelectionApply rc) s = .next t ∧ TouchesRail rc s t ∧ t.log = s.log ∧
        ((s.dsd (rc / 3)).linked = true → t.rail rc = { s.rail rc with
          row := row, table := (s.rail rc).sentTable, target := (s.rail rc).sentTable.getD row 0 }) ∧
        ((s.dsd (rc / 3)).linked = false → t.rail rc = { s.rail rc with target := (s.rail rc).table.getD (s.rail rc).row 0 })) ∧
    (∀ (rc : Nat) (q : Rail), q.state = .regulating → q.stopReq = false → 0 ≤ slew s rc →
      moveRef s rc q = { q with ref := approach q.ref q.target (slew s rc / 12) } ∧ |(moveRef s rc q).ref - q.ref| ≤ slew s rc / 12)

/-- RAIL_START and RAIL_RETRY of a controller that may start enter CHECK, with the attempt counted, the times of Table 5.5
taken and the spread register seeded with its number plus 1 (R352); VIN_ENTERS_RANGE from 9 V to 60 V begins check 1;
RAIL_PRECHECK goes to the next check, after the sixth to SOFT_START toward row 0, or stops with 0x7001 from 1 V of ISX
or 0x7002 below 0.4 V; checks 3 and 6 take the inductance of their phase, or, below a fiftieth of I_lim, disable it as
open with 0x7006 and a lower ceiling, and stop with 0x7008 where the other phase has failed; RAIL_REGULATING with the
reference at V_t0 and the rail within 3 % of it, 1 ms after the ramp, enters REGULATING at row 0; START_SHORT below a
quarter of V_t0 at t_r + 2 ms and START_TIMEOUT at t_r + 20 ms stop with 0x7003 and 0x7004, waiting for a retry while
one is left; RAIL_RETRY after the last raises 0x7005. Other controllers drive on. -/
def Obligations.RailStartRows : Prop :=
  ∀ (s : State) (rc : Nat), rc < 12 →
    ((s.rail rc).due = true → (s.rail rc).test = 0 → (s.rail rc).state = .off ∨ (s.rail rc).state = .fault ∨ (s.rail rc).state = .retryWait → railMayStart s rc = true →
      ∃ t, exec (.railStart rc) s = .next t ∧ TouchesRail rc s t ∧ (t.rail rc).state = .check ∧ (t.rail rc).check = 0 ∧ (t.rail rc).attempts = 1 ∧
        (t.rail rc).retriesLeft = s.nat 0x07 rc 5 ∧ (t.rail rc).lfsr = rc + 1 ∧ (t.rail rc).code = 0 ∧ (t.rail rc).due = false ∧
        (t.rail rc).cyc.softMs = s.ratv 0x07 rc 4 ∧ (t.rail rc).cyc.retryMs = s.nat 0x07 rc 6) ∧
    ((s.rail rc).state = .retryWait → railMayStart s rc = true →
      (s.rail rc).cyc.stoppedAt + 1000 * (s.rail rc).cyc.retryMs ≤ s.keeper.counterUs → ∃ t, exec (.railRetry rc) s = .next t ∧ TouchesRail rc s t ∧
      (t.rail rc).state = .check ∧ (t.rail rc).attempts = (s.rail rc).attempts + 1 ∧ (t.rail rc).retriesLeft = (s.rail rc).retriesLeft - 1 ∧
      (t.rail rc).lfsr = rc + 1 ∧ (t.rail rc).spread = 0) ∧
    (s.keeper.halted = false → (s.rail rc).state = .fault → railRetried (s.rail rc).code = true → (s.rail rc).retriesLeft = 0 → ∃ t, exec (.railRetry rc) s = .next t ∧
      TouchesRail rc s t ∧ t.rail rc = { s.rail rc with code := 0x7005 } ∧ Raised 0x7005 rc [word (s.rail rc).code] s t) ∧
    (∀ v : Rat, 9 ≤ v → v ≤ 60 → (s.rail rc).state = .check → (s.rail rc).check = 0 → ∃ t, exec (.vinEntersRange rc v) s = .next t ∧ TouchesRail rc s t ∧
      t.rail rc = { s.rail rc with check := 1, ntcOn := true } ∧ t.log = s.log) ∧
    (∀ isx vis vos rise : Rat, (s.rail rc).state = .check → (s.rail rc).check = 1 ∨ (s.rail rc).check = 4 →
      ∃ t, exec (.railPrecheck rc isx vis vos rise) s = .next t ∧
        (isx < 1 → TouchesRail rc s t ∧ (t.rail rc).state = .check ∧ (t.rail rc).check = (s.rail rc).check + 1) ∧
        (1 ≤ isx → Touches s t ∧ (t.rail rc).state = .fault ∧ (t.rail rc).code = 0x7001 ∧ ∀ k, k ≠ rc → SameRail (s.rail k) (t.rail k))) ∧
    (∀ isx vis vos rise : Rat, (s.rail rc).state = .check → (s.rail rc).check = 2 ∨ (s.rail rc).check = 5 →
      ∃ t, exec (.railPrecheck rc isx vis vos rise) s = .next t ∧
        (4/10 ≤ isx → TouchesRail rc s t ∧ (t.rail rc).state = .check ∧ (t.rail rc).check = (s.rail rc).check + 1) ∧
        (isx < 4/10 → Touches s t ∧ (t.rail rc).state = .fault ∧ (t.rail rc).code = 0x7002 ∧ ∀ k, k ≠ rc → SameRail (s.rail k) (t.rail k))) ∧
    (∀ isx vis vos rise : Rat, (s.rail rc).state = .check → (s.rail rc).check = 6 → (s.rail rc).iLim / 50 ≤ rise →
      ∃ t, exec (.railPrecheck rc isx vis vos rise) s = .next t ∧ TouchesRail rc s t ∧ (t.rail rc).state = .softStart ∧
        (t.rail rc).ref = vos ∧ (t.rail rc).target = (s.rail rc).setpoint 0 ∧ (t.rail rc).row = 0 ∧ (t.rail rc).lB = vis * (4/10) / rise) ∧
    (∀ isx vis vos rise : Rat, (s.rail rc).state = .check → (s.rail rc).check = 3 → (s.rail rc).iLim / 50 ≤ rise →
      ∃ t, exec (.railPrecheck rc isx vis vos rise) s = .next t ∧ TouchesRail rc s t ∧ (t.rail rc).state = .check ∧ (t.rail rc).check = 4 ∧
        (t.rail rc).lA = vis * (4/10) / rise) ∧
    (∀ (isx vis vos rise : Rat) (b : Bool), (s.rail rc).state = .check → (s.rail rc).check = (if b then 6 else 3) → rise < (s.rail rc).iLim / 50 →
      (if b then (s.rail rc).failedA else (s.rail rc).failedB) = false → ∃ t, exec (.railPrecheck rc isx vis vos rise) s = .next t ∧ TouchesRail rc s t ∧
        (t.rail rc).state = (if b then .softStart else .check) ∧ (t.rail rc).dFaultRail = 1 ∧ (if b then (t.rail rc).bOpen else (t.rail rc).aOpen) = true ∧
        Raised 0x7006 rc [phaseWord b, if b then currentsWord 0 rise else currentsWord rise 0, 1] s t) ∧
    (∀ isx vis vos rise : Rat, (s.rail rc).state = .check → (s.rail rc).check = 6 → rise < (s.rail rc).iLim / 50 → (s.rail rc).failedA = true →
      ∃ t, exec (.railPrecheck rc isx vis vos rise) s = .next t ∧ Touches s t ∧ (t.rail rc).state = .fault ∧ (t.rail rc).code = 0x7008) ∧
    (∀ v ms : Rat, (s.rail rc).state = .softStart → (s.rail rc).stopReq = false → (s.rail rc).ref = (s.rail rc).setpoint 0 → rampMs s rc + 1 ≤ ms →
      absRat (v - (s.rail rc).setpoint 0) ≤ (s.rail rc).setpoint 0 * 3/100 → ∃ t, exec (.railRegulating rc v ms) s = .next t ∧ TouchesRail rc s t ∧
      (t.rail rc).state = .regulating ∧ (t.rail rc).row = 0 ∧ (t.rail rc).ref = (s.rail rc).setpoint 0 ∧
      (t.rail rc).target = (s.rail rc).setpoint 0) ∧
    (∀ v ms : Rat, (s.rail rc).state = .softStart → rampMs s rc + 2 ≤ ms → v < (s.rail rc).setpoint 0 / 4 → ∃ t, exec (.startShort rc v ms) s = .next t ∧ Touches s t ∧
      (t.rail rc).state = (if 0 < (s.rail rc).retriesLeft then .retryWait else .fault) ∧ (t.rail rc).code = 0x7003 ∧
      ∀ k, k ≠ rc → SameRail (s.rail k) (t.rail k)) ∧
    (∀ v ms : Rat, (s.rail rc).state = .softStart → rampMs s rc + 20 ≤ ms → ∃ t, exec (.startTimeout rc v ms) s = .next t ∧ Touches s t ∧
      (t.rail rc).state = (if 0 < (s.rail rc).retriesLeft then .retryWait else .fault) ∧ (t.rail rc).code = 0x7004 ∧
      ∀ k, k ≠ rc → SameRail (s.rail k) (t.rail k))

/-- While a controller's gates are on: RAIL_CHARGE_START with the sensed rail plus v_inj, the gain G_inj times the ripple
of the emulated currents, below the reference and the outer integrator's correction starts charging on the next
healthy phase, for the on-time of Table 13.2 in the mode of V_ref/V_in with k within ±15 % and the trim within ±10 %,
and adds the error to the integrator at 2 kHz; it starts none otherwise, or less than 150 ns after that phase's last
interval; RAIL_LIMIT_TRIP over V_lim ends and blocks a charging interval, counting one, and at the reverse limit ends
the discharging interval; RAIL_SAG below 80 % of the reference while the limit acts begins one episode and raises
0x7009; RAIL_OV above min(98 V, 105 % of row 7) stops the controller with 0x700A, and from REGULATING puts its driving
channels into FAULT with RAIL_LOST; RAIL_STOP reaches OFF once the fed channels are in OFF or FAULT and the reference
has fallen to row 0; PHASE_OPEN and PHASE_SENSE_FAILED disable one phase, d_fault 1, or stop with 0x7008 on the
second. -/
def Obligations.RailRegulationRows : Prop :=
  ∀ (s : State) (rc : Nat), rc < 12 →
    (∀ (b : Bool) (vIn v i offNs sinceNs own : Rat), (s.rail rc).state.gatesOn = true → 0 < vIn → 0 < fRef s rc → 150 ≤ offNs →
      own = offNs + (s.rail rc).cyc.tOn.getD (bit b 0) 0 →
      v + (s.rail rc).cyc.gInj * (s.rail rc).ripple (if b then sinceNs else own) (if b then own else sinceNs) < (s.rail rc).ref + (s.rail rc).cyc.outer →
      (if b then (s.rail rc).failedA = true ∨ ((s.rail rc).failedB = false ∧ (s.rail rc).turnB = true)
        else (s.rail rc).failedA = false ∧ ((s.rail rc).failedB = true ∨ (s.rail rc).turnB = false)) →
      ((if b then (s.rail rc).blockedB else (s.rail rc).blockedA) = true → i < (s.rail rc).iLim * 9/10) →
      ∃ t, exec (.railChargeStart rc vIn v i offNs sinceNs) s = .next t ∧ TouchesRail rc s t ∧ t.log = s.log ∧
      (t.rail rc).cyc.outer = (s.rail rc).cyc.outer + 2 * piR * 2000 * ((s.rail rc).ref - v) * sinceNs / 1000000000 ∧
      (t.rail rc).mode = railMode (s.rail rc).mode ((s.rail rc).ref / vIn) ∧ (t.rail rc).turnB = !b ∧
      (t.rail rc).chargingA = (!b || (s.rail rc).chargingA) ∧ (t.rail rc).chargingB = (b || (s.rail rc).chargingB) ∧
      ∃ k trim : Rat, -15/100 ≤ k ∧ k ≤ 15/100 ∧ -10/100 ≤ trim ∧ trim ≤ 10/100 ∧ (t.rail rc).cyc.tOn =
        (s.rail rc).cyc.tOn.set (bit b 0) (onTimeNs (t.rail rc).mode k trim (s.rail rc).ref vIn (fRef s rc))) ∧
    (∀ (b : Bool) (vIn v i offNs sinceNs own : Rat), b = (s.rail rc).turn → own = offNs + (s.rail rc).cyc.tOn.getD (bit b 0) 0 →
      offNs < 150 ∨ (s.rail rc).ref + (s.rail rc).cyc.outer ≤
        v + (s.rail rc).cyc.gInj * (s.rail rc).ripple (if b then sinceNs else own) (if b then own else sinceNs) →
      exec (.railChargeStart rc vIn v i offNs sinceNs) s = .next s) ∧
    (∀ (b : Bool) (mv ns : Rat), (s.rail rc).state.gatesOn = true → (if b then (s.rail rc).failedB else (s.rail rc).failedA) = false →
      ((s.rail rc).charges b ns = true → (s.rail rc).limMv < mv → ∃ t, exec (.railLimitTrip rc b mv ns) s = .next t ∧ TouchesRail rc s t ∧
        t.rail rc = (if b then { s.rail rc with chargingB := false, blockedB := true, limTotal := (s.rail rc).limTotal + 1 }
          else { s.rail rc with chargingA := false, blockedA := true, limTotal := (s.rail rc).limTotal + 1 }) ∧
        t.counters = (s.count (railStat rc 0x019) 1).counters) ∧
      ((s.rail rc).charges b ns = false → mv ≤ (s.rail rc).reverseMv → ∃ t, exec (.railLimitTrip rc b mv ns) s = .next t ∧ TouchesRail rc s t ∧
        t.rail rc = { s.rail rc with cyc := { (s.rail rc).cyc with idle := (s.rail rc).cyc.idle.set (bit b 0) true } } ∧ t.counters = s.counters)) ∧
    (∀ v : Rat, (s.rail rc).state.gatesOn = true → (s.rail rc).sagEp = false → (s.rail rc).blockedA = true ∨ (s.rail rc).blockedB = true →
      v < (s.rail rc).ref * 8/10 → ∃ t, exec (.railSag rc v) s = .next t ∧
      TouchesRail rc s t ∧ t.rail rc = { s.rail rc with sagEp := true } ∧ Raised 0x7009 rc [wordU (1000 * v), wordU (1000 * (s.rail rc).ref)] s t) ∧
    (∀ v : Rat, (s.rail rc).state.gatesOn = true → min 98 ((s.rail rc).setpoint 7 * 105/100) < v → ∃ t, exec (.railOv rc v) s = .next t ∧
      Touches s t ∧ (t.rail rc).code = 0x700A ∧ (t.rail rc).mode = 0 ∧ (∀ k, k ≠ rc → SameRail (s.rail k) (t.rail k)) ∧
      ((s.rail rc).state = .regulating → (t.rail rc).state = (if 0 < s.nat 0x07 rc 5 then .retryWait else .fault) ∧
        ∀ c, c < 208 → rcOf c = rc → (s.chan c).fsm.state ≠ .off → (s.chan c).fsm.state ≠ .fault → (s.chan c).fsm.state ≠ .retest →
          (t.chan c).fsm.state = .fault ∧ (t.chan c).fsm.code = chanCode c 0x14) ∧
      ∀ c, c < 208 → rcOf c ≠ rc → SameDrive (s.chan c) (t.chan c)) ∧
    ((s.rail rc).stopReq = true → (s.rail rc).state.gatesOn = true → (∀ c ∈ fedBy rc, (s.chan c).fsm.state = .off ∨ (s.chan c).fsm.state = .fault) →
      (s.rail rc).ref ≤ (s.rail rc).setpoint 0 →
      ∃ t, exec (.railStop rc) s = .next t ∧ TouchesRail rc s t ∧ (t.rail rc).state = .off ∧ (t.rail rc).row = 0 ∧ (t.rail rc).ref = 0 ∧
        (t.rail rc).stopReq = false ∧ t.log = s.log) ∧
    (∀ (b : Bool) (iA iB : Rat), (s.rail rc).state.gatesOn = true → (s.rail rc).failedA = false → (s.rail rc).failedB = false →
      (if b then iB < iA / 10 else iA < iB / 10) → 3/10 < (iA + iB) / (2 * (s.rail rc).iLim) →
      ∃ t, exec (.phaseOpen rc b iA iB) s = .next t ∧ TouchesRail rc s t ∧ (t.rail rc).state = (s.rail rc).state ∧ (t.rail rc).dFaultRail = 1 ∧
        (t.rail rc).aOpen = (!b || (s.rail rc).aOpen) ∧ (t.rail rc).bOpen = (b || (s.rail rc).bOpen)) ∧
    (∀ (b : Bool) (sensed : Rat), (s.rail rc).state.gatesOn = true → (if b then (s.rail rc).failedB else (s.rail rc).failedA) = false →
      absRat (predictedRise (s.rail rc) b) / 2 < absRat (sensed - predictedRise (s.rail rc) b) →
      ∃ t, exec (.phaseSenseFailed rc b sensed) s = .next t ∧ Touches s t ∧
        (∀ k, k ≠ rc → SameRail (s.rail k) (t.rail k)) ∧
        ((if b then (s.rail rc).failedA else (s.rail rc).failedB) = false → (t.rail rc).state = (s.rail rc).state ∧ (t.rail rc).dFaultRail = 1 ∧
          (t.rail rc).aSense = (!b || (s.rail rc).aSense) ∧ (t.rail rc).bSense = (b || (s.rail rc).bSense)) ∧
        ((if b then (s.rail rc).failedA else (s.rail rc).failedB) = true → (t.rail rc).state = .fault ∧ (t.rail rc).code = 0x7008))

/-- For an enabled controller under temperature measurement RC_NTC_SAMPLE in range joins the last 16 readings, whose mean
is T_rc and sets d_temp, and the count of those in a row at 130 degC or above; the hundredth in a row out of range in
one way substitutes T_zone + 20 K with 0x700D or 0x700E. RC_OVERTEMP after 100 such stops with 0x700C in FAULT, from
REGULATING with a new episode's retries; RC_OVERTEMP_RESTART below 100 degC goes on with the next attempt and no retry
less. SYNC_ACQUIRED after 8 fitting intervals takes the mean of them as f_RSYNC and begins the move of each enabled
controller whose frequency is within 25 % of it, else marks it 4; SYNC_LOST, on an interval out of the limits of R351
or a gap of twice the last, moves every one back, and acts on no other; f_ref moves in a straight line over 200 us
while the gates are on (with them off it is at its goal at once: log entry 59). RAIL_SPREAD_DRAW after 32 cycles steps
the register 15 times while not locked, else sets 0. TELEMETRY_REFRESH keeps the window's values, I_out as the mode
gives it, and folds the highest V_out that the 1 ms windows held. Nothing else of other controllers differs. -/
def Obligations.RailServiceRows : Prop :=
  ∀ s : State,
    (∀ (rc : Nat) (ohm : Rat), rc < 12 → s.flag 0x07 rc 0 = true → (s.rail rc).ntcOn = true → (s.rail rc).onZone = false → ∃ t,
      exec (.rcNtcSample rc ohm) s = .next t ∧ TouchesRail rc s t ∧ (t.rail rc).state = (s.rail rc).state ∧
      (ntcInRange ohm = true → (t.rail rc).readings = ((s.rail rc).readings ++ [ntcCelsius ohm]).drop ((s.rail rc).readings.length - 15) ∧
        (t.rail rc).tempC = mean (t.rail rc).readings ∧ (t.rail rc).dTempRail = dTempOf (s.rail rc).dTempRail (t.rail rc).tempC ∧
        (t.rail rc).hotMs = if 130 ≤ (t.rail rc).tempC then (s.rail rc).hotMs + 1 else 0) ∧
      (ntcInRange ohm = false → (s.rail rc).ntcBad = ntcKind ohm → 99 ≤ (s.rail rc).ntcMs → (s.rail rc).ntcWas ≠ ntcKind ohm →
        (t.rail rc).onZone = true ∧ (t.rail rc).tempC = (s.dsd (rc / 3)).zoneC + 20 ∧
        Raised (if ntcKind ohm = 1 then 0x700D else 0x700E) rc [ohmWord ohm] s t)) ∧
    (∀ rc : Nat, rc < 12 → (s.rail rc).state.gatesOn = true ∨ (s.rail rc).state = .check → (s.rail rc).ntcOn = true → 100 ≤ (s.rail rc).hotMs →
      ∃ t, exec (.rcOvertemp rc) s = .next t ∧ Touches s t ∧ (t.rail rc).state = .fault ∧ (t.rail rc).code = 0x700C ∧
        (t.rail rc).attempts = (if (s.rail rc).state = .regulating then 0 else (s.rail rc).attempts) ∧
        (t.rail rc).retriesLeft = (if (s.rail rc).state = .regulating then s.nat 0x07 rc 5 else (s.rail rc).retriesLeft) ∧
        ∀ k, k ≠ rc → SameRail (s.rail k) (t.rail k)) ∧
    (∀ rc : Nat, rc < 12 → (s.rail rc).state = .fault → (s.rail rc).code = 0x700C → (s.rail rc).test = 0 → (s.rail rc).tempC < 100 → railMayStart s rc = true →
      ∃ t, exec (.rcOvertempRestart rc) s = .next t ∧ TouchesRail rc s t ∧ (t.rail rc).state = .check ∧
        (t.rail rc).attempts = (s.rail rc).attempts + 1 ∧ (t.rail rc).retriesLeft = (s.rail rc).retriesLeft) ∧
    (∀ us : List Rat, s.power.seqDone = true → syncPresent us = true → ∃ t, exec (.syncAcquired us) s = .next t ∧
      t.misc.rsync = true ∧ t.misc.rsyncHz = 1000000 / mean us ∧
      t.chans = s.chans ∧ ∀ r, r < 12 → (s.flag 0x07 r 0 = false → t.rail r = s.rail r) ∧ (s.flag 0x07 r 0 = true →
        if 1000000 / mean us * 3 / 4 ≤ 1000 * s.ratv 0x07 r 1 ∧ 1000 * s.ratv 0x07 r 1 ≤ 1000000 / mean us * 5 / 4 then
          if (s.rail r).sync = 1 ∨ (s.rail r).sync = 2 then t.rail r = s.rail r
          else (t.rail r).spread = 0 ∧ ((s.rail r).state.gatesOn = false → (t.rail r).sync = 2) ∧
            ((s.rail r).state.gatesOn = true → (t.rail r).sync = 1 ∧ (t.rail r).cyc.fFrom = fRef s r ∧ (t.rail r).cyc.moveUs = 0)
        else (t.rail r).sync = 4)) ∧
    (∀ r : Nat, (s.rail r).sync = 1 →
      fRef s r = (s.rail r).cyc.fFrom + (s.misc.rsyncHz - (s.rail r).cyc.fFrom) * (min 200 (s.rail r).cyc.moveUs) / 200) ∧
    (∀ last gap : Rat, 5/4 ≤ gap → gap ≤ 5 → absRat (gap - last) ≤ last * 15/100 → exec (.syncLost last gap true) s = .next s) ∧
    (∀ (last gap : Rat) (edge : Bool), s.misc.rsync = true →
      (if edge then gap < 5/4 ∨ 5 < gap ∨ last * 15/100 < absRat (gap - last) else 2 * last ≤ gap) →
      ∃ t, exec (.syncLost last gap edge) s = .next t ∧ t.misc.rsync = false ∧ t.chans = s.chans ∧
      ∀ r, r < 12 → t.rail r = (if ((s.rail r).sync = 1 ∨ (s.rail r).sync = 2) ∧ (s.rail r).state.gatesOn = true then
          { s.rail r with sync := 3, cyc := { (s.rail r).cyc with fFrom := fRef s r, moveUs := 0 } }
        else { s.rail r with sync := if (s.rail r).sync = 3 then 3 else 0 })) ∧
    (∀ rc : Nat, rc < 12 → (s.rail rc).state.gatesOn = true → 32 ≤ (s.rail rc).cyc.drawn → ∃ t, exec (.railSpreadDraw rc) s = .next t ∧
      TouchesRail rc s t ∧ t.log = s.log ∧
      t.rail rc = (if (s.rail rc).sync ≠ 1 ∧ (s.rail rc).sync ≠ 2 ∧ 0 < s.ratv 0x07 rc 3 then { s.rail rc with
          lfsr := lfsr15^[15] (s.rail rc).lfsr, cyc := { (s.rail rc).cyc with drawn := 0 }
          spread := (((lfsr15^[15] (s.rail rc).lfsr * 21 / 32768 : Nat) : Rat) - 10) * s.ratv 0x07 rc 3 / 1000 }
        else { s.rail rc with spread := 0, cyc := { (s.rail rc).cyc with drawn := 0 } })) ∧
    (∀ (rc : Nat) (a b iA iB fA fB d : Rat) (l : List Rat), rc < 12 → keeperFree s = true → s.keeper.dev ≠ .standby → s.power.seqDone = true → ∃ c t u,
      exec (.telemetryRefresh rc a b iA iB fA fB d l false) s = .next t ∧ exec (.telemetryRefresh rc a b iA iB fA fB d l true) s = .next u ∧
      c = (if (s.rail rc).mode = 1 then iA + iB else iA * fA + iB * fB) ∧ Quiet s t ∧ Quiet s u ∧
      t.chans = s.chans ∧ (t.rail rc).tele = [a, b, c, d] ++ (s.rail rc).tele.drop 4 ∧ (u.rail rc).tele = (s.rail rc).tele.take 4 ++ [a, b, c, d] ∧
      (∀ h : Rat, (s.rail rc).peaks.getD 0 none = some h → (t.rail rc).peaks.getD 0 none = some (max h (max b (l.getD 0 b)))) ∧
      t.status = ((((s.put (railStat rc 7) (f32Of a)).put (railStat rc 8) (f32Of b)).put (railStat rc 9) (f32Of c)).put (railStat rc 10) (f32Of d)).status)

/-- CHANNEL_START of a channel that may start enters DIAG without a code, but for CELL_FAILED, which stays latched until
the cell check passes. SENSE_OFFSET_CAL keeps both offsets within their limits. DIAG_TEST_COMPLETE judges tests 2 to 6
by their limits: the next test, or FAULT with 0x5, 0x2, 0x1, 0x8, 0x4 or 0x3; in test 6 a current of 10 to 30 mA gives
full protection back, whatever R_m is, and a test passed without it leaves the voltage alone. POLARITY_CHECK passes to
PRECHARGE, swaps and repeats once, or ends in FAULT with 0xB or 0x9. PRECHARGE_START drives the nodes;
PRECHARGE_COMPLETE with both nodes within 2 % of half the rail, at most 50 mV apart, and the flying capacitors of an
L-channel within 3 % releases the bridge in IDLE with the spread register at c + 1, and does nothing with the nodes
further apart; PRECHARGE_TIMEOUT faults with 0xC. No other unit drives otherwise. -/
def Obligations.ChannelTestRows : Prop :=
  ∀ (s : State) (c : Nat), c < 208 →
    (s.enabled c = true → (s.chan c).fsm.state = .off → (s.chan c).fsm.restart = false → s.keeper.dev = .run → railUp s c = true →
      (s.dsd (dsdOf c)).released = true → (s.dsd (dsdOf c)).linked = true → heldByRole s c = false → (latchesOn s.pwm c).isEmpty = true →
      (s.chan c).fsm.holdTest = false → ∃ t, exec (.channelStart c) s = .next t ∧ DrivesChan c s t ∧
      ((s.chan c).fsm.coilLatched = 0 → (t.chan c).fsm.state = .diag ∧
        (t.chan c).fsm.code = (if (s.chan c).fsm.code = chanCode c 0x44 then chanCode c 0x44 else 0) ∧ (t.chan c).fsm.diagStep = firstTest s c false ∧
        (t.chan c).fsm.bridge = (if joiner s c then .open else .test) ∧ (t.chan c).fsm.calDone = false) ∧
      ((s.chan c).fsm.coilLatched ≠ 0 → (t.chan c).fsm.state = .fault ∧ (t.chan c).fsm.code = chanCode c (s.chan c).fsm.coilLatched)) ∧
    (∀ v i : Int, (s.chan c).fsm.state = .diag ∨ (s.chan c).fsm.state = .retest → (s.chan c).fsm.calDone = false →
      ∃ t, exec (.senseOffsetCal c v i) s = .next t ∧ TouchesChan c s t ∧ (t.chan c).fsm.calDone = true ∧
        (t.chan c).fsm.vOff = clampInt (-offsetMax) offsetMax v ∧ (t.chan c).fsm.iOff = clampInt (-offsetMax) offsetMax i ∧
        (t.chan c).fsm.state = (s.chan c).fsm.state) ∧
    (∀ r : TestReading, (s.chan c).fsm.state = .diag → (s.chan c).fsm.calDone = true → (s.chan c).share.joinReq = false → railUp s c = true →
      (s.flag 0x10 c 0x16 = true → (s.chan c).fsm.diagStep = 3 → (s.chan c).fsm.relayOn = true) →
      ((s.chan c).fsm.diagStep = 2 → (s.chan c).fsm.relayOn = false) → 2 ≤ (s.chan c).fsm.diagStep → (s.chan c).fsm.diagStep ≤ 6 →
      ∃ t low, exec (.diagTestComplete c r) s = .next t ∧ DrivesChan c s t ∧
        low = (match (s.chan c).fsm.diagStep with
          | 2 => if rOf r ≤ 16 * s.ratv 0x10 c 0x15 then 5 else 0
          | 3 => if 2 ≤ r.nodeA ∨ 2 ≤ r.nodeB then 2 else 0
          | 4 => if r.nodeA < 2 ∨ r.nodeB < 2 then 1 else 0
          | 5 => if 1/2 < absRat (r.legA - r.nodeA) ∨ 1/2 < absRat (r.legB - r.nodeB) then 8 else 0
          | _ => if rOf r < s.ratv 0x10 c 0x15 / 4 then 4 else if 4 * s.ratv 0x10 c 0x15 < rOf r then 3 else 0) ∧
        (low = 0 → (t.chan c).fsm.state = .diag ∧ (t.chan c).fsm.diagStep = (s.chan c).fsm.diagStep + 1 ∧ (t.chan c).fsm.bridge = (s.chan c).fsm.bridge) ∧
        ((s.chan c).fsm.diagStep = 6 → 10/1000 ≤ idOf r → idOf r ≤ 30/1000 → (t.chan c).fsm.voltageOnly = false) ∧
        ((s.chan c).fsm.diagStep = 6 → low = 0 → idOf r < 10/1000 ∨ 30/1000 < idOf r → (t.chan c).fsm.voltageOnly = true) ∧
        (low ≠ 0 → (t.chan c).fsm.state = .fault ∧ (t.chan c).fsm.code = chanCode c low ∧ (t.chan c).fsm.bridge = holdFor s c)) ∧
    (∀ v i : Rat, (s.chan c).fsm.state = .diag → (s.chan c).fsm.diagStep = 7 → ∃ t, exec (.polarityCheck c v i) s = .next t ∧ DrivesChan c s t ∧
      (polarity (s.chan c).fsm.voltageOnly v i = some (false, false) → (t.chan c).fsm.state = .precharge ∧ (t.chan c).fsm.diagStep = 9) ∧
      (polarity (s.chan c).fsm.voltageOnly v i = none → (t.chan c).fsm.state = .fault ∧ (t.chan c).fsm.code = chanCode c 0xB) ∧
      ∀ rv ri : Bool, polarity (s.chan c).fsm.voltageOnly v i = some (rv, ri) → (rv || ri) = true →
        ((s.chan c).fsm.polRepeat = true → (t.chan c).fsm.state = .fault ∧ (t.chan c).fsm.code = chanCode c 0xB) ∧
        ((s.chan c).fsm.polRepeat = false → (s.chan c).fsm.swapOn = false → (t.chan c).fsm.state = .fault ∧ (t.chan c).fsm.code = chanCode c 9) ∧
        ((s.chan c).fsm.polRepeat = false → (s.chan c).fsm.swapOn = true → (t.chan c).fsm.state = .diag ∧ (t.chan c).fsm.polRepeat = true ∧
          (t.chan c).fsm.swapV = rv ∧ (t.chan c).fsm.swapI = ri)) ∧
    ((s.chan c).fsm.state = .precharge → (s.chan c).fsm.diagStep = 9 → ∃ t, exec (.prechargeStart c) s = .next t ∧ TouchesChan c s t ∧
      (t.chan c).fsm = { (s.chan c).fsm with diagStep := 0, bridge := if (s.chan c).share.joinReq then .open else .precharge }) ∧
    ((s.chan c).fsm.state = .precharge → (s.chan c).fsm.diagStep = 0 → (s.chan c).fsm.stop = .none →
      (∀ (a b diff v : Rat) (caps : List Rat), v = (s.rail (rcOf c)).vRail → fallbackLow s c = true → startTaken s c = true →
        (s.chan c).share.joinReq = true ∨ (absRat (a - v / 2) ≤ 2/100 * (v / 2) ∧ absRat (b - v / 2) ≤ 2/100 * (v / 2) ∧ absRat diff ≤ 50/1000) →
        isL c = false ∨ (s.chan c).fsm.cellFallback = true ∨ (∀ i : Nat, i < 4 →
          absRat (caps.getD i 0 - legVolts v (if i % 2 = 0 then 2 else 1)) ≤ 3/100 * legVolts v (if i % 2 = 0 then 2 else 1)) →
        ∃ t, exec (.prechargeComplete c a b diff caps) s = .next t ∧ TouchesChan c s t ∧ (t.chan c).fsm.state = .idle ∧
        (t.chan c).fsm.bridge = .switching ∧ (t.chan c).loop.lfsr = c + 1 ∧ (t.chan c).loop.spread = 0 ∧ (t.chan c).loop.dead = startDead s c ∧
        (t.chan c).fsm.tauOk = false) ∧
      (∀ (a b diff : Rat) (caps : List Rat), (s.chan c).share.joinReq = false → 50/1000 < absRat diff →
        exec (.prechargeComplete c a b diff caps) s = .next s) ∧
      ∀ vp vn : Rat, ∃ t, exec (.prechargeTimeout c vp vn) s = .next t ∧ Faulted c (chanCode c 0xC) s t)

/-- In IDLE: TAU_MEASURED within 0.5 us and 9 us (15 us on an L-channel) stores tau, else faults with 0x30 (0x40); 100 ms
after the release LOOP_RANGE faults a trim that has not converged with 0x30, and FC_IMBALANCE_TIMEOUT a capacitor out
of ±3 % with 0x41; 20 ms after it IDLE_COMPLETE holds the admission, and ENTER_RUN enters RUN with a ramp of 1,024
samples from 0, or MUTED under a mute source. MUTE_ENTER takes RUN to MUTED. SENSE_OPEN_RUN faults with 0x8 where node
and sense of a leg have differed by more than a tenth of the rail on 4 blocks. A requested silent stop fades RUN,
zeroes IDLE and MUTED, then sinks, and ends in OFF once every node is below 1.0 V (in SHARED with the gates off); its
timeout also ends in OFF. No other unit drives otherwise. -/
def Obligations.ChannelPlayRows : Prop :=
  ∀ (s : State) (c : Nat), c < 208 →
    ((s.chan c).fsm.state = .idle → (s.chan c).fsm.stop = .none →
      (∀ τ : Rat, ∃ t, exec (.tauMeasured c τ) s = .next t ∧
        (500 ≤ τ ∧ τ ≤ (if isL c then 15000 else 9000) → TouchesChan c s t ∧ (t.chan c).fsm = { (s.chan c).fsm with tauOk := true } ∧
          (t.chan c).loop.tauNs = τ ∧ (t.chan c).loop.tauStored = some τ) ∧
        (¬ (500 ≤ τ ∧ τ ≤ (if isL c then 15000 else 9000)) → Faulted c (chanCode c (if isL c then 0x40 else 0x30)) s t)) ∧
      ((s.chan c).fsm.trimOk = false → isL c = false → sinceRelease s c 9600 = true → ∃ t, exec (.loopRange c) s = .next t ∧ Faulted c (chanCode c 0x30) s t) ∧
      (isL c = true → (s.chan c).fsm.fcOk = false → (s.chan c).fsm.cellFallback = false → sinceRelease s c 9600 = true → (fcOut s (lOf c)).isSome = true →
        ∃ t, exec (.fcImbalanceTimeout c) s = .next t ∧ Faulted c (chanCode c 0x41) s t) ∧
      ((s.chan c).fsm.tauOk = true → sinceRelease s c 1920 = true → isL c = false ∨ (s.chan c).fsm.cellFallback = true ∨ fcOut s (lOf c) = none → ∃ t, exec (.idleComplete c) s = .next t ∧ TouchesChan c s t ∧
        (t.chan c).fsm = { (s.chan c).fsm with admitted := true, trimOk := true, fcOk := true }) ∧
      ((s.chan c).fsm.admitted = true → sharing s = false → ∃ t, exec (.enterRun c) s = .next t ∧ TouchesChan c s t ∧ (t.chan c).fsm.admitted = false ∧
        (muteSource s c = false → (t.chan c).fsm.state = .run ∧ (t.chan c).dsp.fade = ⟨0, 1, 0, 1024⟩) ∧
        (muteSource s c = true → (t.chan c).fsm.state = .muted ∧ (t.chan c).dsp = (s.chan c).dsp))) ∧
    ((s.chan c).fsm.state = .run → (s.chan c).fsm.stop = .none → muteSource s c = true → ∃ t, exec (.muteEnter c) s = .next t ∧ TouchesChan c s t ∧
      (t.chan c).fsm = { (s.chan c).fsm with state := .muted } ∧
      (t.chan c).dsp.fade = (if (s.chan c).dsp.fade.done then (s.chan c).dsp.fade else (s.chan c).dsp.fade.to 0 1024)) ∧
    (∀ a b : List Rat, (s.chan c).fsm.state.switching = true → (s.chan c).fsm.bridge = .switching →
      fourApart (s.rail (rcOf c)).vRail a = true ∨ fourApart (s.rail (rcOf c)).vRail b = true → ∃ t, exec (.senseOpenRun c a b) s = .next t ∧
      Faulted c (chanCode c 8) s t) ∧
    ((s.chan c).fsm.stop = .requested → ∃ t, exec (.silentStop c) s = .next t ∧ TouchesChan c s t ∧ (t.chan c).fsm.state = (s.chan c).fsm.state ∧
      ((s.chan c).fsm.state = .run → (t.chan c).fsm.stop = .fading ∧ (t.chan c).dsp.fade = (s.chan c).dsp.fade.to 0 1024) ∧
      ((s.chan c).fsm.state = .idle ∨ (s.chan c).fsm.state = .muted → (t.chan c).fsm.stop = .zero ∧ (t.chan c).fsm.zeroBlocks = 0) ∧
      ((s.chan c).fsm.state.switching = false → (t.chan c).fsm.stop = .sinking ∧ (t.chan c).fsm.bridge = (if s.cfgShared then .open else .sink))) ∧
    ((s.chan c).fsm.stop = .zero → 2 ≤ (s.chan c).fsm.zeroBlocks → ∃ t, exec (.silentStopGatesOff c) s = .next t ∧ TouchesChan c s t ∧
      (t.chan c).fsm = { (s.chan c).fsm with stop := .sinking, bridge := if s.cfgShared then .open else .sink }) ∧
    ((s.chan c).fsm.stop = .sinking → s.cfgShared = false → ∀ (nodes : List Rat) (i : Nat), i < (if isL c then 6 else 2) → 1 ≤ nodes.getD i 0 →
      exec (.silentStopDischarged c nodes) s = .next s) ∧
    ((s.chan c).fsm.stop = .sinking → ∀ (vp vn : Rat) (nodes : List Rat),
      s.cfgShared = true ∨ (∀ i : Nat, i < (if isL c then 6 else 2) → nodes.getD i 0 < 1) → ∃ t u, exec (.silentStopDischarged c nodes) s = .next t ∧ exec (.silentStopTimeout c vp vn) s = .next u ∧
      TouchesChan c s t ∧ TouchesChan c s u ∧ u.chan c = t.chan c ∧ (t.chan c).fsm.state = .off ∧ (t.chan c).fsm.stop = .none ∧
      (t.chan c).fsm.bridge = holdFor s c ∧ t.log = s.log ∧ Raised (chanCode c 0xC) c [wordU (1000 * vp), wordU (1000 * vn)] s u)

/-- CD_LINK_LOST of a released, linked die puts each of its channels outside OFF, FAULT and RETEST into FAULT with 0x016;
channels of other dies and every controller drive on; CD_LINK_TRAINED links it. RETEST_START of a channel in FAULT
that may be tested enters RETEST and keeps its code; RETEST_COMPLETE enters PRECHARGE when all tests passed, else
FAULT with the failing code. RELAY_CHANGE at zero current sets the relay as wanted. On an enabled channel
RELAY_COIL_OPEN below 1 V and RELAY_DRIVE above 1 V fault a channel in IDLE, RUN or MUTED with 0x006 or 0x007, else
hold the code for the next DIAG; in FAULT and RETEST it also counts as a suppressed cause and, not being re-testable,
replaces a re-testable code. -/
def Obligations.LinkRetestAndRelayRows : Prop :=
  ∀ s : State,
    (∀ d : Nat, d < 4 → (s.dsd d).released = true → (s.dsd d).linked = true → ∃ t, exec (.cdLinkLost d) s = .next t ∧ (t.dsd d).linked = false ∧
      Quiet s t ∧ (∀ r, SameRail (s.rail r) (t.rail r)) ∧ ∀ c, c < 208 →
        (dsdOf c = d → (s.chan c).fsm.state ≠ .off → (s.chan c).fsm.state ≠ .fault → (s.chan c).fsm.state ≠ .retest →
          (t.chan c).fsm.state = .fault ∧ (t.chan c).fsm.code = chanCode c 0x16) ∧
        (dsdOf c ≠ d → SameDrive (s.chan c) (t.chan c))) ∧
    (∀ d : Nat, d < 4 → (s.dsd d).released = true → (s.dsd d).linked = false → ∃ t, exec (.cdLinkTrained d) s = .next t ∧
      t = { s with dsds := t.dsds } ∧ t.dsd d = { s.dsd d with linked := true }) ∧
    (∀ c : Nat, c < 208 → (s.chan c).fsm.state = .fault → (s.chan c).fsm.diagStep = 0 → s.flag 0x10 c 0x17 = true → s.enabled c = true →
      s.keeper.dev = .run → retestReady s c = true → ∃ t, exec (.retestStart c) s = .next t ∧ TouchesChan c s t ∧ (t.chan c).fsm.state = .retest ∧
        (t.chan c).fsm.code = (s.chan c).fsm.code ∧ (t.chan c).fsm.diagStep = firstTest s c true ∧ (t.chan c).fsm.calDone = false ∧
        t.counters = (s.count (chanStat c 0x106) 1).counters) ∧
    (∀ c : Nat, c < 208 → (s.chan c).fsm.state = .retest → (s.chan c).fsm.diagStep = 7 ∨ (s.chan c).fsm.diagStep = 8 →
      ∃ t, exec (.retestComplete c) s = .next t ∧ TouchesChan c s t ∧
        ((s.chan c).fsm.diagStep = 7 → (t.chan c).fsm.state = .precharge ∧ (t.chan c).fsm.code = 0) ∧
        ((s.chan c).fsm.diagStep = 8 → (t.chan c).fsm.state = .fault ∧ (t.chan c).fsm.code = (s.chan c).fsm.failCode ∧
          (t.chan c).fsm.bridge = holdFor s c)) ∧
    (∀ (c : Nat) (i : Rat), c < 208 → (s.chan c).fsm.relayOn ≠ ((s.chan c).fsm.relayWant && s.flag 0x10 c 0x16) → zeroCurrent s c i = true →
      ∃ t, exec (.relayChange c i) s = .next t ∧ TouchesChan c s t ∧
        t.chan c = { s.chan c with fsm := { (s.chan c).fsm with relayOn := (s.chan c).fsm.relayWant && s.flag 0x10 c 0x16 } } ∧
        t.counters = (s.count (chanStat c 0x104) 1).counters) ∧
    (∀ (c : Nat) (v : Rat), c < 208 → s.enabled c = true → s.flag 0x10 c 0x16 = true → (s.chan c).fsm.relayOn = false → v < 1 → ∃ t, exec (.relayCoilOpen c v) s = .next t ∧
      ((s.chan c).fsm.state.switching = true → Faulted c (chanCode c 6) s t) ∧
      ((s.chan c).fsm.state.switching = false → TouchesChan c s t ∧ (t.chan c).fsm.coilLatched = 6 ∧ (t.chan c).fsm.coilRead = v) ∧
      ((s.chan c).fsm.state.switching = false → (s.chan c).fsm.state ≠ .fault → (s.chan c).fsm.state ≠ .retest →
        t.chan c = { s.chan c with fsm := { (s.chan c).fsm with coilLatched := 6, coilRead := v } }) ∧
      ((s.chan c).fsm.state = .fault ∨ (s.chan c).fsm.state = .retest → (t.chan c).fsm.state = .fault ∧
        (t.chan c).fsm.code = (if retestable (s.chan c).fsm.code then chanCode c 6 else (s.chan c).fsm.code) ∧
        ∃ u, Reports u t ∧ u.counters = (s.count (chanStat c 0x10A) 1).counters)) ∧
    (∀ (c : Nat) (v : Rat), c < 208 → s.enabled c = true → s.flag 0x10 c 0x16 = true → (s.chan c).fsm.relayOn = true → 1 < v → ∃ t, exec (.relayDrive c v) s = .next t ∧
      (t.chan c).fsm.relayOn = false ∧ (t.chan c).fsm.relayWant = false ∧
      ((s.chan c).fsm.state.switching = true → Faulted c (chanCode c 7) s t) ∧
      ((s.chan c).fsm.state.switching = false → (t.chan c).fsm.coilLatched = 7 ∧ (t.chan c).fsm.coilRead = v ∧ TouchesChan c s t) ∧
      ((s.chan c).fsm.state = .fault ∨ (s.chan c).fsm.state = .retest → (t.chan c).fsm.state = .fault ∧
        (t.chan c).fsm.code = (if retestable (s.chan c).fsm.code then chanCode c 7 else (s.chan c).fsm.code)))

/-- While a channel's limits are armed: on an S-channel the clamped reference less the sensed voltage is integrated, the
integral that crosses the window swaps the legs unless the reverse state is forced, and an early swap counts;
SPREAD_DRAW of an S-channel steps its register 15 times and sets the offset; DEADTIME_ADAPT moves an edge's dead time
one step within its limits; a limit or drop trip forces the reverse state, on an S-channel with the integrator at its
bound, and a new limited cycle counts; the eighth consecutive one faults with 0x010, or 0x011 on the fourth within 60
s; a current that does not fall while no drop limit of the conducting switches has tripped enters voltage-only
protection, the cycle not counted as one in a row; LOOP_STALL faults an S-channel with 0x031. REVERSE_STATE_RELEASE
ends the reverse state, on an L-channel at the next boundary tick; DELAY_LINE_CAL counts one calibration. No other
unit drives otherwise. -/
def Obligations.LoopRows : Prop :=
  ∀ (s : State) (c : Nat), c < 208 →
    (∀ (n j : Nat) (v i dtNs w lim : Rat), armed s c = true → isL c = false → (s.chan c).loop.cycOld = none → (s.chan c).loop.marginDue = [] → w = windowNow (s.chan c).loop →
      lim = (s.chan c).loop.mIdxClamp * (s.rail (rcOf c)).vRail → ∃ t, exec (.loopComparatorEdge c n j v i dtNs) s = .next t ∧ TouchesChan c s t ∧
        (t.chan c).fsm = (s.chan c).fsm ∧
        ((s.chan c).loop.reverse = true → (t.chan c).loop.highA = (s.chan c).loop.highA ∧ (t.chan c).loop.integ = (s.chan c).loop.integ) ∧
        ((s.chan c).loop.reverse = false → ∃ (r x : Rat) (e : Bool), absRat r ≤ absRat lim ∧
          x = (s.chan c).loop.integ + (r + droop s c i - v) * dtNs / 1000000000 ∧
          (e = true ↔ (s.chan c).loop.atBound = true ∨ (if (s.chan c).loop.highA = true then x ≤ -w else w ≤ x)) ∧
          (e = true → (t.chan c).loop.highA = !(s.chan c).loop.highA ∧ (t.chan c).loop.integ = (if (s.chan c).loop.highA then -w else w) ∧
            (t.chan c).loop.atBound = false) ∧
          (e = false → (t.chan c).loop.highA = (s.chan c).loop.highA ∧ (t.chan c).loop.integ = x) ∧
          ((s.chan c).fsm.state ≠ .idle ∨ (s.chan c).fsm.tauOk = true → r = clampRat (-lim) lim (loopReference s c n j) ∧
            (absRat (loopReference s c n j) ≤ lim → t.log = s.log ∧
              t.counters = if e = true ∧ dtNs < pulseFloor (s.chan c).loop then (s.count (chanStat c 0x08A) 1).counters else s.counters)))) ∧
    (armed s c = true → isL c = false → ∃ t, exec (.spreadDraw c) s = .next t ∧ TouchesChan c s t ∧
      t.chan c = { s.chan c with loop := if 0 < f32Val (cycWord s c 0x11) then { (s.chan c).loop with
          lfsr := lfsr15^[15] (s.chan c).loop.lfsr
          spread := ((lfsr15^[15] (s.chan c).loop.lfsr * 65 / 32768 : Nat) - 32 : Rat) * f32Val (cycWord s c 0x11) / 3200 }
        else { (s.chan c).loop with spread := 0 } }) ∧
    (∀ edge early late n : Nat, armed s c = true → cycWord s c 0x12 = 1 → edge < deadEdges c →
      n = (if late < early then min (ceilingOf s c edge) ((s.chan c).loop.dead.getD edge (ceilingOf s c edge) + 1)
        else if early < late then max (deadMin c) ((s.chan c).loop.dead.getD edge (ceilingOf s c edge) - 1)
        else (s.chan c).loop.dead.getD edge (ceilingOf s c edge)) →
      ∃ t, exec (.deadtimeAdapt c edge early late) s = .next t ∧ TouchesChan c s t ∧ t.log = s.log ∧
        t.chan c = { s.chan c with loop := { (s.chan c).loop with dead := (s.chan c).loop.dead.set edge n, adapted := (s.chan c).loop.dead.set edge n } }) ∧
    (∀ (ab cyc con fell dropped : Bool) (l : Loop), (fell || dropped) = true → armed s c = true → (s.chan c).fsm.state.switching = true → (s.chan c).fsm.voltageOnly = false →
      l = (if isL c then { (s.chan c).loop with reverse := true, releaseDue := false, highA := !ab }
        else { (s.chan c).loop with reverse := true, releaseDue := false, highA := !ab, atBound := true
                                    integ := if ab then windowNow (s.chan c).loop else -(windowNow (s.chan c).loop) }) →
      ∃ t u, exec (.currentLimitTrip c ab cyc con fell dropped) s = .next t ∧ exec (.dropTrip c ab cyc con) s = .next u ∧ DrivesChan c s t ∧ DrivesChan c s u ∧
        (cyc = false → ∀ v, v = t ∨ v = u → (v.chan c).fsm = (s.chan c).fsm ∧ (v.chan c).loop = l) ∧
        (cyc = true → (if con then (s.chan c).loop.limRun + 1 else 1) < 8 → ∀ v, v = t ∨ v = u → (v.chan c).fsm = (s.chan c).fsm ∧
          (v.chan c).loop = { l with limRun := (if con then (s.chan c).loop.limRun + 1 else 1), limTotal := (s.chan c).loop.limTotal + 1 }) ∧
        (cyc = true → con = true → 7 ≤ (s.chan c).loop.limRun → ∀ v, v = t ∨ v = u → (v.chan c).fsm.state = .fault ∧ (v.chan c).fsm.bridge = holdFor s c ∧
          (v.chan c).fsm.code = chanCode c (if 3 ≤ ((s.chan c).fsm.shorts.filter fun x => decide (s.media.samples ≤ x + 60 * 96000)).length then 0x11 else 0x10))) ∧
    (∀ ab cyc con : Bool, armed s c = true → (s.chan c).fsm.voltageOnly = false → ∃ t, exec (.currentLimitTrip c ab cyc con false false) s = .next t ∧
      TouchesChan c s t ∧ (t.chan c).fsm = { (s.chan c).fsm with voltageOnly := true } ∧ (t.chan c).loop.reverse = true ∧
      (t.chan c).loop.limRun = (s.chan c).loop.limRun ∧ (isL c = false → (t.chan c).loop.atBound = true ∧
        (t.chan c).loop.integ = if ab then windowNow (s.chan c).loop else -(windowNow (s.chan c).loop))) ∧
    ((s.chan c).loop.reverse = true → exec (.reverseStateRelease c) s = .next (s.modLoop c fun l =>
      if isL c then { l with releaseDue := true } else { l with reverse := false })) ∧
    (armed s c = true → isL c = false → (s.chan c).fsm.state.switching = true → ∃ t, exec (.loopStall c) s = .next t ∧ Faulted c (chanCode c 0x31) s t) ∧
    (∀ d : Nat, d < 4 → (s.dsd d).released = true → ∃ t, exec (.delayLineCal d) s = .next t ∧ t = { s with dsds := t.dsds } ∧
      t.dsd d = { s.dsd d with lineCal := (s.dsd d).lineCal + 1 })

/-- With the media clock locked MUTE_N_FILTERED after 64 ticks at one level sets the pin's level; EMUTE_FALL_START with
the line asserted heads e of every enabled channel for 0 in 1,024 samples; EMUTE_SILENT with every e at 0 sets SILENT
and MUTED and raises 0x5050; EMUTE_RISE_START after the release heads e for 1, except while falling or in SAFE or
where the partner's line mutes a channel that both drive, and raises 0x5051. ZONE_NTC_SAMPLE takes a reading of the
source in use, a thermistor's only in range, and counts the readings of one kind in a row; after 100 of a kind not yet
declared OPEN and SHORT declare it, change to the die and raise 0x5022, 0x5023; RETURN changes back after 10,000 in
range. STAGE_SHUTDOWN after 100 readings at 105 degC less the offset faults each driving channel of its die with 0x021
and counts anew; the others drive on. -/
def Obligations.MuteAndZoneRows : Prop :=
  ∀ s : State,
    (∀ (b : Bool) (n : Nat), s.media.locked = true → exec (.muteNFiltered b n) s = .next (if 64 ≤ n then { s with spi := { s.spi with mutePin := b } } else s)) ∧
    (s.media.locked = true → muteLine s = true → s.misc.muteState = 0 ∨ s.misc.muteState = 3 → ∃ t, exec .emuteFallStart s = .next t ∧
      t = { s with chans := t.chans, misc := { s.misc with muteState := 1 } } ∧ ∀ c, c < 208 →
        t.chan c = (if s.enabled c then { s.chan c with dsp := { (s.chan c).dsp with e := (s.chan c).dsp.e.to 0 1024 } } else s.chan c)) ∧
    (s.misc.muteState = 1 → (∀ c, c < 208 → s.enabled c = true → (s.chan c).dsp.e.now = 0) → ∃ t, exec .emuteSilent s = .next t ∧
      t.misc.muteState = 2 ∧ t.spi.silent = true ∧ t.spi.irqStatus &&& irqMuted = irqMuted ∧ t.chans = s.chans ∧ Quiet s t ∧
      Raised 0x5050 0 [word (bit s.spi.mutePin 0 + bit s.spi.emute 1)] s t) ∧
    (s.media.locked = true → muteLine s = false → s.misc.muteState = 1 ∨ s.misc.muteState = 2 → ∃ t, exec .emuteRiseStart s = .next t ∧
      t.misc.muteState = 3 ∧ t.spi.silent = false ∧ Quiet s t ∧ Raised 0x5051 0 [] s t ∧ ∀ c, c < 208 →
        (t.chan c).dsp.e = (if s.enabled c ∧ s.power.falling = false ∧ s.keeper.dev ≠ .safe ∧ ¬(s.twin.muted ∧ bothDrive s c) then (s.chan c).dsp.e.to 1 1024 else (s.chan c).dsp.e) ∧
        ((s.chan c).fsm.state = .muted → (s.chan c).fsm.stop = .none → s.flag 0x10 c 3 = false → muteOf s c = false → (t.chan c).fsm.state = .run) ∧
        ((s.chan c).fsm.state ≠ .muted → (t.chan c).fsm = (s.chan c).fsm)) ∧
    (∀ (d : Nat) (ohm die : Rat), d < 4 → (s.dsd d).released = true →
      (∃ t, exec (.zoneNtcSample d ohm die) s = .next t ∧ t = { s with dsds := t.dsds } ∧
        t.dsd d = { (if (s.dsd d).onDie then zoneTake die (s.dsd d) else if ntcInRange ohm then zoneTake (ntcCelsius ohm) (s.dsd d) else s.dsd d) with
          ntcBad := (if 1000000 < ohm then 1 else if ohm < 100 then 2 else 0)
          ntcMs := (if (s.dsd d).ntcBad = (if 1000000 < ohm then 1 else if ohm < 100 then 2 else 0) then (s.dsd d).ntcMs + 1 else 1) }) ∧
      ((s.dsd d).ntcWas ≠ 1 → (s.dsd d).ntcBad = 1 → 100 ≤ (s.dsd d).ntcMs → 1000000 < ohm → ∃ t, exec (.zoneNtcOpen d ohm) s = .next t ∧ Reports { s with dsds := t.dsds } t ∧
        t.dsd d = (if (s.dsd d).onDie then { s.dsd d with ntcWas := 1 } else { s.dsd d with onDie := true, ntcWas := 1, readings := [], ntcBad := 0, ntcMs := 0, hotMs := 0 }) ∧
        Raised 0x5022 (0x100 + d) [ohmWord ohm] s t) ∧
      ((s.dsd d).ntcWas ≠ 2 → (s.dsd d).ntcBad = 2 → 100 ≤ (s.dsd d).ntcMs → ohm < 100 → ∃ t, exec (.zoneNtcShort d ohm) s = .next t ∧ Reports { s with dsds := t.dsds } t ∧
        t.dsd d = (if (s.dsd d).onDie then { s.dsd d with ntcWas := 2 } else { s.dsd d with onDie := true, ntcWas := 2, readings := [], ntcBad := 0, ntcMs := 0, hotMs := 0 }) ∧
        Raised 0x5023 (0x100 + d) [ohmWord ohm] s t) ∧
      ((s.dsd d).onDie = true → (s.dsd d).ntcBad = 0 → 10000 ≤ (s.dsd d).ntcMs → ∃ t, exec (.zoneNtcReturn d) s = .next t ∧ t = { s with dsds := t.dsds } ∧
        t.dsd d = { s.dsd d with onDie := false, ntcWas := 0, readings := [], ntcBad := 0, ntcMs := 0, hotMs := 0 }) ∧
      (100 ≤ (s.dsd d).hotMs → ∃ t, exec (.stageShutdown d) s = .next t ∧ Quiet s t ∧ (t.dsd d).shut = true ∧ (t.dsd d).hotMs = 0 ∧
        (∀ r, SameRail (s.rail r) (t.rail r)) ∧ ∀ c, c < 208 →
          (dsdOf c = d → (s.chan c).fsm.bridge = .switching → (s.chan c).fsm.state.switching = true →
            (t.chan c).fsm.state = .fault ∧ (t.chan c).fsm.code = chanCode c 0x21) ∧
          (dsdOf c ≠ d ∨ (s.chan c).fsm.bridge ≠ .switching → SameDrive (s.chan c) (t.chan c))))

/-- FAULT_N_TRIP from N + 1 ticks low latches its input and faults with 0x015 each enabled, mapped channel that drives;
channels outside its map drive on. FAULT_N_RELEASE clears only the assertion. LOAD_ALL arms sets; MASK_STEP asks for a
step; PWM_BOUNDARY has the Keeper rewrite the mask tables that are due, transfers each armed set, else advances the
pointer once at an event, takes a captured PERIOD that is not held, ends the reverse states that are to end, and under
a transfer begins a driving channel's switching cycle: margins and cycle fields that waited act. FEEDER_PERIOD of a
fed generator writes its shadows: six compares and carries by the duty of leg A (of the FIFO, or starved), TRIG0 to
TRIG2 from the compares, and PERM, which moves on only at the 32nd period and where no held state gets too short; it
arms the set, leaving active values and other generators. FEED_UNDERRUN and FEED_RESUME begin and end the starved
state. Where the row gives no effect on it, a generator stands. -/
def Obligations.TripAndPwmRows : Prop :=
  ∀ s : State,
    (∀ i n : Nat, n < tripFilter s.pwm i - 1 → exec (.faultNTrip i n) s = .next s) ∧
    (∀ i n : Nat, i < 4 → s.media.locked = true → s.pwm.asserted.getLsbD i = false → s.pwm.latch.getLsbD i = false → tripFilter s.pwm i + 1 ≤ n →
      ∃ t, exec (.faultNTrip i n) s = .next t ∧ t.pwm = { s.pwm with
        latch := s.pwm.latch ||| bit4 i, asserted := s.pwm.asserted ||| bit4 i, latchSet := t.pwm.latchSet, ch := t.pwm.ch } ∧ Quiet s t ∧ ∀ c, c < 208 →
        (s.enabled c = true → tripMap s.pwm i / 2 ^ rcOf c % 2 = 1 → (s.chan c).fsm.state ≠ .off → (s.chan c).fsm.state ≠ .fault →
          (s.chan c).fsm.state ≠ .retest → (t.chan c).fsm.state = .fault ∧ (t.chan c).fsm.code = chanCode c 0x15) ∧
        (s.enabled c = false ∨ tripMap s.pwm i / 2 ^ rcOf c % 2 ≠ 1 → SameDrive (s.chan c) (t.chan c))) ∧
    (∀ i : Nat, i < 4 → s.pwm.asserted.getLsbD i = true →
      exec (.faultNRelease i) s = .next { s with pwm := { s.pwm with asserted := s.pwm.asserted &&& ~~~(bit4 i) } }) ∧
    (∀ v : Word, s.media.locked = true → exec (.loadAll v) s = .next { s with pwm := { s.pwm with
      armed := s.pwm.armed ||| v.setWidth 16, periodPend := s.pwm.periodPend || v.getLsbD 16
      periodHeld := if v.getLsbD 16 then lBusy s && (!s.pwm.periodPend || s.pwm.periodHeld) else s.pwm.periodHeld } }) ∧
    (∀ k : Nat, k < 16 → s.media.locked = true → ∃ t, exec (.maskStep k) s = .next t ∧ t = { s with pwm := { s.pwm with ch := t.pwm.ch } } ∧
      t.pwmCh k = { s.pwmCh k with step := true } ∧ ∀ j, j ≠ k → t.pwmCh j = s.pwmCh j) ∧
    (s.media.locked = true → ∃ t, exec .pwmBoundary s = .next t ∧ Quiet s t ∧ t.pwm.count = 0 ∧ t.pwm.written = [] ∧
      (∀ c, c < 208 → t.chan c = { s.chan c with loop := (t.chan c).loop } ∧
        (c < 192 ∨ (s.chan c).fsm.bridge ≠ .switching ∨ ((s.chan c).loop.cycOld = none ∧ (s.chan c).loop.marginDue = []) ∨
          (s.pwm.armed.getLsbD (c - 192) = false ∧ ((s.pwmCh (c - 192)).maskDue = false ∨ s.keeper.halted = true)) → (t.chan c).loop =
          if 192 ≤ c ∧ (s.chan c).loop.releaseDue = true then { (s.chan c).loop with reverse := false, releaseDue := false } else (s.chan c).loop) ∧
        (192 ≤ c → (s.chan c).fsm.bridge = .switching → s.pwm.armed.getLsbD (c - 192) = true → (t.chan c).loop.marginDue = [] ∧ (t.chan c).loop.releaseDue = false ∧
          ((s.chan c).loop.cycFrom ≤ s.media.index → (t.chan c).loop.cycOld = none))) ∧
      t.pwm.armed = 0 ∧ (∀ k, k < 16 →
        ((s.pwmCh k).maskDue = true → s.keeper.halted = false → (t.pwmCh k).ptr = 0 ∧ (t.pwmCh k).maskDue = false ∧
          (fed s k = true ∨ (s.chan (192 + k)).fsm.state = .precharge → (t.pwmCh k).act = ((s.pwmCh k).sh.set 6 0).set 7 0)) ∧
        ((s.pwmCh k).maskDue = false ∨ s.keeper.halted = true → s.pwm.armed.getLsbD k = true → (t.pwmCh k).act = (s.pwmCh k).sh ∧ (t.pwmCh k).ptr = 0) ∧
        ((s.pwmCh k).maskDue = false ∨ s.keeper.halted = true → s.pwm.armed.getLsbD k = false → (t.pwmCh k).act = (s.pwmCh k).act ∧ (t.pwmCh k).ptr =
          if (evtBit (s.pwmCh k).act 8 || (s.pwmCh k).step) = true then ((s.pwmCh k).ptr + 1) % (lenM1 (s.pwmCh k).act + 1) else (s.pwmCh k).ptr) ∧
        (t.pwmCh k).step = false) ∧
      (s.pwm.periodPend = true → ¬ (s.pwm.periodHeld = true ∧ lBusy s = true) → 786 ≤ s.pwm.periodSh.toNat % 0x10000 →
        s.pwm.periodSh.toNat % 0x10000 ≤ 1966 → t.pwm.period = s.pwm.periodSh.toNat % 0x10000 ∧ t.pwm.periodPend = false) ∧
      (s.pwm.periodPend = false ∨ (s.pwm.periodHeld = true ∧ lBusy s = true) → t.pwm.period = s.pwm.period ∧ t.pwm.periodPend = s.pwm.periodPend)) ∧
    (∀ k : Nat, k < 16 → s.media.locked = true → fed s k = true → 6 ≤ (s.pwmCh k).sh.length → ∃ t, exec (.feederPeriod k) s = .next t ∧
      (let c := 192 + k
       let g := s.pwmCh k
       let u := t.pwmCh k
       let per := s.pwm.period
       let two := (s.chan c).fsm.cellFallback
       let dA : Rat := if (s.chan c).fsm.feedStarved then (starveStep per g.starve).now else dutyA (feedM s c (feedPlace s k)).1
       let th : Nat → Nat := fun x => if two then max (cellTh s c (x / 3 * 3)) (max (cellTh s c (x / 3 * 3 + 1)) (cellTh s c (x / 3 * 3 + 2))) else cellTh s c x
       let trim : Nat → Int := fun x => if two then 0 else (if x < 3 then g.trimA else g.trimB).getD (x % 3) 0
       let out : Nat → Nat × Int × Bool := fun x => emitCell per (th x) (roundOpen 2 (256 * (if x < 3 then dA else 1 - dA) * per) + trim x) (g.carry.getD x 0)
       (∀ x, x < 6 → cmpOf u.sh x = (out x).1 % 0x10000 ∧ u.carry.getD x 0 = (out x).2.1) ∧ u.duty = dA ∧
       (∀ leg, leg < 2 → permOf u.sh leg = if two then 0 else if 31 ≤ (if leg = 0 then g.rotA else g.rotB) ∧
         stepOk per (permOf g.act leg) [cmpOf g.act (3 * leg), cmpOf g.act (3 * leg + 1), cmpOf g.act (3 * leg + 2)]
           [(out (3 * leg)).1, (out (3 * leg + 1)).1, (out (3 * leg + 2)).1] [th (3 * leg), th (3 * leg + 1), th (3 * leg + 2)] = true
         then (permOf g.act leg + 1) % 3 else permOf g.act leg) ∧
       (∀ leg, leg < 2 → trigOf u.sh leg =
         fcTrigger per two [(out (3 * leg)).1, (out (3 * leg + 1)).1, (out (3 * leg + 2)).1] (permOf u.sh leg) % 0x10000) ∧
       trigOf u.sh 2 = iTrigger per two [(out 0).1, (out 1).1, (out 2).1] (permOf u.sh 0) % 0x10000) ∧
      TouchesChan (192 + k) s t ∧ t.pwm.armed = s.pwm.armed ||| (word (2 ^ k)).setWidth 16 ∧ t.pwm.count = s.pwm.period - 48 ∧
      t.pwm.period = s.pwm.period ∧ (t.pwmCh k).act = (s.pwmCh k).act ∧ ∀ j, j ≠ k → t.pwmCh j = s.pwmCh j) ∧
    (∀ c : Nat, 192 ≤ c → c < 208 → fed s (c - 192) = true →
      ((s.chan c).fsm.feedStarved = false → ∃ t, exec (.feedUnderrun c) s = .next t ∧ TouchesChan c s t ∧
        t.chan c = { s.chan c with fsm := { (s.chan c).fsm with feedStarved := true } } ∧ Raised 0x6045 c [32] s t ∧
        t.pwmCh (c - 192) = { s.pwmCh (c - 192) with starve := ⟨(s.pwmCh (c - 192)).duty, 1/2, 0, 32 * 2048⟩ }) ∧
      ((s.chan c).fsm.feedStarved = true → ∃ t, exec (.feedResume c) s = .next t ∧ TouchesChan c s t ∧ t.log = s.log ∧
        (t.chan c).fsm = { (s.chan c).fsm with feedStarved := false } ∧ (t.chan c).dsp = { (s.chan c).dsp with fade := ⟨0, 1, 0, 1024⟩ }))

/-- With the media clock locked, TRIG_MATCH of a trigger below PERIOD sets the base counter to it; match 2 latches the
current, match 3 the leg voltages, and matches 0 and 1 the two capacitor voltages of legs A and B, leaving other
generators. CELL_CHECK of an L-channel at its first test: with a drop above 0.2 V a switch does not conduct, and it
faults with 0x044 from DIAG; every switch conducting and no open capacitor passes the test; capacitors that move by
more than 1 % of the rail per us are open, and with a usable fallback row the channel goes on in the 2-level fallback
and 0x6043 is raised, without one it faults. In FAULT a bad switch leaves 0x044 over a code that a re-test clears; a
pass ends the check there; the fallback goes on through PRECHARGE where the latched code is one that a re-test clears.
No other unit drives otherwise. -/
def Obligations.SamplerAndCellRows : Prop :=
  ∀ s : State,
    (∀ (k j : Nat) (v1 v2 i : Rat), k < 16 → j < 4 → s.media.locked = true → trigOf (s.pwmCh k).act j < s.pwm.period →
      ∃ t, exec (.trigMatch k j v1 v2 i) s = .next t ∧ DrivesChan (192 + k) s t ∧ t.pwm.count = trigOf (s.pwmCh k).act j ∧
        (∀ m, m ≠ k → t.pwmCh m = s.pwmCh m) ∧ (t.pwmCh k).sh = (s.pwmCh k).sh ∧ (t.pwmCh k).act = (s.pwmCh k).act ∧
        (j = 0 ∨ j = 1 → (t.pwmCh k).fc = ((s.pwmCh k).fc.set (2 * j) v1).set (2 * j + 1) v2) ∧
        (j = 2 → (t.pwmCh k).iSample = i ∧ t.chans = s.chans) ∧ (j = 3 → (t.pwmCh k).legSample = [v1, v2] ∧ t.chans = s.chans)) ∧
    (∀ (c conducts openCaps : Nat) (drops slopes : List Rat), conducts = conducting drops → openCaps = openOnes (s.rail (rcOf c)).vRail slopes → 192 ≤ c → c < 208 → (s.chan c).fsm.state = .diag → (s.chan c).fsm.diagStep = 1 → (s.chan c).fsm.calDone = true →
      (s.chan c).share.joinReq = false → railUp s c = true → ∃ t, exec (.cellCheck c drops slopes) s = .next t ∧
        (∀ n, badSwitch conducts = some n → Faulted c (chanCode c 0x44) s t) ∧
        (badSwitch conducts = none → openCaps = 0 → TouchesChan c s t ∧ (t.chan c).fsm.state = .diag ∧
          (t.chan c).fsm.diagStep = (if s.flag 0x10 c 0x16 then 2 else 3) ∧
          (t.chan c).fsm.cellFallback = ((s.chan c).fsm.cellFallback && !(s.chan c).fsm.cellClear)) ∧
        (badSwitch conducts = none → openCaps ≠ 0 → (∃ row, fallbackRow? s.cfg.active (rcOf c) = some row) → TouchesChan c s t ∧
          (t.chan c).fsm.state = .diag ∧ (t.chan c).fsm.cellFallback = true ∧ Raised (chanCode c 0x43) c [word (openCaps)] s t) ∧
        (badSwitch conducts = none → openCaps ≠ 0 → fallbackRow? s.cfg.active (rcOf c) = none →
          (t.chan c).fsm.state = .fault ∧ (t.chan c).fsm.code = chanCode c 0x44)) ∧
    (∀ (c n : Nat) (drops slopes : List Rat), 192 ≤ c → c < 208 → (s.chan c).fsm.state = .fault → (s.chan c).fsm.diagStep = 1 → railUp s c = true → badSwitch (conducting drops) = some n →
      ∃ t, exec (.cellCheck c drops slopes) s = .next t ∧ DrivesChan c s t ∧ (t.chan c).fsm.state = .fault ∧ (t.chan c).fsm.diagStep = 0 ∧
        (t.chan c).fsm.code = (if retestable (s.chan c).fsm.code then chanCode c 0x44 else (s.chan c).fsm.code)) ∧
    (∀ (c : Nat) (drops slopes : List Rat), 192 ≤ c → c < 208 → (s.chan c).fsm.state = .fault → (s.chan c).fsm.diagStep = 1 → railUp s c = true →
      badSwitch (conducting drops) = none →
      (openOnes (s.rail (rcOf c)).vRail slopes = 0 → ∃ t, exec (.cellCheck c drops slopes) s = .next t ∧ TouchesChan c s t ∧ t.log = s.log ∧
        (t.chan c).fsm.state = .fault ∧ (t.chan c).fsm.code = (s.chan c).fsm.code ∧ (t.chan c).fsm.diagStep = 0) ∧
      (openOnes (s.rail (rcOf c)).vRail slopes ≠ 0 → (∃ row, fallbackRow? s.cfg.active (rcOf c) = some row) → retestable (s.chan c).fsm.code = true →
        ∃ t, exec (.cellCheck c drops slopes) s = .next t ∧ TouchesChan c s t ∧ (t.chan c).fsm.state = .precharge ∧ (t.chan c).fsm.code = 0 ∧
          (t.chan c).fsm.cellFallback = true ∧ Raised (chanCode c 0x43) c [word (openOnes (s.rail (rcOf c)).vRail slopes)] s t))

/-- MCLK_UPDATE: free run approaches 0 by 0.01 ppm, holdover counts 1 ms, and an error e in ACQUIRE or TRACK is taken with
steer and i_term within +-mclk.limit_ppm. MCLK_HOLDOVER_ALARM and MCLK_STEER_LIMIT raise 0x300D and 0x300E once.
TIME_MEDIA_PAIR keeps the pair while MEDIA and PTP run. MEDIA_STEP_START of a due step enters STEP at the current
block; MEDIA_STEP_HALT 132 blocks later halts the index and clears every enabled channel's signal state;
MEDIA_STEP_RESUME sets the index to the next multiple of 8 at or after the PTP instant and leaves STEP. -/
def Obligations.MediaClockRows : Prop :=
  ∀ s : State,
    (∀ a b : Nat, s.media.locked = true → s.ptp.state ≠ .disabled → exec (.timeMediaPair a b) s = .next { s with
      media := { s.media with pair := some (a, b) }, ptp := { s.ptp with timeNs := a } }) ∧
    (s.media.locked = true → s.media.state = .free → s.media.source = 0 →
      exec .mclkUpdate s = .next { s with media := { s.media with steer := approach s.media.steer 0 (1/100) } }) ∧
    (s.media.locked = true → s.media.state = .holdover →
      exec .mclkUpdate s = .next { s with media := { s.media with holdoverUs := s.media.holdoverUs + 1000 } }) ∧
    (∀ e : Rat, s.media.locked = true → s.media.state = .acquire ∨ s.media.state = .track → loopError? s = some e → 0 ≤ s.ratv 0x06 0 2 →
      ∃ t, exec .mclkUpdate s = .next t ∧ t = { s with media := t.media } ∧ t.media.err = e ∧ t.media.index = s.media.index ∧
        absRat t.media.steer ≤ s.ratv 0x06 0 2 ∧ absRat t.media.iTerm ≤ s.ratv 0x06 0 2 ∧ (t.media.state = .acquire ∨ t.media.state = .track)) ∧
    (s.media.state = .holdover → s.nat 0x06 0 1 ≠ 0 → s.media.alarmed = false → s.nat 0x06 0 1 * second ≤ s.media.holdoverUs →
      ∃ t, exec .mclkHoldoverAlarm s = .next t ∧ Reports { s with media := { s.media with alarmed := true } } t ∧ Raised 0x300D 0 [] s t) ∧
    (second ≤ s.media.clampUs → s.media.clampRaised = false → ∃ t, exec .mclkSteerLimit s = .next t ∧ Raised 0x300E 0 [] s t ∧
      Reports { s with media := { s.media with clampUs := s.media.clampUs - second, clampRaised := true } } t) ∧
    (s.media.locked = true → s.media.stepDue = true → s.media.state = .acquire ∨ s.media.state = .track → ∃ t, exec .mediaStepStart s = .next t ∧
      t.media = { s.media with state := .step, stepDue := false, stepB0 := some (winK s), stepFrom := s.media.index } ∧ t.chans = s.chans ∧ Quiet s t) ∧
    (∀ b0 : Nat, s.media.stepB0 = some b0 → s.media.state = .step → s.media.halted = false → b0 + 132 ≤ winK s → ∃ t, exec .mediaStepHalt s = .next t ∧
      t = { s with media := { s.media with halted := true, stepFrom := s.media.index }, chans := t.chans } ∧ ∀ c, c < 208 →
        t.chan c = (if s.enabled c then { s.chan c with dsp := (s.chan c).dsp.afresh } else s.chan c)) ∧
    (∀ ns : Nat, s.media.state = .step → s.media.halted = true → ∃ t, exec (.mediaStepResume ns) s = .next t ∧ t.media.halted = false ∧
      t.media.index = 8 * ((ns * 96000 + 7999999999) / 8000000000) ∧ t.media.state ≠ .step ∧ t.media.stepB0 = none ∧ t.media.pair = none ∧
      t.pending = s.pending ∧ t.spi.mem = s.spi.mem ∧ t.sram = s.sram)

/-- With the media clock locked and a TDM port enabled: TDM_FRAME in time at a port with fewer than 64 stable frames adds
one to the run of frames without an error and keeps the samples its wave carries; one out of time there, not the third
in a row, counts a frame error, ends the run and keeps the frame before. Outside a media step the frame in time after
the 64th stable one places itself at the index its completion rounds up to and the port ramps, and at a placed port
whose error stays within 2,048 ticks and whose FIFO is not full a frame in time is appended at the next place.
TDM_CLOCK_LOST four frame periods after the last frame ends the placement and every count of the port. TDM_RATE_CHECK
after 64 frames within 0.1 percent counts the frames of the run as stable and leaves RATE_MISMATCH for WAITING, else
it leaves the port in RATE_MISMATCH without a stable frame. The frame that ends a window is judged with it: a third
error in a row resyncs the port in a window that passes, and a mismatch acts alone. That a first frame counts as in
time is the model's reading of R187 (log entry 59). -/
def Obligations.TdmRows : Prop :=
  ∀ (s : State) (x : Nat), x < 4 → s.media.locked = true → s.cfg.active.tdmOn x = true →
    (∀ (w : List TdmBit) (p tick : Nat) (mine : List Int), s.cfg.active.tdmSamples? x w = some mine → s.cfg.active.tdmOnTime x p (s.tdm x) = true →
      (s.tdm x).judge = none → (s.tdm x).base = none → (s.tdm x).stable < 64 →
      ∃ t, exec (.tdmFrame x w p tick) s = .next t ∧ t.tdm x = { s.tdm x with
        prev := mine, errs := 0, run := (s.tdm x).run + 1, winLen := (s.tdm x).winLen + 1, alive := true, lastTick := tick
        judge := if (s.tdm x).winLen = 63 then some (tick, false) else none } ∧ t.chans = s.chans ∧ Quiet s t) ∧
    (∀ (w : List TdmBit) (p tick : Nat) (mine : List Int), s.cfg.active.tdmSamples? x w = some mine → s.cfg.active.tdmOnTime x p (s.tdm x) = false →
      (s.tdm x).judge = none → (s.tdm x).base = none → (s.tdm x).stable < 64 → (s.tdm x).errs < 2 →
      ∃ t, exec (.tdmFrame x w p tick) s = .next t ∧ t.tdm x = { s.tdm x with
        errs := (s.tdm x).errs + 1, run := 0, broken := true, winLen := (s.tdm x).winLen + 1, alive := true, lastTick := tick
        judge := if (s.tdm x).winLen = 63 then some (tick, false) else none } ∧ t.chans = s.chans ∧ Quiet s t) ∧
    (∀ (w : List TdmBit) (p tick : Nat) (mine : List Int), s.cfg.active.tdmSamples? x w = some mine → s.cfg.active.tdmOnTime x p (s.tdm x) = true →
      s.media.state ≠ .step → (s.tdm x).judge = none → (s.tdm x).base = none → 64 ≤ (s.tdm x).stable → (s.tdm x).state = .waiting →
      ∃ t, exec (.tdmFrame x w p tick) s = .next t ∧ (t.tdm x).base = some ((tick + 511) / 512) ∧ (t.tdm x).frame = 1 ∧ (t.tdm x).state = .ramping ∧
        (t.tdm x).rampFrom = some (8 * (((tick + 511) / 512 + 62 + (if s.cfg.active.tdmStep x = 2 then 16 else 0) + 7) / 8)) ∧ t.chans = s.chans ∧ Quiet s t) ∧
    (∀ (w : List TdmBit) (p tick a : Nat) (mine : List Int), s.cfg.active.tdmSamples? x w = some mine → s.cfg.active.tdmOnTime x p (s.tdm x) = true →
      s.media.state ≠ .step → (s.tdm x).judge = none → (s.tdm x).base = some a → tdmFull s (s.tdm x) tick = false →
      absRat (((a + s.cfg.active.tdmStep x * (s.tdm x).frame) * 512 : Nat) - (tick : Rat)) ≤ 2048 →
      ∃ t, exec (.tdmFrame x w p tick) s = .next t ∧ (t.tdm x).base = some a ∧ (t.tdm x).frame = (s.tdm x).frame + 1 ∧
        (t.tdm x).samples = (s.tdm x).samples ++ [⟨a + 62 + s.cfg.active.tdmStep x * (s.tdm x).frame, s.cfg.active.tdmStep x, [mine]⟩] ∧
        (t.tdm x).state = (s.tdm x).state ∧ t.chans = s.chans ∧ Quiet s t) ∧
    ((s.tdm x).alive = true → (s.tdm x).lastTick + 512 * (4 * s.cfg.active.tdmStep x) ≤ 512 * (s.media.index + 8) →
      ∃ t, exec (.tdmClockLost x) s = .next t ∧ (t.tdm x).base = none ∧ (t.tdm x).stable = 0 ∧ (t.tdm x).run = 0 ∧ (t.tdm x).winLen = 0 ∧
        (t.tdm x).alive = false ∧ (t.tdm x).prev = [] ∧
        ((s.tdm x).state = .playing ∨ (s.tdm x).state = .ramping → (t.tdm x).state = .faded) ∧
        ((s.tdm x).state = .rateMismatch → (t.tdm x).state = .waiting) ∧ t.chans = s.chans ∧ Quiet s t) ∧
    (∀ hz : Rat, 64 ≤ (s.tdm x).winLen → absRat (hz - (s.nat 0x05 x 1 : Rat)) ≤ (s.nat 0x05 x 1 : Rat) / 1000 → ((s.tdm x).judge = none ∨ (s.tdm x).errs < 3 ∧ absRat (s.tdm x).err ≤ 2048) →
      ∃ t, exec (.tdmRateCheck x hz) s = .next t ∧ (t.tdm x).rate = hz ∧ (t.tdm x).run = 0 ∧ (t.tdm x).broken = false ∧ (t.tdm x).winLen = 0 ∧
        (t.tdm x).stable = (if 64 ≤ (s.tdm x).stable then (s.tdm x).stable else if (s.tdm x).broken then (s.tdm x).run
          else (s.tdm x).stable + (s.tdm x).run) ∧
        (t.tdm x).state = (if (s.tdm x).state = .rateMismatch then .waiting else (s.tdm x).state) ∧ t.chans = s.chans ∧ Quiet s t) ∧
    (∀ (hz : Rat) (tick : Nat) (placed : Bool), 64 ≤ (s.tdm x).winLen → absRat (hz - (s.nat 0x05 x 1 : Rat)) ≤ (s.nat 0x05 x 1 : Rat) / 1000 →
      (s.tdm x).judge = some (tick, placed) → 3 ≤ (s.tdm x).errs →
      ∃ t, exec (.tdmRateCheck x hz) s = .next t ∧ (t.tdm x).base = none ∧ (t.tdm x).errs = 0 ∧ (t.tdm x).judge = none ∧
        ((s.tdm x).state = .playing ∨ (s.tdm x).state = .ramping → (t.tdm x).state = .faded) ∧ t.chans = s.chans ∧ Quiet s t) ∧
    (∀ hz : Rat, 64 ≤ (s.tdm x).winLen → (s.nat 0x05 x 1 : Rat) / 1000 < absRat (hz - (s.nat 0x05 x 1 : Rat)) →
      ∃ t, exec (.tdmRateCheck x hz) s = .next t ∧ (t.tdm x).state = .rateMismatch ∧ (t.tdm x).stable = 0 ∧ (t.tdm x).winLen = 0 ∧ (t.tdm x).judge = none ∧
        (t.tdm x).base = none ∧ t.chans = s.chans ∧ Quiet s t)

/-- STREAM_PACKET takes the head of a port's audio FIFO: for no stream it counts as filtered; one of a merged stream whose
copy or neighbour waits at the other port from an earlier tick stays; for a stream a datagram outside the subset is
filtered; one with another SSRC than the locked one counts as a mismatch; a late one counts as late on its side and is
not placed. One in time counts as on time and enters the margins: if its sequence number is in the history it counts
as a duplicate, or as a mismatch where SSRC, timestamp or length differ; with a new number and a place that is taken
it counts as a mismatch, with its last sample 512 samples or more ahead of the read as early, and else it is appended
at its place and enters the history of 64. STREAM_MISSING fades a playing stream from its first uncovered index;
STREAM_REENTRY with 8 good blocks ramps from the next block; STREAM_OVERRUN fades one, cuts the excess out, in whole
samples of its rate, and ramps 32 samples later; PATH_SKEW marks a skew above 1,000 us in the last second, and
PATH_LOST a side with nothing on time for 1 s while the other delivers, or one that delivers again for 1 s. -/
def Obligations.StreamRows : Prop :=
  ∀ s : State,
    (∀ (port : Nat) (e u : List Byte) (tick : Nat) (rest : List (List Byte × Nat)), port < 2 → (s.port port).audio = (e, tick) :: rest → u = e.drop 6 →
      ∃ t, exec (.streamPacket port) s = .next t ∧ Quiet s t ∧ t.chans = s.chans ∧
        (streamOf s port (beAt e 0 4) (beAt e 4 2) = none → (t.port port).audio = rest ∧ t.streams = s.streams ∧
          t.counters = (s.count (netStat (0x10 * port + 3)) 1).counters) ∧
        (∀ st : Nat, st < 32 → streamOf s port (beAt e 0 4) (beAt e 4 2) = some st → otherFirst s port st tick = true → t = s) ∧
        ∀ st : Nat, st < 32 → streamOf s port (beAt e 0 4) (beAt e 4 2) = some st → otherFirst s port st tick = false → (t.port port).audio = rest ∧
          (rtpOk s.cfg.active st u = false → t.streams = s.streams ∧ t.counters = (s.count (netStat (0x10 * port + 3)) 1).counters) ∧
          (rtpOk s.cfg.active st u = true → SMap.wf 0 s.counters = true →
            let v := s.stream st
            let w := t.stream st
            let ext := match v.lastSeq with | some l => nearMod 65536 (beAt u 2 2) l | none => beAt u 2 2 + 65536
            let p := (placeOf s st (beAt u 4 4) tick).1
            let n := s.cfg.active.streamN st
            let step := if s.cfg.active.streamHi st then 1 else 2
            let m := ((p - 24) * 512 - tick) / 512
            let Counts := fun k : Nat => SMap.get 0 (streamStat st k) t.counters = word (satAdd 32 (SMap.get 0 (streamStat st k) s.counters).toNat 1)
            (∀ l, v.ssrc = some l → l ≠ beAt u 8 4 → w.placed = v.placed ∧ Counts 9) ∧
            ((∀ l, v.ssrc = some l → l = beAt u 8 4) →
              ((p - 24) * 512 < tick → w.placed = v.placed ∧ w.margins = slide secondTicks (tick, 0) v.margins ∧ Counts (5 + port)) ∧
              (tick ≤ (p - 24) * 512 → Counts (1 + port) ∧ w.margins = slide secondTicks (tick, -(m : Rat)) v.margins ∧
                (∀ c, v.seen.find? (fun c => c.ext == ext) = some c → w.placed = v.placed ∧ w.seen = v.seen ∧
                  Counts (if c.ssrc = beAt u 8 4 ∧ c.ts = beAt u 4 4 ∧ c.len = u.length then 8 else 9)) ∧
                ((∀ c ∈ v.seen, c.ext ≠ ext) →
                  ((∃ i, i < n ∧ covered v.placed (p + i) = true ∧ (v.fadeReal = false ∨ ∀ f, v.fadeFrom = some f → p + i < f ∨ f + 32 ≤ p + i)) →
                    w.placed = v.placed ∧ w.seen = v.seen ∧ Counts 9) ∧
                  ((∀ i, i < n → covered v.placed (p + i) = true → v.fadeReal = true ∧ ∃ f, v.fadeFrom = some f ∧ f ≤ p + i ∧ p + i < f + 32) →
                    (readPoint s + 512 ≤ p + n - step → w.placed = v.placed ∧ w.seen = v.seen ∧ Counts 7) ∧
                    (p + n - step < readPoint s + 512 → w.placed = v.placed ++ [⟨p, step, rtpFrames s.cfg.active st u⟩] ∧ w.ssrc = some (beAt u 8 4) ∧
                      w.state = v.state ∧ w.lastSeq = some ext ∧ w.seen = (⟨ext, beAt u 8 4, beAt u 4 4, u.length, port, tick⟩ :: v.seen).take 64 ∧
                      w.overrun = (if v.arrival = true ∧ s.cfg.active.streamM0 st + 128 < m then some (m - s.cfg.active.streamM0 st) else v.overrun)))))))) ∧
    (∀ st n : Nat, st < 32 → s.media.locked = true → s.cfg.active.streamOn st = true → (s.stream st).state.plays = true → firstMissing s st = some n →
      ∃ t, exec (.streamMissing st) s = .next t ∧ (t.stream st).state = .faded ∧ (t.stream st).fadeFrom = some n ∧ (t.stream st).fadeReal = false ∧
        (t.stream st).ssrc = none ∧ (t.stream st).placed = (s.stream st).placed ∧ t.chans = s.chans ∧ Quiet s t) ∧
    (∀ st : Nat, st < 32 → s.cfg.active.streamOn st = true → (s.stream st).state = .waiting ∨ (s.stream st).state = .faded → 8 ≤ (s.stream st).good →
      ∃ t, exec (.streamReentry st) s = .next t ∧ t.stream st = { s.stream st with
        state := .ramping, rampFrom := some (winBase s + 8), fadeFrom := none, fadeReal := false, fadeRamp := none, good := 0 } ∧ Quiet s t) ∧
    (∀ st x : Nat, st < 32 → s.cfg.active.streamOn st = true → (s.stream st).state.plays = true → (s.stream st).arrival = true →
      (s.stream st).overrun = some x → ∃ t, exec (.streamOverrun st) s = .next t ∧ (t.stream st).state = .ramping ∧
        (t.stream st).rampFrom = some (winBase s + 32) ∧ (t.stream st).fadeFrom = some (winBase s) ∧ (t.stream st).fadeReal = true ∧
        (t.stream st).ssrc = (s.stream st).ssrc ∧ (t.stream st).arrivalBase = (s.stream st).arrivalBase.map (· - ((if s.cfg.active.streamHi st then x else x - x % 2 : Nat) : Int)) ∧
        (t.stream st).placed = (s.stream st).placed.flatMap (cutPacket (winBase s + 32) (if s.cfg.active.streamHi st then x else x - x % 2)) ∧ Quiet s t) ∧
    (∀ st : Nat, st < 32 → s.cfg.active.streamOn st = true → 1000 < skewNow s (s.stream st) → (s.stream st).skewRaised = false →
      ∃ t, exec (.pathSkew st) s = .next t ∧ t.stream st = { s.stream st with skewRaised := true } ∧ Quiet s t) ∧
    (∀ (st side : Nat) (rec : Bool), st < 32 → s.cfg.active.streamOn st = true → s.cfg.active.streamSides st = 3 →
      (if side = 0 then (s.stream st).lostA else (s.stream st).lostB) = rec →
      (rec = false → (s.stream st).lastOn.getD side 0 + secondTicks ≤ nowTick s ∧ nowTick s < (s.stream st).lastOn.getD (1 - side) 0 + secondTicks) →
      (rec = true → nowTick s < (s.stream st).lastOn.getD side 0 + secondTicks ∧ (s.stream st).since.getD side 0 + secondTicks ≤ nowTick s) → ∃ t, exec (.pathLost st side rec) s = .next t ∧ Quiet s t ∧
        t.stream st = (if side = 0 then { s.stream st with lostA := !rec } else { s.stream st with lostB := !rec }))

/-- On an enabled port with its link up NETWORK_FRAME counts a bad FCS, a length outside 64 to 2,500 bytes, or a frame not
addressed to it, and nothing else; an addressed ARP frame joins the Keeper's FIFO while it has room, and the packet of
a stream whose injector is idle the audio FIFO. LINK_UP joins the wanted groups; LINK_DOWN raises 0x2007;
MODULE_ABSENT disables the transmitter and raises 0x2008, MODULE_PRESENT ends that. NM_LINK_UP takes 1,000 or 100
Mbit/s full duplex, NM_LINK_DOWN drops the link. IGMP_REPORT sends the second copy of what is due; IGMP_QUERY answers
with the joined groups in the version of the oldest querier heard; a query during a halt waits. -/
def Obligations.PortRows : Prop :=
  ∀ (s : State) (p : Nat),
    (∀ (f : List Byte) (ok : Bool) (tick : Nat), p < 2 → s.cfg.active.portOn p = true → (s.port p).up = true →
      (ok = false → exec (.networkFrame p f ok tick) s = .next (s.count (netStat (0x10 * p + 1)) 1)) ∧
      (ok = true → f.length < 64 ∨ 2500 < f.length → exec (.networkFrame p f ok tick) s = .next (s.count (netStat (0x10 * p + 2)) 1)) ∧
      (ok = true → 64 ≤ f.length → f.length ≤ 2500 → addressed s p f = false →
        exec (.networkFrame p f ok tick) s = .next (s.count (netStat (0x10 * p + 3)) 1)) ∧
      (ok = true → 64 ≤ f.length → f.length ≤ 2500 → addressed s p f = true → vlanOf f = none → beAt f 12 2 = 0x0806 → keepRoom (s.port p) f.length = true →
        ∃ t, exec (.networkFrame p f ok tick) s = .next t ∧ t = { s with counters := (s.count (netStat (0x10 * p)) 1).counters, ports := t.ports } ∧
          t.port p = { s.port p with keep := (s.port p).keep ++ [f] }) ∧
      (∀ (st : Nat) (e : List Byte), ok = true → 64 ≤ f.length → f.length ≤ 2500 → addressed s p f = true → streamEntry? s p f = some (st, e) →
        (s.inj (2 * st + p)).heldPkt = none → (s.inj (2 * st + p)).action = 0 → audioRoom (s.port p) (e.length - 6) = true →
        ∃ t, exec (.networkFrame p f ok tick) s = .next t ∧ t = { s with counters := (s.count (netStat (0x10 * p)) 1).counters, ports := t.ports } ∧
          t.port p = { s.port p with audio := (s.port p).audio ++ [(e, tick)] })) ∧
    (p < 2 → s.cfg.active.portOn p = true → (s.port p).present = true → (s.port p).up = false → ∃ t, exec (.linkUp p) s = .next t ∧
      (t.port p).up = true ∧ (t.port p).state = 1 ∧ (t.port p).groups = wantedGroups s.cfg.active p ∧ igmpVersion t p = 3 ∧ Quiet s t) ∧
    (p < 2 → (s.port p).up = true → ∃ t, exec (.linkDown p) s = .next t ∧ (t.port p).up = false ∧ (t.port p).state = 0 ∧
      Raised 0x2007 p [] s t ∧ t.streams = s.streams ∧ Quiet s t) ∧
    (p < 2 → (s.port p).present = true → ∃ t, exec (.moduleAbsent p) s = .next t ∧ t.port p = { s.port p with present := false, txdis := true } ∧
      Reports { s with ports := t.ports } t ∧ (s.cfg.active.portOn p = true → Raised 0x2008 p [] s t)) ∧
    (p < 2 → (s.port p).present = false → ∃ t, exec (.modulePresent p) s = .next t ∧ t = { s with ports := t.ports } ∧
      t.port p = { s.port p with present := true, txdis := !s.cfg.active.portOn p }) ∧
    (∀ mbps : Nat, firmwareRuns s = true → mbps = 1000 ∨ mbps = 100 → ∃ t, exec (.nmLinkUp mbps true) s = .next t ∧ t = { s with ports := t.ports } ∧
      t.port 2 = { s.port 2 with up := true, state := if mbps = 1000 then 2 else 1 }) ∧
    ((s.port 2).up = true → ∃ t, exec .nmLinkDown s = .next t ∧ (t.port 2).up = false ∧ (t.port 2).state = 0 ∧ Raised 0x2007 2 [] s t ∧ Quiet s t) ∧
    (p < 3 → (s.port p).up = true → s.keeper.halted = false → (s.port p).reportDue ≠ [] → ∃ t, exec (.igmpReport p) s = .next t ∧ (t.port p).reportDue = [] ∧ Quiet s t ∧
      t.misc.sent = s.misc.sent ++ igmpSent p (igmpVersion s p) ((s.port p).reportDue.map fun r => (if r.2 then 4 else 3, r.1))) ∧
    (∀ v g : Nat, p < 2 → (s.port p).up = true → s.keeper.halted = false → ∃ t, exec (.igmpQuery p v g) s = .next t ∧ Quiet s t ∧
      igmpVersion t p = (if v = 1 then 1 else if v = 2 then min 2 (igmpVersion s p) else igmpVersion s p) ∧
      (t.port p).groups = (s.port p).groups ∧ t.misc.sent = s.misc.sent ++ igmpSent p (igmpVersion t p)
        ((if g = 0 then (s.port p).groups else (s.port p).groups.filter (· == g)).map fun x => (2, x))) ∧
    (∀ v g : Nat, p < 2 → (s.port p).up = true → s.keeper.halted = true → ∃ t, exec (.igmpQuery p v g) s = .next t ∧ t = { s with ports := t.ports } ∧
      t.port p = { s.port p with queries := (s.port p).queries ++ [(v, g)] })

/-- KEEPER_FRAME takes the oldest Keeper-bound frame of NA or NB into its ring; a Keeper that is not halted returns every
descriptor. On NM with its link up in service: NM_FRAME with a good FCS that does not pass counts as filtered and
nothing else; one that passes goes through ring 2, and what is no UDP datagram is answered as R140 has it; one with a
bad FCS or of a length outside 64 to 1,522 bytes is not answered, and KEEPER_FRAME treats it alike. The ring's next
descriptor stays below 128, and outside the ring's descriptors and buffers the Keeper SRAM keeps every byte.
MONITOR_PACKET with 12 indices at hand sends one packet on each side in use whose link is up, counts one sequence
number, moves its next index by 12, and leaves the channels. Where the rings lie in the SRAM is the model's choice
(log entry 61). -/
def Obligations.RingAndMonitorRows : Prop :=
  ∀ s : State,
    (∀ (p : Nat) (f : List Byte) (rest : List (List Byte)) (g : List Byte) (b : Bool), p < 2 → (s.port p).keep = f :: rest →
      ∃ t, exec (.keeperFrame p g b) s = .next t ∧ (t.port p).keep = rest ∧ (t.port p).ringNext < 128 ∧
        (s.keeper.halted = false → (t.port p).ring = [] ∧ (t.port p).ringBytes = []) ∧ t.chans = s.chans ∧ t.pending = s.pending ∧
        t.spi.mem = s.spi.mem ∧ t.cfg = s.cfg ∧
        (Memory.wf s.sram = true → (∀ d ∈ (s.port p).ring, d.1 < 128) → ∀ a, a < descAddr p 0 ∨ descAddr p 0 + 67584 ≤ a →
          SMap.get 0 a t.sram = SMap.get 0 a s.sram)) ∧
    (∀ (f : List Byte) (ok : Bool), (s.port 2).up = true → firmwareRuns s = true → s.keeper.halted = false → s.keeper.dev ≠ .standby →
      (ok = true → 64 ≤ f.length → f.length ≤ 1522 → nmPasses f = false → exec (.nmFrame f ok) s = .next (s.count (netStat 0x23) 1)) ∧
      (ok = true → 64 ≤ f.length → f.length ≤ 1522 → nmPasses f = true → (s.port 2).ring = [] → (s.port 2).ringBytes = [] →
        ∃ t, exec (.nmFrame f ok) s = .next t ∧ (t.port 2).ringNext < 128 ∧ (t.port 2).ring = [] ∧ t.chans = s.chans ∧ t.pending = s.pending ∧ t.cfg = s.cfg ∧
          (ipProto (etherBody f) ≠ 17 ∨ etherType f ≠ 0x0800 → t.misc.sent = s.misc.sent ++ keeperReply s 2 f ∧ t.spi.mem = s.spi.mem) ∧
          (Memory.wf s.sram = true → ∀ a, a < descAddr 2 0 ∨ descAddr 2 0 + 67584 ≤ a → SMap.get 0 a t.sram = SMap.get 0 a s.sram)) ∧
      (ok = false ∨ f.length < 64 ∨ 1522 < f.length → f.length ≤ 65536 → (s.port 2).ring = [] → ∃ t, exec (.nmFrame f ok) s = .next t ∧ exec (.keeperFrame 2 f ok) s = .next t ∧
        t.misc.sent = s.misc.sent ∧ t.counters = (s.count (netStat (if ok then 0x22 else 0x21)) 1).counters ∧ (t.port 2).ringNext < 128 ∧
        (t.port 2).ring = [] ∧ t.chans = s.chans ∧ t.pending = s.pending ∧ t.spi.mem = s.spi.mem ∧ t.cfg = s.cfg)) ∧
    (∀ j n : Nat, j < 8 → s.media.locked = true → s.cfg.active.monOn j = true → (s.mon j).next = some n → n + 48 ≤ s.media.index →
      ∃ t, exec (.monitorPacket j) s = .next t ∧ (t.mon j).seq = (s.mon j).seq + 1 ∧ (t.mon j).next = some (n + 12) ∧ t.chans = s.chans ∧
        t.streams = s.streams ∧ Quiet s t ∧ (∀ i, i ≠ j → t.mon i = s.mon i) ∧
        t.misc.sent = s.misc.sent ++ ([0, 1].filter fun p => s.cfg.active.monSides j / 2 ^ p % 2 == 1 && (s.port p).up).map fun p =>
          ⟨p, s.nat 0x04 j 1, 5004, [0x80, 97] ++ be 2 ((s.mon j).seq % 65536) ++ be 4 (n / 2 % 2 ^ 32) ++
            be 4 (Config.serial.toNat % 2 ^ 24 * 256 + j) ++ monSamples s j n⟩)

/-- PTP_ANNOUNCE of another domain or outside the message intervals only leaves its FIFO; one of the own domain is kept as
the newest word of its master with the times of its last two Announces. PTP_SYNC outside the message intervals is
ignored; from the followed master it keeps offset = difference - path delay and a frequency correction within 500 ppm;
in ACQUIRING the first offset above 10 us steps the time and raises 0x3004, and the sixteenth below 1 us in a row
enters LOCKING; after a change of grandmaster the first offset leads to LOCKING within 100 us and to ACQUIRING beyond.
PTP_DELAY_RESPONSE keeps the path delay; PTP_DELAY_REQ_SEND sends one request and counts it; PTP_LOCKED 2 s after the
first of an unbroken run of measurements below 250 ns enters LOCKED; PTP_HOLDOVER acts only once Announce or Sync has
been absent for 3 intervals: it follows the best other master, and without one freezes the correction in HOLDOVER and
raises 0x3005; PTP_NO_MASTER raises 0x3001 once, 10 s into LISTENING. -/
def Obligations.PtpRows : Prop :=
  ∀ s : State,
    (∀ (port at_ : Nat) (a : Announce), s.cfg.active.ptpOn port = true → ∃ t, exec (.ptpAnnounce port a at_) s = .next t ∧ Quiet s t ∧ t.chans = s.chans ∧
      (a.domain ≠ s.nat 0x02 0 5 ∨ a.logInterval < -3 ∨ 3 < a.logInterval → t.ptp = s.ptp) ∧
      (a.domain = s.nat 0x02 0 5 → -3 ≤ a.logInterval → a.logInterval ≤ 3 → t.ptp.masters.head? = some ⟨port, a,
        at_ :: (((s.ptp.masters.find? fun m => m.port == port && gmOf m.announce == gmOf a).map (·.heard)).getD []).take 1⟩)) ∧
    (∀ (port at_ : Nat) (δ : Rat) (log : Int), log < -7 ∨ 1 < log → exec (.ptpSync port δ log at_) s = .next s) ∧
    (∀ (port at_ : Nat) (δ : Rat) (log : Int), port < 3 → s.cfg.active.ptpOn port = true → s.ptp.state.follows = true → s.ptp.port = port →
      s.ptp.gmChanged = false → -7 ≤ log → log ≤ 1 →
      ∃ t, exec (.ptpSync port δ log at_) s = .next t ∧ t.ptp.offset = δ - (s.port port).pathDelay ∧ absRat t.ptp.freq ≤ 500 ∧ t.ptp.last = t.ptp.freq ∧
        t.ptp.syncAt = at_ ∧ Quiet s t ∧ t.chans = s.chans ∧
        (s.ptp.state = .acquiring → s.ptp.first = true → 10000 < absRat (δ - (s.port port).pathDelay) → t.ptp.state = .acquiring ∧ t.ptp.first = false ∧
          t.ptp.timeNs = ((s.ptp.timeNs : Int) - roundOpen 20 (δ - (s.port port).pathDelay)).toNat ∧ Raised 0x3004 0 [] s t) ∧
        (s.ptp.state = .acquiring → s.ptp.first = false → 15 ≤ s.ptp.below → absRat (δ - (s.port port).pathDelay) < 1000 → t.ptp.state = .locking) ∧
        (s.ptp.state = .locked → absRat (δ - (s.port port).pathDelay) ≤ 1000 → t.ptp.state = .locked)) ∧
    (∀ (port at_ : Nat) (δ : Rat) (log : Int), port < 3 → s.cfg.active.ptpOn port = true → s.ptp.state.follows = true → s.ptp.port = port →
      s.ptp.gmChanged = true → -7 ≤ log → log ≤ 1 →
      ∃ t, exec (.ptpSync port δ log at_) s = .next t ∧ t.ptp.gmChanged = false ∧ t.ptp.offset = δ - (s.port port).pathDelay ∧ absRat t.ptp.freq ≤ 500 ∧
        t.ptp.state = (if absRat (δ - (s.port port).pathDelay) ≤ 100000 then .locking else .acquiring) ∧ Quiet s t ∧ t.chans = s.chans) ∧
    (∀ (port : Nat) (d : Rat), port < 3 → s.cfg.active.ptpOn port = true → ∃ t, exec (.ptpDelayResponse port d) s = .next t ∧ t = { s with ports := t.ports } ∧
      t.port port = { s.port port with time := (s.port port).time.drop 1, pathDelay := d }) ∧
    (∀ port : Nat, port < 3 → s.cfg.active.ptpOn port = true → (s.port port).up = true → ∃ t, exec (.ptpDelayReqSend port) s = .next t ∧
      t.misc.sent = s.misc.sent ++ [⟨port, ptpGroup, 319, delayReq s port⟩] ∧ t.port port = { s.port port with delaySeq := (s.port port).delaySeq + 1 } ∧
      t.ptp = s.ptp ∧ Quiet s t) ∧
    (∀ at_ : Nat, announceOut s.ptp at_ = false → syncOut s.ptp at_ = false → exec (.ptpHoldover at_) s = .next s) ∧
    (∀ at_ : Nat, s.ptp.state.follows = true → announceOut s.ptp at_ = true ∨ syncOut s.ptp at_ = true → ∃ t, exec (.ptpHoldover at_) s = .next t ∧ Quiet s t ∧ t.chans = s.chans ∧
      (bestMaster { s with ptp := { s.ptp with clock := max s.ptp.clock at_, masters := s.ptp.masters.filter fun m => !(m.port == s.ptp.port && gmOf m.announce == s.ptp.gm) } } = none →
        t.ptp.state = .holdover ∧ t.ptp.freq = s.ptp.freq ∧ Raised 0x3005 0 [] s t) ∧
      (∀ m, bestMaster { s with ptp := { s.ptp with clock := max s.ptp.clock at_, masters := s.ptp.masters.filter fun m => !(m.port == s.ptp.port && gmOf m.announce == s.ptp.gm) } } = some m →
        t.ptp.port = m.port ∧ t.ptp.gm = gmOf m.announce)) ∧
    (s.ptp.state = .listening → s.ptp.noMaster = false → s.ptp.listenAt + 960000 ≤ s.media.samples → ∃ t, exec .ptpNoMaster s = .next t ∧
      Reports { s with ptp := { s.ptp with noMaster := true } } t ∧ Raised 0x3001 0 [] s t) ∧
    (∀ at_ since : Nat, s.ptp.state = .locking → s.ptp.since = some since → since + 2000000000 ≤ at_ → s.ptp.gmChanged = false →
      ∃ t, exec (.ptpLocked at_) s = .next t ∧
      t.ptp = { s.ptp with state := .locked, lockedOnce := true, above := 0, far := 0 } ∧ Quiet s t ∧ t.chans = s.chans)

/-- DSP_WINDOW with the media clock locked and not halted completes and moves the media index on by 8. No channel changes
its bridge, loop or share state but for its join mark, nor its state but for a channel of a pair in SHARED whose mute
the partner's line has released, which returns to RUN; ports, trip and generators, queue, memories and configuration
stand; the block counts into the time since both sides are released, and dev.bus_warn_v acts. A released die's stage
multiplier falls by at most 1/600 dB and rises by at most 1/24000 dB toward the target of its zone temperature; a die
in reset stands. Every reference moves by a block toward its goal at its rate. A controller that is not regulating
else changes no more than the plan of samples played; a regulating one keeps the newest 12 rows and, where no fed
channel is in PRECHARGE, selects their largest. While the clock is halted its samples go on and what is timed by them,
the references among it, and pairs wait in their FIFO; while it is not locked, only that FIFO changes
(notes/assumptions/2.md). A pair of a die without its link or of a converter in calibration is marked invalid. -/
def Obligations.DspWindowRow : Prop :=
  ∀ (sense : List SensePair) (s : State),
    (s.media.locked = false → ∃ t, exec (.dspWindow sense) s = .next t ∧ t = { s with misc := t.misc } ∧
      t.misc = { s.misc with senseFifo := t.misc.senseFifo, senseDrops := t.misc.senseDrops } ∧ (sense = [] → t = s) ∧
      (∀ p, sense = [p] → (s.misc.senseFifo.filter fun q => q.ch == p.ch).length < 32 → t.misc.senseFifo = s.misc.senseFifo ++ [{ p with valid := p.valid && (s.dsd (dsdOf p.ch)).linked && decide ((s.chan p.ch).fsm.calTo ≤ s.media.samples) }] ∧
        t.misc.senseDrops = s.misc.senseDrops) ∧
      (∀ p, sense = [p] → 32 ≤ (s.misc.senseFifo.filter fun q => q.ch == p.ch).length → t.misc.senseFifo = s.misc.senseFifo ∧
        t.misc.senseDrops = s.misc.senseDrops + 1)) ∧
    (s.media.locked = true → s.media.halted = true → ∃ t, exec (.dspWindow sense) s = .next t ∧ Quiet s t ∧
      t.media = { s.media with samples := s.media.samples + 8 } ∧ t.dsds = s.dsds ∧ t.pwm = s.pwm ∧
      (∀ r : Nat, r < 12 → t.rail r = if (s.rail r).state.gatesOn then
        { s.rail r with ref := approach (s.rail r).ref (refGoal s r (s.rail r)) (refRate s r (s.rail r) / 12) } else s.rail r) ∧
      ∀ c : Nat, c < 208 → t.chan c = { s.chan c with fsm := { (s.chan c).fsm with swAt := (t.chan c).fsm.swAt } }) ∧
    (s.media.locked = true → s.media.halted = false → ∃ t, exec (.dspWindow sense) s = .next t ∧ Quiet s t ∧ t.media.index = s.media.index + 8 ∧
      t.ports = s.ports ∧ t.power = { s.power with warnV := if s.keeper.cfgLoaded then s.ratv 0x01 0 1 else s.power.warnV, warnSet := s.power.warnSet || s.keeper.cfgLoaded } ∧
      t.pwm = { s.pwm with ch := t.pwm.ch } ∧ (s.cfgShared = false → t.pwm = s.pwm) ∧
      t.twin.quiet = (if released s then s.twin.quiet + 8 else 0) ∧ t.misc.senseFifo = [] ∧
      (∀ c : Nat, c < 208 → ((t.chan c).fsm.state = (s.chan c).fsm.state ∨
          (s.cfgShared = true ∧ (s.chan c).fsm.state = .muted ∧ (s.chan c).fsm.stop = .none ∧ muteReleased s c = true ∧ (t.chan c).fsm.state = .run)) ∧ (t.chan c).fsm.bridge = (s.chan c).fsm.bridge ∧
        (t.chan c).loop = (s.chan c).loop ∧ (t.chan c).share = { (s.chan c).share with
          mark := (t.chan c).share.mark, vOwnSum := (t.chan c).share.vOwnSum, iOwnSum := (t.chan c).share.iOwnSum, nOwn := (t.chan c).share.nOwn }) ∧
      (∀ d : Nat, d < 4 → ((s.dsd d).released = false → t.dsd d = s.dsd d) ∧
        ((s.dsd d).released = true → (t.dsd d).sDb =
          (if stageTarget ((s.dsd d).zoneC + (s.dsd d).thetaK) < (s.dsd d).sDb then max (stageTarget ((s.dsd d).zoneC + (s.dsd d).thetaK)) ((s.dsd d).sDb - 1/600)
           else min (stageTarget ((s.dsd d).zoneC + (s.dsd d).thetaK)) ((s.dsd d).sDb + 1/24000)) ∧ (t.dsd d).zoneC = (s.dsd d).zoneC)) ∧
      (∀ r : Nat, r < 12 → ((s.rail r).state ≠ .regulating → t.rail r = { s.rail r with plan := (t.rail r).plan, ref := (t.rail r).ref }) ∧
        (t.rail r).ref = (if (s.rail r).state.gatesOn then approach (s.rail r).ref (refGoal s r (s.rail r)) (refRate s r (s.rail r) / 12) else (s.rail r).ref) ∧
        ((s.rail r).state = .regulating → (t.rail r).rows.tail = (s.rail r).rows.take 11 ∧
          (freezes s r = false → (t.rail r).sent = (t.rail r).rows.foldl max 0) ∧
          (freezes s r = true → (t.rail r).sent = min (s.rail r).sent (cEffDsp s r)))))

/-- PILOT_WINDOW on an enabled channel in RUN that has gathered 96,000 samples touches that channel alone: an open load
counts the windows in a row and a window that finds none clears the count and the state; once converged, a valid
window takes the mean of the last four resistances, moves the coil node at once where that warms it and half way where
it cools it. RE_STALE, 30 s of samples after the last valid window, takes the measurement back. MODEL_RECORD_STORE
during play, with nothing waiting for the flash, keeps a record of each modelled channel whose models run and are
seeded, and with it its last adapted dead times; nothing else of a channel changes. LATE_RESEED lowers a hot-start
seed to the decayed state within 30 s, and a cold re-reference is then due where that lies within 2 K of the ambient.
FOLDBACK_EPISODE_END ends the episodes of a curve at 0.0 dB. -/
def Obligations.ModelRows : Prop :=
  ∀ s : State,
    (∀ (c : Nat) (p : PilotReading), c < 208 → s.enabled c = true → (s.chan c).fsm.state = .run → 96000 ≤ (s.chan c).win.n →
      ∃ t, exec (.pilotWindow c p) s = .next t ∧
      TouchesChan c s t ∧ (t.chan c).fsm.state = .run ∧ (t.chan c).loop = (s.chan c).loop ∧ (t.chan c).dsp = (s.chan c).dsp ∧
      (openLoad s c p = none → (t.chan c).model.openWin = 0 ∧ (t.chan c).fsm.openLoad = false) ∧
      (∀ n, openLoad s c p = some n → (t.chan c).model.openWin = (s.chan c).model.openWin + 1 ∧
        ((t.chan c).fsm.openLoad = true ↔ (s.chan c).fsm.openLoad = true ∨ 3 ≤ (s.chan c).model.openWin)) ∧
      ((s.chan c).model.runs = true → (s.chan c).model.seed ≠ 0 → windowOk s c p = true → tempOk s c (tempOf s c (pilotRe s c p)) = true →
        (s.chan c).model.reConv = true → (s.chan c).win.d2 ≤ (s.chan c).win.p2 / 4 → 4 ≤ (s.chan c).model.reWin.length →
        ((s.chan c).model.reWin ++ [pilotRe s c p]).drop ((s.chan c).model.reWin.length - 3) = (t.chan c).model.reWin ∧
        (t.chan c).model.reMeas = mean (t.chan c).model.reWin ∧ (t.chan c).model.reConv = true ∧
        (t.chan c).model.tv = (if (s.chan c).model.tv ≤ 25 + ((t.chan c).model.reMeas / (s.chan c).model.re25 - 1) / s.entry c 14
          then 25 + ((t.chan c).model.reMeas / (s.chan c).model.re25 - 1) / s.entry c 14
          else (s.chan c).model.tv - ((s.chan c).model.tv - (25 + ((t.chan c).model.reMeas / (s.chan c).model.re25 - 1) / s.entry c 14)) / 2))) ∧
    (∀ c : Nat, c < 208 → (s.chan c).model.reConv = true → (s.chan c).model.reAt + 30 * 96000 ≤ s.media.samples + 8 →
      ∃ t, exec (.reStale c) s = .next t ∧ t = { s with chans := t.chans } ∧ TouchesChan c s t ∧
      t.chan c = { s.chan c with model := { (s.chan c).model with reConv := false, reStale := true, reWin := [], reMeas := 0 } }) ∧
    (keeperFree s = true → storeWaits s = false → s.keeper.dev = .run → ∃ t, exec .modelRecordStore s = .next t ∧ t = { s with chans := t.chans, store := t.store } ∧
      ∀ c : Nat, c < 208 → (s.cfg.active.modelled c = false ∨ (s.chan c).model.runs = false ∨ (s.chan c).model.seed = 0 → t.chan c = s.chan c) ∧
        (s.cfg.active.modelled c = true → (s.chan c).model.runs = true → (s.chan c).model.seed ≠ 0 → ∃ r : ModelRec, t.chan c = { s.chan c with
            model := { (s.chan c).model with record := some r }
            loop := { (s.chan c).loop with stored := if (s.chan c).loop.adapted.isEmpty then (s.chan c).loop.stored else (s.chan c).loop.adapted } } ∧
          r.tv = (s.chan c).model.tv ∧ r.tm = (s.chan c).model.tm ∧ r.re25 = (s.chan c).model.re25 ∧ r.bl0 = (s.chan c).model.bl0 ∧
          r.fs = (s.chan c).model.fs ∧ r.qms = (s.chan c).model.qms ∧ r.identOk = (s.chan c).model.identOk ∧ r.timeUs = s.keeper.counterUs ∧
          r.dts = (t.chan c).loop.stored ∧ r.por = false)) ∧
    (∀ (c : Nat) (r : ModelRec) (x : Rat), c < 208 → (s.chan c).model.record = some r → (s.chan c).model.runs = true → (s.chan c).model.hotSeed = true →
      (s.chan c).model.reConv = false → (s.chan c).model.seed = 3 → s.ptp.state = .locked → s.keeper.counterUs ≤ (s.chan c).model.reseedUntil →
      r.ptpNs.isSome = true → elapsed? s r = some x → (decayed s c r x).1 < (s.chan c).model.tv → ∃ t, exec (.lateReseed c) s = .next t ∧
        TouchesChan c s t ∧ t.chan c = { s.chan c with model := { (s.chan c).model with tv := (decayed s c r x).1, tm := (decayed s c r x).2, seed := 2, seedTv := (decayed s c r x).1, coldDue := decide (absRat ((decayed s c r x).1 - s.entry c 19) ≤ 2) } }) ∧
    (∀ c : Nat, c < 208 →
      ((s.chan c).model.magEp = true → magnetCurve s c = 0 → ∃ t, exec (.foldbackEpisodeEnd c true) s = .next t ∧ TouchesChan c s t ∧
        t.chan c = { s.chan c with model := { (s.chan c).model with magEp := false } }) ∧
      ((s.chan c).model.coilEp = true → coilCurve s c = 0 → ∃ t, exec (.foldbackEpisodeEnd c false) s = .next t ∧ TouchesChan c s t ∧
        t.chan c = { s.chan c with model := { (s.chan c).model with coilEp := false, overEp := false } }))

/-- For every type 1 to 6, every FLAGS, INDEX and SEQ that its field holds and every payload of the type's length, the
frame as it is sent, header, payload and CRC, passes the receiver's checks and gives back FLAGS, INDEX, SEQ and
payload. A frame of a type whose payload has another length is discarded. -/
def Obligations.FikezoFramesAreReadAsSent : Prop :=
  ∀ (ty flags index seq : Nat) (body : List Byte), 1 ≤ ty → ty ≤ 6 → flags < 0x100 → index < 0x10000000000000000 → seq < 0x100000000 →
    (body.length = fzLength ty → fzParse ty (fzBytes ty flags index seq body) = some ⟨flags, index, seq, body⟩) ∧
    (body.length ≠ fzLength ty → fzParse ty (fzBytes ty flags index seq body) = none)

/-- With the lanes carrying data and no Fikezo injection, a wrong frame only counts. SAMPLE does nothing while the link is
down; else it takes the DRIVING flags, the mute line and the currents; outside SHARED the correction is 0, and where
both sides drive with both currents of an index it is that of Table 14.8. BLOCK takes the partner's terms and RUN
block, and marks the samples that a join check judges. MODEL keeps shadows; once all have come, the next DSP window
adopts them. A bad daymark breaks the row of beacons. EPOCH keeps the partner's proposal but one abandoned for which
no own one is open; one of another digest, or abandoned, ends the commit with both banks unchanged, and two armed
alike agree on the first block. TIME sets the offset; above 1 us a configured SHARED side pauses and a FOLLOW stops
its channels. -/
def Obligations.FikezoFramesAreTaken : Prop :=
  ∀ s : State, fzLive s = true → (s.inj 64).heldPkt = none → (s.inj 64).action = 0 →
    (∀ (l : List Byte) (t2 : Nat),
      (fzParse 1 l = none → exec (.sampleFrame l) s = .next (s.count (devStat 0x60B) 1)) ∧
      (fzParse 2 l = none → exec (.blockFrame l) s = .next (s.count (devStat 0x60B) 1)) ∧
      (fzParse 3 l = none → exec (.modelFrame l) s = .next (s.count (devStat 0x60B) 1)) ∧
      (fzParse 4 l = none → ∃ t, exec (.peerBeacon l) s = .next t ∧ t = { s.count (devStat 0x60B) 1 with twin := { s.twin with beaconsOk := 0 } }) ∧
      (fzParse 5 l = none → exec (.epochFrame l) s = .next (s.count (devStat 0x60B) 1)) ∧
      (fzParse 6 l = none → exec (.timeFrame l t2) s = .next (s.count (devStat 0x60B) 1))) ∧
    (∀ (l : List Byte) (f : Fz), fzParse 1 l = some f → s.twin.link = false → exec (.sampleFrame l) s = .next s) ∧
    (∀ (l : List Byte) (f : Fz), fzParse 1 l = some f → s.twin.link = true → ∃ t, exec (.sampleFrame l) s = .next t ∧ Quiet s t ∧ t.rails = s.rails ∧
      t.twin.muted = (s.twin.effShared && leAt f.body 1669 1 % 2 == 1) ∧
      (sharing s = false → t.streams = s.streams ∧ t.tdms = s.tdms) ∧
      ∀ c : Nat, c < 208 → t.chan c = { s.chan c with share := (t.chan c).share } ∧
        (t.chan c).share.partnerDrives = (leAt f.body (8 * c + 6) 1 / 2 % 2 == 1) ∧
        (sharing s = false → (t.chan c).share.delta = 0 ∧ (t.chan c).share.integral = 0 ∧ (t.chan c).share.corr = 0) ∧
        (∀ own : Int, sharing s = true → armed s c = true → (s.chan c).share.joinReq = false → leAt f.body (8 * c + 6) 1 = 3 →
          (s.chan c).share.ownI = [(f.index, own)] → (s.chan c).share.partnerI = [] → (s.chan c).share.corrs.length < 8 →
          ∀ i p : Rat, i = senseI c own → p = senseI c (signed 24 (leAt f.body (8 * c + 3) 3)) →
          (t.chan c).share.delta = (i - p) / 2 ∧
          (t.chan c).share.integral = clampRat (-(2/100 * vTop s c)) (2/100 * vTop s c) ((s.chan c).share.integral + 6545/10000000 * (5/100) * ((i - p) / 2)) ∧
          (t.chan c).share.corr = (if isL c then -(5/100 * ((i - p) / 2)) else 5/100 * (i + p) / 2) - (t.chan c).share.integral)) ∧
    (∀ (l : List Byte) (f : Fz), fzParse 2 l = some f → ∃ t, exec (.blockFrame l) s = .next t ∧
      t = { s with chans := t.chans, rails := t.rails, dsds := t.dsds,
                   twin := { s.twin with theirRunBlock := leAt f.body 1068 8, theirRunMap := mapAt f.body 1076 } } ∧
      (∀ r : Nat, r < 12 → t.rail r = { s.rail r with cEffPartner := leAt f.body (208 + r) 1 }) ∧
      (∀ d : Nat, d < 4 → t.dsd d = { s.dsd d with partnerS := f32At f.body (220 + 4 * d) (s.dsd d).partnerS }) ∧
      ∀ c : Nat, c < 208 → (t.chan c).share.mark = markFor s c (leAt f.body c 1 / 32 % 2 == 1) ∧
        (markFor s c (leAt f.body c 1 / 32 % 2 == 1) = 48 → (s.chan c).share.mark = 0 → (t.chan c).share.markAt = some (winBase s)) ∧
        ((s.chan c).share.joinReq = true → (s.chan c).fsm.state = .diag → (s.chan c).share.partnerMark = false → leAt f.body c 1 / 128 % 2 = 1 →
          (s.chan c).share.mark ≠ 0 → (t.chan c).share.markAt = some (f.index - 8)) ∧
        t.chan c = { s.chan c with share := { (s.chan c).share with
        mark := (t.chan c).share.mark, markAt := (t.chan c).share.markAt, vOwnSum := (t.chan c).share.vOwnSum, iOwnSum := (t.chan c).share.iOwnSum
        vStSum := (t.chan c).share.vStSum, nOwn := (t.chan c).share.nOwn, nSt := (t.chan c).share.nSt
        partnerState := leAt f.body c 1 % 16, partnerDrives := leAt f.body c 1 / 16 % 2 == 1, partnerJoin := leAt f.body c 1 / 32 % 2 == 1,
        voPartner := leAt f.body c 1 / 64 % 2 == 1, partnerMark := leAt f.body c 1 / 128 % 2 == 1,
        mIdxPartner := f32At f.body (236 + 4 * c) (s.chan c).share.mIdxPartner } }) ∧
    (∀ (l : List Byte) (f : Fz), fzParse 3 l = some f → ∃ t, exec (.modelFrame l) s = .next t ∧ Quiet s t ∧
      (∀ i : Nat, i < 8 → leAt f.body (40 * i) 2 < 208 → (t.chan (leAt f.body (40 * i) 2)).share.shadow.isSome = true ∧
        (t.chan (leAt f.body (40 * i) 2)).share.shadowAt = s.keeper.counterUs) ∧
      t = { s with chans := t.chans, twin := { s.twin with adoptGot := t.twin.adoptGot } } ∧
        ∀ c : Nat, c < 208 → (t.chan c).model = (s.chan c).model ∧ (t.chan c).fsm = (s.chan c).fsm) ∧
    (∀ sense : List SensePair, s.media.locked = true → s.media.halted = false → s.twin.adoptDue = true →
      (modelledChans s.cfg.active).all (fun c => s.twin.adoptGot.contains c) = true → ∃ t, exec (.dspWindow sense) s = .next t ∧
        t.twin.adoptDue = false ∧ t.twin.adoptGot = [] ∧ ∀ (c : Nat) (w : Shadow), c ∈ modelledChans s.cfg.active → (s.chan c).share.shadow = some w →
          (t.chan c).model.re25 = w.re ∧ (t.chan c).model.bl0 = w.bl0 ∧ (t.chan c).model.fs = w.fs ∧ (t.chan c).model.qms = w.qms) ∧
    (∀ (l : List Byte) (f : Fz), fzParse 4 l = some f → leAt f.body 60 4 ≠ (crc32 (f.body.take 60)).toNat → ∃ t, exec (.peerBeacon l) s = .next t ∧
      t = { s.count (devStat 0x60B) 1 with twin := { s.twin with beaconsOk := 0 } }) ∧
    (∀ (l : List Byte) (f : Fz) (p : Proposal), fzParse 5 l = some f →
      p = ⟨leAt f.body 0 4, leAt f.body 4 4, if leAt f.body 8 8 = 0xFFFFFFFFFFFFFFFF then none else some (leAt f.body 8 8), leAt f.body 16 1, leAt f.body 20 8⟩ →
      ∃ t, exec (.epochFrame l) s = .next t ∧ t.pending = s.pending ∧ t.spi.mem = s.spi.mem ∧ t.sram = s.sram ∧
        t.cfg.active = s.cfg.active ∧ t.cfg.pending = s.cfg.pending ∧ t.twin.epoch = s.twin.epoch ∧
        (p.state = 2 → (∀ a : Proposal, s.twin.own = some a → a.epoch ≠ p.epoch ∨ a.state = 2) → t = { s with twin := { s.twin with theirs := none } }) ∧
        (p.state ≠ 2 ∨ (∃ a : Proposal, s.twin.own = some a ∧ a.epoch = p.epoch ∧ a.state ≠ 2) → s.cfg.commit = none →
          t = { s with twin := { s.twin with theirs := some p } }) ∧
        (∀ (c : Commit) (a : Proposal), s.cfg.commit = some c → s.twin.own = some a → a.epoch = p.epoch → a.state ≠ 2 →
          (p.state = 2 ∨ a.digest ≠ p.digest → t.cfg.commit = none ∧ t.twin.own = some { a with state := 2 } ∧ t.twin.theirs = none) ∧
          (a.state = 1 → p.state = 1 → a.digest = p.digest → c.epoch = some a.epoch → c.k0 = none →
            t.cfg.commit.bind (·.k0) = some (agreedBlock (s.nat 0x08 0 2) a p) ∧ t.twin.theirs = some p))) ∧
    (∀ (l : List Byte) (f : Fz) (t2 : Nat), fzParse 6 l = some f → ∃ t, exec (.timeFrame l t2) s = .next t ∧ Quiet s t ∧
      t.twin.t1Last = leAt f.body 0 8 ∧ t.twin.t2Last = t2 ∧ t.twin.role = s.twin.role ∧
      (leAt f.body 8 8 = 0 ∨ s.twin.link = false → t = { s with twin := { s.twin with t1Last := leAt f.body 0 8, t2Last := t2 } }) ∧
      (∀ o : Rat, leAt f.body 8 8 ≠ 0 → s.twin.link = true →
        o = (((((leAt f.body 16 8 : Nat) : Int) - (leAt f.body 8 8 : Nat)) - ((t2 : Int) - (leAt f.body 0 8 : Nat)) : Int) : Rat) / 2 →
        t.twin.offset = o ∧ (absRat o ≤ 1000 → t.chans = s.chans ∧ t.twin.paused = s.twin.paused) ∧
        (1000 < absRat o → s.cfgShared = true → s.twin.paused = false → t.twin.paused = true ∧ t.twin.effShared = false ∧
          (s.twin.role = .follow → ∀ c : Nat, c < 208 → (t.chan c).fsm.state = .off))))

/-- The partner's valid peer beacon (its IDs crossed, its daymark CRC right) marks the pair and keeps the status it
carries; a pair that forms with no LEAD and equal interface levels makes the lower system ID LEAD, and takes the
higher of two equal configurations' epochs, with the lower as the last common one where the digests differ (the
model's reading, log entry 79); of two LEADs the higher ID becomes a FOLLOW with every channel in OFF and the lower
stays; a LEAD in SAFE, UPDATE or BOOT that has released hands over to a paired FOLLOW in CHANGEOVER, which raises
TAKEOVER. NETWORK_BEACON does the same without forming a pair; one of neither the partner's nor the own system ID
changes nothing; one with a bad CRC only counts. -/
def Obligations.BeaconsFormPairsAndSettleRoles : Prop :=
  ∀ (s : State) (b : List Byte),
    (∀ (l : List Byte) (f : Fz), fzLive s = true → (s.inj 64).heldPkt = none → (s.inj 64).action = 0 → fzParse 4 l = some f → f.body = b →
      leAt b 60 4 = (crc32 (b.take 60)).toNat → twinned s = true → leAt b 8 4 = partnerId s → partnerId s ≠ 0 → leAt b 24 4 = sysId s → partnerId s ≠ sysId s →
      ∃ t, exec (.peerBeacon l) s = .next t ∧ Quiet s t ∧ t.twin.paired = true ∧ t.twin.peerSeen = true ∧ t.twin.beaconsOk = s.twin.beaconsOk + 1 ∧
        t.twin.partnerDev = leAt b 64 1 ∧ t.twin.partnerEpoch = leAt b 32 4 ∧ t.twin.partnerDigest = leAt b 36 4 ∧ t.twin.partnerGm = leAt b 72 8 ∧
        (s.twin.paired = false → s.twin.role ≠ .lead → leAt b 15 1 / 16 % 2 = 0 → leAt b 16 2 = s.keeper.fwLevel → leAt b 65 1 % 2 = 0 →
          t.twin.role = (if sysId s < leAt b 8 4 then .lead else .follow)) ∧
        (s.twin.paired = false → t.twin.epoch = (if digest s.cfg.whole = leAt b 36 4 then max s.twin.epoch (leAt b 32 4) else s.twin.epoch) ∧
          t.twin.common = if digest s.cfg.whole = leAt b 36 4 then max s.twin.epoch (leAt b 32 4) else min s.twin.epoch (leAt b 32 4)) ∧
        (s.twin.paired = true → s.twin.role = .follow → s.twin.effShared = false → s.cfgShared = false → leAt b 65 1 % 2 = 1 →
          leAt b 64 1 = 0 ∨ leAt b 64 1 = 4 ∨ leAt b 64 1 = 5 → t.twin.role = .lead ∧ Raised 0x800A 0 [word 1] s t) ∧
        (s.twin.role = .lead → leAt b 15 1 / 16 % 2 = 1 → sysId s < leAt b 8 4 → t.twin.role = .lead) ∧
        (s.twin.role = .lead → leAt b 15 1 / 16 % 2 = 1 → leAt b 8 4 < sysId s → leAt b 65 1 % 2 = 0 →
          t.twin.role = .follow ∧ ∀ c : Nat, c < 208 → (t.chan c).fsm.state = .off)) ∧
    (∀ port : Nat, port < 2 → s.cfg.active.portOn port = true → canLog s = true → b.length = 128 →
      (leAt b 60 4 ≠ (crc32 (b.take 60)).toNat → exec (.networkBeacon port b) s = .next (s.count (devStat 0x60B) 1)) ∧
      (leAt b 60 4 = (crc32 (b.take 60)).toNat → leAt b 8 4 ≠ partnerId s → leAt b 8 4 ≠ sysId s → exec (.networkBeacon port b) s = .next s) ∧
      (leAt b 60 4 = (crc32 (b.take 60)).toNat → twinned s = true → leAt b 8 4 = partnerId s → partnerId s ≠ 0 → leAt b 24 4 = sysId s →
        partnerId s ≠ sysId s → ∃ t, exec (.networkBeacon port b) s = .next t ∧ Quiet s t ∧ t.twin.netSeen = true ∧ t.twin.paired = s.twin.paired ∧
          t.twin.partnerDev = leAt b 64 1 ∧ t.twin.partnerEpoch = leAt b 32 4 ∧
          (s.twin.role = .lead → leAt b 15 1 / 16 % 2 = 1 → leAt b 8 4 < sysId s → leAt b 65 1 % 2 = 0 →
            t.twin.role = .follow ∧ ∀ c : Nat, c < 208 → (t.chan c).fsm.state = .off) ∧
          (s.twin.role = .lead → leAt b 15 1 / 16 % 2 = 1 → sysId s < leAt b 8 4 → t.twin.role = .lead) ∧
          (s.twin.role = .follow → s.twin.effShared = false → s.cfgShared = false → leAt b 65 1 % 2 = 1 → leAt b 64 1 = 0 ∨ leAt b 64 1 = 4 ∨ leAt b 64 1 = 5 →
            t.twin.role = .lead ∧ Raised 0x800A 0 [word 1] s t)))

/-- PEER_LINK_UP after three valid beacons and PEER_LINK_DOWN set the link and raise 0x8002 and 0x8001; no role changes.
PEER_FRAME_SEND of a type that Table 14.3 has sent hands one frame of that type, with its own sequence number, to the
transmitter and moves that number on; NETWORK_BEACON_SEND at a multiple of 1,200 blocks sends the beacon to the pair
group on each enabled port whose link is up. COMMIT_ABANDONED of an unmatched proposal ends the commit and leaves both
banks and the epoch. Where the lanes carry no data, the frame rows change nothing but the FIFO of 8 in which the own
currents wait. -/
def Obligations.TwinSendsAndLinkRows : Prop :=
  ∀ s : State,
    (fzLive s = true → s.twin.link = false → 3 ≤ s.twin.beaconsOk → ∃ t, exec .peerLinkUp s = .next t ∧ t.twin.link = true ∧ t.twin.role = s.twin.role ∧
      Quiet s t ∧ Raised 0x8002 0 [] s t ∧ t.rails = s.rails) ∧
    (s.twin.link = true → ∃ t, exec .peerLinkDown s = .next t ∧ t.twin.link = false ∧ t.twin.role = s.twin.role ∧ t.twin.effShared = s.twin.effShared ∧
      t.twin.beaconsOk = 0 ∧ Quiet s t ∧ Raised 0x8001 0 [] s t ∧ t.chans = s.chans ∧ t.rails = s.rails) ∧
    (∀ (ty idx : Nat) (pairs sense : List SensePair) (body : List Byte), fzLive s = true → s.media.locked = true → sense = pairs.map (marked s) →
      ((ty = 1 ∧ s.twin.link = true ∧ idx = (sense.head?.map (·.n)).getD (s.media.index - 3) ∧ body = sampleBody sense idx s) ∨
       (ty = 2 ∧ s.twin.link = true ∧ idx = 8 * winK s ∧ body = blockBody (nameRun s)) ∨
       (ty = 3 ∧ s.twin.link = true ∧ s.twin.role = .lead ∧ modelledChans s.cfg.active ≠ [] ∧ idx = 8 * (s.media.index / 8) ∧
         body = (modelTurn s).flatMap fun c => shadowEntry s c (s.media.index / 8)) ∨
       (ty = 4 ∧ s.media.index / 8 % 12 = 0 ∧ idx = 8 * (s.media.index / 8) ∧ body = beacon s) ∨
       (ty = 5 ∧ s.twin.link = true ∧ idx = 8 * (s.media.index / 8) ∧ s.twin.own.map epochBody = some body) ∨
       (ty = 6 ∧ s.twin.link = true ∧ idx = 8 * (s.media.index / 8) ∧ body = le 8 s.ptp.timeNs ++ le 8 s.twin.t1Last ++ le 8 s.twin.t2Last)) →
      ∃ t, exec (.peerFrameSend ty pairs) s = .next t ∧ Quiet s t ∧ t.twin.seqs = s.twin.seqs.set (ty - 1) (s.twin.seqs.getD (ty - 1) 0 + 1) ∧
        t.misc.sent = s.misc.sent ++ [⟨3, 0, 0, fzBytes ty (bit (s.twin.role == .lead) 0 + bit s.twin.effShared 1) idx (s.twin.seqs.getD (ty - 1) 0) body⟩] ∧
        (ty ≠ 1 → t.chans = s.chans) ∧ ∀ c : Nat, (t.chan c).fsm = (s.chan c).fsm) ∧
    (∀ g : Nat, pairGroup s.cfg.active = some g → s.media.locked = true → canLog s = true → s.media.index / 8 % 1200 = 0 → ∃ t, exec .networkBeaconSend s = .next t ∧
      t = { s with misc := t.misc, counters := t.counters } ∧
      t.misc.sent = s.misc.sent ++ ((List.range 2).filter fun p => s.cfg.active.portOn p && (s.port p).up).map fun p => ⟨p, g, 30209, beacon s⟩) ∧
    (∀ c : Commit, s.keeper.halted = false → s.cfg.commit = some c → c.epoch.isSome = true → c.k0 = none → matched s.twin = false → ∃ t, exec .commitAbandoned s = .next t ∧
      t.cfg.commit = none ∧ t.cfg.active = s.cfg.active ∧ t.cfg.pending = s.cfg.pending ∧ t.twin.epoch = s.twin.epoch ∧
      t.twin.own = s.twin.own.map (fun p => { p with state := 2 }) ∧ t.chans = s.chans ∧ t.pending = s.pending) ∧
    (fzLive s = false → ∀ (l : List Byte) (ty t2 : Nat) (sense : List SensePair), exec (.sampleFrame l) s = .next s ∧ exec (.blockFrame l) s = .next s ∧
      exec (.modelFrame l) s = .next s ∧ exec (.peerBeacon l) s = .next s ∧ exec (.epochFrame l) s = .next s ∧ exec (.timeFrame l t2) s = .next s ∧
      (ty ≠ 1 ∨ s.media.locked = false → exec (.peerFrameSend ty sense) s = .next s) ∧
      (ty = 1 → s.media.locked = true → ∃ t, exec (.peerFrameSend ty sense) s = .next t ∧ t = { s with chans := t.chans } ∧ ∀ c : Nat, c < 208 →
        t.chan c = { s.chan c with share := { (s.chan c).share with toPeer := (t.chan c).share.toPeer, peerDrops := (t.chan c).share.peerDrops } } ∧
        ((s.chan c).share.toPeer.length ≤ 8 → (t.chan c).share.toPeer.length ≤ 8)))

/-- PARTNER_ABSENT makes a FOLLOW with takeover enabled LEAD and raises TAKEOVER, and without it only raises 0x800B; the
pair is over. A FOLLOW whose takeover is enabled while the partner is still absent takes over then. TAKE_LEAD_ALONE
makes an unpaired side in RUN LEAD. JOIN_CHECK, once the central 2 ms of the join mark are over, judges the means over
them: it passes a joiner whose voltage ratio is at least one half to PRECHARGE and one whose current reaches 10 mA to
joined, and stops one whose starter carries no voltage. RUN_BLOCK_REACHED brings each admitted idle channel that this
side named to RUN or MUTED. SHARE_IMBALANCE after 96 samples in a row above the limit stops the FOLLOW's channel with
0x800D; SHARING_RESUMED after 1 s of good offsets ends the pause, on a FOLLOW once the LEAD's is over. -/
def Obligations.TwinRolesAndJoining : Prop :=
  ∀ s : State,
    (twinned s = true → s.twin.paired = true ∨ s.twin.peerSeen = true ∨ s.twin.netSeen = true → ∃ t, exec .partnerAbsent s = .next t ∧ Quiet s t ∧
      t.twin.paired = false ∧ t.twin.effShared = false ∧ t.twin.peerSeen = false ∧ t.twin.netSeen = false ∧
      (∀ c : Nat, c < 208 → (t.chan c).fsm = (s.chan c).fsm) ∧
      (s.twin.role = .follow → s.flag 0x08 0 3 = true → t.twin.role = .lead ∧ Raised 0x800A 0 [word 2] s t) ∧
      (s.twin.role = .follow → s.flag 0x08 0 3 = false → t.twin.role = .follow ∧ Raised 0x800B 0 [] s t) ∧
      (s.twin.role ≠ .follow → t.twin.role = s.twin.role ∧ t.log = s.log)) ∧
    (twinned s = true → s.twin.paired = false → s.twin.peerSeen = false → s.twin.netSeen = false → s.twin.role = .follow → s.flag 0x08 0 3 = true →
      ∃ t, exec .partnerAbsent s = .next t ∧ Quiet s t ∧ t.twin.role = .lead ∧ Raised 0x800A 0 [word 2] s t) ∧
    (twinned s = true → s.keeper.dev = .run → s.twin.paired = false → s.twin.peerSeen = false → s.twin.netSeen = false → s.twin.role = .none →
      exec .takeLeadAlone s = .next { s with twin := { s.twin with role := .lead } }) ∧
    (∀ (c a : Nat) (vOwn vStarter iOwn : Rat), c < 208 → sharing s = true → (s.chan c).share.joinReq = true → (s.chan c).fsm.stop = .none →
      (s.chan c).share.markAt = some a → a + 288 ≤ winBase s → vOwn = meanOver (s.chan c).share.vOwnSum (s.chan c).share.nOwn →
      vStarter = meanOver (s.chan c).share.vStSum (s.chan c).share.nSt → iOwn = meanOver (s.chan c).share.iOwnSum (s.chan c).share.nOwn →
      ((s.chan c).fsm.state = .diag → vStarter ≠ 0 → 1/2 ≤ vOwn / vStarter → ∃ t, exec (.joinCheck c) s = .next t ∧
        TouchesChan c s t ∧ (t.chan c).fsm.state = .precharge ∧ (t.chan c).share = (s.chan c).share) ∧
      ((s.chan c).fsm.state = .diag → vStarter = 0 → ∃ t, exec (.joinCheck c) s = .next t ∧
        Faulted c (chanCode c 0xB) s t) ∧
      ((s.chan c).fsm.state = .idle → 10/1000 ≤ iOwn → ∃ t, exec (.joinCheck c) s = .next t ∧ TouchesChan c s t ∧
        t.chan c = { s.chan c with share := { (s.chan c).share with joined := true, joinReq := false, mark := 0 } }) ∧
      ((s.chan c).fsm.state = .idle → 0 ≤ iOwn → iOwn < 10/1000 → ∃ t, exec (.joinCheck c) s = .next t ∧
        Faulted c (chanCode c 0xB) s t)) ∧
    (s.media.locked = true → s.twin.runBlock ≠ 0 → s.twin.runBlock ≤ winK s → s.twin.theirRunBlock = 0 → ∃ t, exec .runBlockReached s = .next t ∧ Quiet s t ∧
      t.twin = { s.twin with runBlock := 0, runMap := [] } ∧ ∀ c : Nat, c < 208 → (c ∉ s.twin.runMap → t.chan c = s.chan c) ∧
        (c ∈ s.twin.runMap → (s.chan c).fsm.state = .idle → (s.chan c).fsm.admitted = true → (s.chan c).fsm.stop = .none →
          (t.chan c).fsm.state = (if muteSource s c then .muted else .run) ∧ (t.chan c).fsm.admitted = false)) ∧
    (∀ c : Nat, c < 208 → bothDrive s c = true → s.twin.role = .follow → 96 ≤ (s.chan c).share.imbRun → (s.chan c).fsm.state.switching = true →
      ∃ t, exec (.shareImbalance c) s = .next t ∧ Faulted c 0x800D s t) ∧
    (∀ g : Nat, s.twin.paused = true → s.twin.link = true → s.twin.goodSince = some g → g + 96000 ≤ s.media.samples → s.twin.partnerGm = s.ptp.gm →
      s.twin.role ≠ .follow ∨ s.twin.partnerPaused = false → ∃ t, exec .sharingResumed s = .next t ∧
      t.twin.paused = false ∧ t.twin.role = s.twin.role ∧ Quiet s t ∧ t.rails = s.rails)

/-- LOG_FLUSH sets the whole log buffer on its way to the log region. RECORD_WRITE programs the oldest record on its way
into the write slot as valid where both read-backs are right: it leaves the buffer, an END record of a snapshot makes
that snapshot the newest and ends the checkpoint, and a channel's last waiting model record becomes the one that the
flash holds; the other region stands. Where a read-back fails the slot is left torn, or corrupt where only COMMIT's
failed, the record waits on, and the third failure retires the sector and is reported. SECTOR_ERASE erases the sector
of a write slot that holds a record, else the one ahead, and no other, and counts it; one that fails is reported with
operation 2 and leaves the records. SNAPSHOT, not in STANDBY, appends one run from LT_SNAP_BEGIN to LT_SNAP_END with
its number, count and CRC-32. All this while the Keeper serves and has nothing of a higher priority, the flash is
powered and the device is not in STANDBY before VIO is up. -/
def Obligations.LogAndLifetimeRegions : Prop :=
  ∀ s : State, storeServes s = true →
    exec .logFlush s = .next { s with log := { s.log with flushing := s.log.buffer.length } } ∧
    (∀ (x : Record) (l : List Record), s.log.buffer = x :: l → 0 < s.log.flushing → s.store.log.slots.any (fun p => p.1 == s.store.log.writeSlot) = false →
      (∃ t, exec (.recordWrite false 0) s = .next t ∧
        t = { s with store := t.store, log := { s.log with buffer := l, flushing := s.log.flushing - 1, flushedSeq := x.seq } } ∧
        t.store.log.slots = (s.store.log.writeSlot, Slot.valid x) :: s.store.log.slots ∧ t.store.log.retired = s.store.log.retired ∧
        t.store.lifeRegion = s.store.lifeRegion ∧ t.store.lifeOut = s.store.lifeOut) ∧
      (∀ k : Nat, k = 1 ∨ k = 2 → ∃ t, exec (.recordWrite false k) s = .next t ∧ t.store.lifeRegion = s.store.lifeRegion ∧
        t.store.log.slots = (s.store.log.writeSlot, if k = 1 then Slot.torn else Slot.corrupt) :: s.store.log.slots ∧ Quiet s t ∧ t.chans = s.chans ∧
        (s.store.log.failsHere = 2 → s.store.log.writeSlot / 1024 ∈ t.store.log.retired ∧ t.store.log.failsHere = 0 ∧
          Raised 0x9007 0 [word (0x2000000 + s.store.log.writeSlot / 1024 * 0x10000), 1] s t) ∧
        (s.store.log.failsHere < 2 → t.store.log.retired = s.store.log.retired ∧ t.log = s.log))) ∧
    (∀ (x : Record) (l : List Record), s.store.lifeOut = x :: l → s.store.lifeRegion.slots.any (fun p => p.1 == s.store.lifeRegion.writeSlot) = false →
      ∃ t, exec (.recordWrite true 0) s = .next t ∧ t = { s with store := t.store, chans := t.chans } ∧ t.store.lifeOut = l ∧
        (∀ c : Nat, c < 208 → t.chan c = { s.chan c with model := { (s.chan c).model with recordWas :=
          if x.code = 0x9103 ∧ x.inst = c ∧ (l.any fun r => r.code == 0x9103 && r.inst == c) = false then (s.chan c).model.record
          else (s.chan c).model.recordWas } }) ∧
        t.store.lifeRegion.slots = (s.store.lifeRegion.writeSlot, Slot.valid x) :: s.store.lifeRegion.slots ∧ t.store.log = s.store.log ∧
        (x.code = 0x9101 → t.store.checkpoint = []) ∧
        t.store.snap = (if x.code = 0x9101 ∧ s.store.snapNext.isSome then s.store.snapNext else s.store.snap)) ∧
    (∀ n : Nat, n = (if s.store.log.slots.any (fun p => p.1 == s.store.log.writeSlot) then s.store.log.writeSlot / 1024
        else nextSlot (regionSlots false s.store.flashMb) s.store.log.retired (s.store.log.retired.length + 1) ((s.store.log.writeSlot / 1024 + 1) * 1024) / 1024) →
      (s.store.log.slots.any (fun p => p.1 / 1024 == n) = false → ∀ ok : Bool, exec (.sectorErase false ok) s = .next s) ∧
      (s.store.log.slots.any (fun p => p.1 / 1024 == n) = true →
        (∃ t, exec (.sectorErase false true) s = .next t ∧ t = { s with store := t.store } ∧
          t.store.log.slots = s.store.log.slots.filter (fun p => p.1 / 1024 != n) ∧ t.store.lifeRegion = s.store.lifeRegion ∧
          ((t.store.log.erases.find? (fun e => e.1 == n)).map (·.2)).getD 0 = ((s.store.log.erases.find? (fun e => e.1 == n)).map (·.2)).getD 0 + 1) ∧
        (∃ t, exec (.sectorErase false false) s = .next t ∧ Reports s t ∧ t.store.log = s.store.log ∧ Raised 0x9007 0 [word (0x2000000 + n * 0x10000), 2] s t))) ∧
    (s.keeper.dev ≠ .standby → ∃ t run, exec .snapshot s = .next t ∧ t = { s with store := t.store } ∧ t.store.lifeOut = s.store.lifeOut ++ run ∧
      t.store.snapNumber = s.store.snapNumber + 1 ∧ run.head?.map (fun r => (r.code, r.data)) = some (0x9100, [word (s.store.snapNumber + 1)]) ∧
      run.getLast?.map (fun r => (r.code, r.data)) = some (0x9101, [word (s.store.snapNumber + 1), word (run.length - 1), crc32 (run.dropLast.flatMap recordBytes)]) ∧
      t.store.snapNext = some ⟨s.store.snapNumber + 1, s.store.life, s.store.log.retired, s.store.lifeRegion.retired⟩ ∧ t.store.log = s.store.log ∧ t.store.lifeRegion.slots = s.store.lifeRegion.slots)

/-- AGEING_EVALUATION, with nothing waiting for the flash, keeps the last five medians; the fifth of a field quantity
forms its baseline; for the on-resistance ratio with a baseline and re-planning on, the current-limit threshold
becomes that of Table 15.8, at once where the bridge does not switch, else from its next cycle. REPLAN_SECOND_WRITE
three blocks after the first write, with the Keeper not halted, gives the DSP and the clamp the same new index.
SELF_TEST_DONE of FLASH_VERIFY, of a calibration with values and of a RAIL_CHECK whose checks are done records the
result of that ticket and leaves every other test; without FORCE no unit changes. INJECT_REORDER_RELEASE passes a held
packet on, once, as completed 1 ms after it was held: an audio packet outside the subset is filtered, a late one is
not placed, one in time with the locked SSRC, a new number and a free place is appended at its place; a Fikezo frame
acts as a received one of its type does, and a wrong one only counts. -/
def Obligations.AgeingAndTestEnds : Prop :=
  ∀ s : State,
    (∀ (q i : Nat) (med cap : Rat), keeperFree s = true → storeWaits s = false → s.keeper.dev ≠ .standby → s.flag 0x01 0 0xC = true → ageUnit s q i = true →
      ∃ t, exec (.ageingEvaluation q i med cap) s = .next t ∧ Quiet s t ∧
        (t.store.ageOf q i).evals = ((s.store.ageOf q i).evals ++ [med]).drop ((s.store.ageOf q i).evals.length - 4) ∧
        (∀ c : Nat, c < 208 → (t.chan c).fsm = (s.chan c).fsm ∧ (t.chan c).dsp = (s.chan c).dsp) ∧
        (q ≤ 5 → (s.store.ageOf q i).baseline = 0 → (s.store.ageOf q i).evals.length = 4 → (t.store.ageOf q i).baseline = median ((s.store.ageOf q i).evals ++ [med])) ∧
        (∀ x m : Rat, q = 1 → s.flag 0x01 0 0xD = true → s.store.factoryValid = true → (s.store.ageOf 1 i).baseline ≠ 0 → (s.store.ageOf 1 i).replanned = false →
          x = median (((s.store.ageOf 1 i).evals ++ [med]).drop ((s.store.ageOf 1 i).evals.length - 4)) / (s.store.ageOf 1 i).baseline →
          m = (if 1 ≤ x ∧ x ≤ 144/100 then s.ratv 0x10 i 0x14 / sqrtR x else s.ratv 0x10 i 0x14 * 5 / 6) → m ≠ s.ratv 0x10 i 0x14 →
          (armed s i = false → (t.chan i).loop.ilim = some m) ∧ (armed s i = true → (t.chan i).loop.ilim = (s.chan i).loop.ilim ∧ (1, some m) ∈ (t.chan i).loop.marginDue) ∧
          (t.store.ageOf 1 i).margin = m ∧ (t.store.ageOf 1 i).replanned = true)) ∧
    (∀ (c : Nat) (m : Rat), c < 208 → (s.store.ageOf 3 c).pendingSecond = some m → s.keeper.halted = false → (s.chan c).loop.mIdxAt + 24 ≤ s.media.samples →
      ∃ t, exec (.replanSecondWrite c) s = .next t ∧
      t = { s with chans := t.chans, store := t.store } ∧ (t.store.ageOf 3 c).pendingSecond = none ∧ (∀ k, k ≠ c → t.chan k = s.chan k) ∧
      t.chan c = { s.chan c with loop := { (s.chan c).loop with mIdxDsp := m, mIdxClamp := m } }) ∧
    (∀ (n st code : Nat) (values : List Byte) (u : Test), s.tests.list.find? (fun t => t.ticket == n && t.state == 0) = some u → canLog s = true →
      (∀ (e r : Nat) (v : List Byte),
        ((u.id = 5 ∧ v = le 4 (flashRegions s.store) ∧ (e, r) = if s.store.fwA.valid = true ∧ s.store.fwB.valid = true ∧ s.store.factoryValid = true then (1, 0) else (2, 0xA021)) ∨
         (u.id = 2 ∧ u.values ≠ [] ∧ v = u.values ∧ (e, r) = (1, 0)) ∨
         (u.id = 3 ∧ (s.rail u.inst).test = 7 ∧ v = railValues (s.rail u.inst) ∧
          (e, r) = (if (s.rail u.inst).testCode = 0 then 1 else 2, (s.rail u.inst).testCode))) →
        ∃ t, exec (.selfTestDone n st code values) s = .next t ∧ Quiet s t ∧ Raised 0xA001 u.id [word n, word e, word r, word u.inst] s t ∧
          t.tests.list = s.tests.list.map (fun w => if w.ticket == n then { w with state := e, code := r, values := v } else w) ∧
          (u.force = false → t.chans = s.chans ∧ ∀ k, SameRail (s.rail k) (t.rail k)))) ∧
    (∀ (k : Nat) (h : List Byte × Nat), k < 64 → (s.inj k).heldPkt = some h → ∃ t, exec (.injectReorderRelease k) s = .next t ∧ Quiet s t ∧ t.chans = s.chans ∧
      (t.inj k).heldPkt = none ∧ (rtpOk s.cfg.active (k / 2) (h.1.drop 6) = false → t.streams = s.streams ∧
        t.counters = (s.count (netStat (0x10 * (k % 2) + 3)) 1).counters) ∧
      (rtpOk s.cfg.active (k / 2) (h.1.drop 6) = true → (∀ l, (s.stream (k / 2)).ssrc = some l → l = beAt (h.1.drop 6) 8 4) →
        let v := s.stream (k / 2)
        let w := t.stream (k / 2)
        let p := (placeOf s (k / 2) (beAt (h.1.drop 6) 4 4) (h.2 + 49152)).1
        let n := s.cfg.active.streamN (k / 2)
        let step := if s.cfg.active.streamHi (k / 2) then 1 else 2
        ((p - 24) * 512 < h.2 + 49152 → w.placed = v.placed) ∧
        (h.2 + 49152 ≤ (p - 24) * 512 →
          (∀ c ∈ v.seen, c.ext ≠ match v.lastSeq with | some l => nearMod 65536 (beAt (h.1.drop 6) 2 2) l | none => beAt (h.1.drop 6) 2 2 + 65536) →
          (∀ i, i < n → covered v.placed (p + i) = false) → p + n - step < readPoint s + 512 →
          w.placed = v.placed ++ [⟨p, step, rtpFrames s.cfg.active (k / 2) (h.1.drop 6)⟩] ∧ w.ssrc = some (beAt (h.1.drop 6) 8 4)))) ∧
    (∀ (h : List Byte × Nat) (u : State), (s.inj 64).heldPkt = some h → u = s.modInj 64 (fun j => { j with heldPkt := none }) → fzLive s = true → (s.inj 64).action = 0 →
      ∃ t, exec (.injectReorderRelease 64) s = .next t ∧
        (leAt h.1 0 1 = 1 → exec (.sampleFrame h.1) u = .next t) ∧ (leAt h.1 0 1 = 2 → exec (.blockFrame h.1) u = .next t) ∧
        (leAt h.1 0 1 = 3 → exec (.modelFrame h.1) u = .next t) ∧ (leAt h.1 0 1 = 4 → exec (.peerBeacon h.1) u = .next t) ∧
        (leAt h.1 0 1 = 5 → exec (.epochFrame h.1) u = .next t) ∧ (leAt h.1 0 1 = 6 → exec (.timeFrame h.1 (h.2 + 1000000)) u = .next t)) ∧
    (∀ h : List Byte × Nat, (s.inj 64).heldPkt = some h → fzParse (leAt h.1 0 1) h.1 = none → leAt h.1 0 1 ≠ 4 →
      ∃ t, exec (.injectReorderRelease 64) s = .next t ∧ (t.inj 64).heldPkt = none ∧ t.counters = (s.count (devStat 0x60B) 1).counters ∧ t.chans = s.chans ∧
        Quiet s t)

/-- Each event adds to its 32-bit counter by the number of events and stops at 0xFFFFFFFF; each unknown instruction adds
one to the 16-bit count of SPI_ERR and stops at 0xFFFF. -/
def Obligations.CountersStopAtTheirLargestValue : Prop :=
  ∀ s : State,
    (∀ id n : Nat, 1 ≤ n → (SMap.get 0 id (s.count id n).counters).toNat = min ((SMap.get 0 id s.counters).toNat + n) 0xFFFFFFFF) ∧
    (∀ op : Byte, windowLive s = true → ∃ t, exec (.spiUnknownInstruction op) s = .next t ∧
      t.spi.errCount = min (s.spi.errCount + 1) 0xFFFF)

/-- A cause of a hard stop that reaches a channel in OFF changes nothing. In DIAG, PRECHARGE, IDLE, RUN or MUTED it enters
FAULT with its code latched, its bridge in its hold, its relay de-energised and any silent stop, fade or restart
ended, whatever was in progress, and its code is raised. In FAULT or RETEST it counts as suppressed and holds the
bridge; only a code that is not re-testable replaces a re-testable one. No other channel and no controller drives
otherwise. -/
def Obligations.HardStopsActByState : Prop :=
  ∀ (c code : Nat) (data : List Word) (s : State), c < 208 →
    ((s.chan c).fsm.state = .off → hardStop c code data s = s) ∧
    ((s.chan c).fsm.state ≠ .off → (s.chan c).fsm.state ≠ .fault → (s.chan c).fsm.state ≠ .retest →
      Faulted c code s (hardStop c code data s) ∧ ((hardStop c code data s).chan c).fsm.relayWant = false ∧
      ((hardStop c code data s).chan c).fsm.admitted = false ∧ ((hardStop c code data s).chan c).fsm.restart = false ∧
      ((hardStop c code data s).chan c).model = (s.chan c).model) ∧
    ((s.chan c).fsm.state = .fault ∨ (s.chan c).fsm.state = .retest →
      DrivesChan c s (hardStop c code data s) ∧ ((hardStop c code data s).chan c).fsm.state = .fault ∧
      ((hardStop c code data s).chan c).fsm.bridge = holdFor s c ∧
      ((hardStop c code data s).chan c).fsm.code = (if retestable code = false ∧ retestable (s.chan c).fsm.code = true then code else (s.chan c).fsm.code) ∧
      (retestable code = true → (hardStop c code data s).counters = (s.count (chanStat c 0x10A) 1).counters ∧ (hardStop c code data s).log = s.log))

/-- A fault stop latches its code on the controller, which waits for a retry where the code is retried and retries are
left, and otherwise rests in FAULT. From REGULATING, every channel that it feeds and that is in DIAG, PRECHARGE, IDLE,
RUN or MUTED enters FAULT with RAIL_LOST; a channel in OFF and a channel that it does not feed stay. From any other
state no channel changes its state or its code. No other controller drives otherwise. -/
def Obligations.RailFaultsStopFedChannels : Prop :=
  ∀ (r code : Nat) (data : List Word) (s : State), r < 12 →
    ((railFault r code data s).rail r).code = code ∧
    ((s.rail r).state = .regulating → ((railFault r code data s).rail r).state = (if railRetried code = true ∧ 0 < s.nat 0x07 r 5 then .retryWait else .fault)) ∧
    (∀ k : Nat, k < 12 → k ≠ r → SameRail (s.rail k) ((railFault r code data s).rail k)) ∧
    (∀ c : Nat, c < 208 →
      ((s.rail r).state ≠ .regulating ∨ (s.chan c).fsm.state = .off ∨ rcOf c ≠ r → ((railFault r code data s).chan c).fsm.state = (s.chan c).fsm.state ∧
        ((railFault r code data s).chan c).fsm.code = (s.chan c).fsm.code) ∧
      ((s.rail r).state = .regulating → rcOf c = r → (s.chan c).fsm.state ≠ .off → ((railFault r code data s).chan c).fsm.state = .fault) ∧
      ((s.rail r).state = .regulating → rcOf c = r → (s.chan c).fsm.state ≠ .off → (s.chan c).fsm.state ≠ .fault → (s.chan c).fsm.state ≠ .retest →
        ((railFault r code data s).chan c).fsm.code = chanCode c 0x14))

/-- While the Keeper serves, a raised code becomes the newest record of the event queue with the next sequence number,
which then moves on by one; the queue keeps the newest 256. At or above the logging level and with room it is also the
newest of the log buffer; below the level the buffer stands; the buffer does not grow past 4,096 records. While the
Keeper does not serve, the event waits and the queue stands; beyond 65,535 of one code and instance it marks the
overflow of its crossing. -/
def Obligations.EventQueueKeepsTheNewest256 : Prop :=
  ∀ (code inst : Nat) (data : List Word) (s : State),
    (canLog s = false → (s.log.waiting.countP fun e => e.1 == code && e.2.1 == inst) < 65535 →
      (s.raise code inst data).log = { s.log with waiting := s.log.waiting ++ [(code, inst, data)] }) ∧
    (canLog s = false → 65535 ≤ (s.log.waiting.countP fun e => e.1 == code && e.2.1 == inst) →
      (s.raise code inst data).log = { s.log with overflow := (code, inst) :: s.log.overflow.filter (· != (code, inst)) }) ∧
    (canLog s = true →
      ∃ r : Record, r.code = code ∧ r.inst = inst ∧ r.data = data ∧ r.seq = s.log.nextSeq ∧ r.level = levelOf code ∧
        (s.raise code inst data).log.queue = (s.log.queue ++ [r]).drop (s.log.queue.length + 1 - 256) ∧
        (s.raise code inst data).log.queue.length ≤ 256 ∧ (s.raise code inst data).log.nextSeq = s.log.nextSeq + 1 ∧
        (s.raise code inst data).log.buffer.length ≤ max 4096 s.log.buffer.length ∧
        (levelOf code < s.nat 0x01 0 15 → (s.raise code inst data).log.buffer = s.log.buffer) ∧
        (s.nat 0x01 0 15 ≤ levelOf code → s.log.buffer.length < 4096 → (s.raise code inst data).log.buffer = s.log.buffer ++ [r]))

/-- Each command of the host answers a next state with its own effect, for every state that meets the conditions of its
normal execution: a served request frame of the command with operands in range; for the register window, a window that
answers; for the reset sources and the bus monitor, the pin or supply state of the event. Named are RUN, STOP,
STANDBY, RESET, CLEAR_FAULT, EMUTE, COMMIT, POKE, SELF_TEST, INJECT and the three firmware update commands; the SPI
and image port accesses; a host datagram and a held response; the five reset sources; and the events of the bus, its
over-voltage and its reverse protection. -/
def Obligations.HostWindowAndResetCommandsComplete : Prop :=
  ∀ s : State,
    (∀ i : Nat,
      (Served i 0x10 s → exec (.run i) s = .next (reply i (reqOf s i) stOk [] ((take i s).setDev .run 1))) ∧
      (Served i 0x11 s → exec (.stop i) s = .next (reply i (reqOf s i) stOk [] (stopDevice (take i s)))) ∧
      (Served i 0x12 s → s.cfg.commit = none → exec (.standby i) s = .next (enterStandby (reply i (reqOf s i) stOk [] (take i s)))) ∧
      (Served i 0x13 s → (∀ h ∈ s.spi.held, h.1 ≠ i) → (s.spi.rspReady &&& bit4 i) = 0 →
        exec (.reset i) s = .next (commandReset (reply i (reqOf s i) stOk [] (take i s)))) ∧
      (Served i 0x14 s → leAt (reqOf s i).payload 0 2 < 208 → exec (.clearFault i) s = .next (reply i (reqOf s i) stOk
        (le 2 (faultsLeft (leAt (reqOf s i).payload 0 2) (clearFaults (leAt (reqOf s i).payload 0 2) (take i s))) ++ [0, 0])
        (clearFaults (leAt (reqOf s i).payload 0 2) (take i s)))) ∧
      (Served i 0x15 s → leAt (reqOf s i).payload 0 1 = 1 → exec (.emute i) s = .next (reply i (reqOf s i) stOk []
        { take i s with spi := { (take i s).spi with emute := true } })) ∧
      (Served i 0x24 s → s.cfg.commit = none → leAt (reqOf s i).payload 0 1 = 0 → commitRefusal s.keeper.strapTwin s.cfg.active s.cfg.pending = none →
        ∃ t, exec (.commit i) s = .next t ∧ t.cfg.target = s.cfg.pending ∧ t.cfg.commit.isSome = true) ∧
      (Served i 0x41 s → leAt (reqOf s i).payload 4 1 = 1 → leAt (reqOf s i).payload 0 4 % 4 = 0 → leAt (reqOf s i).payload 0 4 + 4 ≤ 0xC00000 →
        MemSound s → ∃ t, exec (.poke i) s = .next t ∧ t.cfg = s.cfg ∧ t.chans = s.chans ∧ getBytes (leAt (reqOf s i).payload 0 4)
          (wordBytes (wordList (reqOf s i).payload)).length t.sram = wordBytes (wordList (reqOf s i).payload)) ∧
      (Served i 0x50 s → testStatus (leAt (reqOf s i).payload 0 2) (leAt (reqOf s i).payload 2 2) (reqOf s i).force ((reqOf s i).payload.drop 4) s = stOk →
        exec (.selfTest i) s = .next (reply i (reqOf s i) stAccepted (le 4 s.tests.next) (startTest (leAt (reqOf s i).payload 0 2)
          (leAt (reqOf s i).payload 2 2) (leAt ((reqOf s i).payload.drop 4) 0 4) (reqOf s i).force (take i s)))) ∧
      (∀ k : Nat, Served i 0x52 s → unlocked s.cfg.active = true → k < 65 →
        injectorOf s.cfg.active (leAt (reqOf s i).payload 0 2) (leAt (reqOf s i).payload 2 1) = some k → leAt (reqOf s i).payload 3 1 = 1 →
        leAt (reqOf s i).payload 4 1 = 0 → leAt (reqOf s i).payload 8 4 ≤ 1000000 →
        ∃ t, exec (.inject i) s = .next t ∧ (t.inj k).action = 1 ∧ (t.inj k).mode = 0 ∧ (t.inj k).ppm = leAt (reqOf s i).payload 8 4) ∧
      (Served i 0x60 s → updateArgsBad (leAt (reqOf s i).payload 0 4) (leAt (reqOf s i).payload 4 4) s = false → exec (.fwUpdateBegin i) s =
        .next (reply i (reqOf s i) stOk [] (beginUpdate (leAt (reqOf s i).payload 0 4) (leAt (reqOf s i).payload 4 4) (take i s)))) ∧
      (Served i 0x61 s → updateData (leAt (reqOf s i).payload 0 4) ((reqOf s i).payload.drop 4) s = true → ∃ t, exec (.fwUpdateData i) s = .next t ∧
        t.store.updBank.bytes = s.store.updBank.bytes ++ (reqOf s i).payload.drop 4) ∧
      (Served i 0x62 s → s.store.updLen ≠ 0 → s.store.updLen ≤ s.store.updGot → imageGood (leAt (reqOf s i).payload 0 4) s.store = true →
        exec (.fwUpdateEnd i true true) s = .next (resetAfter i (reply i (reqOf s i) stOk [] (commitUpdate (take i s))))) ∧
      (∀ h : Nat × List Byte, s.spi.held.find? (·.1 == i) = some h → s.keeper.halted = false → (s.spi.rspReady &&& bit4 i) = 0 → s.keeper.resetWait ≠ some i →
        exec (.heldResponseWrite i) s = .next (deliverSpi i h.2 { s with spi := { s.spi with held := s.spi.held.erase h } }))) ∧
    (∀ (addr port : Nat) (p : List Byte), firmwareRuns s = true → s.keeper.cfgLoaded = true → heldFor s 0 = false → 20 ≤ p.length → leAt p 0 1 = 0 →
      leAt p 1 1 = 1 → (s.spi.reqBusy &&& bit4 0) = 0 → (s.spi.rspReady &&& bit4 0) = 0 → leAt (p.drop 4) 6 2 ≤ 240 → (p.drop 4).length = 16 + leAt (p.drop 4) 6 2 →
      ∃ t, exec (.hostDatagram addr port s.cfg.active.nmAddr (s.nat 0x01 0 3) p) s = .next t ∧ t.spi.posted = s.spi.posted ++ [0] ∧
        t.spi.lastUdp = some (addr, port) ∧ t.chans = s.chans) ∧
    (windowLive s = true → ∀ (a n : Nat) (b : Byte) (v : Word),
      exec (.spiUnknownInstruction b) s = .next (spiErr 1 { s with spi := { s.spi with sdo := [0] } }) ∧
      exec (.spiWriteUnmapped a b) s = .next (spiErr 1 s) ∧
      (4 ≤ n → exec (.registerWrite 0x1C n v) s = .next { s with spi := { s.spi with irqMask := v &&& 0xFFF } }) ∧
      (0x400 ≤ a → a < 0x800 → exec (.mailboxByteWrite a b) s = .next { s with spi := { s.spi with mem := SMap.put 0 a b s.spi.mem } }) ∧
      (s.keeper.dev ≠ .standby → exec (.doorbell v) s = .next (forUnits 4 (fun i s => if v.getLsbD i then ring i s else s) s)) ∧
      exec (.rspReadyRelease v) s = .next { s with spi := { s.spi with rspReady := s.spi.rspReady &&& ~~~(BitVec.ofNat 4 (v.toNat / 256)) } } ∧
      exec (.irqStatusClear v) s = .next { s with spi := { s.spi with irqStatus := s.spi.irqStatus &&& ~~~v } } ∧
      exec (.emuteRegisterWrite v) s = .next { s with spi := { s.spi with emute := v.getLsbD 0 } } ∧
      exec (.spiErrRead 4) s = .next { s with spi := { s.spi with sdo := le 4 s.spi.errCount, errCount := 0 } } ∧
      (s.keeper.stage = 2 ∨ s.keeper.stage = 0xE →
        (s.keeper.imgCount < bankSize → ∃ t, exec (.imagePortWrite b) s = .next t ∧ t.keeper.img = s.keeper.img ++ [b] ∧ t.keeper.imgState = 1) ∧
        exec .imgClear s = .next { s with keeper := { s.keeper with img := [], imgCount := 0, imgState := 0 } } ∧
        (s.keeper.imgCount ≤ bankSize → fwHeadOk s.keeper.img = true → ∃ t, exec .imgGo s = .next t ∧ t.keeper.stage = 6 ∧ t.keeper.fwBytes = s.keeper.img))) ∧
    (∀ b : Bool, s.power.islandReset = true → ∃ t, exec (.powerOnReset b) s = .next t ∧ t.power.islandReset = false ∧ t.keeper.dev = .boot ∧ t.keeper.cause = 0) ∧
    (s.power.islandReset = false →
      (∃ t, exec .keeperIslandReset s = .next t ∧ t.power.islandReset = true ∧ t.keeper.dev = .boot) ∧
      (s.power.resetN = true → ∃ t, exec .resetNAssert s = .next t ∧ t.power.resetN = false ∧ t.keeper.dev = .boot ∧ t.keeper.cause = 1) ∧
      (∀ b : Bool, s.power.resetN = false → s.power.pll = true → ∃ t, exec (.resetNRelease b) s = .next t ∧ t.power.resetN = true ∧ t.keeper.strapBoot = b ∧
        t.keeper.stage = 1) ∧
      (∀ v : Rat, s.power.warn = true → s.power.warnV + 1/2 ≤ v → ∃ t, exec (.busDip v) s = .next t ∧ t.power.warn = false) ∧
      (s.power.ov = false → exec .busOv s = .next { s with power := { s.power with ov := true, ovLong := false } }) ∧
      (s.power.ov = true → s.power.ovLong = false → s.keeper.dev = .run → ∃ t, exec .busOvLong s = .next t ∧ t.keeper.dev = .safe ∧ t.power.falling = true) ∧
      (s.power.ov = true → ∃ t, exec .overVoltageClear s = .next t ∧ t.power.ov = false) ∧
      (∃ t, exec .busReversed s = .next t ∧ t.power.pump = false ∧ t.power.reversed = true) ∧
      exec .reverseCurrentBlock s = .next { s with power := { s.power with pump := false } } ∧
      exec .gateRsAboveVbus s = .next { s with power := { s.power with pump := true, reversed := false } }) ∧
    (watchdogCounts s = true → ∃ t, exec .watchdogExpiry s = .next t ∧ t.keeper.dev = .boot ∧ t.keeper.cause = 2) ∧
    (∀ v : Rat, busRules s = true → s.power.warn = false → v ≤ s.power.warnV + warnBand s → ∃ t, exec (.busWarn v) s = .next t ∧ t.power.warn = true ∧ t.store.lastPending = true) ∧
    (s.power.falling = true → allSilent s = true → ∃ t, exec .brownoutSilent s = .next t ∧ t.power.falling = false ∧ ∀ c : Nat, c < 208 → (t.chan c).fsm.state = .off) ∧
    (∀ a b : Nat, s.store.lastPending = true → canLog s = true → busRules s = true → flashOn s = true → ∃ t, exec (.lastRecord a b) s = .next t ∧ t.keeper.dev = .safe) ∧
    (s.keeper.dev = .safe → s.power.dipped = true → s.power.warn = false → s.flag 0x01 0 0 = true → s.power.ov = false → s.misc.junctionHot = false →
      s.keeper.halted = false → s.store.lastPending = false → ∃ t, exec .busRecovery s = .next t ∧ t.keeper.dev = .run ∧ t.keeper.safeCauses = [])

/-- Each event of the supply sequence, the boot, the Keeper and its sensors, a commit without a twin agreement, the
ceiling path and the start of a rail controller answers a next state with its own effect, for every state that meets
the conditions of its normal execution: the step of the sequence or of the boot that it belongs to, the Keeper not
halted where it acts, and operands in range. JUNCTION_SHUTDOWN rests on the limit that log entry 65 leaves free, the
filter times of RSEL on their longest. -/
def Obligations.SupplyBootCommitAndStartRowsComplete : Prop :=
  ∀ s : State,
    (s.power.islandReset = false → s.power.resetN = true → s.power.pll = false → ∃ t, exec .keeperPllLock s = .next t ∧ t.power.pll = true ∧ t.keeper.stage = 1) ∧
    (∀ (b : Bool) (n : Nat), s.power.seqActive = true → 5 ≤ s.power.seqStep → ∃ t, exec (.pwrPgHigh b n) s = .next t ∧ t.power.seqDone = true) ∧
    (s.power.seqActive = true → ∃ t, exec .pgTimeout s = .next t ∧ t.power.pwrEn = 0 ∧ t.power.seqActive = false) ∧
    (s.power.seqDone = true → ∃ t, exec .pgLost s = .next t ∧ t.power.pwrEn = 0 ∧ t.power.seqDone = false) ∧
    (s.power.retryWait = true → ∃ t, exec .sequenceRetry s = .next t ∧ t.power.pwrEn = 1 ∧ t.power.seqActive = true) ∧
    (s.power.seqDone = true → s.keeper.stage = 3 → s.keeper.strapBoot = true → s.keeper.halted = false → ∃ t, exec (.romBankSelect (some 64)) s = .next t ∧ t.keeper.stage = 2) ∧
    (s.keeper.stage = 4 → s.keeper.halted = false → fwBodyOk s.store.fwA.bytes = true → ∃ t, exec .firmwareStart s = .next t ∧ t.keeper.stage = 6 ∧ t.keeper.fwBytes = s.store.fwA.bytes) ∧
    (s.power.seqDone = true → s.keeper.stage = 6 → s.media.locked = false → s.keeper.halted = false → ∃ t, exec .mediaPllLock s = .next t ∧ t.media.locked = true ∧ t.media.index = 0) ∧
    (∀ (d : Nat) (vdrv ntc : Rat), d < 4 → s.media.locked = true → s.keeper.stage = 6 → s.keeper.halted = false → (s.dsd d).released = false → (s.dsd d).failed = false →
      vdrvInWindow (s.keeper.strapDrv / 2 ^ d % 2 == 1) vdrv = true → ∃ t, exec (.dsdBringup d vdrv true true true ntc) s = .next t ∧ (t.dsd d).released = true) ∧
    (s.keeper.stage = 7 → s.keeper.cfgLoaded = false → s.keeper.halted = false → ∃ t, exec .configLoad s = .next t ∧ t.keeper.cfgLoaded = true ∧
      t.cfg.pending = t.cfg.active ∧ t.cfg.target = t.cfg.active) ∧
    (s.keeper.halted = false → s.keeper.stage = 7 → s.keeper.cfgLoaded = true → ∃ t, exec .mailboxReady s = .next t ∧ t.cfg = s.cfg ∧
      t.keeper.dev = (if s.flag 0x01 0 0 then .run else .ready)) ∧
    (∀ (n : Nat) (frame : List Byte), s.keeper.dev = .standby → n < 8 → s.nat 0x02 0 7 / 2 ^ n % 2 = 1 → s.keeper.waking = false → wakeMatch s n frame = true →
      ∃ t, exec (.wakePatternMatch frame true) s = .next t ∧ t.keeper.wakeHeld = true) ∧
    (s.keeper.dev = .standby → s.keeper.waking = false → s.nat 0x01 0 2 ≠ 0 → exec .standbyWakeTimer s = .next { s with keeper := { s.keeper with wakeHeld := true } }) ∧
    (s.keeper.dev = .standby → s.keeper.wakeHeld = true → s.keeper.waking = false → s.keeper.halted = false → ∃ t, exec .wake s = .next t ∧ t.keeper.waking = true ∧
      t.keeper.stage = 1) ∧
    (s.power.islandReset = false → s.power.resetN = true → s.keeper.halted = false → exec .keeperHalt s = .next { s with keeper := { s.keeper with halted := true } }) ∧
    (s.keeper.halted = true → ∃ t, exec .keeperResume s = .next t ∧ t.keeper.halted = false ∧ t.spi.irqWait = 0) ∧
    (firmwareRuns s = true → ∃ t, exec .heartbeat s = .next t ∧ t.keeper.heartbeat = s.keeper.heartbeat + 1 ∧ t.keeper.counterUs = s.keeper.counterUs + 1000) ∧
    (keeperFree s = true → ∃ t, exec .statusRefresh s = .next t ∧ t = refresh s) ∧
    (∀ (die : Nat) (c : Rat), die < 5 → junctionLimit < c → s.power.islandReset = false → s.power.seqDone = true → s.misc.junctionHot = false → s.keeper.dev = .run →
      ∃ t, exec (.junctionShutdown die c) s = .next t ∧ t.keeper.dev = .safe ∧ t.power.falling = true) ∧
    (∀ (die : Nat) (c : Rat), canLog s = true → s.misc.junctionEp = false → s.ratv 0x01 0 0xB ≤ c → ∃ t, exec (.junctionWarn die c) s = .next t ∧
      t.misc.junctionEp = true ∧ Raised 0x900B die [wordS (10 * c)] s t) ∧
    (∀ (l m x g : List Rat) (v : Rat), firmwareRuns s = true → s.keeper.counterUs < s.misc.secondAt → ∃ t, exec (.keeperSensorSample l v m x g) s = .next t ∧
      t.power.vbus = v ∧ t.misc.junction = l) ∧
    (∀ (c : Commit) (u : UnitPlan), s.cfg.commit = some c → c.epoch = none → s.keeper.halted = false → c.units.find? (fun v => !v.armed) = some u →
      stoppedForUnit s u.unit = true → ∃ c' t, exec .unitArm s = .next t ∧ Quiet { s with cfg := { s.cfg with commit := some c' } } t ∧
        c'.units = c.units.map (fun v => if v.unit = u.unit then { v with armed := true } else v)) ∧
    (∀ (c : Commit) (u : UnitPlan), s.cfg.commit = some c → s.media.locked = true → s.media.halted = false → c.units.find? (c.due (winK s)) = some u →
      c.first.isSome = true → u.armed = true → stoppedForUnit s u.unit = true → ∃ t, exec .unitSwitch s = .next t ∧ t.cfg.active = copyUnit s.cfg.target u.unit s.cfg.active) ∧
    (∀ (c : Nat) (x : XFade), (s.chan c).dsp.xf = some x → 1024 ≤ x.i → c < 208 → ∃ t, exec (.crossfadeEnd c) s = .next t ∧
      (t.chan c).dsp = { (s.chan c).dsp with xf := none }) ∧
    (∀ c : Commit, s.cfg.commit = some c → s.keeper.halted = false → commitOver s c = true → ∃ t, exec .commitDone s = .next t ∧ t.cfg.active = s.cfg.target ∧
      t.cfg.commit = none) ∧
    (∀ (n : Nat) (ok : Bool), s.cfg.storePending = some n → keeperFree s = true → flashOn s = true → s.keeper.dev ≠ .standby → s.store.lastPending = false →
      ∃ t, exec (.cfgStore ok) s = .next t ∧ cfgBankOf t.store (storeBank s.store) = ⟨if ok then 0xA5 else 0xFF, storeSeq s.store, word s.twin.epoch, s.cfg.whole⟩) ∧
    (∀ row us : Nat, 2000 ≤ us → (s.power.seqDone = true → ∃ t, exec (.rselFilterRail row us) s = .next t ∧ t.misc.rselRail = min row 7) ∧
      (s.media.locked = true → exec (.rselFilterDsp row us) s = .next { s with misc := { s.misc with rselDsp := min row 7 } })) ∧
    (∀ rc : Nat, rc < 12 →
      (∀ v : Rat, s.media.locked = true → ∃ t, exec (.ceilingTermsRefresh rc v) s = .next t ∧
        t.rail rc = { s.rail rc with dFaultDsp := (s.rail rc).dFaultRail, dTempDsp := (s.rail rc).dTempRail, vRail := v }) ∧
      (∀ row : Nat, canLog s = true → ∃ t, exec (.keeperCeilingWrite rc row) s = .next t ∧
        (t.rail rc).cKeepGoal = min row (if groupFallback s rc then (fallbackRow? s.cfg.active rc).getD 7 else 7)) ∧
      ((s.rail rc).secondDue = true → s.keeper.halted = false → ∃ t, exec (.cKeeperSecondWrite rc) s = .next t ∧ (t.rail rc).cKeepRail = (s.rail rc).cKeepGoal ∧
        (t.rail rc).cKeepDsp = (s.rail rc).cKeepGoal) ∧
      ((s.rail rc).state = .regulating → (s.dsd (rc / 3)).linked = true → ∃ t, exec (.railSelectionApply rc) s = .next t ∧
        (t.rail rc).row = min (s.rail rc).sent (cEffRail s rc)) ∧
      ((s.rail rc).due = true → (s.rail rc).test = 0 → (s.rail rc).state = .off → railMayStart s rc = true → ∃ t, exec (.railStart rc) s = .next t ∧ (t.rail rc).state = .check ∧
        (t.rail rc).check = 0) ∧
      (∀ v : Rat, 9 ≤ v → v ≤ 60 → (s.rail rc).state = .check → (s.rail rc).check = 0 → ∃ t, exec (.vinEntersRange rc v) s = .next t ∧ (t.rail rc).check = 1) ∧
      (∀ isx vis vos rise : Rat, (s.rail rc).state = .check → (s.rail rc).check = 1 → isx < 1 → ∃ t, exec (.railPrecheck rc isx vis vos rise) s = .next t ∧ (t.rail rc).check = 2) ∧
      (∀ v ms : Rat, (s.rail rc).state = .softStart → (s.rail rc).stopReq = false → (s.rail rc).ref = (s.rail rc).setpoint 0 → rampMs s rc + 1 ≤ ms → absRat (v - (s.rail rc).setpoint 0) ≤ (s.rail rc).setpoint 0 * 3/100 →
        ∃ t, exec (.railRegulating rc v ms) s = .next t ∧ (t.rail rc).state = .regulating) ∧
      (∀ v ms : Rat, (s.rail rc).state = .softStart → rampMs s rc + 2 ≤ ms → v < (s.rail rc).setpoint 0 / 4 → ∃ t, exec (.startShort rc v ms) s = .next t ∧ (t.rail rc).code = 0x7003) ∧
      (∀ v ms : Rat, (s.rail rc).state = .softStart → rampMs s rc + 20 ≤ ms → ∃ t, exec (.startTimeout rc v ms) s = .next t ∧ (t.rail rc).code = 0x7004) ∧
      ((s.rail rc).state = .retryWait → railMayStart s rc = true → (s.rail rc).cyc.stoppedAt + 1000 * (s.rail rc).cyc.retryMs ≤ s.keeper.counterUs →
        ∃ t, exec (.railRetry rc) s = .next t ∧ (t.rail rc).state = .check ∧ (t.rail rc).attempts = (s.rail rc).attempts + 1))
end

