-- ==== Sys2Proof/Laws/Bytes.lean ====
section
/-! SUPPORT. Laws of the byte order: a number written as little-endian bytes reads back. -/

namespace Sys2Proof.Machine

theorem le_length (n v : Nat) : (le n v).length = n := by simp [le]

theorem le_succ (n v : Nat) : le (n + 1) v = BitVec.ofNat 8 v :: le n (v / 256) := by
  unfold le
  rw [List.range_succ_eq_map]
  simp [Nat.div_div_eq_div_mul, Nat.pow_succ, Nat.mul_comm]

/-- Little-endian bytes read back as the number that was written, where it fits. -/
theorem ofLe_le : ∀ n v : Nat, v < 256 ^ n → ofLe (le n v) = v := by
  intro n
  induction n with
  | zero => intro v h; simp [le, ofLe] at *; omega
  | succ n ih =>
    intro v h
    rw [le_succ]
    show (BitVec.ofNat 8 v).toNat + 256 * ofLe (le n (v / 256)) = v
    rw [ih _ (by rw [Nat.pow_succ] at h; omega), BitVec.toNat_ofNat]
    omega

/-- A number behind `a` reads at offset `a.length`. -/
theorem leAt_append {a : List Byte} {o : Nat} (n v : Nat) (b : List Byte) (ho : a.length = o) (hv : v < 256 ^ n) :
    leAt (a ++ (le n v ++ b)) o n = v := by
  subst ho
  unfold leAt sub
  rw [List.drop_left, List.take_left' (le_length n v)]
  exact ofLe_le n v hv

end Sys2Proof.Machine
end

