-- ==== Sys2Proof/Laws/State.lean ====
section
/-! SUPPORT. Laws of the updates of one unit: every other field of the state stands, by reflexivity. -/

namespace Sys2Proof.Machine

@[simp] theorem State.setChan_frame (s : State) (c : Nat) (v : Chan) :
    (State.setChan s c v).keeper = s.keeper ∧ (State.setChan s c v).power = s.power ∧ (State.setChan s c v).spi = s.spi ∧ (State.setChan s c v).cfg = s.cfg ∧
    (State.setChan s c v).log = s.log ∧ (State.setChan s c v).store = s.store ∧ (State.setChan s c v).counters = s.counters ∧ (State.setChan s c v).status = s.status ∧
    (State.setChan s c v).ports = s.ports ∧ (State.setChan s c v).ptp = s.ptp ∧ (State.setChan s c v).streams = s.streams ∧ (State.setChan s c v).mons = s.mons ∧
    (State.setChan s c v).tdms = s.tdms ∧ (State.setChan s c v).media = s.media ∧ (State.setChan s c v).dsds = s.dsds ∧ (State.setChan s c v).rails = s.rails ∧
    (State.setChan s c v).pwm = s.pwm ∧ (State.setChan s c v).twin = s.twin ∧ (State.setChan s c v).tests = s.tests ∧ (State.setChan s c v).misc = s.misc ∧
    (State.setChan s c v).sram = s.sram ∧ (State.setChan s c v).regs = s.regs ∧ (State.setChan s c v).free = s.free ∧ (State.setChan s c v).pending = s.pending := by
  and_intros <;> rfl

@[simp] theorem State.modChan_frame (s : State) (c : Nat) (f : Chan → Chan) :
    (State.modChan s c f).keeper = s.keeper ∧ (State.modChan s c f).power = s.power ∧ (State.modChan s c f).spi = s.spi ∧ (State.modChan s c f).cfg = s.cfg ∧
    (State.modChan s c f).log = s.log ∧ (State.modChan s c f).store = s.store ∧ (State.modChan s c f).counters = s.counters ∧ (State.modChan s c f).status = s.status ∧
    (State.modChan s c f).ports = s.ports ∧ (State.modChan s c f).ptp = s.ptp ∧ (State.modChan s c f).streams = s.streams ∧ (State.modChan s c f).mons = s.mons ∧
    (State.modChan s c f).tdms = s.tdms ∧ (State.modChan s c f).media = s.media ∧ (State.modChan s c f).dsds = s.dsds ∧ (State.modChan s c f).rails = s.rails ∧
    (State.modChan s c f).pwm = s.pwm ∧ (State.modChan s c f).twin = s.twin ∧ (State.modChan s c f).tests = s.tests ∧ (State.modChan s c f).misc = s.misc ∧
    (State.modChan s c f).sram = s.sram ∧ (State.modChan s c f).regs = s.regs ∧ (State.modChan s c f).free = s.free ∧ (State.modChan s c f).pending = s.pending := by
  and_intros <;> rfl

@[simp] theorem State.modDsd_frame (s : State) (d : Nat) (f : Dsd → Dsd) :
    (State.modDsd s d f).keeper = s.keeper ∧ (State.modDsd s d f).power = s.power ∧ (State.modDsd s d f).spi = s.spi ∧ (State.modDsd s d f).cfg = s.cfg ∧
    (State.modDsd s d f).log = s.log ∧ (State.modDsd s d f).store = s.store ∧ (State.modDsd s d f).counters = s.counters ∧ (State.modDsd s d f).status = s.status ∧
    (State.modDsd s d f).ports = s.ports ∧ (State.modDsd s d f).ptp = s.ptp ∧ (State.modDsd s d f).streams = s.streams ∧ (State.modDsd s d f).mons = s.mons ∧
    (State.modDsd s d f).tdms = s.tdms ∧ (State.modDsd s d f).media = s.media ∧ (State.modDsd s d f).chans = s.chans ∧ (State.modDsd s d f).rails = s.rails ∧
    (State.modDsd s d f).pwm = s.pwm ∧ (State.modDsd s d f).twin = s.twin ∧ (State.modDsd s d f).tests = s.tests ∧ (State.modDsd s d f).misc = s.misc ∧
    (State.modDsd s d f).sram = s.sram ∧ (State.modDsd s d f).regs = s.regs ∧ (State.modDsd s d f).free = s.free ∧ (State.modDsd s d f).pending = s.pending := by
  and_intros <;> rfl

@[simp] theorem State.modRail_frame (s : State) (r : Nat) (f : Rail → Rail) :
    (State.modRail s r f).keeper = s.keeper ∧ (State.modRail s r f).power = s.power ∧ (State.modRail s r f).spi = s.spi ∧ (State.modRail s r f).cfg = s.cfg ∧
    (State.modRail s r f).log = s.log ∧ (State.modRail s r f).store = s.store ∧ (State.modRail s r f).counters = s.counters ∧ (State.modRail s r f).status = s.status ∧
    (State.modRail s r f).ports = s.ports ∧ (State.modRail s r f).ptp = s.ptp ∧ (State.modRail s r f).streams = s.streams ∧ (State.modRail s r f).mons = s.mons ∧
    (State.modRail s r f).tdms = s.tdms ∧ (State.modRail s r f).media = s.media ∧ (State.modRail s r f).chans = s.chans ∧ (State.modRail s r f).dsds = s.dsds ∧
    (State.modRail s r f).pwm = s.pwm ∧ (State.modRail s r f).twin = s.twin ∧ (State.modRail s r f).tests = s.tests ∧ (State.modRail s r f).misc = s.misc ∧
    (State.modRail s r f).sram = s.sram ∧ (State.modRail s r f).regs = s.regs ∧ (State.modRail s r f).free = s.free ∧ (State.modRail s r f).pending = s.pending := by
  and_intros <;> rfl

@[simp] theorem State.modStream_frame (s : State) (i : Nat) (f : Stream → Stream) :
    (State.modStream s i f).keeper = s.keeper ∧ (State.modStream s i f).power = s.power ∧ (State.modStream s i f).spi = s.spi ∧ (State.modStream s i f).cfg = s.cfg ∧
    (State.modStream s i f).log = s.log ∧ (State.modStream s i f).store = s.store ∧ (State.modStream s i f).counters = s.counters ∧ (State.modStream s i f).status = s.status ∧
    (State.modStream s i f).ports = s.ports ∧ (State.modStream s i f).ptp = s.ptp ∧ (State.modStream s i f).mons = s.mons ∧ (State.modStream s i f).tdms = s.tdms ∧
    (State.modStream s i f).media = s.media ∧ (State.modStream s i f).chans = s.chans ∧ (State.modStream s i f).dsds = s.dsds ∧ (State.modStream s i f).rails = s.rails ∧
    (State.modStream s i f).pwm = s.pwm ∧ (State.modStream s i f).twin = s.twin ∧ (State.modStream s i f).tests = s.tests ∧ (State.modStream s i f).misc = s.misc ∧
    (State.modStream s i f).sram = s.sram ∧ (State.modStream s i f).regs = s.regs ∧ (State.modStream s i f).free = s.free ∧ (State.modStream s i f).pending = s.pending := by
  and_intros <;> rfl

@[simp] theorem State.modMon_frame (s : State) (j : Nat) (f : Mon → Mon) :
    (State.modMon s j f).keeper = s.keeper ∧ (State.modMon s j f).power = s.power ∧ (State.modMon s j f).spi = s.spi ∧ (State.modMon s j f).cfg = s.cfg ∧
    (State.modMon s j f).log = s.log ∧ (State.modMon s j f).store = s.store ∧ (State.modMon s j f).counters = s.counters ∧ (State.modMon s j f).status = s.status ∧
    (State.modMon s j f).ports = s.ports ∧ (State.modMon s j f).ptp = s.ptp ∧ (State.modMon s j f).streams = s.streams ∧ (State.modMon s j f).tdms = s.tdms ∧
    (State.modMon s j f).media = s.media ∧ (State.modMon s j f).chans = s.chans ∧ (State.modMon s j f).dsds = s.dsds ∧ (State.modMon s j f).rails = s.rails ∧
    (State.modMon s j f).pwm = s.pwm ∧ (State.modMon s j f).twin = s.twin ∧ (State.modMon s j f).tests = s.tests ∧ (State.modMon s j f).misc = s.misc ∧
    (State.modMon s j f).sram = s.sram ∧ (State.modMon s j f).regs = s.regs ∧ (State.modMon s j f).free = s.free ∧ (State.modMon s j f).pending = s.pending := by
  and_intros <;> rfl

@[simp] theorem State.modTdm_frame (s : State) (x : Nat) (f : Tdm → Tdm) :
    (State.modTdm s x f).keeper = s.keeper ∧ (State.modTdm s x f).power = s.power ∧ (State.modTdm s x f).spi = s.spi ∧ (State.modTdm s x f).cfg = s.cfg ∧
    (State.modTdm s x f).log = s.log ∧ (State.modTdm s x f).store = s.store ∧ (State.modTdm s x f).counters = s.counters ∧ (State.modTdm s x f).status = s.status ∧
    (State.modTdm s x f).ports = s.ports ∧ (State.modTdm s x f).ptp = s.ptp ∧ (State.modTdm s x f).streams = s.streams ∧ (State.modTdm s x f).mons = s.mons ∧
    (State.modTdm s x f).media = s.media ∧ (State.modTdm s x f).chans = s.chans ∧ (State.modTdm s x f).dsds = s.dsds ∧ (State.modTdm s x f).rails = s.rails ∧
    (State.modTdm s x f).pwm = s.pwm ∧ (State.modTdm s x f).twin = s.twin ∧ (State.modTdm s x f).tests = s.tests ∧ (State.modTdm s x f).misc = s.misc ∧
    (State.modTdm s x f).sram = s.sram ∧ (State.modTdm s x f).regs = s.regs ∧ (State.modTdm s x f).free = s.free ∧ (State.modTdm s x f).pending = s.pending := by
  and_intros <;> rfl

@[simp] theorem State.modPort_frame (s : State) (p : Nat) (f : Port → Port) :
    (State.modPort s p f).keeper = s.keeper ∧ (State.modPort s p f).power = s.power ∧ (State.modPort s p f).spi = s.spi ∧ (State.modPort s p f).cfg = s.cfg ∧
    (State.modPort s p f).log = s.log ∧ (State.modPort s p f).store = s.store ∧ (State.modPort s p f).counters = s.counters ∧ (State.modPort s p f).status = s.status ∧
    (State.modPort s p f).ptp = s.ptp ∧ (State.modPort s p f).streams = s.streams ∧ (State.modPort s p f).mons = s.mons ∧ (State.modPort s p f).tdms = s.tdms ∧
    (State.modPort s p f).media = s.media ∧ (State.modPort s p f).chans = s.chans ∧ (State.modPort s p f).dsds = s.dsds ∧ (State.modPort s p f).rails = s.rails ∧
    (State.modPort s p f).pwm = s.pwm ∧ (State.modPort s p f).twin = s.twin ∧ (State.modPort s p f).tests = s.tests ∧ (State.modPort s p f).misc = s.misc ∧
    (State.modPort s p f).sram = s.sram ∧ (State.modPort s p f).regs = s.regs ∧ (State.modPort s p f).free = s.free ∧ (State.modPort s p f).pending = s.pending := by
  and_intros <;> rfl

@[simp] theorem State.modInj_frame (s : State) (i : Nat) (f : Injector → Injector) :
    (State.modInj s i f).keeper = s.keeper ∧ (State.modInj s i f).power = s.power ∧ (State.modInj s i f).spi = s.spi ∧ (State.modInj s i f).cfg = s.cfg ∧
    (State.modInj s i f).log = s.log ∧ (State.modInj s i f).store = s.store ∧ (State.modInj s i f).counters = s.counters ∧ (State.modInj s i f).status = s.status ∧
    (State.modInj s i f).ports = s.ports ∧ (State.modInj s i f).ptp = s.ptp ∧ (State.modInj s i f).streams = s.streams ∧ (State.modInj s i f).mons = s.mons ∧
    (State.modInj s i f).tdms = s.tdms ∧ (State.modInj s i f).media = s.media ∧ (State.modInj s i f).chans = s.chans ∧ (State.modInj s i f).dsds = s.dsds ∧
    (State.modInj s i f).rails = s.rails ∧ (State.modInj s i f).pwm = s.pwm ∧ (State.modInj s i f).twin = s.twin ∧ (State.modInj s i f).misc = s.misc ∧
    (State.modInj s i f).sram = s.sram ∧ (State.modInj s i f).regs = s.regs ∧ (State.modInj s i f).free = s.free ∧ (State.modInj s i f).pending = s.pending := by
  and_intros <;> rfl

@[simp] theorem State.modPwmCh_frame (s : State) (k : Nat) (f : PwmCh → PwmCh) :
    (State.modPwmCh s k f).keeper = s.keeper ∧ (State.modPwmCh s k f).power = s.power ∧ (State.modPwmCh s k f).spi = s.spi ∧ (State.modPwmCh s k f).cfg = s.cfg ∧
    (State.modPwmCh s k f).log = s.log ∧ (State.modPwmCh s k f).store = s.store ∧ (State.modPwmCh s k f).counters = s.counters ∧ (State.modPwmCh s k f).status = s.status ∧
    (State.modPwmCh s k f).ports = s.ports ∧ (State.modPwmCh s k f).ptp = s.ptp ∧ (State.modPwmCh s k f).streams = s.streams ∧ (State.modPwmCh s k f).mons = s.mons ∧
    (State.modPwmCh s k f).tdms = s.tdms ∧ (State.modPwmCh s k f).media = s.media ∧ (State.modPwmCh s k f).chans = s.chans ∧ (State.modPwmCh s k f).dsds = s.dsds ∧
    (State.modPwmCh s k f).rails = s.rails ∧ (State.modPwmCh s k f).twin = s.twin ∧ (State.modPwmCh s k f).tests = s.tests ∧ (State.modPwmCh s k f).misc = s.misc ∧
    (State.modPwmCh s k f).sram = s.sram ∧ (State.modPwmCh s k f).regs = s.regs ∧ (State.modPwmCh s k f).free = s.free ∧ (State.modPwmCh s k f).pending = s.pending := by
  and_intros <;> rfl

@[simp] theorem State.modFsm_frame (s : State) (c : Nat) (f : Fsm → Fsm) :
    (State.modFsm s c f).keeper = s.keeper ∧ (State.modFsm s c f).power = s.power ∧ (State.modFsm s c f).spi = s.spi ∧ (State.modFsm s c f).cfg = s.cfg ∧
    (State.modFsm s c f).log = s.log ∧ (State.modFsm s c f).store = s.store ∧ (State.modFsm s c f).counters = s.counters ∧ (State.modFsm s c f).status = s.status ∧
    (State.modFsm s c f).ports = s.ports ∧ (State.modFsm s c f).ptp = s.ptp ∧ (State.modFsm s c f).streams = s.streams ∧ (State.modFsm s c f).mons = s.mons ∧
    (State.modFsm s c f).tdms = s.tdms ∧ (State.modFsm s c f).media = s.media ∧ (State.modFsm s c f).dsds = s.dsds ∧ (State.modFsm s c f).rails = s.rails ∧
    (State.modFsm s c f).pwm = s.pwm ∧ (State.modFsm s c f).twin = s.twin ∧ (State.modFsm s c f).tests = s.tests ∧ (State.modFsm s c f).misc = s.misc ∧
    (State.modFsm s c f).sram = s.sram ∧ (State.modFsm s c f).regs = s.regs ∧ (State.modFsm s c f).free = s.free ∧ (State.modFsm s c f).pending = s.pending := by
  and_intros <;> rfl

@[simp] theorem State.modLoop_frame (s : State) (c : Nat) (f : Loop → Loop) :
    (State.modLoop s c f).keeper = s.keeper ∧ (State.modLoop s c f).power = s.power ∧ (State.modLoop s c f).spi = s.spi ∧ (State.modLoop s c f).cfg = s.cfg ∧
    (State.modLoop s c f).log = s.log ∧ (State.modLoop s c f).store = s.store ∧ (State.modLoop s c f).counters = s.counters ∧ (State.modLoop s c f).status = s.status ∧
    (State.modLoop s c f).ports = s.ports ∧ (State.modLoop s c f).ptp = s.ptp ∧ (State.modLoop s c f).streams = s.streams ∧ (State.modLoop s c f).mons = s.mons ∧
    (State.modLoop s c f).tdms = s.tdms ∧ (State.modLoop s c f).media = s.media ∧ (State.modLoop s c f).dsds = s.dsds ∧ (State.modLoop s c f).rails = s.rails ∧
    (State.modLoop s c f).pwm = s.pwm ∧ (State.modLoop s c f).twin = s.twin ∧ (State.modLoop s c f).tests = s.tests ∧ (State.modLoop s c f).misc = s.misc ∧
    (State.modLoop s c f).sram = s.sram ∧ (State.modLoop s c f).regs = s.regs ∧ (State.modLoop s c f).free = s.free ∧ (State.modLoop s c f).pending = s.pending := by
  and_intros <;> rfl

@[simp] theorem State.modDsp_frame (s : State) (c : Nat) (f : Dsp → Dsp) :
    (State.modDsp s c f).keeper = s.keeper ∧ (State.modDsp s c f).power = s.power ∧ (State.modDsp s c f).spi = s.spi ∧ (State.modDsp s c f).cfg = s.cfg ∧
    (State.modDsp s c f).log = s.log ∧ (State.modDsp s c f).store = s.store ∧ (State.modDsp s c f).counters = s.counters ∧ (State.modDsp s c f).status = s.status ∧
    (State.modDsp s c f).ports = s.ports ∧ (State.modDsp s c f).ptp = s.ptp ∧ (State.modDsp s c f).streams = s.streams ∧ (State.modDsp s c f).mons = s.mons ∧
    (State.modDsp s c f).tdms = s.tdms ∧ (State.modDsp s c f).media = s.media ∧ (State.modDsp s c f).dsds = s.dsds ∧ (State.modDsp s c f).rails = s.rails ∧
    (State.modDsp s c f).pwm = s.pwm ∧ (State.modDsp s c f).twin = s.twin ∧ (State.modDsp s c f).tests = s.tests ∧ (State.modDsp s c f).misc = s.misc ∧
    (State.modDsp s c f).sram = s.sram ∧ (State.modDsp s c f).regs = s.regs ∧ (State.modDsp s c f).free = s.free ∧ (State.modDsp s c f).pending = s.pending := by
  and_intros <;> rfl

@[simp] theorem State.modModel_frame (s : State) (c : Nat) (f : Model → Model) :
    (State.modModel s c f).keeper = s.keeper ∧ (State.modModel s c f).power = s.power ∧ (State.modModel s c f).spi = s.spi ∧ (State.modModel s c f).cfg = s.cfg ∧
    (State.modModel s c f).log = s.log ∧ (State.modModel s c f).store = s.store ∧ (State.modModel s c f).counters = s.counters ∧ (State.modModel s c f).status = s.status ∧
    (State.modModel s c f).ports = s.ports ∧ (State.modModel s c f).ptp = s.ptp ∧ (State.modModel s c f).streams = s.streams ∧ (State.modModel s c f).mons = s.mons ∧
    (State.modModel s c f).tdms = s.tdms ∧ (State.modModel s c f).media = s.media ∧ (State.modModel s c f).dsds = s.dsds ∧ (State.modModel s c f).rails = s.rails ∧
    (State.modModel s c f).pwm = s.pwm ∧ (State.modModel s c f).twin = s.twin ∧ (State.modModel s c f).tests = s.tests ∧ (State.modModel s c f).misc = s.misc ∧
    (State.modModel s c f).sram = s.sram ∧ (State.modModel s c f).regs = s.regs ∧ (State.modModel s c f).free = s.free ∧ (State.modModel s c f).pending = s.pending := by
  and_intros <;> rfl

@[simp] theorem State.modShare_frame (s : State) (c : Nat) (f : Share → Share) :
    (State.modShare s c f).keeper = s.keeper ∧ (State.modShare s c f).power = s.power ∧ (State.modShare s c f).spi = s.spi ∧ (State.modShare s c f).cfg = s.cfg ∧
    (State.modShare s c f).log = s.log ∧ (State.modShare s c f).store = s.store ∧ (State.modShare s c f).counters = s.counters ∧ (State.modShare s c f).status = s.status ∧
    (State.modShare s c f).ports = s.ports ∧ (State.modShare s c f).ptp = s.ptp ∧ (State.modShare s c f).streams = s.streams ∧ (State.modShare s c f).mons = s.mons ∧
    (State.modShare s c f).tdms = s.tdms ∧ (State.modShare s c f).media = s.media ∧ (State.modShare s c f).dsds = s.dsds ∧ (State.modShare s c f).rails = s.rails ∧
    (State.modShare s c f).pwm = s.pwm ∧ (State.modShare s c f).twin = s.twin ∧ (State.modShare s c f).tests = s.tests ∧ (State.modShare s c f).misc = s.misc ∧
    (State.modShare s c f).sram = s.sram ∧ (State.modShare s c f).regs = s.regs ∧ (State.modShare s c f).free = s.free ∧ (State.modShare s c f).pending = s.pending := by
  and_intros <;> rfl

end Sys2Proof.Machine
end

