-- ==== Sys2Proof/Laws/Frames.lean ====
section
/-! SUPPORT. One frame law for each shared operation: the queue of commands, the window memory, the Keeper SRAM and the configuration
stand, where the operation is not the one that writes them. -/

namespace Sys2Proof.Machine

/-! ### Folds -/

/-- A fold leaves `pending` alone where each of its steps does. -/
theorem foldl_pending {α : Type} {f : State → α → State} (h : ∀ s a, (f s a).pending = s.pending) (l : List α) (s : State) :
    (l.foldl f s).pending = s.pending := by
  induction l generalizing s with
  | nil => rfl
  | cons a l ih => rw [List.foldl_cons, ih, h]
theorem foldl2_pending {α β : Type} {f : β × State → α → β × State} (h : ∀ s a, (f s a).2.pending = s.2.pending) (l : List α)
    (s : β × State) : (l.foldl f s).2.pending = s.2.pending := by
  induction l generalizing s with
  | nil => rfl
  | cons a l ih => rw [List.foldl_cons, ih, h]
@[simp] theorem foldl_keeps_pending {α : Type} {f : State → α → State} (l : List α) (s : State)
    (h : ∀ s a, (f s a).pending = s.pending) : (l.foldl f s).pending = s.pending := foldl_pending h l s
@[simp] theorem forUnits_pending {n : Nat} {f : Nat → State → State} (s : State) (h : ∀ c s, (f c s).pending = s.pending) :
    (forUnits n f s).pending = s.pending := by
  unfold forUnits; exact foldl_pending (fun s c => h c s) _ s
@[simp] theorem forList_pending {l : List Nat} {f : Nat → State → State} (s : State) (h : ∀ c s, (f c s).pending = s.pending) :
    (forList l f s).pending = s.pending := by
  unfold forList; exact foldl_pending (fun s c => h c s) l s
@[simp] theorem ite_pending {p : Prop} [Decidable p] (a b : State) : (if p then a else b).pending = if p then a.pending else b.pending := by
  split <;> rfl

/-- A fold leaves `spi.mem` alone where each of its steps does. -/
theorem foldl_spi_mem {α : Type} {f : State → α → State} (h : ∀ s a, (f s a).spi.mem = s.spi.mem) (l : List α) (s : State) :
    (l.foldl f s).spi.mem = s.spi.mem := by
  induction l generalizing s with
  | nil => rfl
  | cons a l ih => rw [List.foldl_cons, ih, h]
theorem foldl2_spi_mem {α β : Type} {f : β × State → α → β × State} (h : ∀ s a, (f s a).2.spi.mem = s.2.spi.mem) (l : List α)
    (s : β × State) : (l.foldl f s).2.spi.mem = s.2.spi.mem := by
  induction l generalizing s with
  | nil => rfl
  | cons a l ih => rw [List.foldl_cons, ih, h]
@[simp] theorem foldl_keeps_spi_mem {α : Type} {f : State → α → State} (l : List α) (s : State)
    (h : ∀ s a, (f s a).spi.mem = s.spi.mem) : (l.foldl f s).spi.mem = s.spi.mem := foldl_spi_mem h l s
@[simp] theorem forUnits_spi_mem {n : Nat} {f : Nat → State → State} (s : State) (h : ∀ c s, (f c s).spi.mem = s.spi.mem) :
    (forUnits n f s).spi.mem = s.spi.mem := by
  unfold forUnits; exact foldl_spi_mem (fun s c => h c s) _ s
@[simp] theorem forList_spi_mem {l : List Nat} {f : Nat → State → State} (s : State) (h : ∀ c s, (f c s).spi.mem = s.spi.mem) :
    (forList l f s).spi.mem = s.spi.mem := by
  unfold forList; exact foldl_spi_mem (fun s c => h c s) l s
@[simp] theorem ite_spi_mem {p : Prop} [Decidable p] (a b : State) : (if p then a else b).spi.mem = if p then a.spi.mem else b.spi.mem := by
  split <;> rfl

/-- A fold leaves `sram` alone where each of its steps does. -/
theorem foldl_sram {α : Type} {f : State → α → State} (h : ∀ s a, (f s a).sram = s.sram) (l : List α) (s : State) :
    (l.foldl f s).sram = s.sram := by
  induction l generalizing s with
  | nil => rfl
  | cons a l ih => rw [List.foldl_cons, ih, h]
theorem foldl2_sram {α β : Type} {f : β × State → α → β × State} (h : ∀ s a, (f s a).2.sram = s.2.sram) (l : List α)
    (s : β × State) : (l.foldl f s).2.sram = s.2.sram := by
  induction l generalizing s with
  | nil => rfl
  | cons a l ih => rw [List.foldl_cons, ih, h]
@[simp] theorem foldl_keeps_sram {α : Type} {f : State → α → State} (l : List α) (s : State)
    (h : ∀ s a, (f s a).sram = s.sram) : (l.foldl f s).sram = s.sram := foldl_sram h l s
@[simp] theorem forUnits_sram {n : Nat} {f : Nat → State → State} (s : State) (h : ∀ c s, (f c s).sram = s.sram) :
    (forUnits n f s).sram = s.sram := by
  unfold forUnits; exact foldl_sram (fun s c => h c s) _ s
@[simp] theorem forList_sram {l : List Nat} {f : Nat → State → State} (s : State) (h : ∀ c s, (f c s).sram = s.sram) :
    (forList l f s).sram = s.sram := by
  unfold forList; exact foldl_sram (fun s c => h c s) l s
@[simp] theorem ite_sram {p : Prop} [Decidable p] (a b : State) : (if p then a else b).sram = if p then a.sram else b.sram := by
  split <;> rfl

/-- A fold leaves `cfg` alone where each of its steps does. -/
theorem foldl_cfg {α : Type} {f : State → α → State} (h : ∀ s a, (f s a).cfg = s.cfg) (l : List α) (s : State) :
    (l.foldl f s).cfg = s.cfg := by
  induction l generalizing s with
  | nil => rfl
  | cons a l ih => rw [List.foldl_cons, ih, h]
theorem foldl2_cfg {α β : Type} {f : β × State → α → β × State} (h : ∀ s a, (f s a).2.cfg = s.2.cfg) (l : List α)
    (s : β × State) : (l.foldl f s).2.cfg = s.2.cfg := by
  induction l generalizing s with
  | nil => rfl
  | cons a l ih => rw [List.foldl_cons, ih, h]
@[simp] theorem foldl_keeps_cfg {α : Type} {f : State → α → State} (l : List α) (s : State)
    (h : ∀ s a, (f s a).cfg = s.cfg) : (l.foldl f s).cfg = s.cfg := foldl_cfg h l s
@[simp] theorem forUnits_cfg {n : Nat} {f : Nat → State → State} (s : State) (h : ∀ c s, (f c s).cfg = s.cfg) :
    (forUnits n f s).cfg = s.cfg := by
  unfold forUnits; exact foldl_cfg (fun s c => h c s) _ s
@[simp] theorem forList_cfg {l : List Nat} {f : Nat → State → State} (s : State) (h : ∀ c s, (f c s).cfg = s.cfg) :
    (forList l f s).cfg = s.cfg := by
  unfold forList; exact foldl_cfg (fun s c => h c s) l s
@[simp] theorem ite_cfg {p : Prop} [Decidable p] (a b : State) : (if p then a else b).cfg = if p then a.cfg else b.cfg := by
  split <;> rfl

@[simp] theorem irqSpi_mem (h : Bool) (m : Word) (p : Spi) : (irqSpi h m p).mem = p.mem := by unfold irqSpi; split <;> rfl

/-! ### Ops -/

@[simp] theorem State.count_frame (id n : Nat) (s : State) :
    (State.count id n s).pending = s.pending ∧ (State.count id n s).spi.mem = s.spi.mem ∧ (State.count id n s).sram = s.sram ∧ (State.count id n s).cfg = s.cfg := by
  and_intros <;> rfl

@[simp] theorem State.life_frame (id n : Nat) (s : State) :
    (State.life id n s).pending = s.pending ∧ (State.life id n s).spi.mem = s.spi.mem ∧ (State.life id n s).sram = s.sram ∧ (State.life id n s).cfg = s.cfg := by
  and_intros <;> rfl

@[simp] theorem State.draw_frame (s : State) :
    (State.draw s).2.pending = s.pending ∧ (State.draw s).2.spi.mem = s.spi.mem ∧ (State.draw s).2.sram = s.sram ∧ (State.draw s).2.cfg = s.cfg := by
  and_intros <;> rfl

@[simp] theorem State.drawRat_frame (s : State) :
    (State.drawRat s).2.pending = s.pending ∧ (State.drawRat s).2.spi.mem = s.spi.mem ∧ (State.drawRat s).2.sram = s.sram ∧ (State.drawRat s).2.cfg = s.cfg := by
  and_intros <;> rfl

@[simp] theorem State.filtered_frame (lo hi n : Nat) (s : State) :
    (State.filtered lo hi n s).2.pending = s.pending ∧ (State.filtered lo hi n s).2.spi.mem = s.spi.mem ∧ (State.filtered lo hi n s).2.sram = s.sram ∧ (State.filtered lo hi n s).2.cfg = s.cfg := by
  unfold State.filtered; (repeat' split) <;> simp

@[simp] theorem State.send_frame (f : Sent) (s : State) :
    (State.send f s).pending = s.pending ∧ (State.send f s).spi.mem = s.spi.mem ∧ (State.send f s).sram = s.sram ∧ (State.send f s).cfg = s.cfg := by
  unfold State.send; simp

@[simp] theorem State.irq_frame (m : Word) (s : State) :
    (State.irq m s).pending = s.pending ∧ (State.irq m s).spi.mem = s.spi.mem ∧ (State.irq m s).sram = s.sram ∧ (State.irq m s).cfg = s.cfg := by
  unfold State.irq; simp

@[simp] theorem State.enter_frame (code inst : Nat) (data : List Word) (s : State) :
    (State.enter code inst data s).pending = s.pending ∧ (State.enter code inst data s).spi.mem = s.spi.mem ∧ (State.enter code inst data s).sram = s.sram ∧ (State.enter code inst data s).cfg = s.cfg := by
  unfold State.enter; simp

@[simp] theorem State.raise_frame (code inst : Nat) (data : List Word) (s : State) :
    (State.raise code inst data s).pending = s.pending ∧ (State.raise code inst data s).spi.mem = s.spi.mem ∧ (State.raise code inst data s).sram = s.sram ∧ (State.raise code inst data s).cfg = s.cfg := by
  unfold State.raise; simp

@[simp] theorem State.raiseWaiting_frame (s : State) :
    (State.raiseWaiting s).pending = s.pending ∧ (State.raiseWaiting s).spi.mem = s.spi.mem ∧ (State.raiseWaiting s).sram = s.sram ∧ (State.raiseWaiting s).cfg = s.cfg := by
  unfold State.raiseWaiting; simp

@[simp] theorem State.raiseHeld_frame (len code inst n : Nat) (more : List Word) (s : State) :
    (State.raiseHeld len code inst n more s).pending = s.pending ∧ (State.raiseHeld len code inst n more s).spi.mem = s.spi.mem ∧ (State.raiseHeld len code inst n more s).sram = s.sram ∧ (State.raiseHeld len code inst n more s).cfg = s.cfg := by
  unfold State.raiseHeld; simp

@[simp] theorem State.raiseHeldAs_frame (len code inst : Nat) (data : List Word) (s : State) :
    (State.raiseHeldAs len code inst data s).pending = s.pending ∧ (State.raiseHeldAs len code inst data s).spi.mem = s.spi.mem ∧ (State.raiseHeldAs len code inst data s).sram = s.sram ∧ (State.raiseHeldAs len code inst data s).cfg = s.cfg := by
  unfold State.raiseHeldAs; simp

@[simp] theorem State.setStage_frame (n : Nat) (s : State) :
    (State.setStage n s).pending = s.pending ∧ (State.setStage n s).spi.mem = s.spi.mem ∧ (State.setStage n s).sram = s.sram ∧ (State.setStage n s).cfg = s.cfg := by
  unfold State.setStage; simp

@[simp] theorem State.setDev_frame (d : DevState) (ev : Nat) (s : State) :
    (State.setDev d ev s).pending = s.pending ∧ (State.setDev d ev s).spi.mem = s.spi.mem ∧ (State.setDev d ev s).sram = s.sram ∧ (State.setDev d ev s).cfg = s.cfg := by
  unfold State.setDev; simp

@[simp] theorem undoForce_frame (t : Test) (s : State) :
    (undoForce t s).pending = s.pending ∧ (undoForce t s).spi.mem = s.spi.mem ∧ (undoForce t s).sram = s.sram ∧ (undoForce t s).cfg = s.cfg := by
  unfold undoForce; simp

@[simp] theorem endTest_frame (ticket state code : Nat) (values : List Byte) (s : State) :
    (endTest ticket state code values s).pending = s.pending ∧ (endTest ticket state code values s).spi.mem = s.spi.mem ∧ (endTest ticket state code values s).sram = s.sram ∧ (endTest ticket state code values s).cfg = s.cfg := by
  unfold endTest; split <;> simp

@[simp] theorem abortTests_frame (p : Test → Bool) (code : Nat) (s : State) :
    (abortTests p code s).pending = s.pending ∧ (abortTests p code s).spi.mem = s.spi.mem ∧ (abortTests p code s).sram = s.sram ∧ (abortTests p code s).cfg = s.cfg := by
  unfold abortTests; simp

@[simp] theorem maskDue_frame (c : Nat) (s : State) :
    (maskDue c s).pending = s.pending ∧ (maskDue c s).spi.mem = s.spi.mem ∧ (maskDue c s).sram = s.sram ∧ (maskDue c s).cfg = s.cfg := by
  unfold maskDue; split <;> simp

@[simp] theorem noteDiag_frame (c code : Nat) (s : State) :
    (noteDiag c code s).pending = s.pending ∧ (noteDiag c code s).spi.mem = s.spi.mem ∧ (noteDiag c code s).sram = s.sram ∧ (noteDiag c code s).cfg = s.cfg := by
  unfold noteDiag; simp

@[simp] theorem idleEnds_frame (c : Nat) (s : State) :
    (idleEnds c s).pending = s.pending ∧ (idleEnds c s).spi.mem = s.spi.mem ∧ (idleEnds c s).sram = s.sram ∧ (idleEnds c s).cfg = s.cfg := by
  unfold idleEnds; simp

@[simp] theorem faultStart_frame (c code : Nat) (data : List Word) (s : State) :
    (faultStart c code data s).pending = s.pending ∧ (faultStart c code data s).spi.mem = s.spi.mem ∧ (faultStart c code data s).sram = s.sram ∧ (faultStart c code data s).cfg = s.cfg := by
  unfold faultStart; simp

@[simp] theorem enterFault_frame (c code : Nat) (data : List Word) (s : State) :
    (enterFault c code data s).pending = s.pending ∧ (enterFault c code data s).spi.mem = s.spi.mem ∧ (enterFault c code data s).sram = s.sram ∧ (enterFault c code data s).cfg = s.cfg := by
  unfold enterFault; simp

@[simp] theorem faultAgain_frame (c code : Nat) (data : List Word) (s : State) :
    (faultAgain c code data s).pending = s.pending ∧ (faultAgain c code data s).spi.mem = s.spi.mem ∧ (faultAgain c code data s).sram = s.sram ∧ (faultAgain c code data s).cfg = s.cfg := by
  unfold faultAgain; simp

@[simp] theorem hardStop_frame (c code : Nat) (data : List Word) (s : State) :
    (hardStop c code data s).pending = s.pending ∧ (hardStop c code data s).spi.mem = s.spi.mem ∧ (hardStop c code data s).sram = s.sram ∧ (hardStop c code data s).cfg = s.cfg := by
  unfold hardStop; simp

@[simp] theorem linkDown_frame (s : State) :
    (linkDown s).pending = s.pending ∧ (linkDown s).spi.mem = s.spi.mem ∧ (linkDown s).sram = s.sram ∧ (linkDown s).cfg = s.cfg := by
  unfold linkDown; simp

@[simp] theorem requestStop_frame (c : Nat) (restart : Bool) (s : State) :
    (requestStop c restart s).pending = s.pending ∧ (requestStop c restart s).spi.mem = s.spi.mem ∧ (requestStop c restart s).sram = s.sram ∧ (requestStop c restart s).cfg = s.cfg := by
  and_intros <;> rfl

@[simp] theorem toOff_frame (c : Nat) (s : State) :
    (toOff c s).pending = s.pending ∧ (toOff c s).spi.mem = s.spi.mem ∧ (toOff c s).sram = s.sram ∧ (toOff c s).cfg = s.cfg := by
  unfold toOff; simp

@[simp] theorem allOff_frame (s : State) :
    (allOff s).pending = s.pending ∧ (allOff s).spi.mem = s.spi.mem ∧ (allOff s).sram = s.sram ∧ (allOff s).cfg = s.cfg := by
  unfold allOff; simp

@[simp] theorem stopChannels_frame (s : State) :
    (stopChannels s).pending = s.pending ∧ (stopChannels s).spi.mem = s.spi.mem ∧ (stopChannels s).sram = s.sram ∧ (stopChannels s).cfg = s.cfg := by
  unfold stopChannels; simp

@[simp] theorem safeChannels_frame (s : State) :
    (safeChannels s).pending = s.pending ∧ (safeChannels s).spi.mem = s.spi.mem ∧ (safeChannels s).sram = s.sram ∧ (safeChannels s).cfg = s.cfg := by
  unfold safeChannels
  exact ⟨forUnits_pending _ (fun c s => by split <;> simp), forUnits_spi_mem _ (fun c s => by split <;> simp), forUnits_sram _ (fun c s => by split <;> simp), forUnits_cfg _ (fun c s => by split <;> simp)⟩

@[simp] theorem startFall_frame (s : State) :
    (startFall s).pending = s.pending ∧ (startFall s).spi.mem = s.spi.mem ∧ (startFall s).sram = s.sram ∧ (startFall s).cfg = s.cfg := by
  unfold startFall; simp

@[simp] theorem railFault_frame (r code : Nat) (data : List Word) (s : State) :
    (railFault r code data s).pending = s.pending ∧ (railFault r code data s).spi.mem = s.spi.mem ∧ (railFault r code data s).sram = s.sram ∧ (railFault r code data s).cfg = s.cfg := by
  unfold railFault; simp

@[simp] theorem railsOff_frame (s : State) :
    (railsOff s).pending = s.pending ∧ (railsOff s).spi.mem = s.spi.mem ∧ (railsOff s).sram = s.sram ∧ (railsOff s).cfg = s.cfg := by
  unfold railsOff; simp

@[simp] theorem ceilingChanged_frame (r old : Nat) (s : State) :
    (ceilingChanged r old s).pending = s.pending ∧ (ceilingChanged r old s).spi.mem = s.spi.mem ∧ (ceilingChanged r old s).sram = s.sram ∧ (ceilingChanged r old s).cfg = s.cfg := by
  unfold ceilingChanged; simp

@[simp] theorem putResponse_frame (i : Nat) (frame : List Byte) (s : State) :
    (putResponse i frame s).pending = s.pending ∧ (putResponse i frame s).sram = s.sram ∧ (putResponse i frame s).cfg = s.cfg := by
  and_intros <;> rfl

@[simp] theorem deliverSpi_frame (i : Nat) (frame : List Byte) (s : State) :
    (deliverSpi i frame s).pending = s.pending ∧ (deliverSpi i frame s).sram = s.sram ∧ (deliverSpi i frame s).cfg = s.cfg := by
  unfold deliverSpi; simp

@[simp] theorem deliver_frame (i : Nat) (frame : List Byte) (s : State) :
    (deliver i frame s).pending = s.pending ∧ (deliver i frame s).sram = s.sram ∧ (deliver i frame s).cfg = s.cfg := by
  unfold deliver; split <;> simp

@[simp] theorem answer_frame (i : Nat) (frame : List Byte) (s : State) :
    (answer i frame s).pending = s.pending ∧ (answer i frame s).sram = s.sram ∧ (answer i frame s).cfg = s.cfg := by
  unfold answer; simp

@[simp] theorem take_frame (i : Nat) (s : State) :
    (take i s).pending = s.pending ∧ (take i s).spi.mem = s.spi.mem ∧ (take i s).sram = s.sram ∧ (take i s).cfg = s.cfg := by
  and_intros <;> rfl

/-! ### Frame -/

@[simp] theorem reply_frame (i : Nat) (r : Req) (status : Nat) (payload : List Byte) (s : State) :
    (reply i r status payload s).pending = s.pending ∧ (reply i r status payload s).sram = s.sram ∧ (reply i r status payload s).cfg = s.cfg := by
  unfold reply; simp

@[simp] theorem ring_frame (i : Nat) (s : State) :
    (ring i s).pending = s.pending ∧ (ring i s).spi.mem = s.spi.mem ∧ (ring i s).sram = s.sram ∧ (ring i s).cfg = s.cfg := by
  unfold ring; simp

/-! ### ModelOps -/

@[simp] theorem seedModel_frame (c : Nat) (s : State) :
    (seedModel c s).pending = s.pending ∧ (seedModel c s).spi.mem = s.spi.mem ∧ (seedModel c s).sram = s.sram ∧ (seedModel c s).cfg = s.cfg := by
  unfold seedModel; simp

@[simp] theorem modelsWait_frame (dt : Rat) (s : State) :
    (modelsWait dt s).pending = s.pending ∧ (modelsWait dt s).spi.mem = s.spi.mem ∧ (modelsWait dt s).sram = s.sram ∧ (modelsWait dt s).cfg = s.cfg := by
  unfold modelsWait; simp

/-! ### PwmOps -/

@[simp] theorem loadAll_frame (v : Word) (s : State) :
    (loadAll v s).pending = s.pending ∧ (loadAll v s).spi.mem = s.spi.mem ∧ (loadAll v s).sram = s.sram ∧ (loadAll v s).cfg = s.cfg := by
  and_intros <;> rfl

@[simp] theorem maskWrite_frame (k : Nat) (play : Bool) (s : State) :
    (maskWrite k play s).pending = s.pending ∧ (maskWrite k play s).spi.mem = s.spi.mem ∧ (maskWrite k play s).sram = s.sram ∧ (maskWrite k play s).cfg = s.cfg := by
  unfold maskWrite; simp

@[simp] theorem maskRewrite_frame (k : Nat) (s : State) :
    (maskRewrite k s).pending = s.pending ∧ (maskRewrite k s).spi.mem = s.spi.mem ∧ (maskRewrite k s).sram = s.sram ∧ (maskRewrite k s).cfg = s.cfg := by
  unfold maskRewrite; simp

@[simp] theorem startLegs_frame (c : Nat) (s : State) :
    (startLegs c s).pending = s.pending ∧ (startLegs c s).spi.mem = s.spi.mem ∧ (startLegs c s).sram = s.sram ∧ (startLegs c s).cfg = s.cfg := by
  unfold startLegs; simp

@[simp] theorem countAt_frame (c fraction : Nat) (s : State) :
    (countAt c fraction s).pending = s.pending ∧ (countAt c fraction s).spi.mem = s.spi.mem ∧ (countAt c fraction s).sram = s.sram ∧ (countAt c fraction s).cfg = s.cfg := by
  unfold countAt; simp

@[simp] theorem freshFeed_frame (c : Nat) (s : State) :
    (freshFeed c s).pending = s.pending ∧ (freshFeed c s).spi.mem = s.spi.mem ∧ (freshFeed c s).sram = s.sram ∧ (freshFeed c s).cfg = s.cfg := by
  unfold freshFeed; simp

@[simp] theorem armPeriod_frame (s : State) :
    (armPeriod s).pending = s.pending ∧ (armPeriod s).spi.mem = s.spi.mem ∧ (armPeriod s).sram = s.sram ∧ (armPeriod s).cfg = s.cfg := by
  unfold armPeriod; (repeat' split) <;> simp

/-! ### StoreOps -/

@[simp] theorem lifeRec_frame (code inst : Nat) (data : List Word) (s : State) :
    (lifeRec code inst data s).pending = s.pending ∧ (lifeRec code inst data s).spi.mem = s.spi.mem ∧ (lifeRec code inst data s).sram = s.sram ∧ (lifeRec code inst data s).cfg = s.cfg := by
  and_intros <;> rfl

@[simp] theorem lifeModel_frame (c : Nat) (m : ModelRec) (s : State) :
    (lifeModel c m s).pending = s.pending ∧ (lifeModel c m s).spi.mem = s.spi.mem ∧ (lifeModel c m s).sram = s.sram ∧ (lifeModel c m s).cfg = s.cfg := by
  and_intros <;> rfl

@[simp] theorem lifeRetired_frame (lifetime : Bool) (s : State) :
    (lifeRetired lifetime s).pending = s.pending ∧ (lifeRetired lifetime s).spi.mem = s.spi.mem ∧ (lifeRetired lifetime s).sram = s.sram ∧ (lifeRetired lifetime s).cfg = s.cfg := by
  unfold lifeRetired; simp

@[simp] theorem snapshot_frame (s : State) :
    (snapshot s).pending = s.pending ∧ (snapshot s).spi.mem = s.spi.mem ∧ (snapshot s).sram = s.sram ∧ (snapshot s).cfg = s.cfg := by
  unfold snapshot; dsimp only; simp only [lifeRec_frame, lifeRetired_frame]
  refine ⟨?_, ?_, ?_, ?_⟩
  · rw [foldl_pending (fun u s => by simp), forUnits_pending _ (fun u s => by split <;> simp), forUnits_pending _ (fun u s => by simp)]; simp
  · rw [foldl_spi_mem (fun u s => by simp), forUnits_spi_mem _ (fun u s => by split <;> simp), forUnits_spi_mem _ (fun u s => by simp)]; simp
  · rw [foldl_sram (fun u s => by simp), forUnits_sram _ (fun u s => by split <;> simp), forUnits_sram _ (fun u s => by simp)]; simp
  · rw [foldl_cfg (fun u s => by simp), forUnits_cfg _ (fun u s => by split <;> simp), forUnits_cfg _ (fun u s => by simp)]; simp

@[simp] theorem storeModel_frame (c : Nat) (s : State) :
    (storeModel c s).pending = s.pending ∧ (storeModel c s).spi.mem = s.spi.mem ∧ (storeModel c s).sram = s.sram ∧ (storeModel c s).cfg = s.cfg := by
  unfold storeModel; simp

@[simp] theorem storeModels_frame (s : State) :
    (storeModels s).pending = s.pending ∧ (storeModels s).spi.mem = s.spi.mem ∧ (storeModels s).sram = s.sram ∧ (storeModels s).cfg = s.cfg := by
  unfold storeModels; simp

@[simp] theorem flushLog_frame (s : State) :
    (flushLog s).pending = s.pending ∧ (flushLog s).spi.mem = s.spi.mem ∧ (flushLog s).sram = s.sram ∧ (flushLog s).cfg = s.cfg := by
  and_intros <;> rfl

@[simp] theorem noteStored_frame (r : Record) (s : State) :
    (noteStored r s).pending = s.pending ∧ (noteStored r s).spi.mem = s.spi.mem ∧ (noteStored r s).sram = s.sram ∧ (noteStored r s).cfg = s.cfg := by
  unfold noteStored; simp

@[simp] theorem revertStored_frame (s : State) :
    (revertStored s).pending = s.pending ∧ (revertStored s).spi.mem = s.spi.mem ∧ (revertStored s).sram = s.sram ∧ (revertStored s).cfg = s.cfg := by
  unfold revertStored; simp

@[simp] theorem recover_frame (s : State) :
    (recover s).pending = s.pending ∧ (recover s).spi.mem = s.spi.mem ∧ (recover s).sram = s.sram ∧ (recover s).cfg = s.cfg := by
  unfold recover; simp

@[simp] theorem roomFor_frame (lifetime : Bool) (s : State) :
    (roomFor lifetime s).pending = s.pending ∧ (roomFor lifetime s).spi.mem = s.spi.mem ∧ (roomFor lifetime s).sram = s.sram ∧ (roomFor lifetime s).cfg = s.cfg := by
  unfold roomFor; simp

@[simp] theorem programRecord_frame (lifetime : Bool) (r : Record) (s : State) :
    (programRecord lifetime r s).pending = s.pending ∧ (programRecord lifetime r s).spi.mem = s.spi.mem ∧ (programRecord lifetime r s).sram = s.sram ∧ (programRecord lifetime r s).cfg = s.cfg := by
  unfold programRecord; simp

@[simp] theorem drainStore_frame (s : State) :
    (drainStore s).pending = s.pending ∧ (drainStore s).spi.mem = s.spi.mem ∧ (drainStore s).sram = s.sram ∧ (drainStore s).cfg = s.cfg := by
  unfold drainStore; simp

/-! ### Boot -/

@[simp] theorem resetTo_frame (cause : Nat) (por : Bool) (s : State) :
    (resetTo cause por s).pending = s.pending := by
  unfold resetTo; simp

@[simp] theorem startSequence_frame (s : State) :
    (startSequence s).pending = s.pending ∧ (startSequence s).spi.mem = s.spi.mem ∧ (startSequence s).sram = s.sram ∧ (startSequence s).cfg = s.cfg := by
  unfold startSequence; simp

@[simp] theorem powerDown_frame (s : State) :
    (powerDown s).pending = s.pending ∧ (powerDown s).spi.mem = s.spi.mem ∧ (powerDown s).sram = s.sram ∧ (powerDown s).cfg = s.cfg := by
  and_intros <;> rfl

@[simp] theorem sequenceFailed_frame (s : State) :
    (sequenceFailed s).pending = s.pending ∧ (sequenceFailed s).spi.mem = s.spi.mem ∧ (sequenceFailed s).sram = s.sram ∧ (sequenceFailed s).cfg = s.cfg := by
  unfold sequenceFailed; simp

@[simp] theorem dropRelays_frame (s : State) :
    (dropRelays s).pending = s.pending ∧ (dropRelays s).spi.mem = s.spi.mem ∧ (dropRelays s).sram = s.sram ∧ (dropRelays s).cfg = s.cfg := by
  unfold dropRelays; simp

@[simp] theorem supplyLost_frame (s : State) :
    (supplyLost s).pending = s.pending ∧ (supplyLost s).spi.mem = s.spi.mem ∧ (supplyLost s).sram = s.sram ∧ (supplyLost s).cfg = s.cfg := by
  unfold supplyLost; simp

@[simp] theorem bootAgain_frame (s : State) :
    (bootAgain s).pending = s.pending ∧ (bootAgain s).spi.mem = s.spi.mem ∧ (bootAgain s).sram = s.sram ∧ (bootAgain s).cfg = s.cfg := by
  unfold bootAgain; simp

@[simp] theorem startImage_frame (bytes : List Byte) (bankB spi : Bool) (s : State) :
    (startImage bytes bankB spi s).pending = s.pending ∧ (startImage bytes bankB spi s).spi.mem = s.spi.mem ∧ (startImage bytes bankB spi s).cfg = s.cfg := by
  unfold startImage; simp

@[simp] theorem fallbackRecord_frame (bankB : Bool) (s : State) :
    (fallbackRecord bankB s).pending = s.pending ∧ (fallbackRecord bankB s).spi.mem = s.spi.mem ∧ (fallbackRecord bankB s).sram = s.sram ∧ (fallbackRecord bankB s).cfg = s.cfg := by
  unfold fallbackRecord; simp

@[simp] theorem applyAll_frame (s : State) :
    (applyAll s).pending = s.pending ∧ (applyAll s).spi.mem = s.spi.mem ∧ (applyAll s).sram = s.sram ∧ (applyAll s).cfg = s.cfg := by
  and_intros <;> rfl

@[simp] theorem resetLife_frame (s : State) :
    (resetLife s).pending = s.pending ∧ (resetLife s).spi.mem = s.spi.mem ∧ (resetLife s).sram = s.sram ∧ (resetLife s).cfg = s.cfg := by
  unfold resetLife; split <;> simp

/-! ### Power -/

@[simp] theorem enterSafe_frame (ev cause : Nat) (s : State) :
    (enterSafe ev cause s).pending = s.pending ∧ (enterSafe ev cause s).spi.mem = s.spi.mem ∧ (enterSafe ev cause s).sram = s.sram ∧ (enterSafe ev cause s).cfg = s.cfg := by
  unfold enterSafe; simp

@[simp] theorem abandonUpdate_frame (s : State) :
    (abandonUpdate s).pending = s.pending ∧ (abandonUpdate s).spi.mem = s.spi.mem ∧ (abandonUpdate s).sram = s.sram ∧ (abandonUpdate s).cfg = s.cfg := by
  and_intros <;> rfl

@[simp] theorem releaseFall_frame (s : State) :
    (releaseFall s).pending = s.pending ∧ (releaseFall s).spi.mem = s.spi.mem ∧ (releaseFall s).sram = s.sram ∧ (releaseFall s).cfg = s.cfg := by
  and_intros <;> rfl

@[simp] theorem wakeEvent_frame (s : State) :
    (wakeEvent s).pending = s.pending ∧ (wakeEvent s).spi.mem = s.spi.mem ∧ (wakeEvent s).sram = s.sram ∧ (wakeEvent s).cfg = s.cfg := by
  unfold wakeEvent; simp

@[simp] theorem sectorAdvice_frame (s : State) :
    (sectorAdvice s).pending = s.pending ∧ (sectorAdvice s).spi.mem = s.spi.mem ∧ (sectorAdvice s).sram = s.sram ∧ (sectorAdvice s).cfg = s.cfg := by
  unfold sectorAdvice; simp

@[simp] theorem slotFails_frame (lifetime : Bool) (left : Slot) (s : State) :
    (slotFails lifetime left s).pending = s.pending ∧ (slotFails lifetime left s).spi.mem = s.spi.mem ∧ (slotFails lifetime left s).sram = s.sram ∧ (slotFails lifetime left s).cfg = s.cfg := by
  unfold slotFails; simp

@[simp] theorem slotFailsTimes_frame (lifetime : Bool) (n : Nat) (s : State) :
    (slotFailsTimes lifetime n s).pending = s.pending ∧ (slotFailsTimes lifetime n s).spi.mem = s.spi.mem ∧ (slotFailsTimes lifetime n s).sram = s.sram ∧ (slotFailsTimes lifetime n s).cfg = s.cfg := by
  induction n generalizing s with
  | zero => and_intros <;> rfl
  | succ n ih => unfold slotFailsTimes; simpa using ih (slotFails lifetime .torn (roomFor lifetime s))

@[simp] theorem lastLog_frame (fails : Nat) (s : State) :
    (lastLog fails s).pending = s.pending ∧ (lastLog fails s).spi.mem = s.spi.mem ∧ (lastLog fails s).sram = s.sram ∧ (lastLog fails s).cfg = s.cfg := by
  unfold lastLog; split <;> simp

@[simp] theorem lastCheckpoint_frame (fails : Nat) (s : State) :
    (lastCheckpoint fails s).pending = s.pending ∧ (lastCheckpoint fails s).spi.mem = s.spi.mem ∧ (lastCheckpoint fails s).sram = s.sram ∧ (lastCheckpoint fails s).cfg = s.cfg := by
  unfold lastCheckpoint; simp

/-! ### ChannelOps -/

@[simp] theorem unmute_frame (c : Nat) (s : State) :
    (unmute c s).pending = s.pending ∧ (unmute c s).spi.mem = s.spi.mem ∧ (unmute c s).sram = s.sram ∧ (unmute c s).cfg = s.cfg := by
  unfold unmute; simp

@[simp] theorem admitChannel_frame (c : Nat) (s : State) :
    (admitChannel c s).pending = s.pending ∧ (admitChannel c s).spi.mem = s.spi.mem ∧ (admitChannel c s).sram = s.sram ∧ (admitChannel c s).cfg = s.cfg := by
  unfold admitChannel; simp

@[simp] theorem startDiag_frame (c : Nat) (s : State) :
    (startDiag c s).pending = s.pending ∧ (startDiag c s).spi.mem = s.spi.mem ∧ (startDiag c s).sram = s.sram ∧ (startDiag c s).cfg = s.cfg := by
  unfold startDiag; simp

@[simp] theorem passTest_frame (c n : Nat) (s : State) :
    (passTest c n s).pending = s.pending ∧ (passTest c n s).spi.mem = s.spi.mem ∧ (passTest c n s).sram = s.sram ∧ (passTest c n s).cfg = s.cfg := by
  unfold passTest; simp

@[simp] theorem failTest_frame (c code : Nat) (data : List Word) (s : State) :
    (failTest c code data s).pending = s.pending ∧ (failTest c code data s).spi.mem = s.spi.mem ∧ (failTest c code data s).sram = s.sram ∧ (failTest c code data s).cfg = s.cfg := by
  unfold failTest; simp

@[simp] theorem toPrecharge_frame (c : Nat) (s : State) :
    (toPrecharge c s).pending = s.pending ∧ (toPrecharge c s).spi.mem = s.spi.mem ∧ (toPrecharge c s).sram = s.sram ∧ (toPrecharge c s).cfg = s.cfg := by
  unfold toPrecharge; simp

@[simp] theorem enterVoltageOnly_frame (c case : Nat) (s : State) :
    (enterVoltageOnly c case s).pending = s.pending ∧ (enterVoltageOnly c case s).spi.mem = s.spi.mem ∧ (enterVoltageOnly c case s).sram = s.sram ∧ (enterVoltageOnly c case s).cfg = s.cfg := by
  unfold enterVoltageOnly; simp

@[simp] theorem leaveVoltageOnly_frame (c : Nat) (s : State) :
    (leaveVoltageOnly c s).pending = s.pending ∧ (leaveVoltageOnly c s).spi.mem = s.spi.mem ∧ (leaveVoltageOnly c s).sram = s.sram ∧ (leaveVoltageOnly c s).cfg = s.cfg := by
  unfold leaveVoltageOnly; simp

@[simp] theorem clearChannel_frame (c : Nat) (s : State) :
    (clearChannel c s).pending = s.pending ∧ (clearChannel c s).spi.mem = s.spi.mem ∧ (clearChannel c s).sram = s.sram ∧ (clearChannel c s).cfg = s.cfg := by
  unfold clearChannel; simp

@[simp] theorem setOffsets_frame (c : Nat) (vOff iOff : Int) (s : State) :
    (setOffsets c vOff iOff s).pending = s.pending ∧ (setOffsets c vOff iOff s).spi.mem = s.spi.mem ∧ (setOffsets c vOff iOff s).sram = s.sram ∧ (setOffsets c vOff iOff s).cfg = s.cfg := by
  unfold setOffsets; simp

@[simp] theorem trimLoop_frame (c : Nat) (s : State) :
    (trimLoop c s).pending = s.pending ∧ (trimLoop c s).spi.mem = s.spi.mem ∧ (trimLoop c s).sram = s.sram ∧ (trimLoop c s).cfg = s.cfg := by
  unfold trimLoop; simp

/-! ### Stage -/

@[simp] theorem moveE_frame (goal : Rat) (s : State) :
    (moveE goal s).pending = s.pending ∧ (moveE goal s).spi.mem = s.spi.mem ∧ (moveE goal s).sram = s.sram ∧ (moveE goal s).cfg = s.cfg := by
  and_intros <;> rfl

@[simp] theorem zoneSource_frame (d kind : Nat) (s : State) :
    (zoneSource d kind s).pending = s.pending ∧ (zoneSource d kind s).spi.mem = s.spi.mem ∧ (zoneSource d kind s).sram = s.sram ∧ (zoneSource d kind s).cfg = s.cfg := by
  and_intros <;> rfl

@[simp] theorem histogram_frame (base : Nat) (x : Rat) (s : State) :
    (histogram base x s).pending = s.pending ∧ (histogram base x s).spi.mem = s.spi.mem ∧ (histogram base x s).sram = s.sram ∧ (histogram base x s).cfg = s.cfg := by
  and_intros <;> rfl

/-! ### NetOps -/

@[simp] theorem sendAll_frame (l : List Sent) (s : State) :
    (sendAll l s).pending = s.pending ∧ (sendAll l s).spi.mem = s.spi.mem ∧ (sendAll l s).sram = s.sram ∧ (sendAll l s).cfg = s.cfg := by
  unfold sendAll; simp

@[simp] theorem answerQuery_frame (p version group : Nat) (s : State) :
    (answerQuery p version group s).pending = s.pending ∧ (answerQuery p version group s).spi.mem = s.spi.mem ∧ (answerQuery p version group s).sram = s.sram ∧ (answerQuery p version group s).cfg = s.cfg := by
  unfold answerQuery; simp

@[simp] theorem reportChange_frame (p : Nat) (recs : List (Nat × Bool)) (s : State) :
    (reportChange p recs s).pending = s.pending ∧ (reportChange p recs s).spi.mem = s.spi.mem ∧ (reportChange p recs s).sram = s.sram ∧ (reportChange p recs s).cfg = s.cfg := by
  unfold reportChange; simp

@[simp] theorem updateGroups_frame (p : Nat) (s : State) :
    (updateGroups p s).pending = s.pending ∧ (updateGroups p s).spi.mem = s.spi.mem ∧ (updateGroups p s).sram = s.sram ∧ (updateGroups p s).cfg = s.cfg := by
  unfold updateGroups; simp

@[simp] theorem ringPut_frame (p i : Nat) (w1 : Word) (buf : List Byte) (s : State) :
    (ringPut p i w1 buf s).pending = s.pending ∧ (ringPut p i w1 buf s).spi.mem = s.spi.mem ∧ (ringPut p i w1 buf s).cfg = s.cfg := by
  and_intros <;> rfl

@[simp] theorem ringGive_frame (p i : Nat) (s : State) :
    (ringGive p i s).pending = s.pending ∧ (ringGive p i s).spi.mem = s.spi.mem ∧ (ringGive p i s).cfg = s.cfg := by
  and_intros <;> rfl

@[simp] theorem descWrite_frame (a : Nat) (v : Word) (s : State) :
    (descWrite a v s).pending = s.pending ∧ (descWrite a v s).spi.mem = s.spi.mem ∧ (descWrite a v s).sram = s.sram ∧ (descWrite a v s).cfg = s.cfg := by
  unfold descWrite; split <;> simp

@[simp] theorem fillRing_frame (p : Nat) (frame : List Byte) (bad : Bool) (s : State) :
    (fillRing p frame bad s).pending = s.pending ∧ (fillRing p frame bad s).spi.mem = s.spi.mem ∧ (fillRing p frame bad s).cfg = s.cfg := by
  unfold fillRing; simp

@[simp] theorem returnRing_frame (p : Nat) (s : State) :
    (returnRing p s).pending = s.pending ∧ (returnRing p s).spi.mem = s.spi.mem ∧ (returnRing p s).cfg = s.cfg := by
  unfold returnRing; simp

@[simp] theorem hostTake_frame (addr port dst dport : Nat) (payload : List Byte) (s : State) :
    (hostTake addr port dst dport payload s).pending = s.pending ∧ (hostTake addr port dst dport payload s).sram = s.sram ∧ (hostTake addr port dst dport payload s).cfg = s.cfg := by
  unfold hostTake; simp

@[simp] theorem keeperServes_frame (p : Nat) (f : List Byte) (s : State) :
    (keeperServes p f s).pending = s.pending ∧ (keeperServes p f s).sram = s.sram ∧ (keeperServes p f s).cfg = s.cfg := by
  unfold keeperServes; simp

@[simp] theorem serveRing_frame (p : Nat) (s : State) :
    (serveRing p s).pending = s.pending ∧ (serveRing p s).cfg = s.cfg := by
  unfold serveRing; simp

@[simp] theorem keeperTakes_frame (p : Nat) (f : List Byte) (bad : Bool) (s : State) :
    (keeperTakes p f bad s).pending = s.pending ∧ (keeperTakes p f bad s).cfg = s.cfg := by
  unfold keeperTakes; simp

/-! ### StreamOps -/

@[simp] theorem injClear_frame (cause k : Nat) (s : State) :
    (injClear cause k s).pending = s.pending ∧ (injClear cause k s).spi.mem = s.spi.mem ∧ (injClear cause k s).sram = s.sram ∧ (injClear cause k s).cfg = s.cfg := by
  unfold injClear; simp

@[simp] theorem injSelect_frame (k : Nat) (s : State) :
    (injSelect k s).2.pending = s.pending ∧ (injSelect k s).2.spi.mem = s.spi.mem ∧ (injSelect k s).2.sram = s.sram ∧ (injSelect k s).2.cfg = s.cfg := by
  unfold injSelect; dsimp only; (repeat' split) <;> simp

@[simp] theorem streamFade_frame (st n : Nat) (real : Bool) (s : State) :
    (streamFade st n real s).pending = s.pending ∧ (streamFade st n real s).spi.mem = s.spi.mem ∧ (streamFade st n real s).sram = s.sram ∧ (streamFade st n real s).cfg = s.cfg := by
  and_intros <;> rfl

@[simp] theorem streamBlock_frame (st : Nat) (s : State) :
    (streamBlock st s).pending = s.pending ∧ (streamBlock st s).spi.mem = s.spi.mem ∧ (streamBlock st s).sram = s.sram ∧ (streamBlock st s).cfg = s.cfg := by
  unfold streamBlock; simp

@[simp] theorem streamsCleared_frame (s : State) :
    (streamsCleared s).pending = s.pending ∧ (streamsCleared s).spi.mem = s.spi.mem ∧ (streamsCleared s).sram = s.sram ∧ (streamsCleared s).cfg = s.cfg := by
  and_intros <;> rfl

/-! ### Channels -/

@[simp] theorem noteCal_frame (c : Nat) (vOff iOff : Int) (s : State) :
    (noteCal c vOff iOff s).pending = s.pending ∧ (noteCal c vOff iOff s).spi.mem = s.spi.mem ∧ (noteCal c vOff iOff s).sram = s.sram ∧ (noteCal c vOff iOff s).cfg = s.cfg := by
  unfold noteCal; simp

@[simp] theorem diagDone_frame (c : Nat) (s : State) :
    (diagDone c s).pending = s.pending ∧ (diagDone c s).spi.mem = s.spi.mem ∧ (diagDone c s).sram = s.sram ∧ (diagDone c s).cfg = s.cfg := by
  unfold diagDone; simp

@[simp] theorem takeMargins_frame (c : Nat) (s : State) :
    (takeMargins c s).pending = s.pending ∧ (takeMargins c s).spi.mem = s.spi.mem ∧ (takeMargins c s).sram = s.sram ∧ (takeMargins c s).cfg = s.cfg := by
  unfold takeMargins; simp

@[simp] theorem newCycle_frame (c : Nat) (s : State) :
    (newCycle c s).pending = s.pending ∧ (newCycle c s).spi.mem = s.spi.mem ∧ (newCycle c s).sram = s.sram ∧ (newCycle c s).cfg = s.cfg := by
  unfold newCycle; dsimp only; (repeat' split) <;> simp

@[simp] theorem relayFault_frame (c low : Nat) (v : Rat) (s : State) :
    (relayFault c low v s).pending = s.pending ∧ (relayFault c low v s).spi.mem = s.spi.mem ∧ (relayFault c low v s).sram = s.sram ∧ (relayFault c low v s).cfg = s.cfg := by
  unfold relayFault; simp

/-! ### Loop -/

@[simp] theorem indexClip_frame (c : Nat) (s : State) :
    (indexClip c s).pending = s.pending ∧ (indexClip c s).spi.mem = s.spi.mem ∧ (indexClip c s).sram = s.sram ∧ (indexClip c s).cfg = s.cfg := by
  unfold indexClip; simp

@[simp] theorem clipOnce_frame (c n : Nat) (s : State) :
    (clipOnce c n s).pending = s.pending ∧ (clipOnce c n s).spi.mem = s.spi.mem ∧ (clipOnce c n s).sram = s.sram ∧ (clipOnce c n s).cfg = s.cfg := by
  unfold clipOnce; simp

@[simp] theorem testSequence_frame (s : State) (c : Nat) :
    (testSequence s c).2.pending = s.pending ∧ (testSequence s c).2.spi.mem = s.spi.mem ∧ (testSequence s c).2.sram = s.sram ∧ (testSequence s c).2.cfg = s.cfg := by
  unfold testSequence; dsimp only; (repeat' split) <;> simp

@[simp] theorem limitedCycle_frame (c : Nat) (s : State) :
    (limitedCycle c s).pending = s.pending ∧ (limitedCycle c s).spi.mem = s.spi.mem ∧ (limitedCycle c s).sram = s.sram ∧ (limitedCycle c s).cfg = s.cfg := by
  unfold limitedCycle; simp

@[simp] theorem loadShort_frame (c : Nat) (s : State) :
    (loadShort c s).pending = s.pending ∧ (loadShort c s).spi.mem = s.spi.mem ∧ (loadShort c s).sram = s.sram ∧ (loadShort c s).cfg = s.cfg := by
  unfold loadShort; simp

@[simp] theorem holdIntegrator_frame (c : Nat) (s : State) :
    (holdIntegrator c s).pending = s.pending ∧ (holdIntegrator c s).spi.mem = s.spi.mem ∧ (holdIntegrator c s).sram = s.sram ∧ (holdIntegrator c s).cfg = s.cfg := by
  unfold holdIntegrator; simp

@[simp] theorem trip_frame (c : Nat) (newCycle consecutive : Bool) (s : State) :
    (trip c newCycle consecutive s).pending = s.pending ∧ (trip c newCycle consecutive s).spi.mem = s.spi.mem ∧ (trip c newCycle consecutive s).sram = s.sram ∧ (trip c newCycle consecutive s).cfg = s.cfg := by
  unfold trip; simp

/-! ### Ageing -/

@[simp] theorem setMIdx_frame (c : Nat) (m : Rat) (s : State) :
    (setMIdx c m s).pending = s.pending ∧ (setMIdx c m s).spi.mem = s.spi.mem ∧ (setMIdx c m s).sram = s.sram ∧ (setMIdx c m s).cfg = s.cfg := by
  unfold setMIdx; simp

@[simp] theorem postMargin_frame (c key : Nat) (m : Option Rat) (s : State) :
    (postMargin c key m s).pending = s.pending ∧ (postMargin c key m s).spi.mem = s.spi.mem ∧ (postMargin c key m s).sram = s.sram ∧ (postMargin c key m s).cfg = s.cfg := by
  unfold postMargin; simp

@[simp] theorem postRail_frame (r : Nat) (m : Rat) (s : State) :
    (postRail r m s).pending = s.pending ∧ (postRail r m s).spi.mem = s.spi.mem ∧ (postRail r m s).sram = s.sram ∧ (postRail r m s).cfg = s.cfg := by
  unfold postRail; simp

@[simp] theorem setMargin_frame (q i : Nat) (m : Rat) (s : State) :
    (setMargin q i m s).pending = s.pending ∧ (setMargin q i m s).spi.mem = s.spi.mem ∧ (setMargin q i m s).sram = s.sram ∧ (setMargin q i m s).cfg = s.cfg := by
  unfold setMargin; split <;> simp

@[simp] theorem returnMargin_frame (q i : Nat) (s : State) :
    (returnMargin q i s).pending = s.pending ∧ (returnMargin q i s).spi.mem = s.spi.mem ∧ (returnMargin q i s).sram = s.sram ∧ (returnMargin q i s).cfg = s.cfg := by
  unfold returnMargin; split <;> simp

@[simp] theorem returnAll_frame (s : State) :
    (returnAll s).pending = s.pending ∧ (returnAll s).spi.mem = s.spi.mem ∧ (returnAll s).sram = s.sram ∧ (returnAll s).cfg = s.cfg := by
  unfold returnAll; simp

@[simp] theorem recordReplan_frame (q i : Nat) (old new x : Rat) (s : State) :
    (recordReplan q i old new x s).pending = s.pending ∧ (recordReplan q i old new x s).spi.mem = s.spi.mem ∧ (recordReplan q i old new x s).sram = s.sram ∧ (recordReplan q i old new x s).cfg = s.cfg := by
  unfold recordReplan; simp

@[simp] theorem replan_frame (q i : Nat) (base x : Rat) (s : State) :
    (replan q i base x s).pending = s.pending ∧ (replan q i base x s).spi.mem = s.spi.mem ∧ (replan q i base x s).sram = s.sram ∧ (replan q i base x s).cfg = s.cfg := by
  unfold replan; (repeat' split) <;> simp

@[simp] theorem advise_frame (q i : Nat) (ok : Bool) (x : Rat) (s : State) :
    (advise q i ok x s).pending = s.pending ∧ (advise q i ok x s).spi.mem = s.spi.mem ∧ (advise q i ok x s).sram = s.sram ∧ (advise q i ok x s).cfg = s.cfg := by
  unfold advise; simp

@[simp] theorem takeEvaluation_frame (q i : Nat) (med cap : Rat) (s : State) :
    (takeEvaluation q i med cap s).pending = s.pending ∧ (takeEvaluation q i med cap s).spi.mem = s.spi.mem ∧ (takeEvaluation q i med cap s).sram = s.sram ∧ (takeEvaluation q i med cap s).cfg = s.cfg := by
  unfold takeEvaluation; simp

@[simp] theorem resetBaseline_frame (q i : Nat) (s : State) :
    (resetBaseline q i s).pending = s.pending ∧ (resetBaseline q i s).spi.mem = s.spi.mem ∧ (resetBaseline q i s).sram = s.sram ∧ (resetBaseline q i s).cfg = s.cfg := by
  unfold resetBaseline; simp

@[simp] theorem restoreMargin_frame (a : Nat × Nat × Age) (s : State) :
    (restoreMargin a s).pending = s.pending ∧ (restoreMargin a s).spi.mem = s.spi.mem ∧ (restoreMargin a s).sram = s.sram ∧ (restoreMargin a s).cfg = s.cfg := by
  unfold restoreMargin; simp

@[simp] theorem restoreMargins_frame (s : State) :
    (restoreMargins s).pending = s.pending ∧ (restoreMargins s).spi.mem = s.spi.mem ∧ (restoreMargins s).sram = s.sram ∧ (restoreMargins s).cfg = s.cfg := by
  unfold restoreMargins; simp

/-! ### Streams -/

@[simp] theorem streamCode_frame (code st : Nat) (s : State) :
    (streamCode code st s).pending = s.pending ∧ (streamCode code st s).spi.mem = s.spi.mem ∧ (streamCode code st s).sram = s.sram ∧ (streamCode code st s).cfg = s.cfg := by
  unfold streamCode; simp

@[simp] theorem sideTake_frame (st side seq : Nat) (s : State) :
    (sideTake st side seq s).pending = s.pending ∧ (sideTake st side seq s).spi.mem = s.spi.mem ∧ (sideTake st side seq s).sram = s.sram ∧ (sideTake st side seq s).cfg = s.cfg := by
  unfold sideTake; split <;> simp

@[simp] theorem skewTake_frame (st side tick : Nat) (c : Copy) (s : State) :
    (skewTake st side tick c s).pending = s.pending ∧ (skewTake st side tick c s).spi.mem = s.spi.mem ∧ (skewTake st side tick c s).sram = s.sram ∧ (skewTake st side tick c s).cfg = s.cfg := by
  unfold skewTake; simp

@[simp] theorem streamMerge_frame (st side : Nat) (u : List Byte) (tick : Nat) (s : State) :
    (streamMerge st side u tick s).pending = s.pending ∧ (streamMerge st side u tick s).spi.mem = s.spi.mem ∧ (streamMerge st side u tick s).sram = s.sram ∧ (streamMerge st side u tick s).cfg = s.cfg := by
  unfold streamMerge; dsimp only; (repeat' split) <;> simp

@[simp] theorem streamTake_frame (st side : Nat) (u : List Byte) (tick : Nat) (s : State) :
    (streamTake st side u tick s).pending = s.pending ∧ (streamTake st side u tick s).spi.mem = s.spi.mem ∧ (streamTake st side u tick s).sram = s.sram ∧ (streamTake st side u tick s).cfg = s.cfg := by
  unfold streamTake; simp

/-! ### Network -/

@[simp] theorem portCount_frame (p f n : Nat) (s : State) :
    (portCount p f n s).pending = s.pending ∧ (portCount p f n s).spi.mem = s.spi.mem ∧ (portCount p f n s).sram = s.sram ∧ (portCount p f n s).cfg = s.cfg := by
  and_intros <;> rfl

@[simp] theorem route_frame (port : Nat) (f : List Byte) (tick : Nat) (s : State) :
    (route port f tick s).pending = s.pending ∧ (route port f tick s).spi.mem = s.spi.mem ∧ (route port f tick s).cfg = s.cfg := by
  unfold route; dsimp only; (repeat' split) <;> and_intros <;> rfl

@[simp] theorem linkLost_frame (p : Nat) (s : State) :
    (linkLost p s).pending = s.pending ∧ (linkLost p s).spi.mem = s.spi.mem ∧ (linkLost p s).sram = s.sram ∧ (linkLost p s).cfg = s.cfg := by
  unfold linkLost; simp

@[simp] theorem moduleCheck_frame (old : Bank) (p : Nat) (s : State) :
    (moduleCheck old p s).pending = s.pending ∧ (moduleCheck old p s).spi.mem = s.spi.mem ∧ (moduleCheck old p s).sram = s.sram ∧ (moduleCheck old p s).cfg = s.cfg := by
  unfold moduleCheck; simp

@[simp] theorem badCount_frame (p : Nat) (fcsOk : Bool) (s : State) :
    (badCount p fcsOk s).pending = s.pending ∧ (badCount p fcsOk s).spi.mem = s.spi.mem ∧ (badCount p fcsOk s).sram = s.sram ∧ (badCount p fcsOk s).cfg = s.cfg := by
  and_intros <;> rfl

@[simp] theorem wakeTakes_frame (frame : List Byte) (s : State) :
    (wakeTakes frame s).pending = s.pending ∧ (wakeTakes frame s).spi.mem = s.spi.mem ∧ (wakeTakes frame s).cfg = s.cfg := by
  unfold wakeTakes; simp

@[simp] theorem monSend_frame (p j : Nat) (payload : List Byte) (s : State) :
    (monSend p j payload s).pending = s.pending ∧ (monSend p j payload s).spi.mem = s.spi.mem ∧ (monSend p j payload s).sram = s.sram ∧ (monSend p j payload s).cfg = s.cfg := by
  unfold monSend; simp

@[simp] theorem serveQueries_frame (p : Nat) (s : State) :
    (serveQueries p s).pending = s.pending ∧ (serveQueries p s).spi.mem = s.spi.mem ∧ (serveQueries p s).sram = s.sram ∧ (serveQueries p s).cfg = s.cfg := by
  unfold serveQueries; simp

@[simp] theorem serveReports_frame (p : Nat) (s : State) :
    (serveReports p s).pending = s.pending ∧ (serveReports p s).spi.mem = s.spi.mem ∧ (serveReports p s).sram = s.sram ∧ (serveReports p s).cfg = s.cfg := by
  unfold serveReports; simp

@[simp] theorem audioPut_frame (port : Nat) (e : List Byte) (tick : Nat) (s : State) :
    (audioPut port e tick s).pending = s.pending ∧ (audioPut port e tick s).spi.mem = s.spi.mem ∧ (audioPut port e tick s).sram = s.sram ∧ (audioPut port e tick s).cfg = s.cfg := by
  unfold audioPut; simp

@[simp] theorem takePacket_frame (st port : Nat) (e : List Byte) (tick : Nat) (s : State) :
    (takePacket st port e tick s).pending = s.pending ∧ (takePacket st port e tick s).spi.mem = s.spi.mem ∧ (takePacket st port e tick s).sram = s.sram ∧ (takePacket st port e tick s).cfg = s.cfg := by
  unfold takePacket; dsimp only; (repeat' split) <;> simp

/-! ### Pwm -/

@[simp] theorem tripChannel_frame (i c : Nat) (s : State) :
    (tripChannel i c s).pending = s.pending ∧ (tripChannel i c s).spi.mem = s.spi.mem ∧ (tripChannel i c s).sram = s.sram ∧ (tripChannel i c s).cfg = s.cfg := by
  unfold tripChannel; simp

@[simp] theorem assertTrip_frame (inp : Nat) (s : State) :
    (assertTrip inp s).pending = s.pending ∧ (assertTrip inp s).spi.mem = s.spi.mem ∧ (assertTrip inp s).sram = s.sram ∧ (assertTrip inp s).cfg = s.cfg := by
  unfold assertTrip; simp

@[simp] theorem takePeriod_frame (s : State) :
    (takePeriod s).pending = s.pending ∧ (takePeriod s).spi.mem = s.spi.mem ∧ (takePeriod s).sram = s.sram ∧ (takePeriod s).cfg = s.cfg := by
  unfold takePeriod; simp

@[simp] theorem commuteAt_frame (k count : Nat) (s : State) :
    (commuteAt k count s).pending = s.pending ∧ (commuteAt k count s).spi.mem = s.spi.mem ∧ (commuteAt k count s).sram = s.sram ∧ (commuteAt k count s).cfg = s.cfg := by
  unfold commuteAt; simp

@[simp] theorem pwmBoundary_frame (k : Nat) (s : State) :
    (pwmBoundary k s).pending = s.pending ∧ (pwmBoundary k s).spi.mem = s.spi.mem ∧ (pwmBoundary k s).sram = s.sram ∧ (pwmBoundary k s).cfg = s.cfg := by
  unfold pwmBoundary; simp

@[simp] theorem feedPeriod_frame (k : Nat) (dA : Rat) (s : State) :
    (feedPeriod k dA s).pending = s.pending ∧ (feedPeriod k dA s).spi.mem = s.spi.mem ∧ (feedPeriod k dA s).sram = s.sram ∧ (feedPeriod k dA s).cfg = s.cfg := by
  unfold feedPeriod; simp

@[simp] theorem fcStop_frame (c low cap : Nat) (dev : Rat) (s : State) :
    (fcStop c low cap dev s).pending = s.pending ∧ (fcStop c low cap dev s).spi.mem = s.spi.mem ∧ (fcStop c low cap dev s).sram = s.sram ∧ (fcStop c low cap dev s).cfg = s.cfg := by
  unfold fcStop; simp

@[simp] theorem fcSample_frame (k leg : Nat) (v1 v2 i : Rat) (s : State) :
    (fcSample k leg v1 v2 i s).pending = s.pending ∧ (fcSample k leg v1 v2 i s).spi.mem = s.spi.mem ∧ (fcSample k leg v1 v2 i s).sram = s.sram ∧ (fcSample k leg v1 v2 i s).cfg = s.cfg := by
  unfold fcSample; simp

@[simp] theorem cellPassed_frame (c : Nat) (s : State) :
    (cellPassed c s).pending = s.pending ∧ (cellPassed c s).spi.mem = s.spi.mem ∧ (cellPassed c s).sram = s.sram ∧ (cellPassed c s).cfg = s.cfg := by
  unfold cellPassed; simp

@[simp] theorem cellFailed_frame (c : Nat) (w : Word) (s : State) :
    (cellFailed c w s).pending = s.pending ∧ (cellFailed c w s).spi.mem = s.spi.mem ∧ (cellFailed c w s).sram = s.sram ∧ (cellFailed c w s).cfg = s.cfg := by
  unfold cellFailed; simp

@[simp] theorem cellFallback_frame (c open_ : Nat) (s : State) :
    (cellFallback c open_ s).pending = s.pending ∧ (cellFallback c open_ s).spi.mem = s.spi.mem ∧ (cellFallback c open_ s).sram = s.sram ∧ (cellFallback c open_ s).cfg = s.cfg := by
  unfold cellFallback; simp

/-! ### Rails -/

@[simp] theorem State.put_frame (id : Nat) (w : Word) (s : State) :
    (State.put id w s).pending = s.pending ∧ (State.put id w s).spi.mem = s.spi.mem ∧ (State.put id w s).sram = s.sram ∧ (State.put id w s).cfg = s.cfg := by
  and_intros <;> rfl

@[simp] theorem rselTaken_frame (up down old row us : Nat) (s : State) :
    (rselTaken up down old row us s).2.pending = s.pending ∧ (rselTaken up down old row us s).2.spi.mem = s.spi.mem ∧ (rselTaken up down old row us s).2.sram = s.sram ∧ (rselTaken up down old row us s).2.cfg = s.cfg := by
  unfold rselTaken; split <;> simp

@[simp] theorem keepRail_frame (rc row : Nat) (s : State) :
    (keepRail rc row s).pending = s.pending ∧ (keepRail rc row s).spi.mem = s.spi.mem ∧ (keepRail rc row s).sram = s.sram ∧ (keepRail rc row s).cfg = s.cfg := by
  unfold keepRail; simp

@[simp] theorem moveFreq_frame (r : Nat) (moving there : Nat) (s : State) :
    (moveFreq r moving there s).pending = s.pending ∧ (moveFreq r moving there s).spi.mem = s.spi.mem ∧ (moveFreq r moving there s).sram = s.sram ∧ (moveFreq r moving there s).cfg = s.cfg := by
  unfold moveFreq; simp

@[simp] theorem meetSync_frame (r : Nat) (s : State) :
    (meetSync r s).pending = s.pending ∧ (meetSync r s).spi.mem = s.spi.mem ∧ (meetSync r s).sram = s.sram ∧ (meetSync r s).cfg = s.cfg := by
  unfold meetSync; simp

@[simp] theorem railBegin_frame (r attempts left : Nat) (s : State) :
    (railBegin r attempts left s).pending = s.pending ∧ (railBegin r attempts left s).spi.mem = s.spi.mem ∧ (railBegin r attempts left s).sram = s.sram ∧ (railBegin r attempts left s).cfg = s.cfg := by
  unfold railBegin; simp

@[simp] theorem phaseFail_frame (r : Nat) (b open_ : Bool) (data : List Word) (s : State) :
    (phaseFail r b open_ data s).pending = s.pending ∧ (phaseFail r b open_ data s).spi.mem = s.spi.mem ∧ (phaseFail r b open_ data s).sram = s.sram ∧ (phaseFail r b open_ data s).cfg = s.cfg := by
  unfold phaseFail; simp

@[simp] theorem softStart_frame (r : Nat) (vPre : Rat) (s : State) :
    (softStart r vPre s).pending = s.pending ∧ (softStart r vPre s).spi.mem = s.spi.mem ∧ (softStart r vPre s).sram = s.sram ∧ (softStart r vPre s).cfg = s.cfg := by
  and_intros <;> rfl

@[simp] theorem nextCheck_frame (r n : Nat) (vPre : Rat) (s : State) :
    (nextCheck r n vPre s).pending = s.pending ∧ (nextCheck r n vPre s).spi.mem = s.spi.mem ∧ (nextCheck r n vPre s).sram = s.sram ∧ (nextCheck r n vPre s).cfg = s.cfg := by
  unfold nextCheck; simp

@[simp] theorem testCheck_frame (rc : Nat) (isx vis vos rise : Rat) (s : State) :
    (testCheck rc isx vis vos rise s).pending = s.pending ∧ (testCheck rc isx vis vos rise s).spi.mem = s.spi.mem ∧ (testCheck rc isx vis vos rise s).sram = s.sram ∧ (testCheck rc isx vis vos rise s).cfg = s.cfg := by
  unfold testCheck; simp

@[simp] theorem stopRails_frame (s : State) :
    (stopRails s).pending = s.pending ∧ (stopRails s).spi.mem = s.spi.mem ∧ (stopRails s).sram = s.sram ∧ (stopRails s).cfg = s.cfg := by
  unfold stopRails; simp

@[simp] theorem judgeTemp_frame (r : Nat) (s : State) :
    (judgeTemp r s).pending = s.pending ∧ (judgeTemp r s).spi.mem = s.spi.mem ∧ (judgeTemp r s).sram = s.sram ∧ (judgeTemp r s).cfg = s.cfg := by
  unfold judgeTemp; simp

@[simp] theorem takeNtc_frame (r : Nat) (ohm : Rat) (s : State) :
    (takeNtc r ohm s).pending = s.pending ∧ (takeNtc r ohm s).spi.mem = s.spi.mem ∧ (takeNtc r ohm s).sram = s.sram ∧ (takeNtc r ohm s).cfg = s.cfg := by
  unfold takeNtc; simp

@[simp] theorem railSecond_frame (rc : Nat) (vOut pOut : Rat) (s : State) :
    (railSecond rc vOut pOut s).pending = s.pending ∧ (railSecond rc vOut pOut s).spi.mem = s.spi.mem ∧ (railSecond rc vOut pOut s).sram = s.sram ∧ (railSecond rc vOut pOut s).cfg = s.cfg := by
  unfold railSecond; simp

/-! ### MediaOps -/

@[simp] theorem loopEnter_frame (keep : Bool) (s : State) :
    (loopEnter keep s).pending = s.pending ∧ (loopEnter keep s).spi.mem = s.spi.mem ∧ (loopEnter keep s).sram = s.sram ∧ (loopEnter keep s).cfg = s.cfg := by
  and_intros <;> rfl

@[simp] theorem holdoverEnter_frame (s : State) :
    (holdoverEnter s).pending = s.pending ∧ (holdoverEnter s).spi.mem = s.spi.mem ∧ (holdoverEnter s).sram = s.sram ∧ (holdoverEnter s).cfg = s.cfg := by
  unfold holdoverEnter; simp

@[simp] theorem sourceCheck_frame (s : State) :
    (sourceCheck s).pending = s.pending ∧ (sourceCheck s).spi.mem = s.spi.mem ∧ (sourceCheck s).sram = s.sram ∧ (sourceCheck s).cfg = s.cfg := by
  unfold sourceCheck; (repeat' split) <;> simp

@[simp] theorem sourceChange_frame (src : Nat) (s : State) :
    (sourceChange src s).pending = s.pending ∧ (sourceChange src s).spi.mem = s.spi.mem ∧ (sourceChange src s).sram = s.sram ∧ (sourceChange src s).cfg = s.cfg := by
  unfold sourceChange; simp

@[simp] theorem commitShift_frame (s : State) :
    (commitShift s).pending = s.pending ∧ (commitShift s).spi.mem = s.spi.mem ∧ (commitShift s).sram = s.sram := by
  unfold commitShift; (repeat' split) <;> simp

@[simp] theorem tdmFade_frame (held : Bool) (x n : Nat) (s : State) :
    (tdmFade held x n s).pending = s.pending ∧ (tdmFade held x n s).spi.mem = s.spi.mem ∧ (tdmFade held x n s).sram = s.sram ∧ (tdmFade held x n s).cfg = s.cfg := by
  unfold tdmFade; simp

@[simp] theorem tdmCause_frame (x rank n : Nat) (raise : State → State) (s : State) (h : ∀ s, (raise s).pending = s.pending ∧ (raise s).spi.mem = s.spi.mem ∧ (raise s).sram = s.sram ∧ (raise s).cfg = s.cfg) :
    (tdmCause x rank n raise s).pending = s.pending ∧ (tdmCause x rank n raise s).spi.mem = s.spi.mem ∧ (tdmCause x rank n raise s).sram = s.sram ∧ (tdmCause x rank n raise s).cfg = s.cfg := by
  unfold tdmCause; dsimp only; split <;> simp [h]

@[simp] theorem tdmCode_frame (code x : Nat) (s : State) :
    (tdmCode code x s).pending = s.pending ∧ (tdmCode code x s).spi.mem = s.spi.mem ∧ (tdmCode code x s).sram = s.sram ∧ (tdmCode code x s).cfg = s.cfg := by
  unfold tdmCode; simp

@[simp] theorem tdmBlock_frame (x : Nat) (s : State) :
    (tdmBlock x s).pending = s.pending ∧ (tdmBlock x s).spi.mem = s.spi.mem ∧ (tdmBlock x s).sram = s.sram ∧ (tdmBlock x s).cfg = s.cfg := by
  and_intros <;> rfl

/-! ### Ptp -/

@[simp] theorem followBest_frame (s : State) :
    (followBest s).pending = s.pending ∧ (followBest s).spi.mem = s.spi.mem ∧ (followBest s).sram = s.sram ∧ (followBest s).cfg = s.cfg := by
  unfold followBest; dsimp only; (repeat' split) <;> simp

@[simp] theorem timeTaken_frame (port : Nat) (s : State) :
    (timeTaken port s).pending = s.pending ∧ (timeTaken port s).spi.mem = s.spi.mem ∧ (timeTaken port s).sram = s.sram ∧ (timeTaken port s).cfg = s.cfg := by
  and_intros <;> rfl

@[simp] theorem measure_frame (off : Rat) (at_ : Nat) (s : State) :
    (measure off at_ s).pending = s.pending ∧ (measure off at_ s).spi.mem = s.spi.mem ∧ (measure off at_ s).sram = s.sram ∧ (measure off at_ s).cfg = s.cfg := by
  unfold measure; dsimp only; (repeat' split) <;> simp

@[simp] theorem ptpEnable_frame (s : State) :
    (ptpEnable s).pending = s.pending ∧ (ptpEnable s).spi.mem = s.spi.mem ∧ (ptpEnable s).sram = s.sram ∧ (ptpEnable s).cfg = s.cfg := by
  unfold ptpEnable; dsimp only; (repeat' split) <;> simp

/-! ### Media -/

@[simp] theorem loopUpdate_frame (e : Rat) (s : State) :
    (loopUpdate e s).pending = s.pending ∧ (loopUpdate e s).spi.mem = s.spi.mem ∧ (loopUpdate e s).sram = s.sram ∧ (loopUpdate e s).cfg = s.cfg := by
  and_intros <;> rfl

@[simp] theorem stepLeave_frame (s : State) :
    (stepLeave s).pending = s.pending ∧ (stepLeave s).spi.mem = s.spi.mem ∧ (stepLeave s).sram = s.sram ∧ (stepLeave s).cfg = s.cfg := by
  unfold stepLeave; simp

@[simp] theorem tdmPlace_frame (x : Nat) (samples : List Int) (tick : Nat) (s : State) :
    (tdmPlace x samples tick s).pending = s.pending ∧ (tdmPlace x samples tick s).spi.mem = s.spi.mem ∧ (tdmPlace x samples tick s).sram = s.sram ∧ (tdmPlace x samples tick s).cfg = s.cfg := by
  unfold tdmPlace; simp

@[simp] theorem tdmNote_frame (x : Nat) (onTime : Bool) (use : List Int) (tick : Nat) (s : State) :
    (tdmNote x onTime use tick s).pending = s.pending ∧ (tdmNote x onTime use tick s).spi.mem = s.spi.mem ∧ (tdmNote x onTime use tick s).sram = s.sram ∧ (tdmNote x onTime use tick s).cfg = s.cfg := by
  unfold tdmNote; simp

@[simp] theorem tdmJudge_frame (x tick : Nat) (placed : Bool) (s : State) :
    (tdmJudge x tick placed s).pending = s.pending ∧ (tdmJudge x tick placed s).spi.mem = s.spi.mem ∧ (tdmJudge x tick placed s).sram = s.sram ∧ (tdmJudge x tick placed s).cfg = s.cfg := by
  unfold tdmJudge; simp

@[simp] theorem tdmJudgeDue_frame (x : Nat) (s : State) :
    (tdmJudgeDue x s).pending = s.pending ∧ (tdmJudgeDue x s).spi.mem = s.spi.mem ∧ (tdmJudgeDue x s).sram = s.sram ∧ (tdmJudgeDue x s).cfg = s.cfg := by
  unfold tdmJudgeDue; split <;> simp

/-! ### CommitOps -/

@[simp] theorem modCommit_frame (f : Commit → Commit) (s : State) :
    (modCommit f s).pending = s.pending ∧ (modCommit f s).spi.mem = s.spi.mem ∧ (modCommit f s).sram = s.sram := by
  and_intros <;> rfl

@[simp] theorem commitRecord_frame (ticket k0 span flags : Nat) (s : State) :
    (commitRecord ticket k0 span flags s).pending = s.pending ∧ (commitRecord ticket k0 span flags s).spi.mem = s.spi.mem ∧ (commitRecord ticket k0 span flags s).sram = s.sram ∧ (commitRecord ticket k0 span flags s).cfg = s.cfg := by
  unfold commitRecord; simp

@[simp] theorem commitGone_frame (s : State) :
    (commitGone s).pending = s.pending ∧ (commitGone s).spi.mem = s.spi.mem ∧ (commitGone s).sram = s.sram := by
  and_intros <;> rfl

@[simp] theorem abandonCommit_frame (cause : Nat) (s : State) :
    (abandonCommit cause s).pending = s.pending ∧ (abandonCommit cause s).spi.mem = s.spi.mem ∧ (abandonCommit cause s).sram = s.sram := by
  unfold abandonCommit; dsimp only; (repeat' split) <;> simp

@[simp] theorem endForUnit_frame (u : CUnit) (s : State) :
    (endForUnit u s).pending = s.pending ∧ (endForUnit u s).spi.mem = s.spi.mem ∧ (endForUnit u s).sram = s.sram ∧ (endForUnit u s).cfg = s.cfg := by
  unfold endForUnit; simp

@[simp] theorem holdForUnit_frame (u : CUnit) (s : State) :
    (holdForUnit u s).pending = s.pending ∧ (holdForUnit u s).spi.mem = s.spi.mem ∧ (holdForUnit u s).sram = s.sram ∧ (holdForUnit u s).cfg = s.cfg := by
  unfold holdForUnit; simp

@[simp] theorem stopForUnit_frame (u : CUnit) (s : State) :
    (stopForUnit u s).pending = s.pending ∧ (stopForUnit u s).spi.mem = s.spi.mem ∧ (stopForUnit u s).sram = s.sram ∧ (stopForUnit u s).cfg = s.cfg := by
  unfold stopForUnit; split <;> simp

@[simp] theorem agreeCommit_frame (s : State) :
    (agreeCommit s).pending = s.pending ∧ (agreeCommit s).spi.mem = s.spi.mem ∧ (agreeCommit s).sram = s.sram := by
  unfold agreeCommit; split <;> simp

@[simp] theorem judgeProposals_frame (s : State) :
    (judgeProposals s).pending = s.pending ∧ (judgeProposals s).spi.mem = s.spi.mem ∧ (judgeProposals s).sram = s.sram := by
  unfold judgeProposals; split <;> simp

/-! ### ModeOps -/

@[simp] theorem stopDevice_frame (s : State) :
    (stopDevice s).pending = s.pending ∧ (stopDevice s).spi.mem = s.spi.mem ∧ (stopDevice s).sram = s.sram ∧ (stopDevice s).cfg = s.cfg := by
  unfold stopDevice; simp

@[simp] theorem standbyOff_frame (s : State) :
    (standbyOff s).pending = s.pending ∧ (standbyOff s).spi.mem = s.spi.mem ∧ (standbyOff s).sram = s.sram ∧ (standbyOff s).cfg = s.cfg := by
  unfold standbyOff; simp

@[simp] theorem enterStandby_frame (s : State) :
    (enterStandby s).pending = s.pending ∧ (enterStandby s).spi.mem = s.spi.mem ∧ (enterStandby s).sram = s.sram ∧ (enterStandby s).cfg = s.cfg := by
  unfold enterStandby; simp

@[simp] theorem askStandby_frame (s : State) :
    (askStandby s).pending = s.pending ∧ (askStandby s).spi.mem = s.spi.mem ∧ (askStandby s).sram = s.sram ∧ (askStandby s).cfg = s.cfg := by
  unfold askStandby; simp

@[simp] theorem standbyGoes_frame (s : State) :
    (standbyGoes s).pending = s.pending ∧ (standbyGoes s).spi.mem = s.spi.mem ∧ (standbyGoes s).sram = s.sram ∧ (standbyGoes s).cfg = s.cfg := by
  unfold standbyGoes; simp

@[simp] theorem commandReset_frame (s : State) :
    (commandReset s).pending = s.pending := by
  unfold commandReset; simp

@[simp] theorem resetAfter_frame (i : Nat) (s : State) :
    (resetAfter i s).pending = s.pending := by
  unfold resetAfter; simp

/-! ### Dsp -/

@[simp] theorem modelWindow_frame (sense : List SensePair) (c : Nat) (s : State) :
    (modelWindow sense c s).pending = s.pending ∧ (modelWindow sense c s).spi.mem = s.spi.mem ∧ (modelWindow sense c s).sram = s.sram ∧ (modelWindow sense c s).cfg = s.cfg := by
  unfold modelWindow; simp

@[simp] theorem gatherWindow_frame (sense : List SensePair) (c : Nat) (s : State) :
    (gatherWindow sense c s).pending = s.pending ∧ (gatherWindow sense c s).spi.mem = s.spi.mem ∧ (gatherWindow sense c s).sram = s.sram ∧ (gatherWindow sense c s).cfg = s.cfg := by
  unfold gatherWindow; simp

@[simp] theorem chanWindow_frame (sense : List SensePair) (c : Nat) (s : State) :
    (chanWindow sense c s).pending = s.pending ∧ (chanWindow sense c s).spi.mem = s.spi.mem ∧ (chanWindow sense c s).sram = s.sram ∧ (chanWindow sense c s).cfg = s.cfg := by
  unfold chanWindow; simp

@[simp] theorem trackRail_frame (r : Nat) (s : State) :
    (trackRail r s).pending = s.pending ∧ (trackRail r s).spi.mem = s.spi.mem ∧ (trackRail r s).sram = s.sram ∧ (trackRail r s).cfg = s.cfg := by
  unfold trackRail; simp

@[simp] theorem stageBlock_frame (d : Nat) (s : State) :
    (stageBlock d s).pending = s.pending ∧ (stageBlock d s).spi.mem = s.spi.mem ∧ (stageBlock d s).sram = s.sram ∧ (stageBlock d s).cfg = s.cfg := by
  unfold stageBlock; simp

/-! ### TwinOps -/

@[simp] theorem frameError_frame (s : State) :
    (frameError s).pending = s.pending ∧ (frameError s).spi.mem = s.spi.mem ∧ (frameError s).sram = s.sram ∧ (frameError s).cfg = s.cfg := by
  and_intros <;> rfl

@[simp] theorem dropChannels_frame (s : State) :
    (dropChannels s).pending = s.pending ∧ (dropChannels s).spi.mem = s.spi.mem ∧ (dropChannels s).sram = s.sram ∧ (dropChannels s).cfg = s.cfg := by
  unfold dropChannels; simp

@[simp] theorem unshare_frame (s : State) :
    (unshare s).pending = s.pending ∧ (unshare s).spi.mem = s.spi.mem ∧ (unshare s).sram = s.sram ∧ (unshare s).cfg = s.cfg := by
  and_intros <;> rfl

@[simp] theorem judgeMode_frame (s : State) :
    (judgeMode s).pending = s.pending ∧ (judgeMode s).spi.mem = s.spi.mem ∧ (judgeMode s).sram = s.sram ∧ (judgeMode s).cfg = s.cfg := by
  unfold judgeMode; simp

@[simp] theorem yieldLead_frame (s : State) :
    (yieldLead s).pending = s.pending ∧ (yieldLead s).spi.mem = s.spi.mem ∧ (yieldLead s).sram = s.sram ∧ (yieldLead s).cfg = s.cfg := by
  unfold yieldLead; simp

@[simp] theorem pauseSharing_frame (s : State) :
    (pauseSharing s).pending = s.pending ∧ (pauseSharing s).spi.mem = s.spi.mem ∧ (pauseSharing s).sram = s.sram ∧ (pauseSharing s).cfg = s.cfg := by
  unfold pauseSharing; simp

@[simp] theorem pauseTime_frame (s : State) :
    (pauseTime s).pending = s.pending ∧ (pauseTime s).spi.mem = s.spi.mem ∧ (pauseTime s).sram = s.sram ∧ (pauseTime s).cfg = s.cfg := by
  unfold pauseTime; simp

@[simp] theorem takeover_frame (cause : Nat) (s : State) :
    (takeover cause s).pending = s.pending ∧ (takeover cause s).spi.mem = s.spi.mem ∧ (takeover cause s).sram = s.sram ∧ (takeover cause s).cfg = s.cfg := by
  unfold takeover; simp

@[simp] theorem judgeLeads_frame (was : Bool) (s : State) :
    (judgeLeads was s).pending = s.pending ∧ (judgeLeads was s).spi.mem = s.spi.mem ∧ (judgeLeads was s).sram = s.sram ∧ (judgeLeads was s).cfg = s.cfg := by
  unfold judgeLeads; simp

@[simp] theorem formPair_frame (s : State) :
    (formPair s).pending = s.pending ∧ (formPair s).spi.mem = s.spi.mem ∧ (formPair s).sram = s.sram ∧ (formPair s).cfg = s.cfg := by
  unfold formPair; simp

@[simp] theorem partnerBeacon_frame (peer : Bool) (b : List Byte) (s : State) :
    (partnerBeacon peer b s).pending = s.pending ∧ (partnerBeacon peer b s).spi.mem = s.spi.mem ∧ (partnerBeacon peer b s).sram = s.sram ∧ (partnerBeacon peer b s).cfg = s.cfg := by
  unfold partnerBeacon; simp

@[simp] theorem noPartner_frame (s : State) :
    (noPartner s).pending = s.pending ∧ (noPartner s).spi.mem = s.spi.mem ∧ (noPartner s).sram = s.sram ∧ (noPartner s).cfg = s.cfg := by
  and_intros <;> rfl

@[simp] theorem partnerGone_frame (s : State) :
    (partnerGone s).pending = s.pending ∧ (partnerGone s).spi.mem = s.spi.mem ∧ (partnerGone s).sram = s.sram ∧ (partnerGone s).cfg = s.cfg := by
  unfold partnerGone; simp

@[simp] theorem takeBeacon_frame (peer : Bool) (b : List Byte) (s : State) :
    (takeBeacon peer b s).pending = s.pending ∧ (takeBeacon peer b s).spi.mem = s.spi.mem ∧ (takeBeacon peer b s).sram = s.sram ∧ (takeBeacon peer b s).cfg = s.cfg := by
  unfold takeBeacon; simp

@[simp] theorem correct_frame (c m : Nat) (s : State) :
    (correct c m s).pending = s.pending ∧ (correct c m s).spi.mem = s.spi.mem ∧ (correct c m s).sram = s.sram ∧ (correct c m s).cfg = s.cfg := by
  unfold correct; dsimp only; (repeat' split) <;> simp

@[simp] theorem takeSample_frame (f : Fz) (s : State) :
    (takeSample f s).pending = s.pending ∧ (takeSample f s).spi.mem = s.spi.mem ∧ (takeSample f s).sram = s.sram ∧ (takeSample f s).cfg = s.cfg := by
  unfold takeSample; simp

@[simp] theorem blockChan_frame (idx : Nat) (b : List Byte) (c : Nat) (s : State) :
    (blockChan idx b c s).pending = s.pending ∧ (blockChan idx b c s).spi.mem = s.spi.mem ∧ (blockChan idx b c s).sram = s.sram ∧ (blockChan idx b c s).cfg = s.cfg := by
  unfold blockChan; simp

@[simp] theorem takeBlock_frame (f : Fz) (s : State) :
    (takeBlock f s).pending = s.pending ∧ (takeBlock f s).spi.mem = s.spi.mem ∧ (takeBlock f s).sram = s.sram ∧ (takeBlock f s).cfg = s.cfg := by
  unfold takeBlock; simp

@[simp] theorem adoptOne_frame (c : Nat) (s : State) :
    (adoptOne c s).pending = s.pending ∧ (adoptOne c s).spi.mem = s.spi.mem ∧ (adoptOne c s).sram = s.sram ∧ (adoptOne c s).cfg = s.cfg := by
  unfold adoptOne; split <;> simp

@[simp] theorem adopt_frame (s : State) :
    (adopt s).pending = s.pending ∧ (adopt s).spi.mem = s.spi.mem ∧ (adopt s).sram = s.sram ∧ (adopt s).cfg = s.cfg := by
  unfold adopt; simp

@[simp] theorem formDigest_frame (s : State) :
    (formDigest s).pending = s.pending ∧ (formDigest s).spi.mem = s.spi.mem ∧ (formDigest s).sram = s.sram ∧ (formDigest s).cfg = s.cfg := by
  unfold formDigest; simp

@[simp] theorem takeModel_frame (f : Fz) (s : State) :
    (takeModel f s).pending = s.pending ∧ (takeModel f s).spi.mem = s.spi.mem ∧ (takeModel f s).sram = s.sram ∧ (takeModel f s).cfg = s.cfg := by
  unfold takeModel; simp

@[simp] theorem takeEpoch_frame (f : Fz) (s : State) :
    (takeEpoch f s).pending = s.pending ∧ (takeEpoch f s).spi.mem = s.spi.mem ∧ (takeEpoch f s).sram = s.sram := by
  unfold takeEpoch; dsimp only; split <;> simp

@[simp] theorem takeTime_frame (f : Fz) (t2 : Nat) (s : State) :
    (takeTime f t2 s).pending = s.pending ∧ (takeTime f t2 s).spi.mem = s.spi.mem ∧ (takeTime f t2 s).sram = s.sram ∧ (takeTime f t2 s).cfg = s.cfg := by
  unfold takeTime; simp

@[simp] theorem takeFzBeacon_frame (f : Fz) (s : State) :
    (takeFzBeacon f s).pending = s.pending ∧ (takeFzBeacon f s).spi.mem = s.spi.mem ∧ (takeFzBeacon f s).sram = s.sram ∧ (takeFzBeacon f s).cfg = s.cfg := by
  unfold takeFzBeacon; simp

@[simp] theorem badFrame_frame (ty : Nat) (s : State) :
    (badFrame ty s).pending = s.pending ∧ (badFrame ty s).spi.mem = s.spi.mem ∧ (badFrame ty s).sram = s.sram ∧ (badFrame ty s).cfg = s.cfg := by
  unfold badFrame; simp

@[simp] theorem fzPass_frame (ty : Nat) (l : List Byte) (t2 : Nat) (s : State) :
    (fzPass ty l t2 s).pending = s.pending ∧ (fzPass ty l t2 s).spi.mem = s.spi.mem ∧ (fzPass ty l t2 s).sram = s.sram := by
  unfold fzPass; (repeat' split) <;> simp

@[simp] theorem fzReleaseHeld_frame (t2 : Nat) (s : State) :
    (fzReleaseHeld t2 s).pending = s.pending ∧ (fzReleaseHeld t2 s).spi.mem = s.spi.mem ∧ (fzReleaseHeld t2 s).sram = s.sram := by
  unfold fzReleaseHeld; split <;> simp

@[simp] theorem fzReceive_frame (ty : Nat) (l : List Byte) (t2 : Nat) (s : State) :
    (fzReceive ty l t2 s).pending = s.pending ∧ (fzReceive ty l t2 s).spi.mem = s.spi.mem ∧ (fzReceive ty l t2 s).sram = s.sram := by
  unfold fzReceive; dsimp only; (repeat' split) <;> simp

/-! ### Commit -/

@[simp] theorem acceptCommit_frame (named : Option Nat) (xfade : Bool) (s : State) :
    (acceptCommit named xfade s).pending = s.pending ∧ (acceptCommit named xfade s).spi.mem = s.spi.mem ∧ (acceptCommit named xfade s).sram = s.sram := by
  unfold acceptCommit; dsimp only; split <;> simp

@[simp] theorem switchDsp_frame (old new : Bank) (c : Nat) (s : State) :
    (switchDsp old new c s).pending = s.pending ∧ (switchDsp old new c s).spi.mem = s.spi.mem ∧ (switchDsp old new c s).sram = s.sram ∧ (switchDsp old new c s).cfg = s.cfg := by
  unfold switchDsp; simp

@[simp] theorem switchModel_frame (old new : Bank) (c : Nat) (s : State) :
    (switchModel old new c s).pending = s.pending ∧ (switchModel old new c s).spi.mem = s.spi.mem ∧ (switchModel old new c s).sram = s.sram ∧ (switchModel old new c s).cfg = s.cfg := by
  unfold switchModel; simp

@[simp] theorem holdCycle_frame (old new : Bank) (c : Nat) (s : State) :
    (holdCycle old new c s).pending = s.pending ∧ (holdCycle old new c s).spi.mem = s.spi.mem ∧ (holdCycle old new c s).sram = s.sram ∧ (holdCycle old new c s).cfg = s.cfg := by
  unfold holdCycle; simp

@[simp] theorem switchChan_frame (old new : Bank) (c : Nat) (x : Bool) (s : State) :
    (switchChan old new c x s).pending = s.pending ∧ (switchChan old new c x s).spi.mem = s.spi.mem ∧ (switchChan old new c x s).sram = s.sram ∧ (switchChan old new c x s).cfg = s.cfg := by
  unfold switchChan; simp

@[simp] theorem switchInjectors_frame (new : Bank) (i : Nat) (s : State) :
    (switchInjectors new i s).pending = s.pending ∧ (switchInjectors new i s).spi.mem = s.spi.mem ∧ (switchInjectors new i s).sram = s.sram ∧ (switchInjectors new i s).cfg = s.cfg := by
  unfold switchInjectors; simp

@[simp] theorem switchStream_frame (new : Bank) (i : Nat) (s : State) :
    (switchStream new i s).pending = s.pending ∧ (switchStream new i s).spi.mem = s.spi.mem ∧ (switchStream new i s).sram = s.sram ∧ (switchStream new i s).cfg = s.cfg := by
  unfold switchStream; simp

@[simp] theorem switchTdm_frame (old new : Bank) (x : Nat) (s : State) :
    (switchTdm old new x s).pending = s.pending ∧ (switchTdm old new x s).spi.mem = s.spi.mem ∧ (switchTdm old new x s).sram = s.sram ∧ (switchTdm old new x s).cfg = s.cfg := by
  unfold switchTdm; simp

@[simp] theorem switchNet_frame (old : Bank) (s : State) :
    (switchNet old s).pending = s.pending ∧ (switchNet old s).spi.mem = s.spi.mem ∧ (switchNet old s).sram = s.sram ∧ (switchNet old s).cfg = s.cfg := by
  unfold switchNet; simp

@[simp] theorem switchDev_frame (old new : Bank) (s : State) :
    (switchDev old new s).pending = s.pending ∧ (switchDev old new s).spi.mem = s.spi.mem ∧ (switchDev old new s).sram = s.sram ∧ (switchDev old new s).cfg = s.cfg := by
  unfold switchDev; simp

@[simp] theorem switchRail_frame (old new : Bank) (r : Nat) (s : State) :
    (switchRail old new r s).pending = s.pending ∧ (switchRail old new r s).spi.mem = s.spi.mem ∧ (switchRail old new r s).sram = s.sram ∧ (switchRail old new r s).cfg = s.cfg := by
  unfold switchRail; simp

@[simp] theorem switchTwin_frame (old new : Bank) (s : State) :
    (switchTwin old new s).pending = s.pending ∧ (switchTwin old new s).spi.mem = s.spi.mem ∧ (switchTwin old new s).sram = s.sram ∧ (switchTwin old new s).cfg = s.cfg := by
  unfold switchTwin; simp

@[simp] theorem switchEffects_frame (old new : Bank) (u : CUnit) (x : Bool) (s : State) :
    (switchEffects old new u x s).pending = s.pending ∧ (switchEffects old new u x s).spi.mem = s.spi.mem ∧ (switchEffects old new u x s).sram = s.sram ∧ (switchEffects old new u x s).cfg = s.cfg := by
  unfold switchEffects; split <;> simp

@[simp] theorem releaseRestarts_frame (s : State) :
    (releaseRestarts s).pending = s.pending ∧ (releaseRestarts s).spi.mem = s.spi.mem ∧ (releaseRestarts s).sram = s.sram ∧ (releaseRestarts s).cfg = s.cfg := by
  unfold releaseRestarts; simp

@[simp] theorem lPeriod_frame (u : CUnit) (s : State) :
    (lPeriod u s).pending = s.pending ∧ (lPeriod u s).spi.mem = s.spi.mem ∧ (lPeriod u s).sram = s.sram ∧ (lPeriod u s).cfg = s.cfg := by
  unfold lPeriod; (repeat' split) <;> simp

@[simp] theorem switchUnit_frame (u : UnitPlan) (b : Nat) (s : State) :
    (switchUnit u b s).pending = s.pending ∧ (switchUnit u b s).spi.mem = s.spi.mem ∧ (switchUnit u b s).sram = s.sram := by
  unfold switchUnit; simp

/-! ### Spi -/

@[simp] theorem spiErr_frame (n : Nat) (s : State) :
    (spiErr n s).pending = s.pending ∧ (spiErr n s).spi.mem = s.spi.mem ∧ (spiErr n s).sram = s.sram ∧ (spiErr n s).cfg = s.cfg := by
  unfold spiErr; simp

@[simp] theorem ringAll_frame (v : Word) (s : State) :
    (ringAll v s).pending = s.pending ∧ (ringAll v s).spi.mem = s.spi.mem ∧ (ringAll v s).sram = s.sram ∧ (ringAll v s).cfg = s.cfg := by
  unfold ringAll; simp

@[simp] theorem releaseRsp_frame (v : Word) (s : State) :
    (releaseRsp v s).pending = s.pending ∧ (releaseRsp v s).spi.mem = s.spi.mem ∧ (releaseRsp v s).sram = s.sram ∧ (releaseRsp v s).cfg = s.cfg := by
  and_intros <;> rfl

@[simp] theorem clearIrq_frame (v : Word) (s : State) :
    (clearIrq v s).pending = s.pending ∧ (clearIrq v s).spi.mem = s.spi.mem ∧ (clearIrq v s).sram = s.sram ∧ (clearIrq v s).cfg = s.cfg := by
  and_intros <;> rfl

@[simp] theorem setEmute_frame (b : Bool) (s : State) :
    (setEmute b s).pending = s.pending ∧ (setEmute b s).spi.mem = s.spi.mem ∧ (setEmute b s).sram = s.sram ∧ (setEmute b s).cfg = s.cfg := by
  and_intros <;> rfl

@[simp] theorem imageByte_frame (b : Byte) (s : State) :
    (imageByte b s).pending = s.pending ∧ (imageByte b s).spi.mem = s.spi.mem ∧ (imageByte b s).sram = s.sram ∧ (imageByte b s).cfg = s.cfg := by
  unfold imageByte; simp

@[simp] theorem clearImage_frame (s : State) :
    (clearImage s).pending = s.pending ∧ (clearImage s).spi.mem = s.spi.mem ∧ (clearImage s).sram = s.sram ∧ (clearImage s).cfg = s.cfg := by
  unfold clearImage; simp

@[simp] theorem goImage_frame (s : State) :
    (goImage s).pending = s.pending ∧ (goImage s).spi.mem = s.spi.mem ∧ (goImage s).cfg = s.cfg := by
  unfold goImage; simp

/-! ### Xbar -/

@[simp] theorem flashWord_frame (o : Nat) (s : State) :
    (flashWord o s).2.pending = s.pending ∧ (flashWord o s).2.spi.mem = s.spi.mem ∧ (flashWord o s).2.sram = s.sram ∧ (flashWord o s).2.cfg = s.cfg := by
  unfold flashWord
  exact ⟨foldl2_pending (fun p a => by dsimp only; split <;> simp) _ _, foldl2_spi_mem (fun p a => by dsimp only; split <;> simp) _ _, foldl2_sram (fun p a => by dsimp only; split <;> simp) _ _, foldl2_cfg (fun p a => by dsimp only; split <;> simp) _ _⟩

@[simp] theorem pwmRead_frame (off : Nat) (s : State) :
    (pwmRead off s).2.pending = s.pending ∧ (pwmRead off s).2.spi.mem = s.spi.mem ∧ (pwmRead off s).2.sram = s.sram ∧ (pwmRead off s).2.cfg = s.cfg := by
  unfold pwmRead; (repeat' split) <;> simp

@[simp] theorem pwmWrite_frame (off : Nat) (v : Word) (s : State) :
    (pwmWrite off v s).pending = s.pending ∧ (pwmWrite off v s).spi.mem = s.spi.mem ∧ (pwmWrite off v s).sram = s.sram ∧ (pwmWrite off v s).cfg = s.cfg := by
  unfold pwmWrite; (repeat' split) <;> simp

@[simp] theorem plainRead_frame (a : Nat) (s : State) :
    (plainRead a s).2.pending = s.pending ∧ (plainRead a s).2.spi.mem = s.spi.mem ∧ (plainRead a s).2.sram = s.sram ∧ (plainRead a s).2.cfg = s.cfg := by
  unfold plainRead; (repeat' split) <;> simp

@[simp] theorem plainWrite_frame (a : Nat) (v : Word) (s : State) :
    (plainWrite a v s).pending = s.pending ∧ (plainWrite a v s).spi.mem = s.spi.mem ∧ (plainWrite a v s).sram = s.sram ∧ (plainWrite a v s).cfg = s.cfg := by
  unfold plainWrite; simp

/-! ### Mailbox -/

@[simp] theorem freshHolds_frame (s : State) :
    (freshHolds s).pending = s.pending ∧ (freshHolds s).spi.mem = s.spi.mem ∧ (freshHolds s).sram = s.sram ∧ (freshHolds s).cfg = s.cfg := by
  unfold freshHolds; simp

@[simp] theorem clearLatches_frame (scope : Nat) (s : State) :
    (clearLatches scope s).pending = s.pending ∧ (clearLatches scope s).spi.mem = s.spi.mem ∧ (clearLatches scope s).sram = s.sram ∧ (clearLatches scope s).cfg = s.cfg := by
  unfold clearLatches; simp

@[simp] theorem clearRail_frame (r : Nat) (s : State) :
    (clearRail r s).pending = s.pending ∧ (clearRail r s).spi.mem = s.spi.mem ∧ (clearRail r s).sram = s.sram ∧ (clearRail r s).cfg = s.cfg := by
  unfold clearRail; simp

@[simp] theorem leaveSafe_frame (s : State) :
    (leaveSafe s).pending = s.pending ∧ (leaveSafe s).spi.mem = s.spi.mem ∧ (leaveSafe s).sram = s.sram ∧ (leaveSafe s).cfg = s.cfg := by
  unfold leaveSafe; simp

@[simp] theorem clearFaults_frame (scope : Nat) (s : State) :
    (clearFaults scope s).pending = s.pending ∧ (clearFaults scope s).spi.mem = s.spi.mem ∧ (clearFaults scope s).sram = s.sram ∧ (clearFaults scope s).cfg = s.cfg := by
  unfold clearFaults; simp

@[simp] theorem readPeak_frame (r k : Nat) (s : State) :
    (readPeak r k s).2.pending = s.pending ∧ (readPeak r k s).2.spi.mem = s.spi.mem ∧ (readPeak r k s).2.sram = s.sram ∧ (readPeak r k s).2.cfg = s.cfg := by
  unfold readPeak; split <;> simp

@[simp] theorem readStat_frame (id : Nat) (s : State) :
    (readStat id s).2.pending = s.pending ∧ (readStat id s).2.spi.mem = s.spi.mem ∧ (readStat id s).2.sram = s.sram ∧ (readStat id s).2.cfg = s.cfg := by
  unfold readStat; (repeat' split) <;> simp

@[simp] theorem reportLoad_frame (s : State) :
    (reportLoad s).pending = s.pending ∧ (reportLoad s).spi.mem = s.spi.mem ∧ (reportLoad s).sram = s.sram ∧ (reportLoad s).cfg = s.cfg := by
  unfold reportLoad; simp

@[simp] theorem eventsFrom_frame (first n : Nat) (s : State) :
    (eventsFrom first n s).2.2.2.pending = s.pending ∧ (eventsFrom first n s).2.2.2.spi.mem = s.spi.mem ∧ (eventsFrom first n s).2.2.2.sram = s.sram ∧ (eventsFrom first n s).2.2.2.cfg = s.cfg := by
  unfold eventsFrom; dsimp only; split <;> simp

@[simp] theorem xbarError_frame (ok : Bool) (s : State) :
    (xbarError ok s).pending = s.pending ∧ (xbarError ok s).spi.mem = s.spi.mem ∧ (xbarError ok s).sram = s.sram ∧ (xbarError ok s).cfg = s.cfg := by
  unfold xbarError; simp

/-! ### Window -/

@[simp] theorem addEnergy_frame (s : State) (p : SensePair) :
    (addEnergy s p).pending = s.pending ∧ (addEnergy s p).spi.mem = s.spi.mem ∧ (addEnergy s p).sram = s.sram ∧ (addEnergy s p).cfg = s.cfg := by
  unfold addEnergy; simp

@[simp] theorem blockPasses_frame (s : State) :
    (blockPasses s).pending = s.pending ∧ (blockPasses s).spi.mem = s.spi.mem ∧ (blockPasses s).sram = s.sram ∧ (blockPasses s).cfg = s.cfg := by
  unfold blockPasses; simp

@[simp] theorem keepSense_frame (s : State) (p : SensePair) :
    (keepSense s p).pending = s.pending ∧ (keepSense s p).spi.mem = s.spi.mem ∧ (keepSense s p).sram = s.sram ∧ (keepSense s p).cfg = s.cfg := by
  unfold keepSense; simp

@[simp] theorem queueSense_frame (p : SensePair) (s : State) :
    (queueSense p s).pending = s.pending ∧ (queueSense p s).spi.mem = s.spi.mem ∧ (queueSense p s).sram = s.sram ∧ (queueSense p s).cfg = s.cfg := by
  unfold queueSense; simp

@[simp] theorem partnerMute_frame (c : Nat) (s : State) :
    (partnerMute c s).pending = s.pending ∧ (partnerMute c s).spi.mem = s.spi.mem ∧ (partnerMute c s).sram = s.sram ∧ (partnerMute c s).cfg = s.cfg := by
  unfold partnerMute; simp

/-! ### Models -/

@[simp] theorem coldReference_frame (c : Nat) (re : Rat) (s : State) :
    (coldReference c re s).pending = s.pending ∧ (coldReference c re s).spi.mem = s.spi.mem ∧ (coldReference c re s).sram = s.sram ∧ (coldReference c re s).cfg = s.cfg := by
  unfold coldReference; simp

@[simp] theorem correctCoil_frame (c : Nat) (first : Bool) (s : State) :
    (correctCoil c first s).pending = s.pending ∧ (correctCoil c first s).spi.mem = s.spi.mem ∧ (correctCoil c first s).sram = s.sram ∧ (correctCoil c first s).cfg = s.cfg := by
  and_intros <;> rfl

@[simp] theorem takeRe_frame (c : Nat) (re : Rat) (s : State) :
    (takeRe c re s).pending = s.pending ∧ (takeRe c re s).spi.mem = s.spi.mem ∧ (takeRe c re s).sram = s.sram ∧ (takeRe c re s).cfg = s.cfg := by
  unfold takeRe; simp

@[simp] theorem takeIdent_frame (c : Nat) (v : Rat × Rat × Rat) (s : State) :
    (takeIdent c v s).pending = s.pending ∧ (takeIdent c v s).spi.mem = s.spi.mem ∧ (takeIdent c v s).sram = s.sram ∧ (takeIdent c v s).cfg = s.cfg := by
  unfold takeIdent; dsimp only; (repeat' split) <;> simp

@[simp] theorem judgeOpen_frame (c : Nat) (p : PilotReading) (s : State) :
    (judgeOpen c p s).pending = s.pending ∧ (judgeOpen c p s).spi.mem = s.spi.mem ∧ (judgeOpen c p s).sram = s.sram ∧ (judgeOpen c p s).cfg = s.cfg := by
  unfold judgeOpen; split <;> simp

@[simp] theorem judgeSense_frame (c : Nat) (s : State) :
    (judgeSense c s).pending = s.pending ∧ (judgeSense c s).spi.mem = s.spi.mem ∧ (judgeSense c s).sram = s.sram ∧ (judgeSense c s).cfg = s.cfg := by
  unfold judgeSense; simp

@[simp] theorem nextWindow_frame (c : Nat) (s : State) :
    (nextWindow c s).pending = s.pending ∧ (nextWindow c s).spi.mem = s.spi.mem ∧ (nextWindow c s).sram = s.sram ∧ (nextWindow c s).cfg = s.cfg := by
  unfold nextWindow; simp

@[simp] theorem takeWindow_frame (c : Nat) (p : PilotReading) (s : State) :
    (takeWindow c p s).pending = s.pending ∧ (takeWindow c p s).spi.mem = s.spi.mem ∧ (takeWindow c p s).sram = s.sram ∧ (takeWindow c p s).cfg = s.cfg := by
  unfold takeWindow; dsimp only; (repeat' split) <;> simp

/-! ### SelfTest -/

@[simp] theorem startLoadDiag_frame (ticket c : Nat) (s : State) :
    (startLoadDiag ticket c s).pending = s.pending ∧ (startLoadDiag ticket c s).spi.mem = s.spi.mem ∧ (startLoadDiag ticket c s).sram = s.sram ∧ (startLoadDiag ticket c s).cfg = s.cfg := by
  unfold startLoadDiag; dsimp only; split <;> simp

@[simp] theorem startSenseCal_frame (c : Nat) (force : Bool) (s : State) :
    (startSenseCal c force s).pending = s.pending ∧ (startSenseCal c force s).spi.mem = s.spi.mem ∧ (startSenseCal c force s).sram = s.sram ∧ (startSenseCal c force s).cfg = s.cfg := by
  unfold startSenseCal; simp

@[simp] theorem startRailCheck_frame (r : Nat) (s : State) :
    (startRailCheck r s).pending = s.pending ∧ (startRailCheck r s).spi.mem = s.spi.mem ∧ (startRailCheck r s).sram = s.sram ∧ (startRailCheck r s).cfg = s.cfg := by
  unfold startRailCheck; simp

@[simp] theorem startTest_frame (id inst arg : Nat) (force : Bool) (s : State) :
    (startTest id inst arg force s).pending = s.pending ∧ (startTest id inst arg force s).spi.mem = s.spi.mem ∧ (startTest id inst arg force s).sram = s.sram ∧ (startTest id inst arg force s).cfg = s.cfg := by
  unfold startTest; split <;> simp

@[simp] theorem endLoadDiag_frame (t : Test) (s : State) :
    (endLoadDiag t s).pending = s.pending ∧ (endLoadDiag t s).spi.mem = s.spi.mem ∧ (endLoadDiag t s).sram = s.sram ∧ (endLoadDiag t s).cfg = s.cfg := by
  unfold endLoadDiag; dsimp only; (repeat' split) <;> simp

@[simp] theorem endRailCheck_frame (t : Test) (s : State) :
    (endRailCheck t s).pending = s.pending ∧ (endRailCheck t s).spi.mem = s.spi.mem ∧ (endRailCheck t s).sram = s.sram ∧ (endRailCheck t s).cfg = s.cfg := by
  unfold endRailCheck; dsimp only; (repeat' split) <;> simp

@[simp] theorem endMemCheck_frame (t : Test) (values : List Byte) (s : State) :
    (endMemCheck t values s).pending = s.pending ∧ (endMemCheck t values s).spi.mem = s.spi.mem ∧ (endMemCheck t values s).sram = s.sram ∧ (endMemCheck t values s).cfg = s.cfg := by
  unfold endMemCheck; simp

@[simp] theorem endFlashVerify_frame (t : Test) (s : State) :
    (endFlashVerify t s).pending = s.pending ∧ (endFlashVerify t s).spi.mem = s.spi.mem ∧ (endFlashVerify t s).sram = s.sram ∧ (endFlashVerify t s).cfg = s.cfg := by
  unfold endFlashVerify; simp

@[simp] theorem endAgeing_frame (t : Test) (code : Nat) (values : List Byte) (s : State) :
    (endAgeing t code values s).pending = s.pending ∧ (endAgeing t code values s).spi.mem = s.spi.mem ∧ (endAgeing t code values s).sram = s.sram ∧ (endAgeing t code values s).cfg = s.cfg := by
  unfold endAgeing; simp

/-! ### Status -/

@[simp] theorem putAll_frame (l : List (Nat × Word)) (s : State) :
    (putAll l s).pending = s.pending ∧ (putAll l s).spi.mem = s.spi.mem ∧ (putAll l s).sram = s.sram ∧ (putAll l s).cfg = s.cfg := by
  unfold putAll; simp

@[simp] theorem putStatus_frame (s : State) :
    (putStatus s).pending = s.pending ∧ (putStatus s).spi.mem = s.spi.mem ∧ (putStatus s).sram = s.sram ∧ (putStatus s).cfg = s.cfg := by
  unfold putStatus; simp

@[simp] theorem runSamples_frame (c : Nat) (s : State) :
    (runSamples c s).pending = s.pending ∧ (runSamples c s).spi.mem = s.spi.mem ∧ (runSamples c s).sram = s.sram ∧ (runSamples c s).cfg = s.cfg := by
  unfold runSamples; simp

@[simp] theorem lifeIf_frame (b : Bool) (id : Nat) (s : State) :
    (lifeIf b id s).pending = s.pending ∧ (lifeIf b id s).spi.mem = s.spi.mem ∧ (lifeIf b id s).sram = s.sram ∧ (lifeIf b id s).cfg = s.cfg := by
  unfold lifeIf; simp

@[simp] theorem chanSecond_frame (c : Nat) (s : State) :
    (chanSecond c s).pending = s.pending ∧ (chanSecond c s).spi.mem = s.spi.mem ∧ (chanSecond c s).sram = s.sram ∧ (chanSecond c s).cfg = s.cfg := by
  unfold chanSecond; simp

@[simp] theorem deviceSecond_frame (s : State) :
    (deviceSecond s).pending = s.pending ∧ (deviceSecond s).spi.mem = s.spi.mem ∧ (deviceSecond s).sram = s.sram ∧ (deviceSecond s).cfg = s.cfg := by
  unfold deviceSecond; simp

@[simp] theorem trimMuted_frame (c : Nat) (s : State) :
    (trimMuted c s).pending = s.pending ∧ (trimMuted c s).spi.mem = s.spi.mem ∧ (trimMuted c s).sram = s.sram ∧ (trimMuted c s).cfg = s.cfg := by
  unfold trimMuted; simp

@[simp] theorem clearTenths_frame (s : State) :
    (clearTenths s).pending = s.pending ∧ (clearTenths s).spi.mem = s.spi.mem ∧ (clearTenths s).sram = s.sram ∧ (clearTenths s).cfg = s.cfg := by
  and_intros <;> rfl

@[simp] theorem secondPasses_frame (s : State) :
    (secondPasses s).pending = s.pending ∧ (secondPasses s).spi.mem = s.spi.mem ∧ (secondPasses s).sram = s.sram ∧ (secondPasses s).cfg = s.cfg := by
  unfold secondPasses; simp

@[simp] theorem refresh_frame (s : State) :
    (refresh s).pending = s.pending ∧ (refresh s).spi.mem = s.spi.mem ∧ (refresh s).sram = s.sram ∧ (refresh s).cfg = s.cfg := by
  unfold refresh; simp

/-! ### Store -/

@[simp] theorem freshFails_frame (lifetime : Bool) (sector : Nat) (s : State) :
    (freshFails lifetime sector s).pending = s.pending ∧ (freshFails lifetime sector s).spi.mem = s.spi.mem ∧ (freshFails lifetime sector s).sram = s.sram ∧ (freshFails lifetime sector s).cfg = s.cfg := by
  and_intros <;> rfl

@[simp] theorem recordDone_frame (lifetime : Bool) (x : Record) (s : State) :
    (recordDone lifetime x s).pending = s.pending ∧ (recordDone lifetime x s).spi.mem = s.spi.mem ∧ (recordDone lifetime x s).sram = s.sram ∧ (recordDone lifetime x s).cfg = s.cfg := by
  unfold recordDone; simp

/-! ### Twin -/

@[simp] theorem fzSend_frame (ty index : Nat) (body : List Byte) (s : State) :
    (fzSend ty index body s).pending = s.pending ∧ (fzSend ty index body s).spi.mem = s.spi.mem ∧ (fzSend ty index body s).sram = s.sram ∧ (fzSend ty index body s).cfg = s.cfg := by
  and_intros <;> rfl

@[simp] theorem keepOwn_frame (sense : List SensePair) (m : Nat) (s : State) :
    (keepOwn sense m s).pending = s.pending ∧ (keepOwn sense m s).spi.mem = s.spi.mem ∧ (keepOwn sense m s).sram = s.sram ∧ (keepOwn sense m s).cfg = s.cfg := by
  unfold keepOwn; simp

@[simp] theorem nameRun_frame (s : State) :
    (nameRun s).pending = s.pending ∧ (nameRun s).spi.mem = s.spi.mem ∧ (nameRun s).sram = s.sram ∧ (nameRun s).cfg = s.cfg := by
  unfold nameRun; simp

@[simp] theorem joinFailed_frame (c low : Nat) (data : List Word) (s : State) :
    (joinFailed c low data s).pending = s.pending ∧ (joinFailed c low data s).spi.mem = s.spi.mem ∧ (joinFailed c low data s).sram = s.sram ∧ (joinFailed c low data s).cfg = s.cfg := by
  unfold joinFailed; simp

@[simp] theorem joinVoltage_frame (c : Nat) (vOwn iOwn vStarter : Rat) (s : State) :
    (joinVoltage c vOwn iOwn vStarter s).pending = s.pending ∧ (joinVoltage c vOwn iOwn vStarter s).spi.mem = s.spi.mem ∧ (joinVoltage c vOwn iOwn vStarter s).sram = s.sram ∧ (joinVoltage c vOwn iOwn vStarter s).cfg = s.cfg := by
  unfold joinVoltage; simp

@[simp] theorem joinCurrent_frame (c : Nat) (vOwn iOwn : Rat) (s : State) :
    (joinCurrent c vOwn iOwn s).pending = s.pending ∧ (joinCurrent c vOwn iOwn s).spi.mem = s.spi.mem ∧ (joinCurrent c vOwn iOwn s).sram = s.sram ∧ (joinCurrent c vOwn iOwn s).cfg = s.cfg := by
  unfold joinCurrent; simp

@[simp] theorem joinRun_frame (c : Nat) (s : State) :
    (joinRun c s).pending = s.pending ∧ (joinRun c s).spi.mem = s.spi.mem ∧ (joinRun c s).sram = s.sram ∧ (joinRun c s).cfg = s.cfg := by
  unfold joinRun; simp

@[simp] theorem starterRun_frame (c : Nat) (s : State) :
    (starterRun c s).pending = s.pending ∧ (starterRun c s).spi.mem = s.spi.mem ∧ (starterRun c s).sram = s.sram ∧ (starterRun c s).cfg = s.cfg := by
  unfold starterRun; simp

@[simp] theorem waitOwn_frame (sense : List SensePair) (m : Nat) (s : State) :
    (waitOwn sense m s).pending = s.pending ∧ (waitOwn sense m s).spi.mem = s.spi.mem ∧ (waitOwn sense m s).sram = s.sram ∧ (waitOwn sense m s).cfg = s.cfg := by
  unfold waitOwn; simp

/-! ### Update -/

@[simp] theorem beginUpdate_frame (len seq : Nat) (s : State) :
    (beginUpdate len seq s).pending = s.pending ∧ (beginUpdate len seq s).spi.mem = s.spi.mem ∧ (beginUpdate len seq s).sram = s.sram ∧ (beginUpdate len seq s).cfg = s.cfg := by
  unfold beginUpdate; simp

@[simp] theorem commitUpdate_frame (s : State) :
    (commitUpdate s).pending = s.pending ∧ (commitUpdate s).spi.mem = s.spi.mem ∧ (commitUpdate s).sram = s.sram ∧ (commitUpdate s).cfg = s.cfg := by
  unfold commitUpdate; simp

@[simp] theorem setInjector_frame (k stream side action mode ppm burst : Nat) (s : State) :
    (setInjector k stream side action mode ppm burst s).pending = s.pending ∧ (setInjector k stream side action mode ppm burst s).spi.mem = s.spi.mem ∧ (setInjector k stream side action mode ppm burst s).sram = s.sram ∧ (setInjector k stream side action mode ppm burst s).cfg = s.cfg := by
  unfold setInjector; simp

/-! ### Lists of words and parameters -/

theorem readParam_frame {b : Bool} {id : Nat} {s : State} {p : Word × State} (h : readParam b id s = some p) :
    p.2.pending = s.pending ∧ p.2.spi.mem = s.spi.mem ∧ p.2.sram = s.sram ∧ p.2.cfg = s.cfg := by
  unfold readParam at h
  split at h
  · cases h; simp
  · split at h <;> cases h; simp

@[simp] theorem readParams_frame (b : Bool) (l : List Nat) (vs : List Word) (s : State) :
    (readParams b l vs s).2.2.pending = s.pending ∧ (readParams b l vs s).2.2.spi.mem = s.spi.mem ∧
    (readParams b l vs s).2.2.sram = s.sram ∧ (readParams b l vs s).2.2.cfg = s.cfg := by
  induction l generalizing vs s with
  | nil => simp [readParams]
  | cons id l ih =>
    simp only [readParams]
    split
    · rename_i p h; have := readParam_frame h; simp [ih, this]
    · simp

theorem xbarRead_frame {a : Nat} {s : State} {p : Word × State} (h : xbarRead a s = some p) :
    p.2.pending = s.pending ∧ p.2.spi.mem = s.spi.mem ∧ p.2.sram = s.sram ∧ p.2.cfg = s.cfg := by
  unfold xbarRead at h
  repeat' split at h
  all_goals first | (cases h; simp) | cases h

@[simp] theorem peekWords_frame (n a : Nat) (vs : List Word) (s : State) :
    (peekWords n a vs s).2.2.pending = s.pending ∧ (peekWords n a vs s).2.2.spi.mem = s.spi.mem ∧
    (peekWords n a vs s).2.2.sram = s.sram ∧ (peekWords n a vs s).2.2.cfg = s.cfg := by
  induction n generalizing a vs s with
  | zero => simp [peekWords]
  | succ n ih =>
    simp only [peekWords]
    split
    · rename_i p h; have := xbarRead_frame h; simp [ih, this]
    · simp

theorem xbarWrite_frame {a : Nat} {v : Word} {s t : State} (h : xbarWrite a v s = some t) :
    t.pending = s.pending ∧ t.spi.mem = s.spi.mem ∧ t.cfg = s.cfg := by
  unfold xbarWrite at h
  repeat' split at h
  all_goals first | (cases h; simp) | cases h

@[simp] theorem pokeWords_frame (l : List Word) (a n : Nat) (s : State) :
    (pokeWords l a n s).2.2.pending = s.pending ∧ (pokeWords l a n s).2.2.spi.mem = s.spi.mem ∧
    (pokeWords l a n s).2.2.cfg = s.cfg := by
  induction l generalizing a n s with
  | nil => simp [pokeWords]
  | cons v l ih =>
    simp only [pokeWords]
    split
    · rename_i t h; have := xbarWrite_frame h; simp [ih, this]
    · simp

end Sys2Proof.Machine
end

