-- ==== Sys2Proof/Laws/Events.lean ====
section
/-! SUPPORT. Laws of the event queue, interrupts and the shared channel operations. -/

namespace Sys2Proof.Machine

theorem Reports.rfl' (s : State) : Reports s s := rfl

theorem Reports.trans {s t u : State} (h : Reports s t) (k : Reports t u) : Reports s u := by
  unfold Reports at *
  rw [k, h]

theorem count_reports (id n : Nat) (s : State) : Reports s (s.count id n) := rfl

theorem send_reports (f : Sent) (s : State) : Reports s (s.send f) := by
  unfold State.send
  dsimp only
  split <;> rfl

theorem foldl_send_reports (l : List Sent) (s : State) : Reports s (l.foldl (fun s f => s.send f) s) := by
  induction l generalizing s with
  | nil => rfl
  | cons f l ih => exact (send_reports f s).trans (ih _)

theorem irq_reports (m : Word) (s : State) : Reports s (s.irq m) := by
  unfold State.irq
  refine Reports.trans ?_ (foldl_send_reports _ _)
  unfold Reports irqSpi
  split <;> rfl

theorem enter_reports (code inst : Nat) (data : List Word) (s : State) : Reports s (s.enter code inst data) := by
  unfold State.enter
  dsimp only
  refine Reports.trans ?_ (irq_reports _ _)
  split
  · rfl
  · rfl

/-- The events that waited for the Keeper become records. -/
theorem raiseWaiting_reports (s : State) : Reports s s.raiseWaiting := by
  have fold : ∀ {α : Type} {f : State → α → State} (_ : ∀ s a, Reports s (f s a)) (l : List α) (u : State), Reports u (l.foldl f u) :=
    fun h l => by
      induction l with
      | nil => exact fun _ => rfl
      | cons e l ih => exact fun u => (h u e).trans (ih _)
  unfold State.raiseWaiting
  refine Reports.trans (t := { s with log := { s.log with waiting := [], overflow := [] } }) rfl ?_
  exact (fold (fun _ _ => enter_reports _ _ _ _) _ _).trans (fold (fun _ _ => enter_reports _ _ _ _) _ _)

/-- Raising a code changes the log, its counts, interrupt bits and notices, and nothing else. -/
theorem raise_reports (code inst : Nat) (data : List Word) (s : State) : Reports s (s.raise code inst data) := by
  unfold State.raise
  split
  · exact enter_reports _ _ _ _
  · rfl

/-- The newest record of the queue, whatever its level does with the log buffer. -/
theorem logRecord_getLast (m : Nat) (r : Record) (l : Log) :
    ∃ q, (logRecord m r l).1.queue.getLast? = some q ∧ q.seq = r.seq ∧ q.code = r.code ∧ q.inst = r.inst ∧ q.data = r.data ∧
      q.level = r.level := by
  have key : ∀ q : Record, ((l.queue ++ [q]).drop (l.queue.length + 1 - 256)).getLast? = some q := fun q => by
    have hl : ¬ (l.queue ++ [q]).length ≤ l.queue.length + 1 - 256 := by rw [List.length_append, List.length_singleton]; omega
    rw [List.getLast?_drop, if_neg hl, List.getLast?_concat]
  unfold logRecord
  dsimp only
  split
  · exact ⟨r, by simp only [key], rfl, rfl, rfl, rfl, rfl⟩
  · split
    · exact ⟨{ r with lostBefore := l.lostBefore }, by simp only [key], rfl, rfl, rfl, rfl, rfl⟩
    · split
      · exact ⟨{ r with lostBefore := true }, by simp only [key], rfl, rfl, rfl, rfl, rfl⟩
      · exact ⟨r, by simp only [key], rfl, rfl, rfl, rfl, rfl⟩

@[simp] theorem irq_log (m : Word) (s : State) : (s.irq m).log = s.log := by
  have hs : ∀ (f : Sent) (s : State), (s.send f).log = s.log := fun f s => by unfold State.send; dsimp only; split <;> rfl
  have hf : ∀ (l : List Sent) (s : State), (l.foldl (fun s f => s.send f) s).log = s.log := fun l => by
    induction l with
    | nil => exact fun _ => rfl
    | cons f l ih => exact fun s => (ih _).trans (hs f s)
  unfold State.irq
  exact hf _ _

/-- An event that crosses stands among those that wait, or has marked the overflow of its crossing (R30). -/
theorem cross_there (code inst : Nat) (data : List Word) (l : Log) :
    (code, inst, data) ∈ (l.cross code inst data).waiting.drop l.waiting.length ∨ (code, inst) ∈ (l.cross code inst data).overflow := by
  unfold Log.cross
  split
  · left; simp
  · right; simp

/-- Raising a code leaves its record in the queue, or among the events that wait. -/
theorem raise_raised (code inst : Nat) (data : List Word) (s : State) : Raised code inst data s (s.raise code inst data) := by
  unfold State.raise
  split
  · left
    obtain ⟨q, hq, h1, h2, h3, h4, h5⟩ := logRecord_getLast (s.nat 0x01 0 15)
      ⟨(recTime s).1, code, inst, s.log.nextSeq, data, levelOf code, (recTime s).2, false⟩ s.log
    have hl : (s.enter code inst data).log = (logRecord (s.nat 0x01 0 15)
        ⟨(recTime s).1, code, inst, s.log.nextSeq, data, levelOf code, (recTime s).2, false⟩ s.log).1 := by
      unfold State.enter
      dsimp only
      rw [irq_log]
      split <;> rfl
    exact ⟨q, by rw [hl]; exact List.mem_of_getLast? hq, h1, h2, h3, h4, h5⟩
  · exact .inr (cross_there _ _ _ _)

/-! ### Channels -/

theorem chan_setChan_self (s : State) {c : Nat} (v : Chan) (h : c < 208) : (s.setChan c v).chan c = v := by
  simp [State.setChan, State.chan, h]

theorem chan_setChan_other (s : State) {c k : Nat} (v : Chan) (h : k ≠ c) : (s.setChan c v).chan k = s.chan k := by
  simp [State.setChan, State.chan, Vector.getElem?_setIfInBounds_ne (Ne.symm h)]

@[simp] theorem chan_modChan_self (s : State) {c : Nat} (f : Chan → Chan) (h : c < 208) : (s.modChan c f).chan c = f (s.chan c) :=
  chan_setChan_self s _ h

@[simp] theorem chan_modChan_other (s : State) {c k : Nat} (f : Chan → Chan) (h : k ≠ c) : (s.modChan c f).chan k = s.chan k :=
  chan_setChan_other s _ h

theorem Reports.chan {s t : State} (h : Reports s t) (c : Nat) : t.chan c = s.chan c := by rw [h]; rfl

@[simp] theorem rail_modRail_self (s : State) {r : Nat} (f : Rail → Rail) (h : r < 12) : (s.modRail r f).rail r = f (s.rail r) := by
  simp [State.modRail, State.rail, h]

@[simp] theorem rail_modRail_other (s : State) {r k : Nat} (f : Rail → Rail) (h : k ≠ r) : (s.modRail r f).rail k = s.rail k := by
  simp [State.modRail, State.rail, Vector.getElem?_setIfInBounds_ne (Ne.symm h)]

@[simp] theorem dsd_modDsd_self (s : State) {d : Nat} (f : Dsd → Dsd) (h : d < 4) : (s.modDsd d f).dsd d = f (s.dsd d) := by
  simp [State.modDsd, State.dsd, h]

@[simp] theorem stream_modStream_self (s : State) {i : Nat} (f : Stream → Stream) (h : i < 32) :
    (s.modStream i f).stream i = f (s.stream i) := by
  simp [State.modStream, State.stream, h]

@[simp] theorem tdm_modTdm_self (s : State) {x : Nat} (f : Tdm → Tdm) (h : x < 4) : (s.modTdm x f).tdm x = f (s.tdm x) := by
  simp [State.modTdm, State.tdm, h]

@[simp] theorem port_modPort_self (s : State) {p : Nat} (f : Port → Port) (h : p < 3) : (s.modPort p f).port p = f (s.port p) := by
  simp [State.modPort, State.port, h]

/-! ### Requests -/

/-- A served request runs its action on the state in which its mailbox is free again. -/
theorem serve_served {i cmd : Nat} {act : Req → State → State} {s : State} (h : Served i cmd s) :
    serve i cmd act s = .next (act (reqOf s i) (take i s)) := by
  obtain ⟨h1, h2, h3⟩ := h
  unfold serve
  simp [h1, h2, h3]

theorem Answers.trans {s t u : State} (h : Answers s t) (k : Answers t u) : Answers s u := by
  unfold Answers at *
  rw [k, h]

theorem send_answers (f : Sent) (s : State) : Answers s (s.send f) := by
  unfold State.send
  dsimp only
  split <;> rfl

theorem irq_answers (m : Word) (s : State) : Answers s (s.irq m) := by
  have hf : ∀ (l : List Sent) (s : State), Answers s (l.foldl (fun s f => s.send f) s) := fun l => by
    induction l with
    | nil => exact fun _ => rfl
    | cons f l ih => exact fun s => (send_answers f s).trans (ih _)
  unfold State.irq
  exact Answers.trans (t := { s with spi := irqSpi s.keeper.halted m s.spi }) rfl (hf _ _)

theorem deliverSpi_answers (i : Nat) (f : List Byte) (s : State) : Answers s (deliverSpi i f s) :=
  Answers.trans (t := { s with spi := _ }) rfl (irq_answers _ _)

/-- An answer changes the window, the counters and the sent frames, and nothing else. -/
theorem answer_answers (i : Nat) (f : List Byte) (s : State) : Answers s (answer i f s) := by
  unfold answer
  split
  · unfold deliver
    dsimp only
    split
    · refine Answers.trans ?_ (irq_answers _ _)
      exact Answers.trans (t := { s with spi := _ }) rfl (send_answers _ _)
    · exact deliverSpi_answers i f s
  · rfl

theorem reply_answers (i : Nat) (r : Req) (st : Nat) (p : List Byte) (s : State) : Answers s (reply i r st p s) :=
  answer_answers i _ s

@[simp] theorem take_keeper (i : Nat) (s : State) : (take i s).keeper = s.keeper := rfl
@[simp] theorem take_power (i : Nat) (s : State) : (take i s).power = s.power := rfl
@[simp] theorem take_log (i : Nat) (s : State) : (take i s).log = s.log := rfl
@[simp] theorem take_chan (i c : Nat) (s : State) : (take i s).chan c = s.chan c := rfl

/-! ### Stage and device state -/

theorem setStage_answers (n : Nat) (s : State) : Answers { s with keeper := { s.keeper with stage := n } } (s.setStage n) := by
  unfold State.setStage
  split
  · rename_i h; subst h; rfl
  · exact irq_answers _ _

@[simp] theorem setStage_fields (n : Nat) (s : State) :
    (s.setStage n).keeper = { s.keeper with stage := n } ∧ (s.setStage n).power = s.power ∧ (s.setStage n).chans = s.chans ∧
    (s.setStage n).rails = s.rails ∧ (s.setStage n).dsds = s.dsds ∧ (s.setStage n).store = s.store ∧ (s.setStage n).log = s.log ∧
    (s.setStage n).media = s.media ∧ (s.setStage n).twin = s.twin ∧ (s.setStage n).ptp = s.ptp ∧ (s.setStage n).tests = s.tests := by
  rw [setStage_answers]
  simp

@[simp] theorem irq_fields (m : Word) (s : State) :
    (s.irq m).keeper = s.keeper ∧ (s.irq m).power = s.power ∧ (s.irq m).chans = s.chans ∧ (s.irq m).rails = s.rails ∧
    (s.irq m).dsds = s.dsds ∧ (s.irq m).store = s.store ∧ (s.irq m).media = s.media ∧ (s.irq m).twin = s.twin ∧
    (s.irq m).ptp = s.ptp ∧ (s.irq m).tests = s.tests := by
  rw [irq_answers]
  simp

@[simp] theorem raise_fields (code inst : Nat) (data : List Word) (s : State) :
    (s.raise code inst data).keeper = s.keeper ∧ (s.raise code inst data).power = s.power ∧ (s.raise code inst data).chans = s.chans ∧
    (s.raise code inst data).rails = s.rails ∧ (s.raise code inst data).dsds = s.dsds ∧ (s.raise code inst data).store = s.store ∧
    (s.raise code inst data).media = s.media ∧ (s.raise code inst data).twin = s.twin ∧ (s.raise code inst data).ptp = s.ptp ∧
    (s.raise code inst data).tests = s.tests ∧ (s.raise code inst data).streams = s.streams ∧ (s.raise code inst data).tdms = s.tdms ∧
    (s.raise code inst data).ports = s.ports ∧ (s.raise code inst data).pwm = s.pwm := by
  rw [raise_reports]
  simp

/-- A state of Table 3.7 is entered, whatever it was before. -/
@[simp] theorem setDev_dev (d : DevState) (ev : Nat) (s : State) : (s.setDev d ev).keeper.dev = d := by
  unfold State.setDev
  dsimp only
  repeat' split
  all_goals simp_all [State.life]

@[simp] theorem setDev_fields (d : DevState) (ev : Nat) (s : State) :
    (s.setDev d ev).power = s.power ∧ (s.setDev d ev).chans = s.chans ∧ (s.setDev d ev).dsds = s.dsds ∧
    (s.setDev d ev).media = s.media ∧ (s.setDev d ev).twin = s.twin ∧ (s.setDev d ev).ptp = s.ptp ∧ (s.setDev d ev).tests = s.tests := by
  unfold State.setDev
  dsimp only
  repeat' split
  all_goals simp [State.life]

/-- Where every step of a loop over units gives its unit a property that the other steps keep, each unit has it at the end. -/
theorem forUnits_each {n : Nat} {f : Nat → State → State} {Q : Nat → State → Prop} (s : State) (hf : ∀ c s, c < n → Q c (f c s))
    (hk : ∀ c k s, k ≠ c → Q k s → Q k (f c s)) (c : Nat) (hc : c < n) : Q c (forUnits n f s) := by
  induction n with
  | zero => omega
  | succ n ih =>
    unfold forUnits at *
    rw [List.range_succ, List.foldl_append]
    simp only [List.foldl_cons, List.foldl_nil]
    by_cases h : c = n
    · subst h; exact hf _ _ (by omega)
    · exact hk _ _ _ h (ih (fun c s hc => hf c s (by omega)) (by omega))

end Sys2Proof.Machine
end

