-- ==== Sys2Proof/Laws/Units.lean ====
section
/-! SUPPORT. Laws of loops over channels and controllers: what each unit is afterwards, and that nothing but the units differs. -/

namespace Sys2Proof.Machine

theorem forUnits_zero (f : Nat → State → State) (s : State) : forUnits 0 f s = s := by unfold forUnits; rfl

theorem forUnits_succ (n : Nat) (f : Nat → State → State) (s : State) : forUnits (n + 1) f s = f n (forUnits n f s) := by
  unfold forUnits; rw [List.range_succ, List.foldl_append]; rfl

/-- A loop whose steps change channels alone changes channels alone. -/
theorem forUnits_chans {n : Nat} {f : Nat → State → State} (s : State) (h : ∀ c s, f c s = { s with chans := (f c s).chans }) :
    forUnits n f s = { s with chans := (forUnits n f s).chans } := by
  induction n with
  | zero => rw [forUnits_zero]
  | succ n ih => rw [forUnits_succ, h, ih]

/-- A loop whose steps change controllers alone changes controllers alone. -/
theorem forUnits_rails {n : Nat} {f : Nat → State → State} (s : State) (h : ∀ c s, f c s = { s with rails := (f c s).rails }) :
    forUnits n f s = { s with rails := (forUnits n f s).rails } := by
  induction n with
  | zero => rw [forUnits_zero]
  | succ n ih => rw [forUnits_succ, h, ih]

/-- What a loop that treats each channel by itself makes of each. -/
theorem chan_forUnits {n : Nat} (hn : n ≤ 208) (F : Nat → Chan → Chan) (s : State) (k : Nat) :
    (forUnits n (fun c s => s.modChan c (F c)) s).chan k = if k < n then F k (s.chan k) else s.chan k := by
  induction n with
  | zero => rw [forUnits_zero]; simp
  | succ n ih =>
    rw [forUnits_succ]
    by_cases h : k = n
    · subst h; rw [chan_modChan_self _ _ (by omega), ih (by omega), if_neg (by omega), if_pos (by omega)]
    · rw [chan_modChan_other _ _ h, ih (by omega)]
      by_cases h' : k < n
      · rw [if_pos h', if_pos (by omega)]
      · rw [if_neg h', if_neg (by omega)]

/-- What a loop that treats each controller by itself makes of each. -/
theorem rail_forUnits {n : Nat} (hn : n ≤ 12) (F : Nat → Rail → Rail) (s : State) (k : Nat) :
    (forUnits n (fun c s => s.modRail c (F c)) s).rail k = if k < n then F k (s.rail k) else s.rail k := by
  induction n with
  | zero => rw [forUnits_zero]; simp
  | succ n ih =>
    rw [forUnits_succ]
    by_cases h : k = n
    · subst h; rw [rail_modRail_self _ _ (by omega), ih (by omega), if_neg (by omega), if_pos (by omega)]
    · rw [rail_modRail_other _ _ h, ih (by omega)]
      by_cases h' : k < n
      · rw [if_pos h', if_pos (by omega)]
      · rw [if_neg h', if_neg (by omega)]

theorem maskDue_eq (c : Nat) (s : State) : maskDue c s = { s with pwm := (maskDue c s).pwm } := by
  unfold maskDue
  split <;> rfl

@[simp] theorem maskDue_chan (c k : Nat) (s : State) : (maskDue c s).chan k = s.chan k := by rw [maskDue_eq]; rfl
@[simp] theorem maskDue_chans (c : Nat) (s : State) : (maskDue c s).chans = s.chans := by rw [maskDue_eq]
@[simp] theorem maskDue_rail (c r : Nat) (s : State) : (maskDue c s).rail r = s.rail r := by rw [maskDue_eq]; rfl

/-- The end of an IDLE leaves everything but its channel and the count of free values. -/
theorem idleEnds_eq (c : Nat) (s : State) : idleEnds c s = { s with chans := (idleEnds c s).chans, free := (idleEnds c s).free } := by
  unfold idleEnds
  split <;> rfl

@[simp] theorem idleEnds_chan_other (s : State) {c k : Nat} (h : k ≠ c) : (idleEnds c s).chan k = s.chan k := by
  unfold idleEnds
  split
  · exact chan_modChan_other _ _ h
  · rfl

/-- The end of an IDLE leaves everything of its channel but the idle frequency. -/
theorem idleEnds_chan_self (s : State) {c : Nat} (h : c < 208) :
    ∃ x, (idleEnds c s).chan c = { s.chan c with loop := { (s.chan c).loop with fswIdle := x } } := by
  unfold idleEnds
  split
  · exact ⟨_, chan_modChan_self _ _ h⟩
  · exact ⟨_, rfl⟩

@[simp] theorem idleEnds_rail (c r : Nat) (s : State) : (idleEnds c s).rail r = s.rail r := by rw [idleEnds_eq]; rfl
@[simp] theorem idleEnds_pwm (c : Nat) (s : State) : (idleEnds c s).pwm = s.pwm := by rw [idleEnds_eq]

/-- The hold of a channel rests on its configuration, its die, the supplies and the latches alone. -/
theorem holdFor_congr {s t : State} (c : Nat) (h1 : t.cfg = s.cfg) (h2 : t.dsds = s.dsds) (h3 : t.power = s.power) (h4 : t.pwm.latch = s.pwm.latch)
    (h5 : t.pwm.latchSet = s.pwm.latchSet) : holdFor t c = holdFor s c := by
  unfold holdFor latchesOn State.enabled State.flag State.cfgShared State.nat State.dsd
  rw [h1, h2, h3, h4, h5]

/-- A loop whose steps change channels, generators and the count of free values alone changes nothing else. -/
theorem forUnits_chansPwm {n : Nat} {f : Nat → State → State} (s : State)
    (h : ∀ c s, f c s = { s with chans := (f c s).chans, pwm := (f c s).pwm, free := (f c s).free }) :
    forUnits n f s = { s with chans := (forUnits n f s).chans, pwm := (forUnits n f s).pwm, free := (forUnits n f s).free } := by
  induction n with
  | zero => rw [forUnits_zero]
  | succ n ih => rw [forUnits_succ, h, ih]

theorem toOff_eq (c : Nat) (s : State) : toOff c s = { s with chans := (toOff c s).chans, pwm := (toOff c s).pwm, free := (toOff c s).free } := by
  unfold toOff
  rw [maskDue_eq, idleEnds_eq]
  rfl
theorem requestStop_eq (c : Nat) (b : Bool) (s : State) : requestStop c b s = { s with chans := (requestStop c b s).chans } := rfl

theorem toOff_chan_self (s : State) {c : Nat} (h : c < 208) : ((toOff c s).chan c).fsm.state = .off ∧
    ((toOff c s).chan c).fsm.code = 0 ∧ ((toOff c s).chan c).fsm.relayWant = false ∧ ((toOff c s).chan c).fsm.stop = .none ∧
    ((toOff c s).chan c).fsm.bridge = holdFor s c := by
  unfold toOff; rw [chan_modChan_self _ _ h, maskDue_chan]; exact ⟨rfl, rfl, rfl, rfl, rfl⟩

@[simp] theorem toOff_chan_other (s : State) {c k : Nat} (h : k ≠ c) : (toOff c s).chan k = s.chan k := by
  unfold toOff; rw [chan_modChan_other _ _ h, maskDue_chan, idleEnds_chan_other _ h]

/-! ### The loops of the model -/

theorem startFall_eq (s : State) : startFall s = { s with chans := (startFall s).chans } := forUnits_chans s fun _ _ => rfl

theorem startFall_chan (s : State) {c : Nat} (h : c < 208) :
    (startFall s).chan c = { s.chan c with dsp := { (s.chan c).dsp with e := (s.chan c).dsp.e.to 0 1024 } } := by
  refine (chan_forUnits (Nat.le_refl 208) (fun _ h => { h with dsp := { h.dsp with e := h.dsp.e.to 0 1024 } }) s c).trans ?_
  rw [if_pos h]

theorem railsOff_eq (s : State) : railsOff s = { s with rails := (railsOff s).rails } := forUnits_rails s fun _ _ => rfl

theorem railsOff_rail (s : State) {r : Nat} (h : r < 12) :
    (railsOff s).rail r = { (s.rail r).stopped .off with restart := false, due := false } := by
  refine (rail_forUnits (Nat.le_refl 12) (fun _ q => { q.stopped .off with restart := false, due := false }) s r).trans ?_
  rw [if_pos h]

theorem allOff_eq (s : State) : allOff s = { s with chans := (allOff s).chans, pwm := (allOff s).pwm, free := (allOff s).free } :=
  forUnits_chansPwm s fun c s => by split <;> first | rfl | exact toOff_eq c s

theorem allOff_chan (s : State) {c : Nat} (h : c < 208) : ((allOff s).chan c).fsm.state = .off := by
  unfold allOff
  refine forUnits_each (Q := fun c s => (s.chan c).fsm.state = .off) s (fun c s hc => ?_) (fun c k s hk hq => ?_) c h
  · split
    · assumption
    · exact (toOff_chan_self _ hc).1
  · split
    · exact hq
    · rw [toOff_chan_other _ hk]; exact hq

theorem safeChannels_eq (s : State) :
    safeChannels s = { s with chans := (safeChannels s).chans, pwm := (safeChannels s).pwm, free := (safeChannels s).free } :=
  forUnits_chansPwm s fun c s => by split <;> first | rfl | exact toOff_eq c s

theorem stopChannels_eq (s : State) :
    stopChannels s = { s with chans := (stopChannels s).chans, pwm := (stopChannels s).pwm, free := (stopChannels s).free } :=
  forUnits_chansPwm s fun c s => by split <;> first | rfl | exact toOff_eq c s

theorem enterSafe_dev (ev cause : Nat) (s : State) : (enterSafe ev cause s).keeper.dev = .safe := by simp [enterSafe]

theorem enterSafe_cause (ev cause : Nat) (s : State) : cause ∈ (enterSafe ev cause s).keeper.safeCauses := by
  have key : ∀ l : List Nat, cause ∈ addCause cause l := fun l => by
    unfold addCause
    split
    · rename_i h; exact List.contains_iff_mem.1 h
    · simp
  exact key _

theorem enterSafe_power (ev cause : Nat) (s : State) : (enterSafe ev cause s).power = s.power := by
  unfold enterSafe
  dsimp only
  rw [(setDev_fields _ _ _).1, safeChannels_eq]

end Sys2Proof.Machine
end

