-- ==== Sys2Proof/Laws/Touch.lean ====
section
/-! SUPPORT. Laws of the relations of Safety.lean that say what an operation may change at most. -/

namespace Sys2Proof.Machine

theorem Touches.rfl' (s : State) : Touches s s := rfl

theorem Touches.trans {s t u : State} (h : Touches s t) (k : Touches t u) : Touches s u := by
  unfold Touches at *
  rw [k, h]

theorem Reports.touches {s t : State} (h : Reports s t) : Touches s t := by
  unfold Reports at h
  unfold Touches
  rw [h]

theorem raise_touches (code inst : Nat) (data : List Word) (s : State) : Touches s (s.raise code inst data) :=
  (raise_reports code inst data s).touches

theorem irq_touches (m : Word) (s : State) : Touches s (s.irq m) := (irq_reports m s).touches
theorem count_touches (id n : Nat) (s : State) : Touches s (s.count id n) := rfl
theorem life_touches (id n : Nat) (s : State) : Touches s (s.life id n) := rfl
theorem modChan_touches (s : State) (c : Nat) (f : Chan → Chan) : Touches s (s.modChan c f) := rfl
theorem modFsm_touches (s : State) (c : Nat) (f : Fsm → Fsm) : Touches s (s.modFsm c f) := rfl
theorem modLoop_touches (s : State) (c : Nat) (f : Loop → Loop) : Touches s (s.modLoop c f) := rfl
theorem modDsp_touches (s : State) (c : Nat) (f : Dsp → Dsp) : Touches s (s.modDsp c f) := rfl
theorem maskDue_touches (c : Nat) (s : State) : Touches s (maskDue c s) := by
  unfold Touches
  rw [maskDue_eq]
theorem modRail_touches (s : State) (r : Nat) (f : Rail → Rail) : Touches s (s.modRail r f) := rfl

theorem forList_touches {f : Nat → State → State} (h : ∀ c s, Touches s (f c s)) (l : List Nat) (s : State) :
    Touches s (forList l f s) := by
  unfold forList
  induction l generalizing s with
  | nil => rfl
  | cons a l ih => exact (h a s).trans (ih _)

theorem forUnits_touches {f : Nat → State → State} (h : ∀ c s, Touches s (f c s)) (n : Nat) (s : State) :
    Touches s (forUnits n f s) := by
  induction n with
  | zero => rw [forUnits_zero]; rfl
  | succ n ih => rw [forUnits_succ]; exact ih.trans (h n _)

theorem foldl_touches {α : Type} {f : State → α → State} (h : ∀ s a, Touches s (f s a)) (l : List α) (s : State) :
    Touches s (l.foldl f s) := by
  induction l generalizing s with
  | nil => rfl
  | cons a l ih => exact (h s a).trans (ih _)

theorem undoForce_touches (t : Test) (s : State) : Touches s (undoForce t s) := by
  unfold undoForce
  repeat' split
  · exact modRail_touches _ _ _
  · rfl
  · rfl
  · rfl
  · exact (forList_touches (fun c s => modFsm_touches s c _) _ s).trans (modRail_touches _ _ _)
  · rfl

theorem setTests_touches (s : State) (x : Tests) : Touches s { s with tests := x } := rfl

theorem endTest_touches (ticket state code : Nat) (v : List Byte) (s : State) : Touches s (endTest ticket state code v s) := by
  unfold endTest
  split
  · rfl
  · exact ((undoForce_touches _ s).trans (setTests_touches _ _)).trans (raise_touches _ _ _ _)

theorem abortTests_touches (p : Test → Bool) (code : Nat) (s : State) : Touches s (abortTests p code s) := by
  unfold abortTests
  exact foldl_touches (fun s t => endTest_touches _ _ _ _ s) _ s

theorem ceilingChanged_touches (r old : Nat) (s : State) : Touches s (ceilingChanged r old s) := by
  unfold ceilingChanged
  dsimp only
  repeat' split
  all_goals first | rfl | exact raise_touches _ _ _ _

/-! ### One unit -/

theorem TouchesChan.rfl' (c : Nat) (s : State) : TouchesChan c s s := ⟨rfl, rfl, fun _ _ => rfl⟩

theorem TouchesChan.trans {c : Nat} {s t u : State} (h : TouchesChan c s t) (k : TouchesChan c t u) : TouchesChan c s u :=
  ⟨h.1.trans k.1, k.2.1.trans h.2.1, fun j hj => (k.2.2 j hj).trans (h.2.2 j hj)⟩

theorem modChan_touchesChan (s : State) (c : Nat) (f : Chan → Chan) : TouchesChan c s (s.modChan c f) :=
  ⟨rfl, rfl, fun _ h => chan_modChan_other s f h⟩
theorem modFsm_touchesChan (s : State) (c : Nat) (f : Fsm → Fsm) : TouchesChan c s (s.modFsm c f) := modChan_touchesChan s c _
theorem modLoop_touchesChan (s : State) (c : Nat) (f : Loop → Loop) : TouchesChan c s (s.modLoop c f) := modChan_touchesChan s c _
theorem modDsp_touchesChan (s : State) (c : Nat) (f : Dsp → Dsp) : TouchesChan c s (s.modDsp c f) := modChan_touchesChan s c _
theorem modModel_touchesChan (s : State) (c : Nat) (f : Model → Model) : TouchesChan c s (s.modModel c f) := modChan_touchesChan s c _
theorem modShare_touchesChan (s : State) (c : Nat) (f : Share → Share) : TouchesChan c s (s.modShare c f) := modChan_touchesChan s c _
theorem count_touchesChan (c id n : Nat) (s : State) : TouchesChan c s (s.count id n) := ⟨rfl, rfl, fun _ _ => rfl⟩
theorem life_touchesChan (c id n : Nat) (s : State) : TouchesChan c s (s.life id n) := ⟨rfl, rfl, fun _ _ => rfl⟩

theorem Reports.touchesChan {s t : State} (c : Nat) (h : Reports s t) : TouchesChan c s t :=
  ⟨h.touches, by rw [h], fun k _ => h.chan k⟩

theorem raise_touchesChan (c code inst : Nat) (data : List Word) (s : State) : TouchesChan c s (s.raise code inst data) :=
  (raise_reports code inst data s).touchesChan c
theorem irq_touchesChan (c : Nat) (m : Word) (s : State) : TouchesChan c s (s.irq m) := (irq_reports m s).touchesChan c

theorem maskDue_touchesChan (c k : Nat) (s : State) : TouchesChan c s (maskDue k s) :=
  ⟨maskDue_touches _ _, by rw [maskDue_eq], fun _ _ => maskDue_chan _ _ _⟩

theorem noteDiag_touchesChan (c k code : Nat) (s : State) : TouchesChan k s (noteDiag c code s) := ⟨rfl, rfl, fun _ _ => rfl⟩

theorem idleEnds_touchesChan (c : Nat) (s : State) : TouchesChan c s (idleEnds c s) :=
  ⟨by unfold Touches; rw [idleEnds_eq], by rw [idleEnds_eq], fun _ h => idleEnds_chan_other s h⟩

theorem toOff_touchesChan (c : Nat) (s : State) : TouchesChan c s (toOff c s) :=
  ((idleEnds_touchesChan c s).trans (maskDue_touchesChan c c _)).trans (modChan_touchesChan _ c _)
theorem requestStop_touchesChan (c : Nat) (b : Bool) (s : State) : TouchesChan c s (requestStop c b s) := modFsm_touchesChan s c _

theorem TouchesRail.rfl' (r : Nat) (s : State) : TouchesRail r s s := ⟨rfl, rfl, fun _ _ => rfl⟩

theorem TouchesRail.trans {r : Nat} {s t u : State} (h : TouchesRail r s t) (k : TouchesRail r t u) : TouchesRail r s u :=
  ⟨h.1.trans k.1, k.2.1.trans h.2.1, fun j hj => (k.2.2 j hj).trans (h.2.2 j hj)⟩

theorem modRail_touchesRail (s : State) (r : Nat) (f : Rail → Rail) : TouchesRail r s (s.modRail r f) :=
  ⟨rfl, rfl, fun _ h => rail_modRail_other s f h⟩
theorem count_touchesRail (r id n : Nat) (s : State) : TouchesRail r s (s.count id n) := ⟨rfl, rfl, fun _ _ => rfl⟩
theorem life_touchesRail (r id n : Nat) (s : State) : TouchesRail r s (s.life id n) := ⟨rfl, rfl, fun _ _ => rfl⟩

theorem Reports.rail {s t : State} (h : Reports s t) (r : Nat) : t.rail r = s.rail r := by rw [h]; rfl

theorem Reports.touchesRail {s t : State} (r : Nat) (h : Reports s t) : TouchesRail r s t :=
  ⟨h.touches, by rw [h], fun k _ => h.rail k⟩

theorem raise_touchesRail (r code inst : Nat) (data : List Word) (s : State) : TouchesRail r s (s.raise code inst data) :=
  (raise_reports code inst data s).touchesRail r

/-! ### Faults -/

theorem faultStart_touchesChan (c code : Nat) (data : List Word) (s : State) : TouchesChan c s (faultStart c code data s) := by
  have h : TouchesChan c s (if (s.chan c).fsm.state = .diag then noteDiag c code s else s) := by
    split
    · exact noteDiag_touchesChan _ _ _ _
    · exact TouchesChan.rfl' _ _
  unfold faultStart
  exact ((((h.trans (idleEnds_touchesChan _ _)).trans (maskDue_touchesChan _ _ _)).trans (modChan_touchesChan _ _ _)).trans
    (life_touchesChan _ _ _ _)).trans (raise_touchesChan _ _ _ _ _)

theorem enterFault_touches (c code : Nat) (data : List Word) (s : State) : Touches s (enterFault c code data s) := by
  unfold enterFault
  exact (faultStart_touchesChan _ _ _ _).1.trans (abortTests_touches _ _ _)

theorem faultAgain_touchesChan (c code : Nat) (data : List Word) (s : State) : TouchesChan c s (faultAgain c code data s) := by
  have h1 : TouchesChan c s (if (s.chan c).fsm.state = .retest then noteDiag c code (maskDue c ((s.count (chanStat c 0x10A) 1).life (chanStat c 0x183) 1))
      else s.count (chanStat c 0x10A) 1) := by
    split
    · exact (((count_touchesChan _ _ _ _).trans (life_touchesChan _ _ _ _)).trans (maskDue_touchesChan _ _ _)).trans (noteDiag_touchesChan _ _ _ _)
    · exact count_touchesChan _ _ _ _
  have h2 : ∀ u, TouchesChan c u (if (s.chan c).fsm.state = .retest then u.modShare c Share.leave else u) := fun u => by
    split
    · exact modShare_touchesChan _ _ _
    · exact TouchesChan.rfl' _ _
  unfold faultAgain
  dsimp only
  split
  · exact (h1.trans (modFsm_touchesChan _ _ _)).trans (h2 _)
  · exact ((h1.trans (modFsm_touchesChan _ _ _)).trans (h2 _)).trans (raise_touchesChan _ _ _ _ _)

theorem hardStop_touches (c code : Nat) (data : List Word) (s : State) : Touches s (hardStop c code data s) := by
  unfold hardStop
  dsimp only
  split
  · rfl
  split
  · exact (faultAgain_touchesChan _ _ _ _).1
  · exact enterFault_touches _ _ _ _

theorem railFault_touches (r code : Nat) (data : List Word) (s : State) : Touches s (railFault r code data s) := by
  unfold railFault
  dsimp only
  refine Touches.trans ?_ (abortTests_touches _ _ _)
  split
  · exact ((modRail_touches s r _).trans (raise_touches _ _ _ _)).trans (forList_touches (fun c s => hardStop_touches _ _ _ s) _ _)
  · exact (modRail_touches s r _).trans (raise_touches _ _ _ _)

/-! ### Ceilings -/

/-- A change of the ceiling terms caps the row and the target of the controller, and nothing else of it. -/
theorem ceilingChanged_rail (r old : Nat) (s : State) : TouchesRail r s (ceilingChanged r old s) ∧
    (ceilingChanged r old s).rail r = { s.rail r with row := ((ceilingChanged r old s).rail r).row, target := ((ceilingChanged r old s).rail r).target } := by
  have key : ∀ v : State, v = s ∨ v = s.modRail r (fun q => { q with row := cEffRail s r, target := q.table.getD (cEffRail s r) 0 }) →
      TouchesRail r s v ∧ v.rail r = { s.rail r with row := (v.rail r).row, target := (v.rail r).target } := by
    intro v hv
    rcases hv with h | h
    · subst h; exact ⟨TouchesRail.rfl' _ _, rfl⟩
    · subst h
      refine ⟨modRail_touchesRail _ _ _, ?_⟩
      by_cases hr : r < 12
      · rw [rail_modRail_self _ _ hr]
      · simp [State.modRail, State.rail, hr]
  unfold ceilingChanged
  dsimp only
  split
  · exact ⟨TouchesRail.rfl' _ _, rfl⟩
  · split
    · have h1 := key (if (s.rail r).state = .regulating ∧ cEffRail s r < (s.rail r).row then
          s.modRail r (fun q => { q with row := cEffRail s r, target := q.table.getD (cEffRail s r) 0 }) else s) (by split <;> simp)
      refine ⟨h1.1.trans (raise_touchesRail _ _ _ _ _), ?_⟩
      rw [(raise_reports _ _ _ _).rail]
      exact h1.2
    · exact key _ (by split <;> simp)

end Sys2Proof.Machine
end

