-- ==== Sys2Proof/Laws/Stops.lean ====
section
/-! SUPPORT. Laws of ends of tests, hard stops and fault stops: what becomes of each channel and each controller. -/

namespace Sys2Proof.Machine

theorem chan_life (id n c : Nat) (s : State) : (s.life id n).chan c = s.chan c := rfl
theorem chan_count (id n c : Nat) (s : State) : (s.count id n).chan c = s.chan c := rfl
theorem rail_life (id n r : Nat) (s : State) : (s.life id n).rail r = s.rail r := rfl
theorem rail_count (id n r : Nat) (s : State) : (s.count id n).rail r = s.rail r := rfl

theorem rail_modChan (s : State) (c : Nat) (f : Chan → Chan) (r : Nat) : (s.modChan c f).rail r = s.rail r := rfl
theorem rail_modFsm (s : State) (c : Nat) (f : Fsm → Fsm) (r : Nat) : (s.modFsm c f).rail r = s.rail r := rfl

theorem SameDrive.rfl' (a : Chan) : SameDrive a a := ⟨rfl, rfl, rfl, rfl, rfl, rfl, rfl⟩
theorem SameDrive.trans {a b c : Chan} (h : SameDrive a b) (k : SameDrive b c) : SameDrive a c :=
  ⟨k.1.trans h.1, k.2.1.trans h.2.1, k.2.2.1.trans h.2.2.1, k.2.2.2.1.trans h.2.2.2.1, k.2.2.2.2.1.trans h.2.2.2.2.1,
    k.2.2.2.2.2.1.trans h.2.2.2.2.2.1, k.2.2.2.2.2.2.trans h.2.2.2.2.2.2⟩
theorem SameRail.rfl' (a : Rail) : SameRail a a := rfl
theorem SameRail.trans {a b c : Rail} (h : SameRail a b) (k : SameRail b c) : SameRail a c := by
  unfold SameRail at *
  rw [k, h]

/-- A channel after a change that keeps how it drives. -/
theorem modChan_sameDrive (s : State) (c : Nat) {f : Chan → Chan} (h : ∀ v, SameDrive v (f v)) (k : Nat) :
    SameDrive (s.chan k) ((s.modChan c f).chan k) := by
  by_cases hk : k = c
  · subst hk
    by_cases hc : k < 208
    · rw [chan_modChan_self _ _ hc]; exact h _
    · have e : (s.modChan k f).chan k = s.chan k := by simp [State.modChan, State.setChan, State.chan, hc]
      rw [e]; exact SameDrive.rfl' _
  · rw [chan_modChan_other _ _ hk]; exact SameDrive.rfl' _

theorem modRail_sameRail (s : State) (r : Nat) {f : Rail → Rail} (h : ∀ v, SameRail v (f v)) (k : Nat) :
    SameRail (s.rail k) ((s.modRail r f).rail k) := by
  by_cases hk : k = r
  · subst hk
    by_cases hr : k < 12
    · rw [rail_modRail_self _ _ hr]; exact h _
    · have e : (s.modRail k f).rail k = s.rail k := by simp [State.modRail, State.rail, hr]
      rw [e]; rfl
  · rw [rail_modRail_other _ _ hk]; rfl

/-- Every unit drives as before. -/
def Steady (s t : State) : Prop := (∀ k, SameDrive (s.chan k) (t.chan k)) ∧ ∀ k, SameRail (s.rail k) (t.rail k)

theorem Steady.rfl' (s : State) : Steady s s := ⟨fun _ => SameDrive.rfl' _, fun _ => rfl⟩
theorem Steady.trans {s t u : State} (h : Steady s t) (k : Steady t u) : Steady s u :=
  ⟨fun c => (h.1 c).trans (k.1 c), fun r => (h.2 r).trans (k.2 r)⟩
theorem Reports.steady {s t : State} (h : Reports s t) : Steady s t :=
  ⟨fun k => by rw [h.chan k]; exact SameDrive.rfl' _, fun k => by rw [h.rail k]; rfl⟩

theorem forList_steady {f : Nat → State → State} (h : ∀ c s, Steady s (f c s)) (l : List Nat) (s : State) :
    Steady s (forList l f s) := by
  unfold forList
  induction l generalizing s with
  | nil => exact Steady.rfl' _
  | cons a l ih => exact (h a s).trans (ih _)

theorem modFsm_steady (s : State) (c : Nat) {f : Fsm → Fsm} (h : ∀ g, (f g).state = g.state ∧ (f g).code = g.code ∧
    (f g).bridge = g.bridge ∧ (f g).stop = g.stop) : Steady s (s.modFsm c f) :=
  ⟨modChan_sameDrive s c fun v => ⟨(h v.fsm).1, (h v.fsm).2.1, (h v.fsm).2.2.1, (h v.fsm).2.2.2, rfl, rfl, rfl⟩, fun _ => rfl⟩

theorem modDsp_steady (s : State) (c : Nat) (f : Dsp → Dsp) : Steady s (s.modDsp c f) :=
  ⟨modChan_sameDrive s c fun _ => ⟨rfl, rfl, rfl, rfl, rfl, rfl, rfl⟩, fun _ => rfl⟩

theorem undoForce_steady (t : Test) (s : State) : Steady s (undoForce t s) := by
  unfold undoForce
  repeat' split
  · exact ⟨fun k => SameDrive.rfl' _, modRail_sameRail _ _ fun v => rfl⟩
  · exact Steady.rfl' _
  · exact modDsp_steady _ _ _
  · exact Steady.rfl' _
  · refine (forList_steady (f := fun c s => s.modFsm c fun f => { f with holdTest := false })
      (fun c s => modFsm_steady s c fun g => ⟨rfl, rfl, rfl, rfl⟩) (fedBy t.inst) s).trans ?_
    exact ⟨fun k => SameDrive.rfl' _, modRail_sameRail _ _ fun v => rfl⟩
  · exact Steady.rfl' _

theorem setTests_steady (s : State) (x : Tests) : Steady s { s with tests := x } := ⟨fun _ => SameDrive.rfl' _, fun _ => rfl⟩

theorem endTest_steady (ticket state code : Nat) (v : List Byte) (s : State) : Steady s (endTest ticket state code v s) := by
  unfold endTest
  split
  · exact Steady.rfl' _
  · exact ((undoForce_steady _ s).trans (setTests_steady _ _)).trans (raise_reports _ _ _ _).steady

/-- Ending tests leaves every unit driving as it did. -/
theorem abortTests_steady (p : Test → Bool) (code : Nat) (s : State) : Steady s (abortTests p code s) := by
  unfold abortTests
  generalize s.tests.list.filter _ = l
  induction l generalizing s with
  | nil => exact Steady.rfl' _
  | cons a l ih => exact (endTest_steady _ _ _ _ s).trans (ih _)

theorem TouchesChan.sameRail {c : Nat} {s t : State} (h : TouchesChan c s t) (k : Nat) : SameRail (s.rail k) (t.rail k) := by
  unfold State.rail; rw [h.2.1]; rfl
theorem TouchesChan.sameDrive {c : Nat} {s t : State} (h : TouchesChan c s t) {k : Nat} (hk : k ≠ c) : SameDrive (s.chan k) (t.chan k) := by
  rw [h.2.2 k hk]; exact SameDrive.rfl' _

/-- FAULT changes how no other channel and no controller drives. -/
theorem enterFault_others (c code : Nat) (data : List Word) (s : State) :
    (∀ k, k ≠ c → SameDrive (s.chan k) ((enterFault c code data s).chan k)) ∧ ∀ r, SameRail (s.rail r) ((enterFault c code data s).rail r) := by
  have h := faultStart_touchesChan c code data s
  have a := abortTests_steady (preparing s c) 0xA012 (faultStart c code data s)
  unfold enterFault
  exact ⟨fun k hk => (h.sameDrive hk).trans (a.1 k), fun r => (h.sameRail r).trans (a.2 r)⟩

theorem hardStop_others (c code : Nat) (data : List Word) (s : State) :
    (∀ k, k ≠ c → SameDrive (s.chan k) ((hardStop c code data s).chan k)) ∧ ∀ r, SameRail (s.rail r) ((hardStop c code data s).rail r) := by
  unfold hardStop
  dsimp only
  split
  · exact ⟨fun _ _ => SameDrive.rfl' _, fun _ => rfl⟩
  split
  · have h := faultAgain_touchesChan c code data s
    exact ⟨fun k hk => h.sameDrive hk, fun r => h.sameRail r⟩
  · exact enterFault_others _ _ _ _

/-- A cause of FAULT leaves the controllers as they are. -/
theorem hardStop_sameRail (c code : Nat) (data : List Word) (s : State) (k : Nat) : SameRail (s.rail k) ((hardStop c code data s).rail k) :=
  (hardStop_others c code data s).2 k

/-- A channel that a cause of FAULT does not name drives as before. -/
theorem hardStop_other (c code : Nat) (data : List Word) (s : State) {k : Nat} (hk : k ≠ c) :
    SameDrive (s.chan k) ((hardStop c code data s).chan k) := (hardStop_others c code data s).1 k hk

/-- A channel that enters FAULT is held, with its code latched and its relay to open (R272, R326). -/
theorem enterFault_self {c : Nat} (code : Nat) (data : List Word) (s : State) (hc : c < 208) :
    ((enterFault c code data s).chan c).fsm.state = .fault ∧ ((enterFault c code data s).chan c).fsm.code = code ∧
    ((enterFault c code data s).chan c).fsm.bridge = holdFor s c ∧ ((enterFault c code data s).chan c).fsm.stop = .none := by
  have a := (abortTests_steady (preparing s c) 0xA012 (faultStart c code data s)).1 c
  have hold : holdFor (idleEnds c (if (s.chan c).fsm.state = .diag then noteDiag c code s else s)) c = holdFor s c := by
    rw [idleEnds_eq]
    refine holdFor_congr c ?_ ?_ ?_ ?_ ?_ <;> split <;> rfl
  have f : ((faultStart c code data s).chan c).fsm.state = .fault ∧ ((faultStart c code data s).chan c).fsm.code = code ∧
      ((faultStart c code data s).chan c).fsm.bridge = holdFor s c ∧ ((faultStart c code data s).chan c).fsm.stop = .none := by
    unfold faultStart
    dsimp only
    rw [(raise_reports _ _ _ _).chan, chan_life, chan_modChan_self _ _ hc, ← hold]
    exact ⟨rfl, rfl, rfl, rfl⟩
  unfold enterFault
  exact ⟨a.1.trans f.1, a.2.1.trans f.2.1, a.2.2.1.trans f.2.2.1, a.2.2.2.1.trans f.2.2.2⟩

/-- A channel that drives or is on its way to it enters FAULT with its bridge held and its code latched (R272). -/
theorem hardStop_self {c code : Nat} {data : List Word} {s : State} (hc : c < 208) (h1 : (s.chan c).fsm.state ≠ .off)
    (h2 : (s.chan c).fsm.state ≠ .fault) (h3 : (s.chan c).fsm.state ≠ .retest) :
    ((hardStop c code data s).chan c).fsm.state = .fault ∧ ((hardStop c code data s).chan c).fsm.code = code ∧
    ((hardStop c code data s).chan c).fsm.bridge = holdFor s c ∧ ((hardStop c code data s).chan c).fsm.stop = .none := by
  unfold hardStop
  dsimp only
  rw [if_neg h1, if_neg (by simp [h2, h3])]
  exact enterFault_self _ _ _ hc

/-- A fault stop of a controller: its gates are off, its code is latched, and it waits for a retry where the policy has one left
(R343, R345). -/
theorem railFault_rail (r code : Nat) (data : List Word) (s : State) (k : Nat) :
    SameRail (if k = r ∧ r < 12 then
      { (s.rail r).stopped (if railRetried code ∧ 0 < (if (s.rail r).state == .regulating then s.nat 0x07 r 5 else (s.rail r).retriesLeft)
          then .retryWait else .fault) with
        code := code
        retriesLeft := if (s.rail r).state == .regulating then s.nat 0x07 r 5 else (s.rail r).retriesLeft
        attempts := if (s.rail r).state == .regulating then 0 else (s.rail r).attempts
        cyc := { ((s.rail r).stopped .fault).cyc with
          stoppedAt := s.keeper.counterUs, retryMs := if (s.rail r).state == .regulating then s.nat 0x07 r 6 else (s.rail r).cyc.retryMs } }
      else s.rail k) ((railFault r code data s).rail k) := by
  have fl : ∀ (l : List Nat) (u : State), SameRail (u.rail k) ((forList l (fun c s => hardStop c (chanCode c 0x14) [word r] s) u).rail k) := by
    intro l
    unfold forList
    induction l with
    | nil => exact fun _ => rfl
    | cons a l ih => exact fun u => (hardStop_sameRail _ _ _ u k).trans (ih _)
  have own : ∀ F : Rail → Rail, (s.modRail r F).rail k = if k = r ∧ r < 12 then F (s.rail r) else s.rail k := by
    intro F
    by_cases hk : k = r
    · subst hk
      by_cases hr : k < 12
      · rw [rail_modRail_self _ _ hr, if_pos ⟨rfl, hr⟩]
      · rw [if_neg (by simp [hr])]; simp [State.modRail, State.rail, hr]
    · rw [rail_modRail_other _ _ hk, if_neg (by simp [hk])]
  unfold railFault
  dsimp only
  refine SameRail.trans ?_ ((abortTests_steady _ _ _).2 k)
  rw [← own fun q => { q.stopped (if railRetried code ∧ 0 < (if (s.rail r).state == .regulating then s.nat 0x07 r 5 else (s.rail r).retriesLeft)
          then .retryWait else .fault) with
        code := code
        retriesLeft := if (s.rail r).state == .regulating then s.nat 0x07 r 5 else (s.rail r).retriesLeft
        attempts := if (s.rail r).state == .regulating then 0 else (s.rail r).attempts
        cyc := { (q.stopped .fault).cyc with
          stoppedAt := s.keeper.counterUs, retryMs := if (s.rail r).state == .regulating then s.nat 0x07 r 6 else q.cyc.retryMs } }]
  rw [← (raise_reports code r data _).rail k]
  split
  · exact fl _ _
  · rfl

/-- In FAULT a further cause leaves the state; the same cause leaves the latched code (R326). -/
theorem hardStop_again {c code : Nat} {data : List Word} {s : State} (hc : c < 208) (h : (s.chan c).fsm.state = .fault) :
    ((hardStop c code data s).chan c).fsm.state = .fault ∧
    ((s.chan c).fsm.code = code → ((hardStop c code data s).chan c).fsm.code = code) := by
  unfold hardStop faultAgain
  dsimp only
  rw [if_neg (by simp [h]), if_pos (Or.inl h)]
  have n : ¬ (s.chan c).fsm.state = .retest := by simp [h]
  simp only [if_neg n]
  have e : ∀ F : Fsm → Fsm, (((s.count (chanStat c 0x10A) 1).modFsm c F).chan c).fsm = F (s.chan c).fsm := fun F => by
    unfold State.modFsm; rw [chan_modChan_self _ _ hc, chan_count]
  by_cases h2 : retestable code = true
  · rw [if_pos h2, e]
    exact ⟨rfl, fun k => by simp [h2, k]⟩
  · rw [if_neg h2, (raise_reports _ _ _ _).chan, e]
    exact ⟨rfl, fun k => by simp only [k]; split <;> rfl⟩

/-- One cause that reaches every channel of a list: a channel of the list that drives enters FAULT with that cause's code; a channel
outside it drives on. -/
theorem forList_hardStop (low : Nat) (data : List Word) (l : List Nat) (s : State) {k : Nat} (hk : k < 208) :
    (k ∈ l → (s.chan k).fsm.state ≠ .off → (s.chan k).fsm.state ≠ .fault → (s.chan k).fsm.state ≠ .retest →
      ((forList l (fun c s => hardStop c (chanCode c low) data s) s).chan k).fsm.state = .fault ∧
      ((forList l (fun c s => hardStop c (chanCode c low) data s) s).chan k).fsm.code = chanCode k low) ∧
    (k ∉ l → SameDrive (s.chan k) ((forList l (fun c s => hardStop c (chanCode c low) data s) s).chan k)) ∧
    ((s.chan k).fsm.state = .fault → (s.chan k).fsm.code = chanCode k low →
      ((forList l (fun c s => hardStop c (chanCode c low) data s) s).chan k).fsm.state = .fault ∧
      ((forList l (fun c s => hardStop c (chanCode c low) data s) s).chan k).fsm.code = chanCode k low) := by
  unfold forList
  induction l generalizing s with
  | nil => exact ⟨fun h => by simp at h, fun _ => SameDrive.rfl' _, fun h1 h2 => ⟨h1, h2⟩⟩
  | cons a l ih =>
    rw [List.foldl_cons]
    have ih' := ih (hardStop a (chanCode a low) data s)
    by_cases ha : k = a
    · subst ha
      refine ⟨fun _ h1 h2 h3 => ?_, fun h => by simp at h, fun h1 h2 => ?_⟩
      · have e := hardStop_self (code := chanCode k low) (data := data) hk h1 h2 h3
        exact ih'.2.2 e.1 e.2.1
      · have e := hardStop_again (code := chanCode k low) (data := data) hk h1
        exact ih'.2.2 e.1 (e.2 h2)
    · have o := hardStop_other a (chanCode a low) data s ha
      refine ⟨fun h h1 h2 h3 => ?_, fun h => ?_, fun h1 h2 => ?_⟩
      · have hl : k ∈ l := by simpa [ha] using h
        exact ih'.1 hl (by rw [o.1]; exact h1) (by rw [o.1]; exact h2) (by rw [o.1]; exact h3)
      · exact o.trans (ih'.2.1 (by simp at h; exact h.2))
      · exact ih'.2.2 (o.1.trans h1) (o.2.1.trans h2)

/-- A fault stop from REGULATING loses the rail of every fed channel that drives; the others drive on (R345). -/
theorem railFault_chan (r code : Nat) (data : List Word) (s : State) {k : Nat} (hk : k < 208) :
    ((s.rail r).state = .regulating → k ∈ fedBy r → (s.chan k).fsm.state ≠ .off → (s.chan k).fsm.state ≠ .fault → (s.chan k).fsm.state ≠ .retest →
      ((railFault r code data s).chan k).fsm.state = .fault ∧ ((railFault r code data s).chan k).fsm.code = chanCode k 0x14) ∧
    ((s.rail r).state ≠ .regulating ∨ k ∉ fedBy r → SameDrive (s.chan k) ((railFault r code data s).chan k)) := by
  have main : ∀ F : Rail → Rail, ∀ v, v = abortTests (fun t => t.onRail r && t.force) 0xA012 (if ((s.rail r).state == RcState.regulating) = true then
        forList (fedBy r) (fun c s => hardStop c (chanCode c 0x14) [word r] s) (State.raise code r data (s.modRail r F))
        else State.raise code r data (s.modRail r F)) →
      ((s.rail r).state = .regulating → k ∈ fedBy r → (s.chan k).fsm.state ≠ .off → (s.chan k).fsm.state ≠ .fault → (s.chan k).fsm.state ≠ .retest →
        (v.chan k).fsm.state = .fault ∧ (v.chan k).fsm.code = chanCode k 0x14) ∧
      ((s.rail r).state ≠ .regulating ∨ k ∉ fedBy r → SameDrive (s.chan k) (v.chan k)) := by
    intro F v hv
    have e : (State.raise code r data (s.modRail r F)).chan k = s.chan k := (raise_reports _ _ _ _).chan k
    have f := forList_hardStop 0x14 [word r] (fedBy r) (State.raise code r data (s.modRail r F)) hk
    rw [e] at f
    rw [hv]
    refine ⟨fun h1 h2 h3 h4 h5 => ?_, fun h => ?_⟩
    · rw [if_pos (by simp [h1])]
      have k2 := (abortTests_steady (fun t => t.onRail r && t.force) 0xA012 (forList (fedBy r) (fun c s => hardStop c (chanCode c 0x14) [word r] s)
        (State.raise code r data (s.modRail r F)))).1 k
      have g := f.1 h2 h3 h4 h5
      exact ⟨k2.1.trans g.1, k2.2.1.trans g.2⟩
    · refine SameDrive.trans ?_ ((abortTests_steady _ _ _).1 k)
      split
      · rename_i hh
        rcases h with h | h
        · simp [h] at hh
        · exact f.2.1 h
      · rw [e]; exact SameDrive.rfl' _
  exact main _ _ rfl

end Sys2Proof.Machine
end

