-- ==== Sys2Proof/Laws/Channels.lean ====
section
/-! SUPPORT. Laws of the channel operations: at most one channel drives otherwise, and what that channel then is. -/

namespace Sys2Proof.Machine

theorem DrivesChan.rfl' (c : Nat) (s : State) : DrivesChan c s s := ⟨rfl, fun _ _ => SameDrive.rfl' _, fun _ => rfl⟩

theorem DrivesChan.trans {c : Nat} {s t u : State} (h : DrivesChan c s t) (k : DrivesChan c t u) : DrivesChan c s u :=
  ⟨h.1.trans k.1, fun j hj => (h.2.1 j hj).trans (k.2.1 j hj), fun r => (h.2.2 r).trans (k.2.2 r)⟩

theorem TouchesChan.drives {c : Nat} {s t : State} (h : TouchesChan c s t) : DrivesChan c s t :=
  ⟨h.1, fun k hk => by rw [h.2.2 k hk]; exact SameDrive.rfl' _, fun r => by unfold State.rail; rw [h.2.1]; rfl⟩

theorem hardStop_drives (c code : Nat) (data : List Word) (s : State) : DrivesChan c s (hardStop c code data s) :=
  ⟨hardStop_touches _ _ _ _, fun _ hk => hardStop_other _ _ _ _ hk, hardStop_sameRail _ _ _ _⟩

theorem enterFault_drives (c code : Nat) (data : List Word) (s : State) : DrivesChan c s (enterFault c code data s) :=
  ⟨enterFault_touches _ _ _ _, (enterFault_others _ _ _ _).1, (enterFault_others _ _ _ _).2⟩

/-- A cause of FAULT also reaches IDLE, RUN and MUTED (R266). -/
theorem hardStop_switching {c code : Nat} {data : List Word} {s : State} (hc : c < 208) (h : (s.chan c).fsm.state.switching = true) :
    ((hardStop c code data s).chan c).fsm.state = .fault ∧ ((hardStop c code data s).chan c).fsm.code = code ∧
    ((hardStop c code data s).chan c).fsm.bridge = holdFor s c ∧ ((hardStop c code data s).chan c).fsm.stop = .none :=
  hardStop_self hc (fun e => by simp [e, ChanState.switching] at h) (fun e => by simp [e, ChanState.switching] at h)
    (fun e => by simp [e, ChanState.switching] at h)

theorem modPwmCh_touchesChan (c : Nat) (s : State) (k : Nat) (f : PwmCh → PwmCh) : TouchesChan c s (s.modPwmCh k f) := ⟨rfl, rfl, fun _ _ => rfl⟩

/-- What the start of the legs, the fresh feeder and the place of the base counter change stands in the PWM block. -/
theorem startLegs_touchesChan (c : Nat) (s : State) : TouchesChan c s (startLegs c s) := by
  unfold startLegs
  split <;> exact ⟨rfl, rfl, fun _ _ => rfl⟩
theorem startLegs_chan (c k : Nat) (s : State) : (startLegs c s).chan k = s.chan k := by
  unfold startLegs; split <;> rfl
theorem freshFeed_touchesChan (c : Nat) (s : State) : TouchesChan c s (freshFeed c s) := by
  unfold freshFeed
  split <;> exact ⟨rfl, rfl, fun _ _ => rfl⟩
theorem freshFeed_chan (c k : Nat) (s : State) : (freshFeed c s).chan k = s.chan k := by
  unfold freshFeed; split <;> rfl
theorem countAt_touchesChan (c n : Nat) (s : State) : TouchesChan c s (countAt c n s) := by
  unfold countAt
  split <;> exact ⟨rfl, rfl, fun _ _ => rfl⟩
theorem countAt_chan (c n k : Nat) (s : State) : (countAt c n s).chan k = s.chan k := by
  unfold countAt; split <;> rfl

theorem seedModel_touchesChan (c : Nat) (s : State) : TouchesChan c s (seedModel c s) := by
  unfold seedModel
  dsimp only
  split
  · exact TouchesChan.rfl' _ _
  · exact modModel_touchesChan _ _ _

/-- Seeding a model leaves how its channel drives. -/
theorem seedModel_fsm (c : Nat) (s : State) (hc : c < 208) : ((seedModel c s).chan c).fsm = (s.chan c).fsm := by
  unfold seedModel
  dsimp only
  split
  · rfl
  · unfold State.modModel; rw [chan_modChan_self _ _ hc]

theorem chan_modFsm_self (s : State) {c : Nat} (f : Fsm → Fsm) (hc : c < 208) :
    (s.modFsm c f).chan c = { s.chan c with fsm := f (s.chan c).fsm } := chan_modChan_self s _ hc
theorem chan_modLoop_self (s : State) {c : Nat} (f : Loop → Loop) (hc : c < 208) :
    (s.modLoop c f).chan c = { s.chan c with loop := f (s.chan c).loop } := chan_modChan_self s _ hc
theorem chan_modDsp_self (s : State) {c : Nat} (f : Dsp → Dsp) (hc : c < 208) :
    (s.modDsp c f).chan c = { s.chan c with dsp := f (s.chan c).dsp } := chan_modChan_self s _ hc
theorem chan_modModel_self (s : State) {c : Nat} (f : Model → Model) (hc : c < 208) :
    (s.modModel c f).chan c = { s.chan c with model := f (s.chan c).model } := chan_modChan_self s _ hc
theorem chan_modShare_self (s : State) {c : Nat} (f : Share → Share) (hc : c < 208) :
    (s.modShare c f).chan c = { s.chan c with share := f (s.chan c).share } := chan_modChan_self s _ hc

theorem setHolds_touchesChan (c : Nat) (l : Log) (s : State) : TouchesChan c s { s with log := l } := ⟨rfl, rfl, fun _ _ => rfl⟩

theorem raiseHeldAs_touchesChan (c len code inst : Nat) (data : List Word) (s : State) :
    TouchesChan c s (s.raiseHeldAs len code inst data) ∧ (s.raiseHeldAs len code inst data).chans = s.chans := by
  unfold State.raiseHeldAs
  split
  · exact ⟨TouchesChan.rfl' _ _, rfl⟩
  · exact ⟨(setHolds_touchesChan _ _ _).trans (raise_touchesChan _ _ _ _ _), by rw [raise_reports]⟩

theorem raiseHeldAs_chan (len code inst k : Nat) (data : List Word) (s : State) : (s.raiseHeldAs len code inst data).chan k = s.chan k := by
  unfold State.chan; rw [(raiseHeldAs_touchesChan 0 len code inst data s).2]

theorem raiseHeld_touchesChan (c len code inst n : Nat) (more : List Word) (s : State) :
    TouchesChan c s (s.raiseHeld len code inst n more) ∧ (s.raiseHeld len code inst n more).chans = s.chans := by
  unfold State.raiseHeld
  dsimp only
  split
  · exact ⟨setHolds_touchesChan _ _ _, rfl⟩
  split
  · exact ⟨TouchesChan.rfl' _ _, rfl⟩
  · exact ⟨(setHolds_touchesChan _ _ _).trans (raise_touchesChan _ _ _ _ _), by rw [raise_reports]⟩

theorem raiseHeld_chan (len code inst n k : Nat) (more : List Word) (s : State) : (s.raiseHeld len code inst n more).chan k = s.chan k := by
  unfold State.chan; rw [(raiseHeld_touchesChan 0 len code inst n more s).2]

theorem enterVoltageOnly_touchesChan (c case : Nat) (s : State) : TouchesChan c s (enterVoltageOnly c case s) := by
  unfold enterVoltageOnly
  split
  · exact TouchesChan.rfl' _ _
  · exact ((modChan_touchesChan _ _ _).trans (raise_touchesChan _ _ _ _ _)).trans (raise_touchesChan _ _ _ _ _)

theorem enterVoltageOnly_fsm (c case : Nat) (s : State) (hc : c < 208) :
    ((enterVoltageOnly c case s).chan c).fsm = { (s.chan c).fsm with voltageOnly := true } ∧
    ((enterVoltageOnly c case s).chan c).loop = (s.chan c).loop ∧ ((enterVoltageOnly c case s).chan c).dsp = (s.chan c).dsp := by
  unfold enterVoltageOnly
  split
  · rename_i h; refine ⟨?_, rfl, rfl⟩
    rw [← h]
  · rw [(raise_reports _ _ _ _).chan, (raise_reports _ _ _ _).chan, chan_modChan_self _ _ hc]
    exact ⟨rfl, rfl, rfl⟩

theorem failTest_drives (c code : Nat) (data : List Word) (s : State) : DrivesChan c s (failTest c code data s) := by
  unfold failTest
  split
  · exact (modFsm_touchesChan _ _ _).drives
  · exact enterFault_drives _ _ _ _

theorem admitChannel_touchesChan (c : Nat) (s : State) : TouchesChan c s (admitChannel c s) := by
  unfold admitChannel
  split
  · exact (maskDue_touchesChan c c s).trans (modFsm_touchesChan _ _ _)
  · exact (maskDue_touchesChan c c s).trans (modChan_touchesChan _ _ _)

theorem startDiag_drives (c : Nat) (s : State) : DrivesChan c s (startDiag c s) := by
  unfold startDiag
  dsimp only
  split
  · exact ((maskDue_touchesChan c c s).trans (modChan_touchesChan _ _ _)).drives
  · exact ((maskDue_touchesChan c c s).trans (modChan_touchesChan _ _ _)).drives.trans (enterFault_drives _ _ _ _)

theorem enterFault_faulted {c : Nat} (code : Nat) (data : List Word) (s : State) (hc : c < 208) : Faulted c code s (enterFault c code data s) :=
  ⟨enterFault_drives _ _ _ _, enterFault_self _ _ _ hc⟩

theorem hardStop_faulted {c code : Nat} {data : List Word} {s : State} (hc : c < 208) (h : (s.chan c).fsm.state.switching = true) :
    Faulted c code s (hardStop c code data s) :=
  ⟨hardStop_drives _ _ _ _, hardStop_switching hc h⟩

end Sys2Proof.Machine
end

