-- ==== Sys2Proof/Laws/Generators.lean ====
section
/-! SUPPORT. Laws of the generator registers, and of the channel operations that leave them. -/

namespace Sys2Proof.Machine

@[simp] theorem pwmCh_modPwmCh_self (s : State) {k : Nat} (f : PwmCh → PwmCh) (h : k < 16) : (s.modPwmCh k f).pwmCh k = f (s.pwmCh k) := by
  simp [State.modPwmCh, State.pwmCh, h]

@[simp] theorem pwmCh_modPwmCh_other (s : State) {k j : Nat} (f : PwmCh → PwmCh) (h : j ≠ k) : (s.modPwmCh k f).pwmCh j = s.pwmCh j := by
  simp [State.modPwmCh, State.pwmCh, Vector.getElem?_setIfInBounds_ne (Ne.symm h)]

theorem Reports.pwm {s t : State} (h : Reports s t) : t.pwm = s.pwm := by rw [h]

theorem forList_pwm {f : Nat → State → State} (h : ∀ c s, (f c s).pwm = s.pwm) (l : List Nat) (s : State) : (forList l f s).pwm = s.pwm := by
  unfold forList
  induction l generalizing s with
  | nil => rfl
  | cons a l ih => exact (ih _).trans (h a s)

theorem undoForce_pwm (t : Test) (s : State) : (undoForce t s).pwm = s.pwm := by
  unfold undoForce
  repeat' split
  · rfl
  · rfl
  · rfl
  · rfl
  · exact forList_pwm (f := fun c s => s.modFsm c fun f => { f with holdTest := false }) (fun _ _ => rfl) (fedBy t.inst) s
  · rfl

theorem endTest_pwm (ticket state code : Nat) (v : List Byte) (s : State) : (endTest ticket state code v s).pwm = s.pwm := by
  unfold endTest
  split
  · rfl
  · exact (raise_reports _ _ _ _).pwm.trans (undoForce_pwm _ s)

theorem abortTests_pwm (p : Test → Bool) (code : Nat) (s : State) : (abortTests p code s).pwm = s.pwm := by
  unfold abortTests
  generalize s.tests.list.filter _ = l
  induction l generalizing s with
  | nil => rfl
  | cons a l ih => exact (ih _).trans (endTest_pwm _ _ _ _ s)

/-- Of the generator registers nothing differs but the registers of single channels: the latches, their inputs and the counter stand. -/
def SamePins (s t : State) : Prop := t.pwm = { s.pwm with ch := t.pwm.ch }

theorem SamePins.rfl' (s : State) : SamePins s s := rfl
theorem SamePins.of_eq {s t : State} (h : t.pwm = s.pwm) : SamePins s t := by unfold SamePins; rw [h]
theorem SamePins.trans {s t u : State} (h : SamePins s t) (k : SamePins t u) : SamePins s u := by
  unfold SamePins at *; rw [k, h]

theorem maskDue_pins (c : Nat) (s : State) : SamePins s (maskDue c s) := by
  unfold maskDue; split <;> rfl

theorem noteDiag_pins (c code : Nat) (s : State) : SamePins s (noteDiag c code s) := rfl
theorem idleEnds_pins (c : Nat) (s : State) : SamePins s (idleEnds c s) := .of_eq (idleEnds_pwm c s)

theorem enterFault_pins (c code : Nat) (data : List Word) (s : State) : SamePins s (enterFault c code data s) := by
  have h : SamePins s (if (s.chan c).fsm.state = .diag then noteDiag c code s else s) := by split <;> rfl
  unfold enterFault
  refine SamePins.trans ?_ (.of_eq (abortTests_pwm _ _ _))
  unfold faultStart
  exact ((h.trans (idleEnds_pins c _)).trans (maskDue_pins c _)).trans (.of_eq (raise_reports _ _ _ _).pwm)

theorem faultAgain_pins (c code : Nat) (data : List Word) (s : State) : SamePins s (faultAgain c code data s) := by
  have h0 : SamePins s (if (s.chan c).fsm.state = .retest then noteDiag c code (maskDue c ((s.count (chanStat c 0x10A) 1).life (chanStat c 0x183) 1))
      else s.count (chanStat c 0x10A) 1) := by
    split
    · exact maskDue_pins c ((s.count (chanStat c 0x10A) 1).life (chanStat c 0x183) 1)
    · rfl
  have h2 : ∀ u, SamePins u (if (s.chan c).fsm.state = .retest then u.modShare c Share.leave else u) := fun u => by split <;> rfl
  unfold faultAgain
  dsimp only
  split
  · exact (h0.trans (.of_eq rfl)).trans (h2 _)
  · refine SamePins.trans ?_ (.of_eq (raise_reports _ _ _ _).pwm)
    exact (h0.trans (.of_eq rfl)).trans (h2 _)

theorem hardStop_pins (c code : Nat) (data : List Word) (s : State) : SamePins s (hardStop c code data s) := by
  unfold hardStop
  dsimp only
  split
  · rfl
  split
  · exact faultAgain_pins _ _ _ _
  · exact enterFault_pins _ _ _ _

theorem holdFor_touches {s t : State} (c : Nat) (h : Touches s t) (hp : SamePins s t) : holdFor t c = holdFor s c :=
  holdFor_congr c (by rw [h]) (by rw [h]) (by rw [h]) (by rw [hp]) (by rw [hp])

/-- No hold is the switching of a bridge. -/
theorem holdFor_ne (s : State) (c : Nat) : holdFor s c ≠ .switching := by
  have : ∀ b l, safeBridge b l ≠ some .switching := by
    intro b l; unfold safeBridge; repeat' split
    all_goals simp
  unfold holdFor
  repeat' split
  · simp
  · simp
  · rename_i h; intro e; exact this _ _ (by rw [h, e])
  · simp
  · simp

end Sys2Proof.Machine
end

