-- ==== Sys2Proof/Laws/Word.lean ====
section
/-! SUPPORT. Laws of the sparse maps: read after write, and that a write keeps the canonical form. -/

namespace Sys2Proof

variable {α : Type} [DecidableEq α] {d : α}

/-- A map whose keys lie above `lo` reads `d` at `lo`. -/
theorem SMap.get_of_wfFrom {m : SMap α} {k : Nat} (h : SMap.wfFrom d (some k) m = true) : SMap.get d k m = d := by
  cases m with
  | nil => rfl
  | cons p m =>
    obtain ⟨j, v⟩ := p
    simp only [SMap.wfFrom, Bool.and_eq_true, decide_eq_true_eq] at h
    simp only [SMap.get]
    rw [if_neg (by omega), if_pos (by omega)]

/-- Lowering the bound below the first key keeps the canonical form. -/
theorem SMap.wfFrom_weaken {m : SMap α} {k : Nat} {lo : Option Nat} (h : SMap.wfFrom d (some k) m = true)
    (hlo : ∀ l, lo = some l → l ≤ k) : SMap.wfFrom d lo m = true := by
  cases m with
  | nil => rfl
  | cons p m =>
    obtain ⟨j, v⟩ := p
    simp only [SMap.wfFrom, Bool.and_eq_true, decide_eq_true_eq] at h ⊢
    refine ⟨⟨?_, h.1.2⟩, h.2⟩
    cases lo with
    | none => rfl
    | some l => have := hlo l rfl; simp only [decide_eq_true_eq]; omega

/-- A write above the bound keeps the canonical form. -/
theorem SMap.put_wfFrom {m : SMap α} {lo : Option Nat} {k : Nat} {v : α} (h : SMap.wfFrom d lo m = true)
    (hk : ∀ l, lo = some l → l < k) : SMap.wfFrom d lo (SMap.put d k v m) = true := by
  induction m generalizing lo with
  | nil =>
    simp only [SMap.put]
    split
    · rfl
    · rename_i hv
      cases lo with
      | none => simp [SMap.wfFrom, hv]
      | some l => simp [SMap.wfFrom, hv, hk l rfl]
  | cons p m ih =>
    obtain ⟨j, w⟩ := p
    simp only [SMap.wfFrom, Bool.and_eq_true, decide_eq_true_eq] at h
    simp only [SMap.put]
    split
    · rename_i hkj
      split
      · simp only [SMap.wfFrom, Bool.and_eq_true, decide_eq_true_eq]; exact h
      · rename_i hv
        simp only [SMap.wfFrom, Bool.and_eq_true, decide_eq_true_eq]
        refine ⟨⟨?_, hv⟩, ⟨hkj, h.1.2⟩, h.2⟩
        cases lo with
        | none => rfl
        | some l => simpa using hk l rfl
    · split
      · rename_i hkj
        subst hkj
        split
        · exact SMap.wfFrom_weaken h.2 (fun l hl => le_of_lt (hk l hl))
        · rename_i hv
          simp only [SMap.wfFrom, Bool.and_eq_true, decide_eq_true_eq]
          exact ⟨⟨h.1.1, hv⟩, h.2⟩
      · simp only [SMap.wfFrom, Bool.and_eq_true, decide_eq_true_eq]
        exact ⟨h.1, ih h.2 (fun l hl => by cases hl; omega)⟩

/-- A write keeps the canonical form. -/
theorem SMap.put_wf {m : SMap α} {k : Nat} {v : α} (h : SMap.wf d m = true) : SMap.wf d (SMap.put d k v m) = true :=
  SMap.put_wfFrom h (fun _ hl => by cases hl)

/-- Read after write at the same key. -/
theorem SMap.get_put_same {m : SMap α} {lo : Option Nat} {k : Nat} {v : α} (h : SMap.wfFrom d lo m = true) :
    SMap.get d k (SMap.put d k v m) = v := by
  induction m generalizing lo with
  | nil =>
    simp only [SMap.put]
    split
    · rename_i hv; simp [SMap.get, hv]
    · simp [SMap.get]
  | cons p m ih =>
    obtain ⟨j, w⟩ := p
    simp only [SMap.wfFrom, Bool.and_eq_true, decide_eq_true_eq] at h
    simp only [SMap.put]
    split
    · rename_i hkj
      split
      · rename_i hv; simp only [SMap.get]; rw [if_neg (by omega), if_pos hkj, hv]
      · simp [SMap.get]
    · split
      · rename_i hkj
        subst hkj
        split
        · rename_i hv; rw [hv]; exact SMap.get_of_wfFrom h.2
        · simp [SMap.get]
      · rename_i h1 h2
        simp only [SMap.get]
        rw [if_neg (by omega), if_neg h1]
        exact ih h.2

/-- A write leaves every other key alone. -/
theorem SMap.get_put_other {m : SMap α} {lo : Option Nat} {k j : Nat} {v : α} (h : SMap.wfFrom d lo m = true) (hne : j ≠ k) :
    SMap.get d j (SMap.put d k v m) = SMap.get d j m := by
  induction m generalizing lo with
  | nil =>
    simp only [SMap.put]
    split
    · rfl
    · simp only [SMap.get]; rw [if_neg (Ne.symm hne)]; split <;> rfl
  | cons p m ih =>
    obtain ⟨i, w⟩ := p
    simp only [SMap.wfFrom, Bool.and_eq_true, decide_eq_true_eq] at h
    simp only [SMap.put]
    split
    · rename_i hki
      split
      · rfl
      · simp only [SMap.get]
        rw [if_neg (Ne.symm hne)]
        by_cases hjk : j < k
        · rw [if_pos hjk, if_neg (by omega), if_pos (by omega)]
        · rw [if_neg hjk]
    · split
      · rename_i hki
        subst hki
        split
        · simp only [SMap.get]
          rw [if_neg (Ne.symm hne)]
          by_cases hjk : j < k
          · rw [if_pos hjk]; exact SMap.get_of_wfFrom (SMap.wfFrom_weaken h.2 (fun l hl => by cases hl; omega))
          · rw [if_neg hjk]
        · simp only [SMap.get]
          rw [if_neg (Ne.symm hne), if_neg (Ne.symm hne)]
      · simp only [SMap.get]
        split
        · rfl
        · split
          · rfl
          · exact ih h.2

end Sys2Proof
end

