-- ==== Sys2Proof/Laws/Memory.lean ====
section
/-! SUPPORT. Laws of the byte memories: read after write, the bytes left alone, and the canonical form, which each operation that writes
a memory keeps. -/

namespace Sys2Proof.Machine

theorem putBytes_nil (a : Nat) (m : Memory) : putBytes a [] m = m := rfl

theorem putBytes_cons (a : Nat) (b : Byte) (l : List Byte) (m : Memory) :
    putBytes a (b :: l) m = putBytes (a + 1) l (SMap.put 0 a b m) := rfl

/-- A write of bytes keeps the canonical form. -/
theorem putBytes_wf {m : Memory} (a : Nat) (l : List Byte) (h : Memory.wf m = true) : Memory.wf (putBytes a l m) = true := by
  induction l generalizing a m with
  | nil => exact h
  | cons b l ih => rw [putBytes_cons]; exact ih _ (SMap.put_wf h)

/-- A byte outside those written reads as before. -/
theorem get_putBytes_other {m : Memory} (a k : Nat) (l : List Byte) (h : Memory.wf m = true) (hk : k < a ∨ a + l.length ≤ k) :
    SMap.get 0 k (putBytes a l m) = SMap.get 0 k m := by
  induction l generalizing a m with
  | nil => rfl
  | cons b l ih =>
    rw [List.length_cons] at hk
    rw [putBytes_cons, ih _ (SMap.put_wf h) (by omega)]
    exact SMap.get_put_other h (by omega)

/-- Byte `i` of those written reads back. -/
theorem get_putBytes_same {m : Memory} (a i : Nat) (l : List Byte) (h : Memory.wf m = true) (hi : i < l.length) :
    SMap.get 0 (a + i) (putBytes a l m) = l[i] := by
  induction l generalizing a i m with
  | nil => simp at hi
  | cons b l ih =>
    rw [putBytes_cons]
    cases i with
    | zero => rw [get_putBytes_other _ _ _ (SMap.put_wf h) (by omega)]; exact SMap.get_put_same h
    | succ i =>
      rw [show a + (i + 1) = (a + 1) + i by omega, ih _ _ (SMap.put_wf h) (by simpa using hi)]
      rfl

/-- What was written reads back as a whole. -/
theorem getBytes_putBytes {m : Memory} (a : Nat) (l : List Byte) (h : Memory.wf m = true) :
    getBytes a l.length (putBytes a l m) = l := by
  apply List.ext_getElem
  · simp [getBytes]
  · intro i h1 h2
    simpa [getBytes] using get_putBytes_same a i l h h2

/-! ### The operations that write a memory -/

theorem deliverSpi_wf {i : Nat} {f : List Byte} {s : State} (h : Memory.wf s.spi.mem = true) :
    Memory.wf (deliverSpi i f s).spi.mem = true := by
  unfold deliverSpi putResponse
  simpa using putBytes_wf _ _ h

theorem deliver_wf {i : Nat} {f : List Byte} {s : State} (h : Memory.wf s.spi.mem = true) :
    Memory.wf (deliver i f s).spi.mem = true := by
  unfold deliver
  split
  · unfold putResponse; simpa using putBytes_wf _ _ h
  · exact deliverSpi_wf h

theorem answer_wf {i : Nat} {f : List Byte} {s : State} (h : Memory.wf s.spi.mem = true) :
    Memory.wf (answer i f s).spi.mem = true := by
  unfold answer
  split
  · exact deliver_wf h
  · exact h

theorem reply_wf {i st : Nat} {r : Req} {p : List Byte} {s : State} (h : Memory.wf s.spi.mem = true) :
    Memory.wf (reply i r st p s).spi.mem = true := answer_wf h

theorem resetTo_sound {c : Nat} {por : Bool} {s : State} (h : MemSound s) : MemSound (resetTo c por s) := by
  cases por
  · exact h
  · exact ⟨rfl, rfl⟩

theorem commandReset_sound {s : State} (h : MemSound s) : MemSound (commandReset s) := by
  unfold commandReset MemSound
  simp only [startSequence_frame]
  apply resetTo_sound
  unfold MemSound at h ⊢
  simpa using h

theorem resetAfter_sound {i : Nat} {s : State} (h : MemSound s) : MemSound (resetAfter i s) := by
  unfold resetAfter
  split
  · exact h
  · exact commandReset_sound h

theorem xbarWrite_wf {a : Nat} {v : Word} {s t : State} (h : Memory.wf s.sram = true) (e : xbarWrite a v s = some t) :
    Memory.wf t.sram = true := by
  unfold xbarWrite at e
  split at e
  · cases e
  · cases e; simpa using putBytes_wf _ _ h
  · cases e
  · cases e; simpa using h
  · cases e; simpa using h

theorem pokeWords_wf {l : List Word} {a n : Nat} {s : State} (h : Memory.wf s.sram = true) :
    Memory.wf (pokeWords l a n s).2.2.sram = true := by
  induction l generalizing a n s with
  | nil => exact h
  | cons v l ih =>
    simp only [pokeWords]
    split
    · rename_i t e; exact ih (xbarWrite_wf h e)
    · exact h

/-- A change of neither memory keeps their form. -/
theorem MemSound.of_eq {s t : State} (h : MemSound s) (h1 : t.spi.mem = s.spi.mem) (h2 : t.sram = s.sram) : MemSound t := by
  unfold MemSound; rw [h1, h2]; exact h

theorem foldl_sound {α : Type} {f : State → α → State} (hf : ∀ s a, MemSound s → MemSound (f s a)) (l : List α) {s : State} (h : MemSound s) :
    MemSound (l.foldl f s) := by
  induction l generalizing s with
  | nil => exact h
  | cons a l ih => exact ih (hf s a h)

theorem forUnits_sound {f : Nat → State → State} (hf : ∀ i s, MemSound s → MemSound (f i s)) (n : Nat) {s : State} (h : MemSound s) :
    MemSound (forUnits n f s) := by
  induction n with
  | zero => rw [forUnits_zero]; exact h
  | succ n ih => rw [forUnits_succ]; exact hf n _ ih

/-- A firmware image that starts stands in the Keeper SRAM (R383). -/
theorem startImage_sound {bytes : List Byte} {bankB spi : Bool} {s : State} (h : MemSound s) : MemSound (startImage bytes bankB spi s) := by
  unfold startImage MemSound
  simp only [State.setStage_frame]
  exact ⟨h.1, putBytes_wf _ _ h.2⟩

theorem goImage_sound {s : State} (h : MemSound s) : MemSound (goImage s) := by
  unfold goImage
  split
  · split
    · exact startImage_sound (h.of_eq rfl rfl)
    · exact h.of_eq rfl rfl
  · exact h

/-! ### The receive rings and host datagrams -/

theorem ringPut_sound {p i : Nat} {w1 : Word} {buf : List Byte} {s : State} (h : MemSound s) : MemSound (ringPut p i w1 buf s) :=
  ⟨h.1, putBytes_wf _ _ (putBytes_wf _ _ h.2)⟩

theorem ringGive_sound {p i : Nat} {s : State} (h : MemSound s) : MemSound (ringGive p i s) := ⟨h.1, putBytes_wf _ _ h.2⟩

theorem fillRing_sound {p : Nat} {frame : List Byte} {bad : Bool} {s : State} (h : MemSound s) : MemSound (fillRing p frame bad s) := by
  unfold fillRing
  dsimp only
  split
  · refine MemSound.of_eq ?_ (State.count_frame _ _ _).2.1 (State.count_frame _ _ _).2.2.1
    exact foldl_sound (fun _ _ h => ringPut_sound h) _ (h.of_eq rfl rfl)
  · exact foldl_sound (fun _ _ h => ringPut_sound h) _ (h.of_eq rfl rfl)

theorem returnRing_sound {p : Nat} {s : State} (h : MemSound s) : MemSound (returnRing p s) := by
  unfold returnRing
  have k := foldl_sound (f := fun s (d : Nat × Word) => ringGive p d.1 s) (fun _ _ h => ringGive_sound h) (s.port p).ring h
  exact k.of_eq (by simp) (by simp)

theorem hostTake_sound {addr port dst dport : Nat} {l : List Byte} {s : State} (h : MemSound s) : MemSound (hostTake addr port dst dport l s) := by
  unfold hostTake
  dsimp only
  split
  · split
    · unfold MemSound at *; simp; exact ⟨putBytes_wf _ _ h.1, h.2⟩
    · exact h.of_eq (by simp) (by simp)
  · exact h

theorem keeperServes_sound {p : Nat} {f : List Byte} {s : State} (h : MemSound s) : MemSound (keeperServes p f s) := by
  unfold keeperServes
  dsimp only
  split
  · exact hostTake_sound h
  · exact h.of_eq (by simp) (by simp)

theorem serveRing_sound {p : Nat} {s : State} (h : MemSound s) : MemSound (serveRing p s) := by
  unfold serveRing
  split
  · exact returnRing_sound (foldl_sound (fun _ _ h => keeperServes_sound h) _ h)
  · exact h

theorem keeperTakes_sound {p : Nat} {f : List Byte} {bad : Bool} {s : State} (h : MemSound s) : MemSound (keeperTakes p f bad s) :=
  serveRing_sound (fillRing_sound h)

end Sys2Proof.Machine
end

