-- ==== Sys2Proof/Tests/Slice0.lean ====
section
/-! SUPPORT. The author's own tests: ill-formed commands that WellFormed refuses, the manual's worked examples, single steps on small
states, and states that meet the hypotheses of the statements of Certificates/Slice0/Obligations.lean. -/

namespace Sys2Proof.Tests
open Machine

set_option Elab.async false

/-! ### Small states -/

/-- A device in RUN: the supply is up, the Keeper serves, the media clock runs, every die has its link and every rail regulates. -/
def live : State :=
  { keeper := { stage := 8, dev := .run, serving := true, cfgLoaded := true, watchdog := true, fwBytes := [1], straps := true,
                strapTwin := true, counterUs := 5000000 },
    power := { islandReset := false, pll := true, seqDone := true },
    media := { locked := true, index := 8000, state := .track },
    dsds := Vector.replicate 4 { released := true, linked := true, vdrvOk := true },
    rails := Vector.replicate 12 { state := .regulating } }

/-- A configuration value in force. -/
def par (cls inst fld v : Nat) (s : State) : State :=
  { s with cfg := { s.cfg with active := s.cfg.active.setParam (pid cls inst fld) (word v) } }
def inDev (d : DevState) (s : State) : State := { s with keeper.dev := d }
def inState (c : Nat) (q : ChanState) (s : State) : State := s.modFsm c fun f => { f with state := q }
/-- A request that stands posted in REQi. -/
def asks (i cmd : Nat) (payload : List Byte) (s : State) : State :=
  { s with spi := { s.spi with mem := putBytes (0x400 + 0x100 * i) (frameBytes 0 cmd 1 0 payload) s.spi.mem,
                               posted := [i], reqBusy := bit4 i } }
def commit0 : Commit := { ticket := 1, named := false, k0 := some 900, units := [⟨.chan 207, 0, false, false, false, false⟩] }
def inCommit (c : Commit) (s : State) : State := { s with cfg.commit := some c }
def pilot0 : PilotReading := ⟨0, 0, 0, 0, -70, -70, []⟩
def xf0 : XFade := ⟨[], [], [], [], false, {}, 1024⟩
/-- An image of 64 bytes whose header is right (Table 15.4). -/
def image0 : List Byte :=
  let h := zeros 18 ++ le 2 0x0208 ++ le 4 1 ++ zeros 32
  zeros 4 ++ h ++ le 4 (crc32 h).toNat
/-- Controller 11 has eight equal setpoints. -/
def flatRail (s : State) : State :=
  { s with cfg.active := s.cfg.active.setBlock (pid 0x21 11 0) (blockHead 5 8 ++ (List.replicate 8 (le 4 (f32Of 60).toNat)).flatten) }
/-- An L24 packet of 1 channel and 12 frames from an SSRC of 0. -/
def rtp0 : List Byte := [0x80] ++ zeros 47
/-- A beacon of device `a` whose partner is `b`. -/
def beaconOf (a b mode lock : Nat) : List Byte :=
  let h := zeros 8 ++ le 4 a ++ zeros 3 ++ le 1 mode ++ zeros 8 ++ le 4 b ++ zeros 32
  h ++ le 4 (crc32 h).toNat ++ [0] ++ le 1 lock ++ zeros 62
def beacon0 : Nat → Nat → List Byte := beaconOf 3 5
def epoch0 : Proposal := ⟨1, 2, some 900, 1, 0⟩
/-- Device 5 of the twin of 3 and 5. -/
def twin0 (mode : Nat) : State := par 8 0 0 mode (par 8 0 1 3 (par 1 0 8 5 live))
/-- Device 3 of the twin, its LEAD. -/
def lead3 : State := par 8 0 0 1 <| par 8 0 1 5 (par 1 0 8 3 { live with twin.role := .lead })
def time0 (x y : Nat) : List Byte := le 8 0 ++ le 8 x ++ le 8 y
def unlockedLive : State := { live with cfg.active.params := [(pid 1 0 0xE, Config.serial.setWidth 32 ^^^ 0x54524F48)] }
def rec0 : ModelRec := ⟨5, 1, 50, 5, true, 60, 30, 0, false, some 0, [], 0⟩
def hot0 : State :=
  { live.modModel 207 fun m => { m with record := some rec0, runs := true, hotSeed := true, seed := 3, reseedUntil := 5000000 } with ptp.state := .locked }
def hotAt (v : Rat) : State := hot0.modModel 207 fun m => { m with tv := v }
/-- A frame of silence on a port of two slots in I2S framing, with FS from the bit period before it. -/
def wave0 : List TdmBit := (List.range 65).map fun i => ⟨i == 0 || decide (32 < i), false, i == 0 || decide (32 < i), false⟩
def win0 (s : State) : State := s.modChan 207 fun h => { h with win := { h.win with n := 96000 } }
def shadow0 : Shadow := ⟨60, 30, 5, 5, 50, 5, 0⟩
/-- A packet of stream 31 on the wire: 18 bytes of data to 239.1.2.3, port 5004. -/
def frame0 : List Byte :=
  List.replicate 6 0xFF ++ zeros 6 ++ [8, 0, 0x45, 0, 0, 46, 0, 0, 0, 0, 0, 17, 0xC9, 0xBB, 0, 0, 0, 0, 239, 1, 2, 3, 0, 0, 0x13, 0x8C, 0, 26] ++ zeros 24
/-- The paired device while its partner proposes epoch 1 with digest `d`. -/
def clashed (d : Nat) : State :=
  asks 0 0x24 (zeros 12) { twin0 1 with twin := { (twin0 1).twin with paired := true, theirs := some { epoch0 with digest := d } } }

def wf_refuses0 : List Instr :=
  [.nop 4, .getInfo 4, .run 4, .stop 4, .standby 4, .reset 4, .clearFault 4, .emute 4, .setParam 4, .getParam 4, .writeBlock 4,
   .readBlock 4, .commit 4, .discard 4, .getEvents 4, .peek 4, .poke 4, .selfTest 4, .getTestResult 4, .inject 4, .fwUpdateBegin 4,
   .fwUpdateData 4, .fwUpdateEnd 4 false false, .heldResponseWrite 4, .dsdBringup 4 0 false false false 0, .crossfadeEnd 208,
   .railSelectionApply 12, .ceilingTermsRefresh 12 0, .rselFilterRail 8 0, .rselFilterDsp 8 0, .networkFrame 2 [] false 0,
   .streamPacket 2, .streamMissing 32, .streamReentry 32, .streamOverrun 32, .pathSkew 32, .linkUp 2, .linkDown 2, .moduleAbsent 2,
   .igmpReport 2, .keeperFrame 3 [] false, .monitorPacket 8, .ptpSync 2 0 0 0, .ptpAnnounce 2 ⟨0, 0, 0, 0, 0, 0, 0, 0, 0, 0, 0⟩ 0,
   .ptpDelayResponse 2 0, .ptpDelayReqSend 2, .tdmFrame 4 [] 0 0, .tdmClockLost 4, .tdmRateCheck 4 0, .pilotWindow 208 pilot0,
   .reStale 208, .lateReseed 208, .foldbackEpisodeEnd 208 false, .channelStart 208, .senseOffsetCal 208 0 0,
   .diagTestComplete 208 ⟨0, 0, 0, 0, 0, 0⟩, .polarityCheck 208 0 0, .prechargeStart 208, .prechargeComplete 208 0 0 0 [],
   .prechargeTimeout 208 0 0]
def wf_refuses1 : List Instr :=
  [.tauMeasured 208 0, .loopRange 208, .idleComplete 208, .spreadDraw 208, .currentLimitTrip 208 false false false false false,
   .dropTrip 208 false false false, .reverseStateRelease 208, .loopStall 208, .senseOpenRun 208 [] [], .enterRun 208, .muteEnter 208,
   .silentStop 208, .silentStopGatesOff 208, .silentStopDischarged 208 [], .silentStopTimeout 208 0 0, .cdLinkLost 4,
   .retestStart 208, .retestComplete 208, .relayChange 208 0, .relayCoilOpen 208 0, .relayDrive 208 0, .zoneNtcSample 4 0 0,
   .zoneNtcOpen 4 0, .zoneNtcShort 4 0, .zoneNtcReturn 4, .stageShutdown 4, .junctionShutdown 5 0, .junctionWarn 5 0, .faultNTrip 4 0,
   .faultNRelease 4, .maskStep 16, .feederPeriod 16, .feedUnderrun 208, .feedResume 208, .railStart 12, .railPrecheck 12 0 0 0 0,
   .railRegulating 12 0 0, .startShort 12 0 0, .startTimeout 12 0 0, .railRetry 12, .railChargeStart 12 0 0 0 0 0,
   .railLimitTrip 12 false 0 0, .railSag 12 0, .railOv 12 0, .railStop 12, .phaseOpen 12 false 0 0, .phaseSenseFailed 12 false 0,
   .rcNtcSample 12 0, .rcOvertemp 12, .rcOvertempRestart 12, .railSpreadDraw 12, .networkBeacon 2 [], .joinCheck 208,
   .shareImbalance 208, .recordWrite false 3, .replanSecondWrite 208, .delayLineCal 4, .injectReorderRelease 65, .modulePresent 2,
   .cdLinkTrained 4]
def wf_refuses2 : List Instr :=
  [.vinEntersRange 12 0, .cKeeperSecondWrite 12, .spiUnknownInstruction 0x02, .spiUnknownInstruction 0x0B,
   .spiWriteUnmapped 0x10000 0, .spiWriteUnmapped 0x33 0, .spiWriteUnmapped 0x400 0, .spiWriteUnmapped 0x7FF 0,
   .spiWriteUnmapped 0xC00 0, .spiWriteUnmapped 0xCFF 0, .registerWrite 0x02 0 0, .registerWrite 0x34 0 0, .registerWrite 0 5 0,
   .mailboxByteWrite 0x3FF 0, .mailboxByteWrite 0x800 0, .spiErrRead 0, .spiErrRead 5, .dspWindow [⟨208, 0, 0, 0, true⟩],
   .dspWindow [⟨0, 0, -8388609, 0, true⟩], .dspWindow [⟨0, 0, 8388608, 0, true⟩], .dspWindow [⟨0, 0, 0, -8388609, true⟩],
   .dspWindow [⟨0, 0, 0, 8388608, true⟩], .keeperCeilingWrite 12 0, .keeperCeilingWrite 0 8, .pathLost 32 0 false,
   .pathLost 0 2 false, .igmpQuery 2 1 0, .igmpQuery 0 0 0, .igmpQuery 0 4 0, .fcImbalanceTimeout 191, .fcImbalanceTimeout 208,
   .loopComparatorEdge 208 0 0 0 0 0, .loopComparatorEdge 0 0 128 0 0 0, .loopComparatorEdge 0 0 0 0 0 (-1), .deadtimeAdapt 208 0 0 0,
   .deadtimeAdapt 0 12 0 0, .trigMatch 16 0 0 0 0, .trigMatch 0 4 0 0 0, .cellCheck 191 (List.replicate 12 0) (List.replicate 4 0),
   .cellCheck 208 (List.replicate 12 0) (List.replicate 4 0), .cellCheck 207 (List.replicate 11 0) (List.replicate 4 0),
   .cellCheck 207 (List.replicate 12 0) (List.replicate 5 0), .peerFrameSend 0 [], .peerFrameSend 7 [],
   .peerFrameSend 1 [⟨208, 0, 0, 0, true⟩], .ageingEvaluation 0 0 0 0, .ageingEvaluation 9 0 0 0, .ageingEvaluation 3 208 0 0,
   .ageingEvaluation 4 12 0 0, .ageingEvaluation 8 1 0 0, .ageingEvaluation 7 4 0 0, .selfTestDone 0 0 0 []]
/-- Each bound of WellFormed.lean refuses the first value beyond it (R3, Table 5.1, Table 4.1). -/
theorem test_wf_refuses : wf_refuses0.all (fun c => !c.wf) = true ∧ wf_refuses1.all (fun c => !c.wf) = true ∧ wf_refuses2.all (fun c => !c.wf) = true := by
  decide +kernel

def wf_accepts0 : List Instr :=
  [.nop 3, .getInfo 3, .run 3, .stop 3, .standby 3, .reset 3, .clearFault 3, .emute 3, .setParam 3, .getParam 3, .writeBlock 3,
   .readBlock 3, .commit 3, .discard 3, .getEvents 3, .peek 3, .poke 3, .selfTest 3, .getTestResult 3, .inject 3, .fwUpdateBegin 3,
   .fwUpdateData 3, .fwUpdateEnd 3 false false, .heldResponseWrite 3, .dsdBringup 3 0 false false false 0, .crossfadeEnd 207,
   .railSelectionApply 11, .ceilingTermsRefresh 11 0, .rselFilterRail 7 0, .rselFilterDsp 7 0, .networkFrame 1 [] false 0,
   .streamPacket 1, .streamMissing 31, .streamReentry 31, .streamOverrun 31, .pathSkew 31, .linkUp 1, .linkDown 1, .moduleAbsent 1,
   .igmpReport 1, .keeperFrame 2 [] false, .monitorPacket 7, .ptpSync 1 0 0 0, .ptpAnnounce 1 ⟨0, 0, 0, 0, 0, 0, 0, 0, 0, 0, 0⟩ 0,
   .ptpDelayResponse 1 0, .ptpDelayReqSend 1, .tdmFrame 3 [] 0 0, .tdmClockLost 3, .tdmRateCheck 3 0, .pilotWindow 207 pilot0,
   .reStale 207, .lateReseed 207, .foldbackEpisodeEnd 207 false, .channelStart 207, .senseOffsetCal 207 0 0,
   .diagTestComplete 207 ⟨0, 0, 0, 0, 0, 0⟩, .polarityCheck 207 0 0, .prechargeStart 207, .prechargeComplete 207 0 0 0 [],
   .prechargeTimeout 207 0 0]
def wf_accepts1 : List Instr :=
  [.tauMeasured 207 0, .loopRange 207, .idleComplete 207, .spreadDraw 207, .currentLimitTrip 207 false false false false false,
   .dropTrip 207 false false false, .reverseStateRelease 207, .loopStall 207, .senseOpenRun 207 [] [], .enterRun 207, .muteEnter 207,
   .silentStop 207, .silentStopGatesOff 207, .silentStopDischarged 207 [], .silentStopTimeout 207 0 0, .cdLinkLost 3,
   .retestStart 207, .retestComplete 207, .relayChange 207 0, .relayCoilOpen 207 0, .relayDrive 207 0, .zoneNtcSample 3 0 0,
   .zoneNtcOpen 3 0, .zoneNtcShort 3 0, .zoneNtcReturn 3, .stageShutdown 3, .junctionShutdown 4 0, .junctionWarn 4 0, .faultNTrip 3 0,
   .faultNRelease 3, .maskStep 15, .feederPeriod 15, .feedUnderrun 207, .feedResume 207, .railStart 11, .railPrecheck 11 0 0 0 0,
   .railRegulating 11 0 0, .startShort 11 0 0, .startTimeout 11 0 0, .railRetry 11, .railChargeStart 11 0 0 0 0 0,
   .railLimitTrip 11 false 0 0, .railSag 11 0, .railOv 11 0, .railStop 11, .phaseOpen 11 false 0 0, .phaseSenseFailed 11 false 0,
   .rcNtcSample 11 0, .rcOvertemp 11, .rcOvertempRestart 11, .railSpreadDraw 11, .networkBeacon 1 [], .joinCheck 207,
   .shareImbalance 207, .recordWrite false 2, .replanSecondWrite 207, .delayLineCal 3, .injectReorderRelease 64, .modulePresent 1,
   .cdLinkTrained 3]
def wf_accepts2 : List Instr :=
  [.vinEntersRange 11 0, .cKeeperSecondWrite 11, .registerWrite 0x30 4 0, .mailboxByteWrite 0x7FF 0, .spiErrRead 4,
   .spiWriteUnmapped 0xFFFF 0, .spiWriteUnmapped 0xD00 0, .fcImbalanceTimeout 192,
   .cellCheck 207 (List.replicate 12 0) (List.replicate 4 0), .loopComparatorEdge 207 0 127 0 0 0, .ageingEvaluation 8 0 0 0,
   .trigMatch 15 3 0 0 0, .igmpQuery 1 3 0, .selfTestDone 1 1 0 []]
/-- The last value inside each bound is well formed. -/
theorem test_wf_accepts : wf_accepts0.all (fun c => c.wf) = true ∧ wf_accepts1.all (fun c => c.wf) = true ∧ wf_accepts2.all (fun c => c.wf) = true := by
  decide +kernel

/-- What a field of the next state holds. -/
def after (c : Instr) (s : State) {α : Type} (f : State → α) : Option α :=
  match exec c s with
  | .next t => some (f t)
  | _ => none

/-! ### The manual's worked examples -/

/-- The check value of CRC-32 (R94) and of the CRC-16 of R163 over the digits 1 to 9. -/
theorem test_crc32 : crc32 [0x31, 0x32, 0x33, 0x34, 0x35, 0x36, 0x37, 0x38, 0x39] = 0xCBF43926 := by decide +kernel
theorem test_crc16 : crc16 [0x31, 0x32, 0x33, 0x34, 0x35, 0x36, 0x37, 0x38, 0x39] = 0x29B1 := by decide +kernel
/-- The example of BOOT_STATUS (chapter 4): RUN, stage 8, bank B, STRAP_TWIN, STRAP_DRV 0b0011. -/
theorem test_boot_status : (List.range 4).map (fun i => spiByte { live with keeper.fwBank := true, keeper.strapDrv := 3 } (0xC + i)) =
    [0x23, 0x80, 0x08, 0x03] := by decide +kernel
/-- The example of R113: chan.gain_db of CH137, and −6.0 dB. -/
theorem test_param_id : pid 0x10 137 2 = 0x10089002 ∧ f32Of (-6) = 0xC0C00000 := by decide +kernel
/-- The example of Table 6.4: a 64-channel L24 stream at 96 kHz on both ports. -/
theorem test_stream_format : let b := (par 3 0 0 0xE340 live).cfg.active
    b.streamOn 0 = true ∧ b.streamSides 0 = 3 ∧ b.streamPtime 0 = 0 ∧ b.streamHi 0 = true ∧ b.streamL24 0 = true ∧ b.streamChans 0 = 64 ∧
      b.streamPort 0 = 5004 := by decide +kernel
/-- The example of R147: timestamp 0xEE627FA5 near media index 8,294,400,000, L = 96. -/
theorem test_rtp_place : nearMod (2 ^ 32) 0xEE627FA5 8294400000 = 8294399909 ∧
    (placeOf ({ par 3 0 0 0xE340 live with media.index := 8294400000 }.modStream 0 fun t => { t with arrival := false }) 0 0xEE627FA5 0).1 =
      8294400005 := by decide +kernel
/-- The example of R287: 5.25 ticks asked in each of six periods. -/
theorem test_short_pulses : emitCell 1024 12 1344 0 = (0, 1344, true) ∧ emitCell 1024 12 1344 1344 = (0, 2688, true) ∧
    emitCell 1024 12 1344 2688 = (15, 192, false) ∧ emitCell 1024 12 1344 2880 = (16, 128, false) := by decide +kernel
/-- The example of R225: 8 K of headroom under knees of 20 K and 40 K. -/
theorem test_fold_curve : foldCurve 8 20 = -72/10 ∧ foldCurve 8 40 = -96/10 := by decide +kernel
/-- The example of R193: 12 and 8 sections, 1,024 taps and three models cost 12,592 LU. -/
theorem test_channel_load : chanCost (((((live.cfg.active.setParam (pid 0x10 40 0) 1).setParam (pid 0x10 40 5) 1).setBlock (pid 0x20 40 1)
    [2, 0, 12, 0]).setBlock (pid 0x20 40 2) [3, 0, 0, 4]).setBlock (pid 0x20 40 3) [2, 0, 8, 0]) 40 = 12592 := by decide +kernel
/-- The example of R128: with one parameter and one block changed in each, eight channels switch in a block. -/
theorem test_schedule : let b := (List.range 9).foldl (fun b c => (b.setParam (pid 0x10 c 2) 0xC0C00000).setBlock (pid 0x20 c 2) [1]) {}
    (schedule false 0 {} b).map (·.block) = [0, 0, 0, 0, 0, 0, 0, 0, 1] := by decide +kernel
/-- Levels that R393 gives. -/
theorem test_levels : [0x1002, 0x1008, 0x1001, 0x7006, 0x7007, 0x5004].map levelOf = [1, 1, 2, 1, 1, 2] := by decide +kernel
/-- CH137 is on DSD2, CH40 on RC1, CH194 on RC2, CH201 on DSD2 (R3, Table 1.2). -/
theorem test_units : dsdOf 137 = 2 ∧ rcOf 40 = 1 ∧ rcOf 194 = 2 ∧ dsdOf 201 = 2 ∧ rcOf 137 = 7 := by decide +kernel

/-! ### One step of a row -/

/-- NOP is answered with STATUS OK, the heartbeat and the device state, and the mailbox is free again (R97, R106). -/
theorem test_nop : after (.nop 1) (asks 1 0x01 [] live) (fun t => (t.spi.reqBusy, t.spi.rspReady, getBytes 0x900 24 t.spi.mem)) =
    some (0, 2, frameBytes 0x80 1 1 0 [0, 0, 0, 0, 3, 0, 0, 0]) := by decide +kernel
/-- A frame with a wrong CRC is answered with ERR_CRC (R95). -/
theorem test_bad_crc : after (.nop 0) { asks 0 0x01 [] live with spi.mem := putBytes 0x400 [1, 0, 1, 0, 1, 0, 0, 0, 0, 0, 0, 0, 1] [] }
    (fun t => leAt (getBytes 0x800 16 t.spi.mem) 8 2) = some 0x0102 := by decide +kernel
/-- RUN is refused outside READY (Table 4.14). -/
theorem test_run_state : after (.run 0) (asks 0 0x10 [] live) (fun t => leAt (getBytes 0x800 16 t.spi.mem) 8 2) = some 0x0201 := by decide +kernel
theorem test_run : after (.run 0) (asks 0 0x10 [] (inDev .ready live)) (fun t => t.keeper.dev) = some .run := by decide +kernel
/-- SET_PARAM writes the pending bank only (R107, R123). -/
theorem test_set_param : after (.setParam 0) (asks 0 0x20 (le 4 1 ++ le 4 (pid 0x10 207 0) ++ le 4 1) live)
    (fun t => (t.cfg.pending.param (pid 0x10 207 0), t.enabled 207)) = some (1, false) := by decide +kernel
theorem test_emute : after (.emute 0) (asks 0 0x15 (le 4 1) live) (fun t => muteLine t) = some true := by decide +kernel
/-- A doorbell while the mailbox is busy only sets DB_OVERRUN (R99). -/
theorem test_doorbell_overrun : after (.doorbell 8) (asks 3 0x01 [] live) (fun t => (t.spi.posted, t.spi.irqStatus)) = some ([3], 0x200) := by decide +kernel
/-- SPI_ERR counts an unknown instruction and clears by a whole read (R85, R10). -/
theorem test_spi_err : after (.spiUnknownInstruction 0x9F) live (fun t => (t.spi.errCount, t.spi.irqStatus)) = some (1, 0x400) ∧
    after (.spiErrRead 4) { live with spi.errCount := 5 } (fun t => t.spi.errCount) = some 0 := by decide +kernel
/-- The window does not answer while the Keeper PLL is off (R87). -/
theorem test_window_dead : after (.irqStatusClear 0xFFFFFFFF) { State.reset with spi.irqStatus := 5 } (fun t => t.spi.irqStatus) = some 5 := by decide +kernel
/-- RESET_N asserted puts the device into BOOT with every channel off (R72, R73). -/
theorem test_reset_n : after .resetNAssert (inState 207 .run live) (fun t => (t.keeper.dev, (t.chan 207).fsm.state)) = some (.boot, .off) := by decide +kernel
/-- Each PWR_PG brings the next step (R67). -/
theorem test_pwr_pg : after (.pwrPgHigh false 0) { live with power := { live.power with seqActive := true, seqDone := false, seqStep := 3 } }
    (fun t => t.power.seqStep) = some 4 := by decide +kernel
theorem test_heartbeat : after .heartbeat live (fun t => (t.keeper.heartbeat, t.keeper.counterUs)) = some (1, 5001000) := by decide +kernel
/-- An event that comes while the Keeper is halted waits (R36). -/
theorem test_halted : after (.linkDown 0) (par 2 0 0 1 ({ live with keeper.halted := true }.modPort 0 fun q => { q with up := true }))
    (fun t => (t.log.queue.length, t.log.waiting.map (·.1))) = some (0, [0x2007]) := by decide +kernel
/-- FAULT_N0, low for nine ticks, stops an enabled channel with TRIP latched (R296, R328). -/
theorem test_fault_n : after (.faultNTrip 0 9) (par 0x10 5 0 1 (inState 5 .run live)) (fun t => ((t.chan 5).fsm.state, (t.chan 5).fsm.code, t.pwm.latch)) =
    some (.fault, 0x5015, 1) := by decide +kernel
/-- The link of a die is lost: its channels go to FAULT with 0x5016 and 0x6016 (R18). -/
theorem test_cd_link_lost : after (.cdLinkLost 3) (inState 207 .run (inState 0 .run live)) (fun t => ((t.chan 207).fsm.code, (t.chan 0).fsm.state)) =
    some (0x6016, .run) := by decide +kernel
/-- The example of R248: 3.884 µs on CH137 gives A = 2,048 − 764 = 1,284 ticks. -/
theorem test_tau : after (.tauMeasured 137 3884) (inState 137 .idle live) (fun t => ((t.chan 137).fsm.tauOk, (t.chan 137).loop.align)) =
    some (true, 1284) := by decide +kernel
/-- RAIL_OV stops the controller and is retried (Table 13.7). -/
theorem test_rail_ov : after (.railOv 0 99) live (fun t => ((t.rail 0).state, (t.rail 0).code)) = some (.retryWait, 0x700A) := by decide +kernel
theorem test_rail_row : after (.keeperCeilingWrite 11 3) live (fun t => (t.rail 11).cKeepGoal) = some 3 := by decide +kernel
/-- MCLK_UPDATE in HOLDOVER leaves the steering as it was (R178). -/
theorem test_holdover : after .mclkUpdate { live with media := { live.media with state := .holdover, steer := 12 } } (fun t => t.media.steer) = some 12 := by
  decide +kernel
/-- A TDM port whose clock is lost raises 0x3007 (R183). -/
theorem test_tdm_lost : after (.tdmClockLost 2) (par 5 2 0 0x8000 ({ live with media.state := .free }.modTdm 2 fun t => { t with state := .playing, alive := true })) (fun t => t.log.queue.map (·.code)) =
    some [0x3007] := by decide +kernel
/-- A window moves the media index on by 8 (R208). -/
theorem test_dsp_window : after (.dspWindow []) live (fun t => t.media.index) = some 8008 := by decide +kernel
/-- A LOAD_ALL arms the channels of its bits only (R283). -/
theorem test_load_all : after (.loadAll 0x21) live (fun t => t.pwm.armed) = some 0x21 := by decide +kernel
/-- A partner that is absent is taken over from (R369). -/
theorem test_takeover : after .partnerAbsent { twin0 1 with twin.paired := true, twin.role := .follow } (fun t => t.twin.role) = some .lead := by decide +kernel
/-- A record goes into the slot of the write pointer (R394). -/
theorem test_record_write : after (.recordWrite false 0) { live with log.buffer := [⟨0, 0x1002, 0, 7, [], 1, true, false⟩], log.flushing := 1 }
    (fun t => (t.store.log.slots.map (·.1), t.log.buffer.length)) = some ([0], 0) := by decide +kernel
/-- An injected packet that was held is passed on once (R410). -/
theorem test_reorder_release : after (.injectReorderRelease 64) (live.modInj 64 fun i => { i with heldPkt := some ([], 0) }) (fun t => (t.inj 64).heldPkt) =
    some none := by decide +kernel
/-- A step takes the command at the front of the queue; with none the block idles. -/
theorem test_step : step { live with pending := [.heartbeat, .busWarn 8] } = exec .heartbeat { live with pending := [.busWarn 8] } := rfl

/-- A packet of stream 31 waits at port 1. -/
def streamIn (tick : Nat) (f : Stream → Stream) : State :=
  (par 3 31 0 0xE301 (par 3 31 2 0xEF010203 (live.modPort 1 fun q => { q with audio := [([239, 1, 2, 3, 0x13, 0x8C] ++ rtp0, tick)] }))).modStream 31 f
/-- How many packets stream 31 has placed after STREAM_PACKET, and its counters from on time to mismatched. -/
def streamGot (s : State) : Option (Nat × List Nat) :=
  after (.streamPacket 1) s fun t => ((t.stream 31).placed.length, (List.range 9).map fun k => (SMap.get 0 (streamStat 31 (k + 1)) t.counters).toNat)
/-- Each outcome of STREAM_PACKET (R149 to R155): placed, another SSRC, late, early, a duplicate, a copy that differs, a place that is taken. -/
theorem test_stream_packet :
    streamGot (streamIn 0 fun t => t) = some (1, [0, 1, 0, 0, 0, 0, 0, 0, 0]) ∧
    streamGot (streamIn 0 fun t => { t with ssrc := some 7 }) = some (0, [0, 0, 0, 0, 0, 0, 0, 0, 1]) ∧
    streamGot (streamIn 99999999 fun t => { t with arrival := false }) = some (0, [0, 0, 0, 0, 0, 1, 0, 0, 0]) ∧
    streamGot (streamIn 5000000 fun t => t) = some (0, [0, 1, 0, 0, 0, 0, 1, 0, 0]) ∧
    streamGot (streamIn 0 fun t => { t with seen := [⟨65536, 0, 0, 48, 0, 0⟩] }) = some (0, [0, 1, 0, 0, 0, 0, 0, 1, 0]) ∧
    streamGot (streamIn 0 fun t => { t with seen := [⟨65536, 0, 1, 48, 0, 0⟩] }) = some (0, [0, 1, 0, 0, 0, 0, 0, 0, 1]) ∧
    streamGot (streamIn 0 fun t => { t with placed := [⟨65, 1, [[0]]⟩] }) = some (1, [0, 1, 0, 0, 0, 0, 0, 0, 1]) := by decide +kernel

/-- A frame of zero flags, index 8 and sequence number 0 reads as its body. -/
theorem fz0_read (ty : Nat) (body : List Byte) (h1 : 1 ≤ ty) (h2 : ty ≤ 6) (h : body.length = fzLength ty) (hn : fzLength ty < 256 ^ 2) :
    fzParse ty (fzBytes ty 0 8 0 body) = some ⟨0, 8, 0, body⟩ := by
  generalize hh : le 1 ty ++ le 1 0 ++ le 2 body.length ++ le 8 8 ++ le 4 0 ++ body = x
  have hx : x.length = 16 + fzLength ty := by rw [← hh, ← h]; simp only [List.length_append, le_length]
  have hb : fzBytes ty 0 8 0 body = x ++ (le 4 (crc32 x).toNat ++ []) := by rw [← hh, List.append_nil]; rfl
  have ha : fzBytes ty 0 8 0 body = [] ++ (le 1 ty ++ (le 1 0 ++ (le 2 body.length ++ (le 8 8 ++ (le 4 0 ++ (body ++ le 4 (crc32 x).toNat)))))) := by
    rw [hb, ← hh]; simp only [List.append_assoc, List.append_nil, List.nil_append]
  have e1 : leAt (fzBytes ty 0 8 0 body) 0 1 = ty := by rw [ha]; exact leAt_append 1 ty _ rfl (by omega)
  have e2 : leAt (fzBytes ty 0 8 0 body) 1 1 = 0 := by rw [ha]; exact leAt_append (a := le 1 ty) 1 0 _ rfl (by omega)
  have e3 : leAt (fzBytes ty 0 8 0 body) 2 2 = fzLength ty := by
    rw [ha, ← h]
    have := leAt_append (a := le 1 ty ++ le 1 0) (o := 2) 2 body.length (le 8 8 ++ (le 4 0 ++ (body ++ le 4 (crc32 x).toNat))) rfl (by omega)
    simpa only [List.append_assoc, List.nil_append] using this
  have e4 : leAt (fzBytes ty 0 8 0 body) 4 8 = 8 := by
    rw [ha]
    have := leAt_append (a := le 1 ty ++ (le 1 0 ++ le 2 body.length)) (o := 4) 8 8 (le 4 0 ++ (body ++ le 4 (crc32 x).toNat))
      (by simp only [List.length_append, le_length]) (by omega)
    simpa only [List.append_assoc, List.nil_append] using this
  have e5 : leAt (fzBytes ty 0 8 0 body) 12 4 = 0 := by
    rw [ha]
    have := leAt_append (a := le 1 ty ++ (le 1 0 ++ (le 2 body.length ++ le 8 8))) (o := 12) 4 0 (body ++ le 4 (crc32 x).toNat)
      (by simp only [List.length_append, le_length]) (by omega)
    simpa only [List.append_assoc, List.nil_append] using this
  have e6 : leAt (fzBytes ty 0 8 0 body) (16 + fzLength ty) 4 = (crc32 x).toNat := by
    rw [hb]; exact leAt_append 4 _ [] hx (BitVec.isLt _)
  have e7 : (fzBytes ty 0 8 0 body).take (16 + fzLength ty) = x := by rw [hb]; exact List.take_left' hx
  have e8 : (fzBytes ty 0 8 0 body).length = 20 + fzLength ty := by
    rw [hb]; simp only [List.length_append, le_length, hx, List.length_nil]; omega
  have e9 : sub (fzBytes ty 0 8 0 body) 16 (fzLength ty) = body := by
    unfold sub
    have : fzBytes ty 0 8 0 body = (le 1 ty ++ (le 1 0 ++ (le 2 body.length ++ (le 8 8 ++ le 4 0)))) ++ (body ++ le 4 (crc32 x).toNat) := by
      rw [ha]; simp only [List.append_assoc, List.nil_append]
    rw [this, List.drop_left' (by simp only [List.length_append, le_length]), List.take_left' h]
  unfold fzParse
  dsimp only
  rw [e1, e2, e3, e4, e5, e6, e7, e8, e9, if_pos ⟨h1, h2, rfl, rfl, rfl, rfl⟩]
theorem parse_sample : fzParse 1 (fzBytes 1 0 8 0 (zeros 1672)) = some ⟨0, 8, 0, zeros 1672⟩ :=
  fz0_read 1 _ (by decide) (by decide) (List.length_replicate ..) (by decide)
theorem parse_drive : fzParse 1 (fzBytes 1 0 8 0 (zeros 1662 ++ [3] ++ zeros 9)) = some ⟨0, 8, 0, zeros 1662 ++ [3] ++ zeros 9⟩ :=
  fz0_read 1 _ (by decide) (by decide) (by simp only [List.length_append, zeros, List.length_replicate]; rfl) (by decide)
theorem parse_block : fzParse 2 (fzBytes 2 0 8 0 (zeros 1116)) = some ⟨0, 8, 0, zeros 1116⟩ :=
  fz0_read 2 _ (by decide) (by decide) (List.length_replicate ..) (by decide)
theorem parse_model : fzParse 3 (fzBytes 3 0 8 0 (zeros 320)) = some ⟨0, 8, 0, zeros 320⟩ :=
  fz0_read 3 _ (by decide) (by decide) (List.length_replicate ..) (by decide)
theorem parse_beacon (body : List Byte) (h : body.length = 128) : fzParse 4 (fzBytes 4 0 8 0 body) = some ⟨0, 8, 0, body⟩ :=
  fz0_read 4 _ (by decide) (by decide) h (by decide)
theorem parse_flag (b : Byte) : fzParse 2 (fzBytes 2 0 8 0 (zeros 207 ++ [b] ++ zeros 908)) = some ⟨0, 8, 0, zeros 207 ++ [b] ++ zeros 908⟩ :=
  fz0_read 2 _ (by decide) (by decide) (by simp only [List.length_append, zeros, List.length_replicate]; rfl) (by decide)
theorem junction_below : junctionLimit < 136 := by unfold junctionLimit clampRat; split <;> [skip; split] <;> grind
theorem live_unlocked (l : List Byte) : unlocked (asks 0 0x52 l unlockedLive).cfg.active = true := by
  simp [unlocked, Bank.nat, Bank.param, asks, unlockedLive, SMap.get]
theorem clashed_meets (d : Nat) (h : d ≠ digest (clashed 0).cfg.pending) :
    Served 0 0x24 (clashed d) ∧ (clashed d).cfg.commit = none ∧ leAt (reqOf (clashed d) 0).payload 0 1 = 0 ∧ leAt (reqOf (clashed d) 0).payload 4 8 = 0 ∧
      (0 = 0 ∨ (0 = 1 ∧ namedOk (clashed d) 0 = true)) ∧ commitRefusal (clashed d).keeper.strapTwin (clashed d).cfg.active (clashed d).cfg.pending = none ∧
      (twinned (clashed d) && (clashed d).twin.paired) = true ∧ (clashed d).twin.theirs = some { epoch0 with digest := d } ∧
      ({ epoch0 with digest := d } : Proposal).epoch = (clashed d).twin.common + 1 ∧ ({ epoch0 with digest := d } : Proposal).digest ≠ digest (clashed d).cfg.pending := by
  have h1 : Served 0 0x24 (clashed 0) := by unfold Served; decide +kernel
  have h2 : leAt (reqOf (clashed 0) 0).payload 0 1 = 0 ∧ leAt (reqOf (clashed 0) 0).payload 4 8 = 0 := by decide +kernel
  have h3 : commitRefusal (clashed 0).keeper.strapTwin (clashed 0).cfg.active (clashed 0).cfg.pending = none := by decide +kernel
  have h4 : twinned (clashed 0) = true := by decide +kernel
  exact ⟨h1, rfl, h2.1, h2.2, .inl rfl, h3, by rw [Bool.and_eq_true]; exact ⟨h4, rfl⟩, rfl, rfl, h⟩


/-! ### States that meet the hypotheses of each statement, one for each of its clauses -/

theorem witness_StepRunsTheFrontCommand :
    ∃ (s : State), s.pending = [] :=
  ⟨State.reset, by decide +kernel⟩

theorem witness_ExecLeavesTheQueue :
    (∃ (c : Instr) (s : State) (t : State), exec c s = .next t) ∧
    (∃ (s : State) (t : State), step s = .next t) :=
  ⟨⟨.nop 0, .reset, .reset, rfl⟩,
   ⟨.reset, .reset, rfl⟩⟩

theorem witness_StepKeepsMemoriesSound :
    ∃ (s : State) (t : State), MemSound s ∧ step s = .next t :=
  ⟨.reset, .reset, ⟨rfl, rfl⟩, rfl⟩

theorem witness_QueryCommandsAnswer :
    (∃ (i : Nat) (s : State), Served i 0x01 s) ∧
    (∃ (i : Nat) (s : State), Served i 0x02 s) ∧
    (∃ (i : Nat) (s : State) (n : Nat) (first : Nat) (r : Record) (l : List Record), Served i 0x30 s ∧ leAt (reqOf s i).payload 4 1 = n ∧
      1 ≤ n ∧ n ≤ 3 ∧ leAt (reqOf s i).payload 0 4 = first ∧ s.log.queue.filter (fun q => decide (first ≤ q.seq)) = r :: l) ∧
    (∃ (i : Nat) (s : State) (bank : Nat) (id : Nat) (o : Nat) (n : Nat) (size : Nat), Served i 0x23 s ∧
      leAt (reqOf s i).payload 0 1 = bank ∧ bank ≤ 1 ∧ leAt (reqOf s i).payload 4 4 = id ∧ blockSize id = some size ∧
      leAt (reqOf s i).payload 8 4 = o ∧ leAt (reqOf s i).payload 12 2 = n ∧ o % 4 = 0 ∧ n % 4 = 0 ∧ 4 ≤ n ∧ n ≤ 232 ∧ o + n ≤ size) ∧
    (∃ (i : Nat) (s : State) (n : Nat) (u : Test), Served i 0x51 s ∧ leAt (reqOf s i).payload 0 4 = n ∧ keptTest n s = some u) :=
  ⟨⟨3, asks 3 0x01 [] live, by unfold Served; decide +kernel⟩,
   ⟨0, asks 0 0x02 [] live, by unfold Served; decide +kernel⟩,
   ⟨3, { asks 3 0x30 (le 4 7 ++ le 4 3) live with log.queue := [⟨0, 0x1002, 0, 7, [], 1, true, false⟩] }, 3, 7, ⟨0, 0x1002, 0, 7, [], 1, true, false⟩, [], by unfold Served; decide +kernel⟩,
   ⟨3, asks 3 0x23 (le 4 1 ++ le 4 (pid 0x21 11 0) ++ le 4 32 ++ le 4 4) live, 1, pid 0x21 11 0, 32, 4, 36, by unfold Served; decide +kernel⟩,
   ⟨0, { asks 0 0x51 (le 4 1) live with tests := { next := 2, list := [⟨1, 4, 0, 0, false, 0, 0, []⟩] } }, 1, ⟨1, 4, 0, 0, false, 0, 0, []⟩, by unfold Served; decide +kernel⟩⟩

theorem witness_GetParamAndPeekReadValues :
    (∃ (i : Nat) (s : State) (bank : Nat) (n : Nat), Served i 0x21 s ∧ leAt (reqOf s i).payload 0 1 = bank ∧ bank ≤ 1 ∧
      leAt (reqOf s i).payload 2 2 = n ∧ 1 ≤ n ∧ n ≤ 59 ∧ (∀ id ∈ idList (reqOf s i).payload, (cfgField id).isSome = true)) ∧
    (∃ (i : Nat) (s : State) (a : Nat) (n : Nat), Served i 0x40 s ∧ leAt (reqOf s i).payload 0 4 = a ∧ leAt (reqOf s i).payload 4 1 = n ∧
      1 ≤ n ∧ n ≤ 58 ∧ a % 4 = 0 ∧ a + 4 * n ≤ 0xB80000) ∧
    (∃ (i : Nat) (s : State) (a : Nat) (n : Nat), Served i 0x40 s ∧ leAt (reqOf s i).payload 0 4 = a ∧ leAt (reqOf s i).payload 4 1 = n ∧
      1 ≤ n ∧ n ≤ 58 ∧ a % 4 = 0 ∧ 0xB80000 ≤ a ∧ a + 4 * n ≤ 0xC00000) :=
  ⟨⟨3, asks 3 0x21 (le 2 1 ++ le 2 1 ++ le 4 (pid 0x10 207 27)) live, 1, 1, by unfold Served; decide +kernel⟩,
   ⟨0, asks 0 0x40 (le 4 0xB7FFFC ++ le 4 1) live, 0xB7FFFC, 1, by unfold Served; decide +kernel⟩,
   ⟨0, asks 0 0x40 (le 4 0xBFFFFC ++ le 4 1) live, 0xBFFFFC, 1, by unfold Served; decide +kernel⟩⟩

theorem witness_PendingBankCommands :
    (∃ (i : Nat) (s : State) (n : Nat), Served i 0x20 s ∧ leAt (reqOf s i).payload 0 2 = n ∧ 1 ≤ n ∧ n ≤ 29 ∧
      (∀ e ∈ paramEntries (reqOf s i).payload, entryStatus e.1 e.2 = stOk)) ∧
    (∃ (i : Nat) (s : State) (id : Nat) (o : Nat) (size : Nat), Served i 0x22 s ∧ leAt (reqOf s i).payload 0 4 = id ∧
      blockSize id = some size ∧ leAt (reqOf s i).payload 4 4 = o ∧ o % 4 = 0 ∧ ((reqOf s i).payload.drop 8).length % 4 = 0 ∧
      o + ((reqOf s i).payload.drop 8).length ≤ size) :=
  ⟨⟨3, asks 3 0x20 (le 4 1 ++ le 4 (pid 0x10 207 0) ++ le 4 1) live, 1, by unfold Served; decide +kernel⟩,
   ⟨0, asks 0 0x22 (le 4 (pid 0x21 0 0) ++ le 4 32 ++ le 4 0) live, pid 0x21 0 0, 32, 36, by unfold Served; decide +kernel⟩⟩

theorem witness_SetParamStopsAtFirstFailure :
    (∃ (i : Nat) (s : State) (before : List (Nat × Word)) (after : List (Nat × Word)) (id : Nat) (w : Word), Served i 0x20 s ∧
      1 ≤ leAt (reqOf s i).payload 0 2 ∧ leAt (reqOf s i).payload 0 2 ≤ 29 ∧
      paramEntries (reqOf s i).payload = before ++ (id, w) :: after ∧ (∀ e ∈ before, entryStatus e.1 e.2 = stOk) ∧
      entryStatus id w ≠ stOk) ∧
    (∃ (id : Nat), cfgField id = none) ∧
    (∃ (id : Nat) (w : Word) (f : Field), cfgField id = some f ∧ f.kind.admits w = false) :=
  ⟨⟨0, asks 0 0x20 (le 4 1 ++ le 4 (pid 0x10 207 0) ++ le 4 2) live, [], [], pid 0x10 207 0, 2, by unfold Served; decide +kernel⟩,
   ⟨pid 0x10 208 0, by decide +kernel⟩,
   ⟨pid 0x10 207 0, 2, fBool 0, by decide +kernel⟩⟩

theorem witness_DiscardSetsThePendingBank :
    (∃ (i : Nat) (s : State) (k : Commit), Served i 0x25 s ∧ s.cfg.commit = some k) ∧
    (∃ (i : Nat) (s : State), Served i 0x25 s ∧ s.cfg.commit = none) :=
  ⟨⟨0, asks 0 0x25 [] (inCommit commit0 live), commit0, by unfold Served; decide +kernel⟩,
   ⟨3, asks 3 0x25 [] live, by unfold Served; decide +kernel⟩⟩

theorem witness_DeviceStateCommands :
    (∃ (i : Nat) (s : State), Served i 0x10 s) ∧
    (∃ (i : Nat) (s : State), Served i 0x11 s) ∧
    (∃ (i : Nat) (s : State), Served i 0x12 s ∧ s.cfg.commit = none) ∧
    (∃ (i : Nat) (s : State) (k : Commit), Served i 0x12 s ∧ s.cfg.commit = some k) ∧
    (∃ (i : Nat) (s : State), Served i 0x13 s ∧ (∀ h ∈ s.spi.held, h.1 ≠ i) ∧ (s.spi.rspReady &&& bit4 i) = 0) ∧
    (∃ (i : Nat) (s : State) (scope : Nat), Served i 0x14 s ∧ leAt (reqOf s i).payload 0 2 = scope ∧ (scope < 208 ∨ scope = 0xFFFF)) ∧
    (∃ (i : Nat) (s : State) (v : Nat), Served i 0x15 s ∧ leAt (reqOf s i).payload 0 1 = v ∧ v ≤ 1) ∧
    (∃ (s : State) (c : Nat), c < 208 ∧ (s.chan c).fsm.state ≠ .off ∧ (s.chan c).fsm.state ≠ .fault ∧ (s.chan c).fsm.stop = .none) ∧
    (∃ (r : Nat), r < 12) ∧
    (∃ (s : State) (c : Nat), c < 208 ∧ (s.chan c).fsm.state = .fault ∧ s.enabled c = true ∧ causePresent (clearLatches c s) c = false ∧
      heldByRole (clearLatches c s) c = false ∧ (s.chan c).fsm.coilLatched = 0) ∧
    (∃ (s : State) (c : Nat), c < 208 ∧ (s.chan c).fsm.state = .fault ∧ causePresent (clearLatches c s) c = true) :=
  ⟨⟨0, asks 0 0x10 [] (inDev .ready live), by unfold Served; decide +kernel⟩,
   ⟨0, asks 0 0x11 [] live, by unfold Served; decide +kernel⟩,
   ⟨0, asks 0 0x12 [] live, by unfold Served; decide +kernel⟩,
   ⟨0, asks 0 0x12 [] (inCommit commit0 live), commit0, by unfold Served; decide +kernel⟩,
   ⟨3, asks 3 0x13 [] live, by unfold Served; decide +kernel⟩,
   ⟨0, asks 0 0x14 (le 4 207) live, 207, by unfold Served; decide +kernel⟩,
   ⟨0, asks 0 0x15 (le 4 1) live, 1, by unfold Served; decide +kernel⟩,
   ⟨inState 207 .run live, 207, by decide +kernel⟩,
   ⟨11, by decide +kernel⟩,
   ⟨par 0x10 207 0 1 (live.modFsm 207 fun f => { f with state := .fault }), 207, by decide +kernel⟩,
   ⟨{ par 0x10 207 0 1 (live.modFsm 207 fun f => { f with state := .fault, code := 0x6016 }) with dsds := Vector.replicate 4 {} }, 207,
     by decide +kernel⟩⟩

theorem witness_CommitIsAccepted :
    (∃ (i : Nat) (mode : Nat) (k : Nat) (s : State), Served i 0x24 s ∧ s.cfg.commit = none ∧ leAt (reqOf s i).payload 0 1 = mode ∧
      leAt (reqOf s i).payload 4 8 = k ∧ (mode = 0 ∨ (mode = 1 ∧ namedOk s k = true)) ∧
      commitRefusal s.keeper.strapTwin s.cfg.active s.cfg.pending = none ∧
      ((twinned s && s.twin.paired) = false ∨ s.twin.theirs = none)) ∧
    (∃ (i : Nat) (mode : Nat) (k : Nat) (s : State), Served i 0x24 s ∧ s.cfg.commit = none ∧ leAt (reqOf s i).payload 0 1 = mode ∧
      leAt (reqOf s i).payload 4 8 = k ∧ (mode = 0 ∨ (mode = 1 ∧ namedOk s k = true)) ∧
      commitRefusal s.keeper.strapTwin s.cfg.active s.cfg.pending = none ∧ (twinned s && s.twin.paired) = true ∧ s.twin.theirs = none) ∧
    (∃ (i : Nat) (mode : Nat) (k : Nat) (s : State) (b : Proposal), Served i 0x24 s ∧ s.cfg.commit = none ∧
      leAt (reqOf s i).payload 0 1 = mode ∧ leAt (reqOf s i).payload 4 8 = k ∧ (mode = 0 ∨ (mode = 1 ∧ namedOk s k = true)) ∧
      commitRefusal s.keeper.strapTwin s.cfg.active s.cfg.pending = none ∧ (twinned s && s.twin.paired) = true ∧
      s.twin.theirs = some b ∧ b.epoch = s.twin.common + 1 ∧ b.digest ≠ digest s.cfg.pending) :=
  ⟨⟨0, 0, 0, asks 0 0x24 (zeros 12) live, by unfold Served; decide +kernel⟩,
   ⟨0, 0, 0, asks 0 0x24 (zeros 12) ({ twin0 1 with keeper.strapTwin := true, twin := { (twin0 1).twin with paired := true, partnerPaired := true, theirs := none } }), by unfold Served; decide +kernel⟩,
   ⟨0, 0, 0, clashed (digest (clashed 0).cfg.pending + 1), { epoch0 with digest := (digest (clashed 0).cfg.pending + 1) }, clashed_meets _ (Nat.lt_add_one _).ne'⟩⟩

theorem witness_PokeWritesKeeperSram :
    (∃ (i : Nat) (a : Nat) (n : Nat) (s : State) (k : Nat), Served i 0x41 s ∧ leAt (reqOf s i).payload 0 4 = a ∧
      leAt (reqOf s i).payload 4 1 = n ∧ 1 ≤ n ∧ n ≤ 58 ∧ a % 4 = 0 ∧ a + 4 * n ≤ 0xC00000 ∧ MemSound s ∧
      (k < a ∨ a + (wordBytes (wordList (reqOf s i).payload)).length ≤ k)) ∧
    (∃ (i : Nat) (a : Nat) (n : Nat) (s : State) (k : Nat), Served i 0x41 s ∧ leAt (reqOf s i).payload 0 4 = a ∧
      leAt (reqOf s i).payload 4 1 = n ∧ 1 ≤ n ∧ n ≤ 58 ∧ a % 4 = 0 ∧ a + 4 * n ≤ 0xC00000 ∧ MemSound s ∧
      (k < 0x800 + 0x100 * i ∨ 0x900 + 0x100 * i ≤ k)) ∧
    (∃ (i : Nat) (a : Nat) (n : Nat) (s : State), Served i 0x41 s ∧ leAt (reqOf s i).payload 0 4 = a ∧ leAt (reqOf s i).payload 4 1 = n ∧
      1 ≤ n ∧ n ≤ 58 ∧ a % 4 = 0 ∧ a + 4 * n ≤ 0xC00000 ∧ MemSound s ∧ (∀ j : Nat, j < n → descOf? (a + 4 * j) = none)) :=
  ⟨⟨0, 0xBFFFFC, 1, asks 0 0x41 (le 4 0xBFFFFC ++ le 4 1 ++ le 4 5) live, 0, by unfold Served MemSound; decide +kernel⟩,
   ⟨0, 0xBFFFFC, 1, asks 0 0x41 (le 4 0xBFFFFC ++ le 4 1 ++ le 4 5) live, 0x900, by unfold Served MemSound; decide +kernel⟩,
   ⟨0, 0xBFFFFC, 1, asks 0 0x41 (le 4 0xBFFFFC ++ le 4 1 ++ le 4 5) live, by refine ⟨?_, ?_, ?_, ?_, ?_, ?_, ?_, ?_, ?_⟩ <;> first | decide +kernel | (unfold Served; decide +kernel) | (unfold MemSound; decide +kernel) | (intro j h; unfold descOf? descAddr; rw [if_neg (by omega)]; dsimp only; rw [if_neg (by omega)])⟩⟩

theorem witness_TestAndInjectCommands :
    (∃ (i : Nat) (s : State), Served i 0x50 s ∧
      testStatus (leAt (reqOf s i).payload 0 2) (leAt (reqOf s i).payload 2 2) (reqOf s i).force ((reqOf s i).payload.drop 4) s = stOk) ∧
    (∃ (id : Nat), (id = 4 ∨ id = 6)) ∧
    (∃ (i : Nat) (s : State) (stream : Nat) (side : Nat) (action : Nat) (mode : Nat) (ppm : Nat) (burst : Nat) (k : Nat) (j : Nat), Served i 0x52 s ∧
      leAt (reqOf s i).payload 0 2 = stream ∧ leAt (reqOf s i).payload 2 1 = side ∧ leAt (reqOf s i).payload 3 1 = action ∧
      leAt (reqOf s i).payload 4 1 = mode ∧ leAt (reqOf s i).payload 8 4 = ppm ∧ leAt (reqOf s i).payload 12 2 = burst ∧
      unlocked s.cfg.active = true ∧ injectorOf s.cfg.active stream side = some k ∧ 1 ≤ action ∧ action ≤ 3 ∧ mode ≤ 2 ∧
      ppm ≤ 1000000 ∧ (mode = 2 → burst ≠ 0) ∧ j ≠ k) ∧
    (∃ (i : Nat) (s : State) (stream : Nat) (side : Nat) (k : Nat) (j : Nat), Served i 0x52 s ∧ leAt (reqOf s i).payload 0 2 = stream ∧
      leAt (reqOf s i).payload 2 1 = side ∧ leAt (reqOf s i).payload 3 1 = 0 ∧ leAt (reqOf s i).payload 8 4 ≤ 1000000 ∧
      (leAt (reqOf s i).payload 4 1 = 2 → leAt (reqOf s i).payload 12 2 ≠ 0) ∧ unlocked s.cfg.active = true ∧
      injectorOf s.cfg.active stream side = some k ∧ j ≠ k) :=
  ⟨⟨0, asks 0 0x50 (le 2 4 ++ le 2 0) live, by unfold Served; decide +kernel⟩,
   ⟨6, by decide +kernel⟩,
   ⟨0, asks 0 0x52 (le 2 0xFFFF ++ [2, 3] ++ le 4 2 ++ le 4 1000000 ++ le 4 1) unlockedLive, 0xFFFF, 2, 3, 2, 1000000, 1, 64, 63, by refine ⟨?_, ?_, ?_, ?_, ?_, ?_, ?_, ?_, ?_, ?_, ?_, ?_, ?_, ?_, ?_⟩ <;> first | decide +kernel | (unfold Served; decide +kernel) | exact live_unlocked _⟩,
   ⟨0, asks 0 0x52 (le 2 0xFFFF ++ [2, 0] ++ zeros 12) unlockedLive, 0xFFFF, 2, 64, 63, by refine ⟨?_, ?_, ?_, ?_, ?_, ?_, ?_, ?_, ?_⟩ <;> first | decide +kernel | (unfold Served; decide +kernel) | exact live_unlocked _⟩⟩

theorem witness_FirmwareUpdateCommands :
    (∃ (i : Nat) (s : State) (len : Nat) (seq : Nat), Served i 0x60 s ∧ leAt (reqOf s i).payload 0 4 = len ∧
      leAt (reqOf s i).payload 4 4 = seq ∧ updateArgsBad len seq s = false) ∧
    (∃ (i : Nat) (s : State) (o : Nat), Served i 0x61 s ∧ leAt (reqOf s i).payload 0 4 = o ∧
      updateData o ((reqOf s i).payload.drop 4) s = true ∧ s.store.updBankB = true) ∧
    (∃ (i : Nat) (s : State) (o : Nat), Served i 0x61 s ∧ leAt (reqOf s i).payload 0 4 = o ∧
      updateData o ((reqOf s i).payload.drop 4) s = true ∧ s.store.updBankB = false) ∧
    (∃ (i : Nat) (s : State), Served i 0x62 s ∧ s.store.updLen ≠ 0 ∧ s.store.updLen ≤ s.store.updGot ∧
      imageGood (leAt (reqOf s i).payload 0 4) s.store = true) ∧
    (∃ (i : Nat) (s : State) (imageOk : Bool), Served i 0x62 s ∧ s.store.updLen ≠ 0 ∧ s.store.updLen ≤ s.store.updGot ∧
      (imageOk = false ∨ imageGood (leAt (reqOf s i).payload 0 4) s.store = false)) ∧
    (∃ (s : State), s.keeper.dev = .ready ∧ targetB s = true) ∧
    (∃ (s : State), s.keeper.dev = .ready ∧ targetB s = false) ∧
    (∃ (i : Nat) (u : State), (∀ h ∈ u.spi.held, h.1 ≠ i)) :=
  ⟨⟨0, asks 0 0x60 (le 4 64 ++ le 4 1) (inDev .ready live), 64, 1, by unfold Served; decide +kernel⟩,
   ⟨0, { asks 0 0x61 (le 4 0 ++ le 4 0xFF) (inDev .update live) with store.updBankB := true, store.updLen := 64 }, 0, by unfold Served; decide +kernel⟩,
   ⟨0, { asks 0 0x61 (le 4 0 ++ le 4 0xFF) (inDev .update live) with store.updBankB := false, store.updLen := 64 }, 0, by unfold Served; decide +kernel⟩,
   ⟨0, { asks 0 0x62 (le 4 (crc32 image0).toNat) (inDev .update live) with store.updLen := 64, store.updGot := 64, store.fwA.bytes := image0 }, by unfold Served; decide +kernel⟩,
   ⟨0, { asks 0 0x62 (le 4 0) (inDev .update live) with store.updLen := 64, store.updGot := 64 }, true, by unfold Served; decide +kernel⟩,
   ⟨{ inDev .ready live with keeper.fwBank := false }, by decide +kernel⟩,
   ⟨{ inDev .ready live with keeper.fwBank := true }, by decide +kernel⟩,
   ⟨3, live, by decide +kernel⟩⟩

theorem witness_SpiWindowWrites :
    (∃ (s : State) (n : Nat), windowLive s = true ∧ 1 ≤ n ∧ n < 4) ∧
    (∃ (s : State) (n : Nat), windowLive s = true ∧ 4 ≤ n) ∧
    (∃ (s : State) (a : Nat), windowLive s = true ∧ 0x400 ≤ a ∧ a < 0x800) ∧
    (∃ (s : State), windowLive s = true ∧ s.keeper.dev ≠ .standby) ∧
    (∃ (s : State), windowLive s = false) :=
  ⟨⟨live, 3, by decide +kernel⟩,
   ⟨live, 4, by decide +kernel⟩,
   ⟨live, 0x7FF, by decide +kernel⟩,
   ⟨live, by decide +kernel⟩,
   ⟨State.reset, by decide +kernel⟩⟩

theorem witness_DoorbellPostsOrOverruns :
    (∃ (i : Nat) (s : State), i < 4 ∧ (s.spi.reqBusy &&& bit4 i) = 0) ∧
    (∃ (i : Nat) (s : State), i < 4 ∧ (s.spi.reqBusy &&& bit4 i) ≠ 0) :=
  ⟨⟨3, live, by decide +kernel⟩,
   ⟨3, asks 3 1 [] live, by decide +kernel⟩⟩

theorem witness_SpiErrReadClearsWhole :
    (∃ (n : Nat) (s : State), windowLive s = true ∧ 2 ≤ n) ∧
    (∃ (n : Nat) (s : State), windowLive s = true ∧ n < 2) :=
  ⟨⟨2, live, by decide +kernel⟩,
   ⟨1, live, by decide +kernel⟩⟩

theorem witness_ImagePortCommands :
    (∃ (s : State), windowLive s = true ∧ (s.keeper.stage = 2 ∨ s.keeper.stage = 0xE) ∧ s.keeper.imgCount < bankSize) ∧
    (∃ (s : State), windowLive s = true ∧ (s.keeper.stage = 2 ∨ s.keeper.stage = 0xE) ∧ s.keeper.imgCount ≤ bankSize ∧
      fwHeadOk s.keeper.img = true) ∧
    (∃ (s : State), windowLive s = true ∧ (s.keeper.stage = 2 ∨ s.keeper.stage = 0xE) ∧ s.keeper.imgCount ≤ bankSize ∧
      fwHeadOk s.keeper.img = false) :=
  ⟨⟨{ live with keeper := { live.keeper with stage := 0xE, imgCount := bankSize - 1, img := [] } }, by decide +kernel⟩,
   ⟨{ live with keeper := { live.keeper with stage := 2, imgCount := 64, img := image0 } }, by decide +kernel⟩,
   ⟨{ live with keeper := { live.keeper with stage := 2, imgCount := 0, img := [] } }, by decide +kernel⟩⟩

theorem witness_DatagramAndHeldResponse :
    (∃ (s : State) (dst : Nat) (dport : Nat) (i : Nat) (p : List Byte), firmwareRuns s = true ∧ s.keeper.cfgLoaded = true ∧
      dst = s.cfg.active.nmAddr ∧ dport = s.nat 0x01 0 3 ∧ heldFor s i = false ∧ 20 ≤ p.length ∧ leAt p 0 1 = i ∧ i < 4 ∧
      leAt p 1 1 = 1 ∧ (s.spi.reqBusy &&& bit4 i) = 0 ∧ (s.spi.rspReady &&& bit4 i) = 0 ∧ leAt (p.drop 4) 6 2 ≤ 240 ∧
      (p.drop 4).length = 16 + leAt (p.drop 4) 6 2) ∧
    (∃ (s : State) (dst : Nat) (dport : Nat) (p : List Byte), firmwareRuns s = true ∧ s.keeper.cfgLoaded = true ∧
      dst = s.cfg.active.nmAddr ∧ dport = s.nat 0x01 0 3 ∧
      (p.length < 20 ∨ 4 ≤ leAt p 0 1 ∨ leAt p 1 1 ≠ 1 ∨ (s.spi.reqBusy &&& bit4 (leAt p 0 1)) ≠ 0 ∨ (s.spi.rspReady &&& bit4 (leAt p 0 1)) ≠ 0 ∨ heldFor s (leAt p 0 1) = true ∨ 240 < leAt (p.drop 4) 6 2 ∨ (p.drop 4).length ≠ 16 + leAt (p.drop 4) 6 2)) ∧
    (∃ (s : State) (dst : Nat) (dport : Nat), (dst ≠ s.cfg.active.nmAddr ∨ dport ≠ s.nat 0x01 0 3)) ∧
    (∃ (s : State) (i : Nat) (h : Nat × List Byte), s.spi.held.find? (·.1 == i) = some h ∧ s.keeper.halted = false ∧
      (s.spi.rspReady &&& bit4 i) = 0 ∧ s.keeper.resetWait ≠ some i) :=
  ⟨⟨par 1 0 5 0x0A000001 live, 0x0A000001, live.nat 0x01 0 3, 3, [3, 1, 0, 0] ++ zeros 16, by decide +kernel⟩,
   ⟨par 1 0 5 0x0A000001 live, 0x0A000001, live.nat 0x01 0 3, zeros 19, by decide +kernel⟩,
   ⟨par 1 0 5 0x0A000001 live, 0, 0, by decide +kernel⟩,
   ⟨{ live with spi.held := [(3, [])] }, 3, (3, []), by decide +kernel⟩⟩

theorem witness_ResetSourcesReturnToBoot :
    (∃ (s : State), s.power.islandReset = true) ∧
    (∃ (s : State), s.power.resetN = true ∧ s.power.islandReset = false) ∧
    (∃ (s : State), s.power.resetN = false ∧ s.power.islandReset = false ∧ s.power.pll = true) ∧
    (∃ (s : State), watchdogCounts s = true) ∧
    (∃ (s : State) (i : Nat), Served i 0x13 s ∧ (∀ h ∈ s.spi.held, h.1 ≠ i) ∧ (s.spi.rspReady &&& bit4 i) = 0) :=
  ⟨⟨State.reset, by decide +kernel⟩,
   ⟨live, by decide +kernel⟩,
   ⟨{ live with power.resetN := false }, by decide +kernel⟩,
   ⟨live, by decide +kernel⟩,
   ⟨asks 3 0x13 [] live, 3, by unfold Served; decide +kernel⟩⟩

theorem witness_BrownOutRows :
    (∃ (s : State) (v : Rat) (c : Nat), busRules s = true ∧ s.power.warn = false ∧ v ≤ s.power.warnV + warnBand s ∧ c < 208) ∧
    (∃ (s : State) (c : Nat), s.power.falling = true ∧ allSilent s = true ∧ c < 208) ∧
    (∃ (s : State) (r : Nat), s.power.falling = true ∧ allSilent s = true ∧ r < 12) ∧
    (∃ (s : State), s.store.lastPending = true ∧ canLog s = true ∧ busRules s = true ∧ flashOn s = true) ∧
    (∃ (s : State) (v : Rat), s.power.islandReset = false ∧ s.power.warn = true ∧ s.power.warnV + 1 / 2 ≤ v ∧ s.power.tw = true) ∧
    (∃ (s : State) (v : Rat), s.power.islandReset = false ∧ s.power.warn = true ∧ s.power.warnV + 1 / 2 ≤ v ∧ s.power.tw = false) ∧
    (∃ (s : State), s.keeper.dev = .safe ∧ s.power.dipped = true ∧ s.power.warn = false ∧ s.flag 0x01 0 0 = true ∧ s.power.ov = false ∧
      s.misc.junctionHot = false ∧ s.keeper.halted = false ∧ s.store.lastPending = false) :=
  ⟨⟨live, 8, 207, by decide +kernel⟩,
   ⟨{ live with power.falling := true }, 207, by decide +kernel⟩,
   ⟨{ live with power.falling := true }, 11, by decide +kernel⟩,
   ⟨{ live with store.lastPending := true }, by decide +kernel⟩,
   ⟨{ live with power := { live.power with warn := true, tw := true } }, 9, by decide +kernel⟩,
   ⟨{ live with power := { live.power with warn := true, tw := false } }, 9, by decide +kernel⟩,
   ⟨par 1 0 0 1 { live with keeper := { live.keeper with dev := .safe, safeCauses := [1] }, power.dipped := true }, by decide +kernel⟩⟩

theorem witness_OverVoltageAndReverseProtection :
    (∃ (s : State), s.power.islandReset = false ∧ s.power.ov = false) ∧
    (∃ (s : State), s.power.islandReset = false ∧ s.power.ov = true ∧ s.power.ovLong = true) ∧
    (∃ (s : State), s.power.islandReset = false ∧ s.power.ov = true ∧ s.power.ovLong = false ∧
      (s.keeper.dev = .ready ∨ s.keeper.dev = .run ∨ s.keeper.dev = .update ∨ s.keeper.dev = .safe) ∧ s.tests.list = []) ∧
    (∃ (s : State), s.power.islandReset = false ∧ s.power.ov = true ∧ s.power.ovLong = false ∧
      (s.keeper.dev = .boot ∨ s.keeper.dev = .standby)) :=
  ⟨⟨live, by decide +kernel⟩,
   ⟨{ live with power := { live.power with ov := true, ovLong := true } }, by decide +kernel⟩,
   ⟨{ live with power.ov := true }, by decide +kernel⟩,
   ⟨{ inDev .standby live with power.ov := true }, by decide +kernel⟩⟩

theorem witness_SupplySequence :
    (∃ (s : State), s.power.islandReset = false ∧ s.power.resetN = true ∧ s.power.pll = false) ∧
    (∃ (s : State), s.power.seqActive = true ∧ s.power.seqStep < 5 ∧ s.keeper.waking = false ∧ s.power.seqStep = 0 ∧
      s.keeper.straps = false) ∧
    (∃ (s : State), s.power.seqActive = true ∧ s.power.seqStep < 5 ∧ s.keeper.waking = false ∧ s.keeper.straps = true) ∧
    (∃ (s : State), s.power.seqActive = true ∧ 5 ≤ s.power.seqStep) ∧
    (∃ (s : State), s.power.seqActive = true ∧ s.power.retries < 2) ∧
    (∃ (s : State), s.power.seqActive = true ∧ 2 ≤ s.power.retries) ∧
    (∃ (s : State) (c : Nat), s.power.seqDone = true ∧ c < 208) ∧
    (∃ (s : State) (r : Nat), s.power.seqDone = true ∧ r < 12) ∧
    (∃ (s : State), s.power.retryWait = true) :=
  ⟨⟨{ live with power.pll := false }, by decide +kernel⟩,
   ⟨{ live with power := { live.power with seqActive := true, seqDone := false, seqStep := 0, retries := 0 }, keeper.straps := false },
     by decide +kernel⟩,
   ⟨{ live with power := { live.power with seqActive := true, seqDone := false, seqStep := 4, retries := 0 }, keeper.straps := true },
     by decide +kernel⟩,
   ⟨{ live with power := { live.power with seqActive := true, seqDone := false, seqStep := 5, retries := 0 }, keeper.straps := true },
     by decide +kernel⟩,
   ⟨{ live with power := { live.power with seqActive := true, seqDone := false, seqStep := 5, retries := 1 }, keeper.straps := true },
     by decide +kernel⟩,
   ⟨{ live with power := { live.power with seqActive := true, seqDone := false, seqStep := 5, retries := 2 }, keeper.straps := true },
     by decide +kernel⟩,
   ⟨live, 207, by decide +kernel⟩,
   ⟨live, 11, by decide +kernel⟩,
   ⟨{ live with power.retryWait := true }, by decide +kernel⟩⟩

theorem witness_BootRows :
    (∃ (s : State), s.power.seqDone = true ∧ s.keeper.stage = 3 ∧ s.keeper.halted = false) ∧
    (∃ (s : State), s.keeper.stage = 4 ∧ s.keeper.halted = false ∧ fwBodyOk s.store.fwA.bytes = true) ∧
    (∃ (s : State), s.keeper.stage = 5 ∧ s.keeper.halted = false ∧ fwBodyOk s.store.fwB.bytes = true) ∧
    (∃ (s : State), s.power.seqDone = true ∧ s.keeper.stage = 6 ∧ s.media.locked = false ∧ s.keeper.halted = false) ∧
    (∃ (s : State) (d : Nat) (vdrv : Rat), d < 4 ∧ s.media.locked = true ∧ s.keeper.stage = 6 ∧ s.keeper.halted = false ∧
      (s.dsd d).released = false ∧ (s.dsd d).failed = false ∧ vdrvInWindow (s.keeper.strapDrv / 2 ^ d % 2 == 1) vdrv = false) ∧
    (∃ (s : State) (d : Nat) (vdrv : Rat) (trim : Bool) (link : Bool) (sref : Bool), d < 4 ∧ s.media.locked = true ∧ s.keeper.stage = 6 ∧
      s.keeper.halted = false ∧ (s.dsd d).released = false ∧ (s.dsd d).failed = false ∧
      vdrvInWindow (s.keeper.strapDrv / 2 ^ d % 2 == 1) vdrv = true ∧ (trim && link && sref) = false) ∧
    (∃ (s : State) (d : Nat) (vdrv : Rat) (trim : Bool) (link : Bool) (sref : Bool) (c : Nat), d < 4 ∧ s.media.locked = true ∧
      s.keeper.stage = 6 ∧ s.keeper.halted = false ∧ (s.dsd d).released = false ∧ (s.dsd d).failed = false ∧
      vdrvInWindow (s.keeper.strapDrv / 2 ^ d % 2 == 1) vdrv = true ∧ (trim && link && sref) = true ∧ c < 208 ∧ dsdOf c = d) ∧
    (∃ (s : State) (d : Nat) (vdrv : Rat) (trim : Bool) (link : Bool) (sref : Bool) (r : Nat), d < 4 ∧ s.media.locked = true ∧
      s.keeper.stage = 6 ∧ s.keeper.halted = false ∧ (s.dsd d).released = false ∧ (s.dsd d).failed = false ∧
      vdrvInWindow (s.keeper.strapDrv / 2 ^ d % 2 == 1) vdrv = true ∧ (trim && link && sref) = true ∧ r < 12 ∧ r / 3 = d) ∧
    (∃ (s : State), s.keeper.stage = 7 ∧ s.keeper.cfgLoaded = false ∧ s.keeper.halted = false) ∧
    (∃ (s : State), s.keeper.halted = false ∧ s.keeper.stage = 7 ∧ s.keeper.cfgLoaded = true) :=
  ⟨⟨{ live with keeper.stage := 3 }, by decide +kernel⟩,
   ⟨{ live with keeper.stage := 4, store.fwA.bytes := image0 }, by decide +kernel⟩,
   ⟨{ live with keeper.stage := 5, store.fwB.bytes := image0 }, by decide +kernel⟩,
   ⟨{ live with keeper.stage := 6, media.locked := false }, by decide +kernel⟩,
   ⟨{ live with keeper.stage := 6, dsds := Vector.replicate 4 {} }, 3, 49/10, by decide +kernel⟩,
   ⟨{ live with keeper.stage := 6, dsds := Vector.replicate 4 {} }, 3, 5, true, false, true, by decide +kernel⟩,
   ⟨{ live with keeper.stage := 6, dsds := Vector.replicate 4 {} }, 3, 6, true, true, true, 207, by decide +kernel⟩,
   ⟨{ live with keeper.stage := 6, dsds := Vector.replicate 4 {} }, 3, 6, true, true, true, 11, by decide +kernel⟩,
   ⟨{ live with keeper := { live.keeper with stage := 7, cfgLoaded := false } }, by decide +kernel⟩,
   ⟨{ live with keeper.stage := 7 }, by decide +kernel⟩⟩

theorem witness_KeeperClockAndWake :
    (∃ (s : State), s.power.islandReset = false ∧ s.power.resetN = true ∧ s.keeper.halted = false) ∧
    (∃ (s : State), s.keeper.halted = true ∧ (∀ p : Nat, p < 3 → (s.port p).ring = [] ∧ (s.port p).queries = [])) ∧
    (∃ (s : State), firmwareRuns s = true) ∧
    (∃ (s : State), s.keeper.dev = .standby ∧ s.keeper.waking = false ∧ s.nat 0x01 0 2 ≠ 0) ∧
    (∃ (s : State) (n : Nat) (frame : List Byte), s.keeper.dev = .standby ∧ n < 8 ∧ s.nat 0x02 0 7 / 2 ^ n % 2 = 1 ∧
      s.keeper.waking = false ∧ wakeMatch s n frame = true) ∧
    (∃ (s : State), s.keeper.dev = .standby ∧ s.keeper.wakeHeld = true ∧ s.keeper.waking = false ∧ s.keeper.halted = false) :=
  ⟨⟨live, by decide +kernel⟩,
   ⟨{ live with keeper.halted := true }, by decide +kernel⟩,
   ⟨live, by decide +kernel⟩,
   ⟨par 1 0 2 1 (inDev .standby live), by decide +kernel⟩,
   ⟨par 1 0 5 0x0A000001 (inDev .standby live), 2, List.replicate 6 0xFF ++ zeros 6 ++ [8, 6] ++ zeros 6 ++ [0, 1] ++ zeros 16 ++ [10, 0, 0, 1],
     by decide +kernel⟩,
   ⟨{ live with keeper := { live.keeper with dev := .standby, wakeHeld := true } }, by decide +kernel⟩⟩

theorem witness_KeeperSensorRows :
    (∃ (s : State) (die : Nat) (c : Rat), die < 5 ∧ junctionLimit < c ∧ s.power.islandReset = false ∧ s.power.seqDone = true ∧
      (s.keeper.dev = .ready ∨ s.keeper.dev = .run ∨ s.keeper.dev = .update ∨ (s.keeper.dev = .safe ∧ s.misc.junctionHot = false)) ∧
      s.misc.junctionHot = false ∧ s.tests.list = []) ∧
    (∃ (s : State) (die : Nat) (c : Rat), die < 5 ∧ junctionLimit < c ∧ s.power.islandReset = false ∧ s.power.seqDone = true ∧
      s.misc.junctionHot = false ∧ (s.keeper.dev = .boot ∨ s.keeper.dev = .standby)) ∧
    (∃ (s : State) (c : Rat), canLog s = true ∧ s.misc.junctionEp = false ∧ s.ratv 0x01 0 0xB ≤ c) ∧
    (∃ (s : State), firmwareRuns s = true ∧ s.keeper.counterUs < s.misc.secondAt) ∧
    (∃ (s : State), canLog s = true ∧ keeperFree s = true) :=
  ⟨⟨live, 4, 136, by refine ⟨?_, ?_, ?_, ?_, ?_, ?_, ?_⟩ <;> first | decide +kernel | exact junction_below⟩,
   ⟨inDev .standby live, 4, 136, by refine ⟨?_, ?_, ?_, ?_, ?_, ?_⟩ <;> first | decide +kernel | exact junction_below⟩,
   ⟨live, 110, by decide +kernel⟩,
   ⟨{ live with misc.secondAt := 6000000 }, by decide +kernel⟩,
   ⟨live, by decide +kernel⟩⟩

theorem witness_CommitRows :
    (∃ (s : State) (c : Commit) (u : UnitPlan), s.cfg.commit = some c ∧ c.epoch = none ∧ s.keeper.halted = false ∧
      c.units.find? (fun v => !v.armed) = some u ∧ stoppedForUnit s u.unit = true ∧ c.k0 ≠ none) ∧
    (∃ (s : State) (c : Commit) (u : UnitPlan) (d : Nat), s.cfg.commit = some c ∧ c.epoch = none ∧ s.keeper.halted = false ∧
      c.units.find? (fun v => !v.armed) = some u ∧ stoppedForUnit s u.unit = true ∧ d < 208 ∧
      restartsChan s.cfg.active s.cfg.target u.unit d = true ∧ (s.chan d).fsm.state = .off) ∧
    (∃ (s : State) (c : Commit) (u : UnitPlan), s.cfg.commit = some c ∧ c.epoch = none ∧ s.keeper.halted = false ∧
      c.units.find? (fun v => !v.armed) = some u ∧ stoppedForUnit s u.unit = false) ∧
    (∃ (s : State) (c : Commit) (u : UnitPlan), s.cfg.commit = some c ∧ s.media.locked = true ∧ s.media.halted = false ∧
      c.units.find? (c.due (winK s)) = some u ∧ c.first = none ∧ (∃ v ∈ c.units, v.block = 0 ∧ v.armed = false)) ∧
    (∃ (s : State) (c : Commit) (u : UnitPlan), s.cfg.commit = some c ∧ s.media.locked = true ∧ s.media.halted = false ∧
      c.units.find? (c.due (winK s)) = some u ∧ (c.first = none → ∀ v ∈ c.units, v.block = 0 → v.armed = true) ∧ u.armed = true ∧
      stoppedForUnit s u.unit = true) ∧
    (∃ (s : State) (c : Commit) (u : UnitPlan), s.cfg.commit = some c ∧ s.media.locked = true ∧ s.media.halted = false ∧
      c.units.find? (c.due (winK s)) = some u ∧ (c.first = none → ∀ v ∈ c.units, v.block = 0 → v.armed = true) ∧
      (u.armed = false ∨ (stoppedForUnit s u.unit = false ∧ s.keeper.halted = true))) ∧
    (∃ (s : State) (c : Commit) (u : UnitPlan), s.cfg.commit = some c ∧ s.media.locked = true ∧ s.media.halted = false ∧
      c.units.find? (c.due (winK s)) = some u ∧ (c.first = none → ∀ v ∈ c.units, v.block = 0 → v.armed = true) ∧ u.armed = true ∧
      stoppedForUnit s u.unit = false ∧ s.keeper.halted = false) ∧
    (∃ (s : State) (c : Nat) (x : XFade), (s.chan c).dsp.xf = some x ∧ 1024 ≤ x.i ∧ c < 208) ∧
    (∃ (s : State) (c : Commit), s.cfg.commit = some c ∧ s.keeper.halted = false ∧ commitOver s c = true) ∧
    (∃ (s : State) (ticket : Nat), s.cfg.storePending = some ticket ∧ keeperFree s = true ∧ canLog s = true ∧ flashOn s = true ∧
      s.keeper.dev ≠ .standby ∧ s.store.lastPending = false) :=
  ⟨⟨inCommit commit0 live, commit0, ⟨.chan 207, 0, false, false, false, false⟩, by decide +kernel⟩,
   ⟨inCommit commit0 ({ live with cfg.target := live.cfg.active.setParam (pid 0x10 207 0) 1 }), commit0, ⟨.chan 207, 0, false, false, false, false⟩, 207,
     by decide +kernel⟩,
   ⟨inCommit commit0 (inState 207 .run { live with cfg.target := live.cfg.active.setParam (pid 0x10 207 0) 1 }), commit0, ⟨.chan 207, 0, false, false, false, false⟩,
     by decide +kernel⟩,
   ⟨inCommit { commit0 with units := [⟨.chan 207, 101, true, false, false, false⟩, ⟨.chan 207, 0, false, false, false, false⟩] } live, { commit0 with units := [⟨.chan 207, 101, true, false, false, false⟩, ⟨.chan 207, 0, false, false, false, false⟩] }, ⟨.chan 207, 101, true, false, false, false⟩,
     by decide +kernel⟩,
   ⟨inCommit { commit0 with units := [⟨.chan 207, 101, true, false, false, false⟩], first := some 900 } live, { commit0 with units := [⟨.chan 207, 101, true, false, false, false⟩], first := some 900 }, ⟨.chan 207, 101, true, false, false, false⟩,
     by decide +kernel⟩,
   ⟨inCommit { commit0 with units := [⟨.chan 207, 101, false, false, false, false⟩], first := some 900 } live, { commit0 with units := [⟨.chan 207, 101, false, false, false, false⟩], first := some 900 }, ⟨.chan 207, 101, false, false, false, false⟩,
     by decide +kernel⟩,
   ⟨inCommit { commit0 with units := [⟨.chan 207, 101, true, false, false, false⟩], first := some 900 } (inState 207 .run ({ live with cfg.target := live.cfg.active.setParam (pid 0x10 207 0) 1 })), { commit0 with units := [⟨.chan 207, 101, true, false, false, false⟩], first := some 900 }, ⟨.chan 207, 101, true, false, false, false⟩,
     by decide +kernel⟩,
   ⟨live.modDsp 207 fun d => { d with xf := some xf0 }, 207, xf0, by decide +kernel⟩,
   ⟨inCommit { commit0 with units := [] } live, { commit0 with units := [] }, by decide +kernel⟩,
   ⟨{ live with cfg.storePending := some 1 }, 1, by decide +kernel⟩⟩

theorem witness_CeilingRows :
    (∃ (s : State) (row : Nat) (us : Nat) (least : Nat), s.power.seqDone = true ∧
      (least = (if s.misc.rselRail < min row 7 then 500 else 1500)) ∧ least + 100 ≤ us) ∧
    (∃ (s : State) (row : Nat) (us : Nat) (least : Nat), s.power.seqDone = true ∧
      (least = (if s.misc.rselRail < min row 7 then 500 else 1500)) ∧ us < least) ∧
    (∃ (s : State) (us : Nat), s.media.locked = true ∧ 1100 ≤ us) ∧
    (∃ (s : State) (us : Nat), s.media.locked = true ∧ us < 1000) ∧
    (∃ (s : State) (rc : Nat), s.media.locked = true ∧ rc < 12) ∧
    (∃ (s : State) (rc : Nat) (row : Nat) (goal : Nat), rc < 12 ∧ canLog s = true ∧
      (goal = min row (if groupFallback s rc then (fallbackRow? s.cfg.active rc).getD 7 else 7)) ∧ goal < (s.rail rc).cKeepGoal) ∧
    (∃ (s : State) (rc : Nat) (row : Nat) (goal : Nat), rc < 12 ∧ canLog s = true ∧
      (goal = min row (if groupFallback s rc then (fallbackRow? s.cfg.active rc).getD 7 else 7)) ∧ (s.rail rc).cKeepGoal < goal) ∧
    (∃ (s : State) (rc : Nat) (row : Nat) (goal : Nat), rc < 12 ∧ canLog s = true ∧
      (goal = min row (if groupFallback s rc then (fallbackRow? s.cfg.active rc).getD 7 else 7)) ∧ goal = (s.rail rc).cKeepGoal) ∧
    (∃ (s : State) (rc : Nat), rc < 12 ∧ (s.rail rc).secondDue = true ∧ s.keeper.halted = false) ∧
    (∃ (s : State) (rc : Nat) (row : Nat), rc < 12 ∧ (s.rail rc).state = .regulating ∧ row = min (s.rail rc).sent (cEffRail s rc) ∧
      (s.dsd (rc / 3)).linked = true) ∧
    (∃ (s : State) (rc : Nat) (row : Nat), rc < 12 ∧ (s.rail rc).state = .regulating ∧ row = min (s.rail rc).sent (cEffRail s rc) ∧
      (s.dsd (rc / 3)).linked = false) ∧
    (∃ (s : State) (rc : Nat) (q : Rail), q.state = .regulating ∧ q.stopReq = false ∧ 0 ≤ slew s rc) :=
  ⟨⟨live, 7, 600, 500, by decide +kernel⟩,
   ⟨live, 7, 499, 500, by decide +kernel⟩,
   ⟨live, 1100, by decide +kernel⟩,
   ⟨live, 999, by decide +kernel⟩,
   ⟨live, 11, by decide +kernel⟩,
   ⟨live.modRail 11 fun q => { q with cKeepGoal := 7 }, 11, 6, 6, by decide +kernel⟩,
   ⟨live.modRail 11 fun q => { q with cKeepGoal := 0 }, 11, 7, 7, by decide +kernel⟩,
   ⟨live, 11, 7, 7, by decide +kernel⟩,
   ⟨live.modRail 11 fun q => { q with secondDue := true }, 11, by decide +kernel⟩,
   ⟨live, 11, 0, by decide +kernel⟩,
   ⟨{ live with dsds := Vector.replicate 4 {} }, 11, 0, by decide +kernel⟩,
   ⟨live, 11, live.rail 11, by decide +kernel⟩⟩

theorem witness_RailStartRows :
    (∃ (s : State) (rc : Nat), rc < 12 ∧ (s.rail rc).due = true ∧ (s.rail rc).test = 0 ∧
      ((s.rail rc).state = .off ∨ (s.rail rc).state = .fault ∨ (s.rail rc).state = .retryWait) ∧ railMayStart s rc = true) ∧
    (∃ (s : State) (rc : Nat), rc < 12 ∧ (s.rail rc).state = .retryWait ∧ railMayStart s rc = true ∧
      (s.rail rc).cyc.stoppedAt + 1000 * (s.rail rc).cyc.retryMs ≤ s.keeper.counterUs) ∧
    (∃ (s : State) (rc : Nat), rc < 12 ∧ s.keeper.halted = false ∧ (s.rail rc).state = .fault ∧ railRetried (s.rail rc).code = true ∧
      (s.rail rc).retriesLeft = 0) ∧
    (∃ (s : State) (rc : Nat) (v : Rat), rc < 12 ∧ 9 ≤ v ∧ v ≤ 60 ∧ (s.rail rc).state = .check ∧ (s.rail rc).check = 0) ∧
    (∃ (s : State) (rc : Nat) (isx : Rat), rc < 12 ∧ (s.rail rc).state = .check ∧ ((s.rail rc).check = 1 ∨ (s.rail rc).check = 4) ∧ isx < 1) ∧
    (∃ (s : State) (rc : Nat) (isx : Rat) (k : Nat), rc < 12 ∧ (s.rail rc).state = .check ∧
      ((s.rail rc).check = 1 ∨ (s.rail rc).check = 4) ∧ 1 ≤ isx ∧ k ≠ rc) ∧
    (∃ (s : State) (rc : Nat) (isx : Rat), rc < 12 ∧ (s.rail rc).state = .check ∧ ((s.rail rc).check = 2 ∨ (s.rail rc).check = 5) ∧
      4/10 ≤ isx) ∧
    (∃ (s : State) (rc : Nat) (isx : Rat) (k : Nat), rc < 12 ∧ (s.rail rc).state = .check ∧
      ((s.rail rc).check = 2 ∨ (s.rail rc).check = 5) ∧ isx < 4/10 ∧ k ≠ rc) ∧
    (∃ (s : State) (rc : Nat) (rise : Rat), rc < 12 ∧ (s.rail rc).state = .check ∧ (s.rail rc).check = 6 ∧ (s.rail rc).iLim / 50 ≤ rise) ∧
    (∃ (s : State) (rc : Nat) (rise : Rat), rc < 12 ∧ (s.rail rc).state = .check ∧ (s.rail rc).check = 3 ∧ (s.rail rc).iLim / 50 ≤ rise) ∧
    (∃ (s : State) (rc : Nat) (rise : Rat) (b : Bool), rc < 12 ∧ (s.rail rc).state = .check ∧ (s.rail rc).check = (if b then 6 else 3) ∧
      rise < (s.rail rc).iLim / 50 ∧ ((if b then (s.rail rc).failedA else (s.rail rc).failedB) = false)) ∧
    (∃ (s : State) (rc : Nat) (rise : Rat), rc < 12 ∧ (s.rail rc).state = .check ∧ (s.rail rc).check = 6 ∧ rise < (s.rail rc).iLim / 50 ∧
      (s.rail rc).failedA = true) ∧
    (∃ (s : State) (rc : Nat) (v : Rat) (ms : Rat), rc < 12 ∧ (s.rail rc).state = .softStart ∧ (s.rail rc).stopReq = false ∧
      (s.rail rc).ref = (s.rail rc).setpoint 0 ∧ rampMs s rc + 1 ≤ ms ∧
      absRat (v - (s.rail rc).setpoint 0) ≤ (s.rail rc).setpoint 0 * 3/100) ∧
    (∃ (s : State) (rc : Nat) (v : Rat) (ms : Rat) (k : Nat), rc < 12 ∧ (s.rail rc).state = .softStart ∧ rampMs s rc + 2 ≤ ms ∧
      v < (s.rail rc).setpoint 0 / 4 ∧ k ≠ rc) ∧
    (∃ (s : State) (rc : Nat) (ms : Rat) (k : Nat), rc < 12 ∧ (s.rail rc).state = .softStart ∧ rampMs s rc + 20 ≤ ms ∧ k ≠ rc) :=
  ⟨⟨par 7 11 0 1 (live.modRail 11 fun q => { q with state := .off, due := true }), 11, by decide +kernel⟩,
   ⟨par 7 11 0 1 (live.modRail 11 fun q => { q with state := .retryWait }), 11, by decide +kernel⟩,
   ⟨par 7 11 0 1 (live.modRail 11 fun q => { q with state := .fault, code := 0x7003 }), 11, by decide +kernel⟩,
   ⟨par 7 11 0 1 (live.modRail 11 fun q => { q with state := .check }), 11, 60, by decide +kernel⟩,
   ⟨par 7 11 0 1 (live.modRail 11 fun q => { q with state := .check, check := 4 }), 11, 99/100, by decide +kernel⟩,
   ⟨par 7 11 0 1 (live.modRail 11 fun q => { q with state := .check, check := 4 }), 11, 1, 0, by decide +kernel⟩,
   ⟨par 7 11 0 1 (live.modRail 11 fun q => { q with state := .check, check := 5 }), 11, 4/10, by decide +kernel⟩,
   ⟨par 7 11 0 1 (live.modRail 11 fun q => { q with state := .check, check := 5 }), 11, 39/100, 10, by decide +kernel⟩,
   ⟨par 7 11 0 1 (live.modRail 11 fun q => { q with state := .check, check := 6 }), 11, 1, by decide +kernel⟩,
   ⟨par 7 11 0 1 (live.modRail 11 fun q => { q with state := .check, check := 3 }), 11, 1, by decide +kernel⟩,
   ⟨par 7 11 0 1 (live.modRail 11 fun q => { q with state := .check, check := 3 }), 11, 0, false, by decide +kernel⟩,
   ⟨par 7 11 0 1 (live.modRail 11 fun q => { q with state := .check, check := 6, aOpen := true }), 11, 0, by decide +kernel⟩,
   ⟨par 7 11 0 1 (live.modRail 11 fun q => { q with state := .softStart }), 11, 0, 1, by decide +kernel⟩,
   ⟨par 7 11 0 1 (live.modRail 11 fun q => { q with state := .softStart, table := [10] }), 11, 2, 2+rampMs (par 7 11 0 1 (live.modRail 11 fun q => { q with state := .softStart, table := [10] })) 11, 10,
     by decide +kernel⟩,
   ⟨par 7 11 0 1 (live.modRail 11 fun q => { q with state := .softStart }), 11, 20, 10, by decide +kernel⟩⟩

theorem witness_RailRegulationRows :
    (∃ (s : State) (rc : Nat) (b : Bool) (vIn : Rat) (v : Rat) (i : Rat) (offNs : Rat) (sinceNs : Rat) (own : Rat), rc < 12 ∧
      (s.rail rc).state.gatesOn = true ∧ 0 < vIn ∧ 0 < fRef s rc ∧ 150 ≤ offNs ∧ own = offNs + (s.rail rc).cyc.tOn.getD (bit b 0) 0 ∧
      (v + (s.rail rc).cyc.gInj * (s.rail rc).ripple (if b then sinceNs else own) (if b then own else sinceNs) < (s.rail rc).ref + (s.rail rc).cyc.outer) ∧
      (if b then (s.rail rc).failedA = true ∨ ((s.rail rc).failedB = false ∧
      (s.rail rc).turnB = true) else (s.rail rc).failedA = false ∧ ((s.rail rc).failedB = true ∨ (s.rail rc).turnB = false)) ∧
      ((if b then (s.rail rc).blockedB else (s.rail rc).blockedA) = true → i < (s.rail rc).iLim * 9/10)) ∧
    (∃ (s : State) (rc : Nat) (b : Bool) (v : Rat) (offNs : Rat) (sinceNs : Rat) (own : Rat), rc < 12 ∧ b = (s.rail rc).turn ∧
      own = offNs + (s.rail rc).cyc.tOn.getD (bit b 0) 0 ∧
      (offNs < 150 ∨ (s.rail rc).ref + (s.rail rc).cyc.outer ≤ v + (s.rail rc).cyc.gInj * (s.rail rc).ripple (if b then sinceNs else own) (if b then own else sinceNs))) ∧
    (∃ (s : State) (rc : Nat) (b : Bool) (mv : Rat) (ns : Rat), rc < 12 ∧ (s.rail rc).state.gatesOn = true ∧
      ((if b then (s.rail rc).failedB else (s.rail rc).failedA) = false) ∧ (s.rail rc).charges b ns = true ∧ (s.rail rc).limMv < mv) ∧
    (∃ (s : State) (rc : Nat) (b : Bool) (mv : Rat) (ns : Rat), rc < 12 ∧ (s.rail rc).state.gatesOn = true ∧
      ((if b then (s.rail rc).failedB else (s.rail rc).failedA) = false) ∧ (s.rail rc).charges b ns = false ∧
      mv ≤ (s.rail rc).reverseMv) ∧
    (∃ (s : State) (rc : Nat) (v : Rat), rc < 12 ∧ (s.rail rc).state.gatesOn = true ∧ (s.rail rc).sagEp = false ∧
      ((s.rail rc).blockedA = true ∨ (s.rail rc).blockedB = true) ∧ v < (s.rail rc).ref * 8/10) ∧
    (∃ (s : State) (rc : Nat) (v : Rat) (k : Nat), rc < 12 ∧ (s.rail rc).state.gatesOn = true ∧
      min 98 ((s.rail rc).setpoint 7 * 105/100) < v ∧ k ≠ rc) ∧
    (∃ (s : State) (rc : Nat) (v : Rat) (c : Nat), rc < 12 ∧ (s.rail rc).state.gatesOn = true ∧
      min 98 ((s.rail rc).setpoint 7 * 105/100) < v ∧ (s.rail rc).state = .regulating ∧ c < 208 ∧ rcOf c = rc ∧
      (s.chan c).fsm.state ≠ .off ∧ (s.chan c).fsm.state ≠ .fault ∧ (s.chan c).fsm.state ≠ .retest) ∧
    (∃ (s : State) (rc : Nat) (v : Rat) (c : Nat), rc < 12 ∧ (s.rail rc).state.gatesOn = true ∧
      min 98 ((s.rail rc).setpoint 7 * 105/100) < v ∧ c < 208 ∧ rcOf c ≠ rc) ∧
    (∃ (s : State) (rc : Nat), rc < 12 ∧ (s.rail rc).stopReq = true ∧ (s.rail rc).state.gatesOn = true ∧
      (∀ c ∈ fedBy rc, (s.chan c).fsm.state = .off ∨ (s.chan c).fsm.state = .fault) ∧ (s.rail rc).ref ≤ (s.rail rc).setpoint 0) ∧
    (∃ (s : State) (rc : Nat) (b : Bool) (iA : Rat) (iB : Rat), rc < 12 ∧ (s.rail rc).state.gatesOn = true ∧ (s.rail rc).failedA = false ∧
      (s.rail rc).failedB = false ∧ (if b then iB < iA / 10 else iA < iB / 10) ∧ 3/10 < (iA + iB) / (2 * (s.rail rc).iLim)) ∧
    (∃ (s : State) (rc : Nat) (b : Bool) (sensed : Rat) (k : Nat), rc < 12 ∧ (s.rail rc).state.gatesOn = true ∧
      ((if b then (s.rail rc).failedB else (s.rail rc).failedA) = false) ∧
      absRat (predictedRise (s.rail rc) b) / 2 < absRat (sensed - predictedRise (s.rail rc) b) ∧ k ≠ rc) ∧
    (∃ (s : State) (rc : Nat) (b : Bool) (sensed : Rat), rc < 12 ∧ (s.rail rc).state.gatesOn = true ∧
      ((if b then (s.rail rc).failedB else (s.rail rc).failedA) = false) ∧
      absRat (predictedRise (s.rail rc) b) / 2 < absRat (sensed - predictedRise (s.rail rc) b) ∧
      ((if b then (s.rail rc).failedA else (s.rail rc).failedB) = false)) ∧
    (∃ (s : State) (rc : Nat) (b : Bool) (sensed : Rat), rc < 12 ∧ (s.rail rc).state.gatesOn = true ∧
      ((if b then (s.rail rc).failedB else (s.rail rc).failedA) = false) ∧
      absRat (predictedRise (s.rail rc) b) / 2 < absRat (sensed - predictedRise (s.rail rc) b) ∧
      ((if b then (s.rail rc).failedA else (s.rail rc).failedB) = true)) :=
  ⟨⟨live.modRail 11 fun q => { q with ref := 1 }, 11, false, 10, 0, 0, 150, 0, 150, by decide +kernel⟩,
   ⟨live, 11, false, 0, 149, 0, 149, by decide +kernel⟩,
   ⟨live.modRail 11 fun q => { q with chargingB := true, cyc := { q.cyc with tOn := [0, 1000] } }, 11, true, 51, 999, by decide +kernel⟩,
   ⟨live, 11, true, -25/2, 0, by decide +kernel⟩,
   ⟨live.modRail 11 fun q => { q with ref := 10, blockedA := true }, 11, 79/10, by decide +kernel⟩,
   ⟨live, 11, 981/10, 10, by decide +kernel⟩,
   ⟨inState 207 .run live, 11, 981/10, 207, by decide +kernel⟩,
   ⟨live, 11, 981/10, 203, by decide +kernel⟩,
   ⟨live.modRail 11 fun q => { q with stopReq := true }, 11, by decide +kernel⟩,
   ⟨live, 11, true, 20, 19/10, by decide +kernel⟩,
   ⟨live, 11, true, 7/2, 10, by decide +kernel⟩,
   ⟨live, 11, false, 7/2, by decide +kernel⟩,
   ⟨live.modRail 11 fun q => { q with aOpen := true }, 11, true, 7/2, by decide +kernel⟩⟩

theorem witness_RailServiceRows :
    (∃ (s : State) (rc : Nat) (ohm : Rat), rc < 12 ∧ s.flag 0x07 rc 0 = true ∧ (s.rail rc).ntcOn = true ∧ (s.rail rc).onZone = false ∧
      ntcInRange ohm = true) ∧
    (∃ (s : State) (rc : Nat) (ohm : Rat), rc < 12 ∧ s.flag 0x07 rc 0 = true ∧ (s.rail rc).ntcOn = true ∧ (s.rail rc).onZone = false ∧
      ntcInRange ohm = false ∧ (s.rail rc).ntcBad = ntcKind ohm ∧ 99 ≤ (s.rail rc).ntcMs ∧ (s.rail rc).ntcWas ≠ ntcKind ohm) ∧
    (∃ (s : State) (rc : Nat) (k : Nat), rc < 12 ∧ ((s.rail rc).state.gatesOn = true ∨ (s.rail rc).state = .check) ∧
      (s.rail rc).ntcOn = true ∧ 100 ≤ (s.rail rc).hotMs ∧ k ≠ rc) ∧
    (∃ (s : State) (rc : Nat), rc < 12 ∧ (s.rail rc).state = .fault ∧ (s.rail rc).code = 0x700C ∧ (s.rail rc).test = 0 ∧
      (s.rail rc).tempC < 100 ∧ railMayStart s rc = true) ∧
    (∃ (s : State) (us : List Rat) (r : Nat), s.power.seqDone = true ∧ syncPresent us = true ∧ r < 12 ∧ s.flag 0x07 r 0 = false) ∧
    (∃ (s : State) (us : List Rat) (r : Nat), s.power.seqDone = true ∧ syncPresent us = true ∧ r < 12 ∧ s.flag 0x07 r 0 = true) ∧
    (∃ (s : State) (r : Nat), (s.rail r).sync = 1) ∧
    (∃ (last : Rat) (gap : Rat), 5/4 ≤ gap ∧ gap ≤ 5 ∧ absRat (gap - last) ≤ last * 15/100) ∧
    (∃ (s : State) (last : Rat) (gap : Rat) (edge : Bool) (r : Nat), s.misc.rsync = true ∧
      (if edge then gap < 5/4 ∨ 5 < gap ∨ last * 15/100 < absRat (gap - last) else 2 * last ≤ gap) ∧ r < 12) ∧
    (∃ (s : State) (rc : Nat), rc < 12 ∧ (s.rail rc).state.gatesOn = true ∧ 32 ≤ (s.rail rc).cyc.drawn) ∧
    (∃ (s : State) (rc : Nat) (h : Rat), rc < 12 ∧ keeperFree s = true ∧ s.keeper.dev ≠ .standby ∧ s.power.seqDone = true ∧
      (s.rail rc).peaks.getD 0 none = some h) :=
  ⟨⟨par 7 11 0 1 (live.modRail 11 fun q => { q with ntcOn := true }), 11, 1000000, by decide +kernel⟩,
   ⟨par 7 11 0 1 (live.modRail 11 fun q => { q with ntcOn := true, ntcBad := 1, ntcMs := 99 }), 11, 1000001, by decide +kernel⟩,
   ⟨par 7 11 0 1 (live.modRail 11 fun q => { q with ntcOn := true, tempC := 130, hotMs := 100 }), 11, 10, by decide +kernel⟩,
   ⟨par 7 11 0 1 (live.modRail 11 fun q => { q with state := .fault, code := 0x700C, tempC := 99 }), 11, by decide +kernel⟩,
   ⟨live, List.replicate 8 2, 11, by decide +kernel⟩,
   ⟨par 7 11 0 1 live, List.replicate 8 2, 11, by decide +kernel⟩,
   ⟨live.modRail 11 fun q => { q with sync := 1 }, 11, by decide +kernel⟩,
   ⟨2, 46/20, by decide +kernel⟩,
   ⟨{ live with misc.rsync := true }, 2, 4, false, 11, by decide +kernel⟩,
   ⟨live.modRail 11 fun q => { q with cyc := { q.cyc with drawn := 32 } }, 11, by decide +kernel⟩,
   ⟨live.modRail 11 fun q => { q with peaks := [some 1] }, 11, 1, by decide +kernel⟩⟩

theorem witness_ChannelTestRows :
    (∃ (s : State) (c : Nat), c < 208 ∧ s.enabled c = true ∧ (s.chan c).fsm.state = .off ∧ (s.chan c).fsm.restart = false ∧
      s.keeper.dev = .run ∧ railUp s c = true ∧ (s.dsd (dsdOf c)).released = true ∧ (s.dsd (dsdOf c)).linked = true ∧
      heldByRole s c = false ∧ (latchesOn s.pwm c).isEmpty = true ∧ (s.chan c).fsm.holdTest = false ∧ (s.chan c).fsm.coilLatched = 0) ∧
    (∃ (s : State) (c : Nat), c < 208 ∧ s.enabled c = true ∧ (s.chan c).fsm.state = .off ∧ (s.chan c).fsm.restart = false ∧
      s.keeper.dev = .run ∧ railUp s c = true ∧ (s.dsd (dsdOf c)).released = true ∧ (s.dsd (dsdOf c)).linked = true ∧
      heldByRole s c = false ∧ (latchesOn s.pwm c).isEmpty = true ∧ (s.chan c).fsm.holdTest = false ∧ (s.chan c).fsm.coilLatched ≠ 0) ∧
    (∃ (s : State) (c : Nat), c < 208 ∧ ((s.chan c).fsm.state = .diag ∨ (s.chan c).fsm.state = .retest) ∧ (s.chan c).fsm.calDone = false) ∧
    (∃ (s : State) (c : Nat) (r : TestReading), c < 208 ∧ (s.chan c).fsm.state = .diag ∧ (s.chan c).fsm.calDone = true ∧
      (s.chan c).share.joinReq = false ∧ railUp s c = true ∧
      (s.flag 0x10 c 0x16 = true → (s.chan c).fsm.diagStep = 3 → (s.chan c).fsm.relayOn = true) ∧
      ((s.chan c).fsm.diagStep = 2 → (s.chan c).fsm.relayOn = false) ∧ 2 ≤ (s.chan c).fsm.diagStep ∧ (s.chan c).fsm.diagStep ≤ 6 ∧
      (s.chan c).fsm.diagStep = 6 ∧ 10/1000 ≤ idOf r ∧ idOf r ≤ 30/1000) ∧
    (∃ (s : State) (c : Nat) (r : TestReading), c < 208 ∧ (s.chan c).fsm.state = .diag ∧ (s.chan c).fsm.calDone = true ∧
      (s.chan c).share.joinReq = false ∧ railUp s c = true ∧
      (s.flag 0x10 c 0x16 = true → (s.chan c).fsm.diagStep = 3 → (s.chan c).fsm.relayOn = true) ∧
      ((s.chan c).fsm.diagStep = 2 → (s.chan c).fsm.relayOn = false) ∧ 2 ≤ (s.chan c).fsm.diagStep ∧ (s.chan c).fsm.diagStep ≤ 6 ∧
      (s.chan c).fsm.diagStep = 6 ∧ (idOf r < 10/1000 ∨ 30/1000 < idOf r)) ∧
    (∃ (s : State) (c : Nat) (v : Rat) (i : Rat), c < 208 ∧ (s.chan c).fsm.state = .diag ∧ (s.chan c).fsm.diagStep = 7 ∧
      polarity (s.chan c).fsm.voltageOnly v i = some (false, false)) ∧
    (∃ (s : State) (c : Nat) (v : Rat) (i : Rat), c < 208 ∧ (s.chan c).fsm.state = .diag ∧ (s.chan c).fsm.diagStep = 7 ∧
      polarity (s.chan c).fsm.voltageOnly v i = none) ∧
    (∃ (s : State) (c : Nat) (v : Rat) (i : Rat) (rv : Bool) (ri : Bool), c < 208 ∧ (s.chan c).fsm.state = .diag ∧
      (s.chan c).fsm.diagStep = 7 ∧ polarity (s.chan c).fsm.voltageOnly v i = some (rv, ri) ∧ (rv || ri) = true ∧
      (s.chan c).fsm.polRepeat = true) ∧
    (∃ (s : State) (c : Nat) (v : Rat) (i : Rat) (rv : Bool) (ri : Bool), c < 208 ∧ (s.chan c).fsm.state = .diag ∧
      (s.chan c).fsm.diagStep = 7 ∧ polarity (s.chan c).fsm.voltageOnly v i = some (rv, ri) ∧ (rv || ri) = true ∧
      (s.chan c).fsm.polRepeat = false ∧ (s.chan c).fsm.swapOn = false) ∧
    (∃ (s : State) (c : Nat) (v : Rat) (i : Rat) (rv : Bool) (ri : Bool), c < 208 ∧ (s.chan c).fsm.state = .diag ∧
      (s.chan c).fsm.diagStep = 7 ∧ polarity (s.chan c).fsm.voltageOnly v i = some (rv, ri) ∧ (rv || ri) = true ∧
      (s.chan c).fsm.polRepeat = false ∧ (s.chan c).fsm.swapOn = true) ∧
    (∃ (s : State) (c : Nat), c < 208 ∧ (s.chan c).fsm.state = .precharge ∧ (s.chan c).fsm.diagStep = 9) ∧
    (∃ (s : State) (c : Nat) (a : Rat) (b : Rat) (diff : Rat) (v : Rat) (caps : List Rat), c < 208 ∧ (s.chan c).fsm.state = .precharge ∧
      (s.chan c).fsm.diagStep = 0 ∧ (s.chan c).fsm.stop = .none ∧ v = (s.rail (rcOf c)).vRail ∧ fallbackLow s c = true ∧
      startTaken s c = true ∧ (s.chan c).share.joinReq = true ∨ (absRat (a - v / 2) ≤ 2/100 * (v / 2) ∧
      absRat (b - v / 2) ≤ 2/100 * (v / 2) ∧ absRat diff ≤ 50/1000) ∧
      (isL c = false ∨ (s.chan c).fsm.cellFallback = true ∨ (∀ i : Nat, i < 4 → absRat (caps.getD i 0 - legVolts v (if i % 2 = 0 then 2 else 1)) ≤ 3/100 * legVolts v (if i % 2 = 0 then 2 else 1)))) ∧
    (∃ (s : State) (c : Nat) (diff : Rat), c < 208 ∧ (s.chan c).fsm.state = .precharge ∧ (s.chan c).fsm.diagStep = 0 ∧
      (s.chan c).fsm.stop = .none ∧ (s.chan c).share.joinReq = false ∧ 50/1000 < absRat diff) :=
  ⟨⟨par 0x10 207 0 1 (live.modFsm 207 fun f => { f with state := .off }), 207, by decide +kernel⟩,
   ⟨par 0x10 207 0 1 (live.modFsm 207 fun f => { f with coilLatched := 1 }), 207, by decide +kernel⟩,
   ⟨par 0x10 207 0 1 (live.modFsm 207 fun f => { f with state := .diag }), 207, by decide +kernel⟩,
   ⟨par 0x10 207 0 1 (live.modFsm 207 fun f => { f with state := .diag, calDone := true, diagStep := 6 }), 207, ⟨0, 0, 0, 0, 0, 1/50⟩,
     by decide +kernel⟩,
   ⟨par 0x10 207 0 1 (live.modFsm 207 fun f => { f with state := .diag, calDone := true, diagStep := 6 }), 207, ⟨0, 0, 0, 0, 0, 31/1000⟩,
     by decide +kernel⟩,
   ⟨par 0x10 207 0 1 (live.modFsm 207 fun f => { f with state := .diag, diagStep := 7 }), 207, 20/1000, 10/1000, by decide +kernel⟩,
   ⟨par 0x10 207 0 1 (live.modFsm 207 fun f => { f with state := .diag, diagStep := 7 }), 207, 19/1000, 10/1000, by decide +kernel⟩,
   ⟨par 0x10 207 0 1 (live.modFsm 207 fun f => { f with state := .diag, diagStep := 7, polRepeat := true }), 207, -20/1000, 10/1000, true, false,
     by decide +kernel⟩,
   ⟨par 0x10 207 0 1 (live.modFsm 207 fun f => { f with state := .diag, diagStep := 7 }), 207, -20/1000, 10/1000, true, false,
     by decide +kernel⟩,
   ⟨par 0x10 207 0 1 (live.modFsm 207 fun f => { f with state := .diag, diagStep := 7, swapOn := true }), 207, 20/1000, -10/1000, false, true,
     by decide +kernel⟩,
   ⟨par 0x10 207 0 1 (live.modFsm 207 fun f => { f with state := .precharge, diagStep := 9 }), 207, by decide +kernel⟩,
   ⟨par 0x10 207 0 1 ((live.modRail 11 fun q => { q with vRail := 30 }).modFsm 207 fun f => { f with state := .precharge }), 207, 15, 15, 0, 30, [20, 10, 20, 10],
     by decide +kernel⟩,
   ⟨par 0x10 207 0 1 (live.modFsm 207 fun f => { f with state := .precharge }), 207, 1, by decide +kernel⟩⟩

theorem witness_ChannelPlayRows :
    (∃ (s : State) (c : Nat) (τ : Rat), c < 208 ∧ (s.chan c).fsm.state = .idle ∧ (s.chan c).fsm.stop = .none ∧ (500 ≤ τ ∧
      τ ≤ (if isL c then 15000 else 9000))) ∧
    (∃ (s : State) (c : Nat) (τ : Rat), c < 208 ∧ (s.chan c).fsm.state = .idle ∧ (s.chan c).fsm.stop = .none ∧ (¬ (500 ≤ τ ∧
      τ ≤ (if isL c then 15000 else 9000)))) ∧
    (∃ (s : State) (c : Nat), c < 208 ∧ (s.chan c).fsm.state = .idle ∧ (s.chan c).fsm.stop = .none ∧ (s.chan c).fsm.trimOk = false ∧
      isL c = false ∧ sinceRelease s c 9600 = true) ∧
    (∃ (s : State) (c : Nat), c < 208 ∧ (s.chan c).fsm.state = .idle ∧ (s.chan c).fsm.stop = .none ∧ isL c = true ∧
      (s.chan c).fsm.fcOk = false ∧ (s.chan c).fsm.cellFallback = false ∧ sinceRelease s c 9600 = true ∧
      (fcOut s (lOf c)).isSome = true) ∧
    (∃ (s : State) (c : Nat), c < 208 ∧ (s.chan c).fsm.state = .idle ∧ (s.chan c).fsm.stop = .none ∧ (s.chan c).fsm.tauOk = true ∧
      sinceRelease s c 1920 = true ∧ (isL c = false ∨ (s.chan c).fsm.cellFallback = true ∨ fcOut s (lOf c) = none)) ∧
    (∃ (s : State) (c : Nat), c < 208 ∧ (s.chan c).fsm.state = .idle ∧ (s.chan c).fsm.stop = .none ∧ (s.chan c).fsm.admitted = true ∧
      sharing s = false ∧ muteSource s c = false) ∧
    (∃ (s : State) (c : Nat), c < 208 ∧ (s.chan c).fsm.state = .idle ∧ (s.chan c).fsm.stop = .none ∧ (s.chan c).fsm.admitted = true ∧
      sharing s = false ∧ muteSource s c = true) ∧
    (∃ (s : State) (c : Nat), c < 208 ∧ (s.chan c).fsm.state = .run ∧ (s.chan c).fsm.stop = .none ∧ muteSource s c = true) ∧
    (∃ (s : State) (c : Nat) (a : List Rat) (b : List Rat), c < 208 ∧ (s.chan c).fsm.state.switching = true ∧
      (s.chan c).fsm.bridge = .switching ∧ (fourApart (s.rail (rcOf c)).vRail a = true ∨ fourApart (s.rail (rcOf c)).vRail b = true)) ∧
    (∃ (s : State) (c : Nat), c < 208 ∧ (s.chan c).fsm.stop = .requested ∧ (s.chan c).fsm.state = .run) ∧
    (∃ (s : State) (c : Nat), c < 208 ∧ (s.chan c).fsm.stop = .requested ∧ ((s.chan c).fsm.state = .idle ∨ (s.chan c).fsm.state = .muted)) ∧
    (∃ (s : State) (c : Nat), c < 208 ∧ (s.chan c).fsm.stop = .requested ∧ (s.chan c).fsm.state.switching = false) ∧
    (∃ (s : State) (c : Nat), c < 208 ∧ (s.chan c).fsm.stop = .zero ∧ 2 ≤ (s.chan c).fsm.zeroBlocks) ∧
    (∃ (s : State) (c : Nat) (nodes : List Rat) (i : Nat), c < 208 ∧ (s.chan c).fsm.stop = .sinking ∧ s.cfgShared = false ∧
      (i < (if isL c then 6 else 2)) ∧ 1 ≤ nodes.getD i 0) ∧
    (∃ (s : State) (c : Nat) (nodes : List Rat), c < 208 ∧ (s.chan c).fsm.stop = .sinking ∧
      (s.cfgShared = true ∨ (∀ i : Nat, i < (if isL c then 6 else 2) → nodes.getD i 0 < 1))) :=
  ⟨⟨par 0x10 207 0 1 (live.modFsm 207 fun f => { f with state := .idle }), 207, 15000, by decide +kernel⟩,
   ⟨par 0x10 191 0 1 (live.modFsm 191 fun f => { f with state := .idle }), 191, 9001, by decide +kernel⟩,
   ⟨par 0x10 191 0 1 ({ live with media := { live.media with samples := 9600 } }.modFsm 191 fun f => { f with state := .idle }), 191,
     by decide +kernel⟩,
   ⟨(par 0x10 207 0 1 ({ live with media := { live.media with samples := 9600 } }.modFsm 207 fun f => { f with state := .idle })).modRail 11 fun q => { q with vRail := 30 }, 207,
     by decide +kernel⟩,
   ⟨par 0x10 207 0 1 ({ live with media := { live.media with samples := 9600 } }.modFsm 207 fun f => { f with state := .idle, tauOk := true }), 207,
     by decide +kernel⟩,
   ⟨par 0x10 207 0 1 (live.modFsm 207 fun f => { f with state := .idle, admitted := true }), 207, by decide +kernel⟩,
   ⟨(par 0x10 207 3 1 (par 0x10 207 0 1 (live.modFsm 207 fun f => { f with state := .idle, admitted := true }))).modDsp 207 fun d => { d with mute := Ramp.flat 0 }, 207,
     by decide +kernel⟩,
   ⟨(par 0x10 207 3 1 (par 0x10 207 0 1 (live.modFsm 207 fun f => { f with state := .run }))).modDsp 207 fun d => { d with mute := Ramp.flat 0 }, 207,
     by decide +kernel⟩,
   ⟨(par 0x10 207 0 1 (live.modFsm 207 fun f => { f with state := .run, bridge := .switching })).modRail 11 fun q => { q with vRail := 30 }, 207, [], List.replicate 4 4,
     by decide +kernel⟩,
   ⟨par 0x10 207 0 1 (live.modFsm 207 fun f => { f with state := .run, stop := .requested }), 207, by decide +kernel⟩,
   ⟨par 0x10 207 0 1 (live.modFsm 207 fun f => { f with state := .muted, stop := .requested }), 207, by decide +kernel⟩,
   ⟨par 0x10 207 0 1 (live.modFsm 207 fun f => { f with state := .precharge, stop := .requested }), 207, by decide +kernel⟩,
   ⟨par 0x10 207 0 1 (live.modFsm 207 fun f => { f with stop := .zero, zeroBlocks := 2 }), 207, by decide +kernel⟩,
   ⟨par 0x10 207 0 1 (live.modFsm 207 fun f => { f with stop := .sinking }), 207, [1], 0, by decide +kernel⟩,
   ⟨par 0x10 207 0 1 (live.modFsm 207 fun f => { f with stop := .sinking }), 207, [], by decide +kernel⟩⟩

theorem witness_LinkRetestAndRelayRows :
    (∃ (s : State) (d : Nat) (c : Nat), d < 4 ∧ (s.dsd d).released = true ∧ (s.dsd d).linked = true ∧ c < 208 ∧ dsdOf c = d ∧
      (s.chan c).fsm.state ≠ .off ∧ (s.chan c).fsm.state ≠ .fault ∧ (s.chan c).fsm.state ≠ .retest) ∧
    (∃ (s : State) (d : Nat) (c : Nat), d < 4 ∧ (s.dsd d).released = true ∧ (s.dsd d).linked = true ∧ c < 208 ∧ dsdOf c ≠ d) ∧
    (∃ (s : State) (d : Nat), d < 4 ∧ (s.dsd d).released = true ∧ (s.dsd d).linked = false) ∧
    (∃ (s : State) (c : Nat), c < 208 ∧ (s.chan c).fsm.state = .fault ∧ (s.chan c).fsm.diagStep = 0 ∧ s.flag 0x10 c 0x17 = true ∧
      s.enabled c = true ∧ s.keeper.dev = .run ∧ retestReady s c = true) ∧
    (∃ (s : State) (c : Nat), c < 208 ∧ (s.chan c).fsm.state = .retest ∧ ((s.chan c).fsm.diagStep = 7 ∨ (s.chan c).fsm.diagStep = 8) ∧
      (s.chan c).fsm.diagStep = 7) ∧
    (∃ (s : State) (c : Nat), c < 208 ∧ (s.chan c).fsm.state = .retest ∧ ((s.chan c).fsm.diagStep = 7 ∨ (s.chan c).fsm.diagStep = 8) ∧
      (s.chan c).fsm.diagStep = 8) ∧
    (∃ (s : State) (c : Nat) (i : Rat), c < 208 ∧ (s.chan c).fsm.relayOn ≠ ((s.chan c).fsm.relayWant && s.flag 0x10 c 0x16) ∧
      zeroCurrent s c i = true) ∧
    (∃ (s : State) (c : Nat) (v : Rat), c < 208 ∧ s.enabled c = true ∧ s.flag 0x10 c 0x16 = true ∧ (s.chan c).fsm.relayOn = false ∧ v < 1 ∧
      (s.chan c).fsm.state.switching = true) ∧
    (∃ (s : State) (c : Nat) (v : Rat), c < 208 ∧ s.enabled c = true ∧ s.flag 0x10 c 0x16 = true ∧ (s.chan c).fsm.relayOn = false ∧ v < 1 ∧
      (s.chan c).fsm.state.switching = false ∧ (s.chan c).fsm.state ≠ .fault ∧ (s.chan c).fsm.state ≠ .retest) ∧
    (∃ (s : State) (c : Nat) (v : Rat), c < 208 ∧ s.enabled c = true ∧ s.flag 0x10 c 0x16 = true ∧ (s.chan c).fsm.relayOn = false ∧ v < 1 ∧
      ((s.chan c).fsm.state = .fault ∨ (s.chan c).fsm.state = .retest)) ∧
    (∃ (s : State) (c : Nat) (v : Rat), c < 208 ∧ s.enabled c = true ∧ s.flag 0x10 c 0x16 = true ∧ (s.chan c).fsm.relayOn = true ∧ 1 < v ∧
      (s.chan c).fsm.state.switching = true) ∧
    (∃ (s : State) (c : Nat) (v : Rat), c < 208 ∧ s.enabled c = true ∧ s.flag 0x10 c 0x16 = true ∧ (s.chan c).fsm.relayOn = true ∧ 1 < v ∧
      (s.chan c).fsm.state.switching = false) ∧
    (∃ (s : State) (c : Nat) (v : Rat), c < 208 ∧ s.enabled c = true ∧ s.flag 0x10 c 0x16 = true ∧ (s.chan c).fsm.relayOn = true ∧ 1 < v ∧
      ((s.chan c).fsm.state = .fault ∨ (s.chan c).fsm.state = .retest)) :=
  ⟨⟨inState 207 .run live, 3, 207, by decide +kernel⟩,
   ⟨live, 3, 0, by decide +kernel⟩,
   ⟨inState 207 .run { live with dsds := Vector.replicate 4 { released := true, linked := false } }, 3, by decide +kernel⟩,
   ⟨par 0x10 207 0x17 1 (par 0x10 207 0 1 (live.modFsm 207 fun f => { f with state := .fault, code := 0x6001 })), 207, by decide +kernel⟩,
   ⟨par 0x10 207 0 1 (live.modFsm 207 fun f => { f with state := .retest, diagStep := 7 }), 207, by decide +kernel⟩,
   ⟨par 0x10 207 0 1 (live.modFsm 207 fun f => { f with state := .retest, diagStep := 8 }), 207, by decide +kernel⟩,
   ⟨par 0x10 207 0x16 1 (live.modFsm 207 fun f => { f with relayWant := true }), 207, 0, by decide +kernel⟩,
   ⟨par 0x10 207 0 1 (par 0x10 207 0x16 1 (live.modFsm 207 fun f => { f with state := .run })), 207, 99/100, by decide +kernel⟩,
   ⟨par 0x10 207 0 1 (par 0x10 207 0x16 1 (live.modFsm 207 fun f => { f with state := .off })), 207, 99/100, by decide +kernel⟩,
   ⟨par 0x10 207 0 1 (par 0x10 207 0x16 1 (live.modFsm 207 fun f => { f with state := .fault })), 207, 99/100, by decide +kernel⟩,
   ⟨par 0x10 207 0 1 (par 0x10 207 0x16 1 (live.modFsm 207 fun f => { f with state := .run, relayOn := true })), 207, 101/100,
     by decide +kernel⟩,
   ⟨par 0x10 207 0 1 (par 0x10 207 0x16 1 (live.modFsm 207 fun f => { f with state := .off, relayOn := true })), 207, 101/100,
     by decide +kernel⟩,
   ⟨par 0x10 207 0 1 (par 0x10 207 0x16 1 (live.modFsm 207 fun f => { f with state := .fault, relayOn := true })), 207, 101/100,
     by decide +kernel⟩⟩

theorem witness_LoopRows :
    (∃ (s : State) (c : Nat) (w : Rat) (lim : Rat), c < 208 ∧ armed s c = true ∧ isL c = false ∧ (s.chan c).loop.cycOld = none ∧
      (s.chan c).loop.marginDue = [] ∧ w = windowNow (s.chan c).loop ∧ lim = (s.chan c).loop.mIdxClamp * (s.rail (rcOf c)).vRail ∧
      (s.chan c).loop.reverse = true) ∧
    (∃ (s : State) (c : Nat) (n : Nat) (j : Nat) (w : Rat) (lim : Rat), c < 208 ∧ armed s c = true ∧ isL c = false ∧
      (s.chan c).loop.cycOld = none ∧ (s.chan c).loop.marginDue = [] ∧ w = windowNow (s.chan c).loop ∧
      lim = (s.chan c).loop.mIdxClamp * (s.rail (rcOf c)).vRail ∧ (s.chan c).loop.reverse = false ∧
      ((s.chan c).fsm.state ≠ .idle ∨ (s.chan c).fsm.tauOk = true) ∧ absRat (loopReference s c n j) ≤ lim) ∧
    (∃ (s : State) (c : Nat) (edge : Nat) (early : Nat) (late : Nat) (n : Nat), c < 208 ∧ armed s c = true ∧ cycWord s c 0x12 = 1 ∧
      edge < deadEdges c ∧
      (n = (if late < early then min (ceilingOf s c edge) ((s.chan c).loop.dead.getD edge (ceilingOf s c edge) + 1) else if early < late then max (deadMin c) ((s.chan c).loop.dead.getD edge (ceilingOf s c edge) - 1) else (s.chan c).loop.dead.getD edge (ceilingOf s c edge)))) ∧
    (∃ (s : State) (c : Nat) (ab : Bool) (cyc : Bool) (fell : Bool) (dropped : Bool) (l : Loop), c < 208 ∧ (fell || dropped) = true ∧
      armed s c = true ∧ (s.chan c).fsm.state.switching = true ∧ (s.chan c).fsm.voltageOnly = false ∧
      (l = (if isL c then { (s.chan c).loop with reverse := true, releaseDue := false, highA := !ab } else { (s.chan c).loop with reverse := true, releaseDue := false, highA := !ab, atBound := true, integ := if ab then windowNow (s.chan c).loop else -(windowNow (s.chan c).loop) })) ∧
      cyc = false) ∧
    (∃ (s : State) (c : Nat) (ab : Bool) (cyc : Bool) (con : Bool) (fell : Bool) (dropped : Bool) (l : Loop), c < 208 ∧
      (fell || dropped) = true ∧ armed s c = true ∧ (s.chan c).fsm.state.switching = true ∧ (s.chan c).fsm.voltageOnly = false ∧
      (l = (if isL c then { (s.chan c).loop with reverse := true, releaseDue := false, highA := !ab } else { (s.chan c).loop with reverse := true, releaseDue := false, highA := !ab, atBound := true, integ := if ab then windowNow (s.chan c).loop else -(windowNow (s.chan c).loop) })) ∧
      cyc = true ∧ ((if con then (s.chan c).loop.limRun + 1 else 1) < 8)) ∧
    (∃ (s : State) (c : Nat) (ab : Bool) (cyc : Bool) (con : Bool) (fell : Bool) (dropped : Bool) (l : Loop), c < 208 ∧
      (fell || dropped) = true ∧ armed s c = true ∧ (s.chan c).fsm.state.switching = true ∧ (s.chan c).fsm.voltageOnly = false ∧
      (l = (if isL c then { (s.chan c).loop with reverse := true, releaseDue := false, highA := !ab } else { (s.chan c).loop with reverse := true, releaseDue := false, highA := !ab, atBound := true, integ := if ab then windowNow (s.chan c).loop else -(windowNow (s.chan c).loop) })) ∧
      cyc = true ∧ con = true ∧ 7 ≤ (s.chan c).loop.limRun) ∧
    (∃ (s : State) (c : Nat), c < 208 ∧ armed s c = true ∧ (s.chan c).fsm.voltageOnly = false ∧ isL c = false) ∧
    (∃ (s : State) (c : Nat), c < 208 ∧ armed s c = true ∧ isL c = false ∧ (s.chan c).fsm.state.switching = true) ∧
    (∃ (s : State) (c : Nat) (d : Nat), c < 208 ∧ d < 4 ∧ (s.dsd d).released = true) :=
  ⟨⟨(par 0x10 191 0 1 (live.modFsm 191 fun f => { f with state := .run, bridge := .switching })).modLoop 191 fun l => { l with reverse := true }, 191, 0, 0,
     by decide +kernel⟩,
   ⟨(par 0x10 191 0 1 (live.modFsm 191 fun f => { f with state := .run, bridge := .switching })).modLoop 191 fun l => { l with mIdxClamp := 1/2 }, 191, 0, 127, 0, 0,
     by decide +kernel⟩,
   ⟨par 0x10 207 0x12 1 (par 0x10 207 0 1 (live.modFsm 207 fun f => { f with state := .run, bridge := .switching })), 207, 11, 1, 1, ceilingOf (par 0x10 207 0x12 1 (par 0x10 207 0 1 (live.modFsm 207 fun f => { f with state := .run, bridge := .switching }))) 207 11,
     by decide +kernel⟩,
   ⟨par 0x10 207 0 1 (live.modFsm 207 fun f => { f with state := .run, bridge := .switching }), 207, true, false, true, false, { ((par 0x10 207 0 1 (live.modFsm 207 fun f => { f with state := .run, bridge := .switching })).chan 207).loop with reverse := true, releaseDue := false, highA := false },
     by decide +kernel⟩,
   ⟨par 0x10 207 0 1 (live.modFsm 207 fun f => { f with state := .run, bridge := .switching }), 207, true, true, false, false, true, { ((par 0x10 207 0 1 (live.modFsm 207 fun f => { f with state := .run, bridge := .switching })).chan 207).loop with reverse := true, releaseDue := false, highA := false },
     by decide +kernel⟩,
   ⟨(par 0x10 207 0 1 (live.modFsm 207 fun f => { f with state := .run, bridge := .switching })).modLoop 207 fun l => { l with limRun := 7 }, 207, true, true, true, true, true, { (((par 0x10 207 0 1 (live.modFsm 207 fun f => { f with state := .run, bridge := .switching })).modLoop 207 fun l => { l with limRun := 7 }).chan 207).loop with reverse := true, releaseDue := false, highA := false },
     by decide +kernel⟩,
   ⟨par 0x10 191 0 1 (live.modFsm 191 fun f => { f with state := .run, bridge := .switching }), 191, by decide +kernel⟩,
   ⟨par 0x10 191 0 1 (live.modFsm 191 fun f => { f with state := .run, bridge := .switching }), 191, by decide +kernel⟩,
   ⟨live, 207, 3, by decide +kernel⟩⟩

theorem witness_MuteAndZoneRows :
    (∃ (s : State) (c : Nat), s.media.locked = true ∧ muteLine s = true ∧ (s.misc.muteState = 0 ∨ s.misc.muteState = 3) ∧ c < 208) ∧
    (∃ (s : State), s.misc.muteState = 1 ∧ (∀ c, c < 208 → s.enabled c = true → (s.chan c).dsp.e.now = 0)) ∧
    (∃ (s : State) (c : Nat), s.media.locked = true ∧ muteLine s = false ∧ (s.misc.muteState = 1 ∨ s.misc.muteState = 2) ∧ c < 208 ∧
      (s.chan c).fsm.state = .muted ∧ (s.chan c).fsm.stop = .none ∧ s.flag 0x10 c 3 = false ∧ muteOf s c = false) ∧
    (∃ (s : State) (c : Nat), s.media.locked = true ∧ muteLine s = false ∧ (s.misc.muteState = 1 ∨ s.misc.muteState = 2) ∧ c < 208 ∧
      (s.chan c).fsm.state ≠ .muted) ∧
    (∃ (s : State) (d : Nat) (ohm : Rat), d < 4 ∧ (s.dsd d).released = true ∧ (s.dsd d).ntcWas ≠ 1 ∧ (s.dsd d).ntcBad = 1 ∧
      100 ≤ (s.dsd d).ntcMs ∧ 1000000 < ohm) ∧
    (∃ (s : State) (d : Nat) (ohm : Rat), d < 4 ∧ (s.dsd d).released = true ∧ (s.dsd d).ntcWas ≠ 2 ∧ (s.dsd d).ntcBad = 2 ∧
      100 ≤ (s.dsd d).ntcMs ∧ ohm < 100) ∧
    (∃ (s : State) (d : Nat), d < 4 ∧ (s.dsd d).released = true ∧ (s.dsd d).onDie = true ∧ (s.dsd d).ntcBad = 0 ∧ 10000 ≤ (s.dsd d).ntcMs) ∧
    (∃ (s : State) (d : Nat) (c : Nat), d < 4 ∧ (s.dsd d).released = true ∧ 100 ≤ (s.dsd d).hotMs ∧ c < 208 ∧ dsdOf c = d ∧
      (s.chan c).fsm.bridge = .switching ∧ (s.chan c).fsm.state.switching = true) ∧
    (∃ (s : State) (d : Nat) (c : Nat), d < 4 ∧ (s.dsd d).released = true ∧ 100 ≤ (s.dsd d).hotMs ∧ c < 208 ∧
      (dsdOf c ≠ d ∨ (s.chan c).fsm.bridge ≠ .switching)) :=
  ⟨⟨{ live with spi.mutePin := true }, 207, by decide +kernel⟩,
   ⟨{ live with misc.muteState := 1 }, by decide +kernel⟩,
   ⟨{ inState 207 .muted live with misc.muteState := 2 }, 207, by decide +kernel⟩,
   ⟨{ live with misc.muteState := 1 }, 207, by decide +kernel⟩,
   ⟨live.modDsd 3 fun d => { d with ntcBad := 1, ntcMs := 100 }, 3, 1000001, by decide +kernel⟩,
   ⟨live.modDsd 3 fun d => { d with ntcBad := 2, ntcMs := 100 }, 3, 99, by decide +kernel⟩,
   ⟨live.modDsd 3 fun d => { d with onDie := true, ntcMs := 10000 }, 3, by decide +kernel⟩,
   ⟨(par 0x10 207 0 1 (live.modFsm 207 fun f => { f with state := .run, bridge := .switching })).modDsd 3 fun d => { d with hotMs := 100 }, 3, 207,
     by decide +kernel⟩,
   ⟨live.modDsd 3 fun d => { d with hotMs := 100 }, 3, 0, by decide +kernel⟩⟩

theorem witness_TripAndPwmRows :
    (∃ (s : State) (i : Nat) (n : Nat), n < tripFilter s.pwm i - 1) ∧
    (∃ (s : State) (i : Nat) (n : Nat) (c : Nat), i < 4 ∧ s.media.locked = true ∧ s.pwm.asserted.getLsbD i = false ∧
      s.pwm.latch.getLsbD i = false ∧ tripFilter s.pwm i + 1 ≤ n ∧ c < 208 ∧ s.enabled c = true ∧
      tripMap s.pwm i / 2 ^ rcOf c % 2 = 1 ∧ (s.chan c).fsm.state ≠ .off ∧ (s.chan c).fsm.state ≠ .fault ∧
      (s.chan c).fsm.state ≠ .retest) ∧
    (∃ (s : State) (i : Nat) (n : Nat) (c : Nat), i < 4 ∧ s.media.locked = true ∧ s.pwm.asserted.getLsbD i = false ∧
      s.pwm.latch.getLsbD i = false ∧ tripFilter s.pwm i + 1 ≤ n ∧ c < 208 ∧
      (s.enabled c = false ∨ tripMap s.pwm i / 2 ^ rcOf c % 2 ≠ 1)) ∧
    (∃ (s : State) (i : Nat), i < 4 ∧ s.pwm.asserted.getLsbD i = true) ∧
    (∃ (s : State) (c : Nat), s.media.locked = true ∧ c < 208 ∧
      (c < 192 ∨ (s.chan c).fsm.bridge ≠ .switching ∨ ((s.chan c).loop.cycOld = none ∧
      (s.chan c).loop.marginDue = []) ∨ (s.pwm.armed.getLsbD (c - 192) = false ∧
      ((s.pwmCh (c - 192)).maskDue = false ∨ s.keeper.halted = true)))) ∧
    (∃ (s : State) (c : Nat), s.media.locked = true ∧ c < 208 ∧ 192 ≤ c ∧ (s.chan c).fsm.bridge = .switching ∧
      s.pwm.armed.getLsbD (c - 192) = true ∧ (s.chan c).loop.cycFrom ≤ s.media.index) ∧
    (∃ (s : State) (k : Nat), s.media.locked = true ∧ k < 16 ∧ (s.pwmCh k).maskDue = true ∧ s.keeper.halted = false ∧
      (fed s k = true ∨ (s.chan (192 + k)).fsm.state = .precharge)) ∧
    (∃ (s : State) (k : Nat), s.media.locked = true ∧ k < 16 ∧ ((s.pwmCh k).maskDue = false ∨ s.keeper.halted = true) ∧
      s.pwm.armed.getLsbD k = true) ∧
    (∃ (s : State) (k : Nat), s.media.locked = true ∧ k < 16 ∧ ((s.pwmCh k).maskDue = false ∨ s.keeper.halted = true) ∧
      s.pwm.armed.getLsbD k = false) ∧
    (∃ (s : State), s.media.locked = true ∧ s.pwm.periodPend = true ∧ (¬ (s.pwm.periodHeld = true ∧ lBusy s = true)) ∧
      786 ≤ s.pwm.periodSh.toNat % 0x10000 ∧ s.pwm.periodSh.toNat % 0x10000 ≤ 1966) ∧
    (∃ (s : State), s.media.locked = true ∧ (s.pwm.periodPend = false ∨ (s.pwm.periodHeld = true ∧ lBusy s = true))) ∧
    (∃ (s : State) (k : Nat) (j : Nat), k < 16 ∧ s.media.locked = true ∧ fed s k = true ∧ 6 ≤ (s.pwmCh k).sh.length ∧ j ≠ k) ∧
    (∃ (s : State) (c : Nat), 192 ≤ c ∧ c < 208 ∧ fed s (c - 192) = true ∧ (s.chan c).fsm.feedStarved = false) ∧
    (∃ (s : State) (c : Nat), 192 ≤ c ∧ c < 208 ∧ fed s (c - 192) = true ∧ (s.chan c).fsm.feedStarved = true) :=
  ⟨⟨live, 3, 6, by decide +kernel⟩,
   ⟨par 0x10 207 0 1 (live.modFsm 207 fun f => { f with state := .run, bridge := .switching }), 3, 9, 207, by decide +kernel⟩,
   ⟨live, 3, 9, 207, by decide +kernel⟩,
   ⟨{ live with pwm.asserted := 8 }, 3, by decide +kernel⟩,
   ⟨par 0x10 207 0 1 (live.modFsm 207 fun f => { f with state := .run, bridge := .switching }), 207, by decide +kernel⟩,
   ⟨{ par 0x10 207 0 1 (live.modFsm 207 fun f => { f with state := .run, bridge := .switching }) with pwm.armed := 0x8000 }, 207,
     by decide +kernel⟩,
   ⟨(par 0x10 207 0 1 (live.modFsm 207 fun f => { f with state := .run, bridge := .switching })).modPwmCh 15 fun q => { q with maskDue := true }, 15,
     by decide +kernel⟩,
   ⟨{ live with pwm.armed := 0x8000 }, 15, by decide +kernel⟩,
   ⟨live, 15, by decide +kernel⟩,
   ⟨{ live with pwm := { live.pwm with periodSh := word 1966, periodPend := true } }, by decide +kernel⟩,
   ⟨live, by decide +kernel⟩,
   ⟨par 0x10 207 0 1 (live.modFsm 207 fun f => { f with state := .run, bridge := .switching }), 15, 14, by decide +kernel⟩,
   ⟨par 0x10 207 0 1 (live.modFsm 207 fun f => { f with state := .run, bridge := .switching }), 207, by decide +kernel⟩,
   ⟨par 0x10 207 0 1 (live.modFsm 207 fun f => { f with state := .run, feedStarved := true }), 207, by decide +kernel⟩⟩

theorem witness_SamplerAndCellRows :
    (∃ (s : State) (k : Nat) (j : Nat) (m : Nat), k < 16 ∧ j < 4 ∧ s.media.locked = true ∧ trigOf (s.pwmCh k).act j < s.pwm.period ∧ m ≠ k) ∧
    (∃ (s : State) (k : Nat) (j : Nat), k < 16 ∧ j < 4 ∧ s.media.locked = true ∧ trigOf (s.pwmCh k).act j < s.pwm.period ∧ (j = 0 ∨ j = 1)) ∧
    (∃ (s : State) (k : Nat) (j : Nat), k < 16 ∧ j < 4 ∧ s.media.locked = true ∧ trigOf (s.pwmCh k).act j < s.pwm.period ∧ j = 2) ∧
    (∃ (s : State) (k : Nat) (j : Nat), k < 16 ∧ j < 4 ∧ s.media.locked = true ∧ trigOf (s.pwmCh k).act j < s.pwm.period ∧ j = 3) ∧
    (∃ (s : State) (c : Nat) (conducts : Nat) (openCaps : Nat) (drops : List Rat) (slopes : List Rat) (n : Nat), conducts = conducting drops ∧
      openCaps = openOnes (s.rail (rcOf c)).vRail slopes ∧ 192 ≤ c ∧ c < 208 ∧ (s.chan c).fsm.state = .diag ∧
      (s.chan c).fsm.diagStep = 1 ∧ (s.chan c).fsm.calDone = true ∧ (s.chan c).share.joinReq = false ∧ railUp s c = true ∧
      badSwitch conducts = some n) ∧
    (∃ (s : State) (c : Nat) (conducts : Nat) (openCaps : Nat) (drops : List Rat) (slopes : List Rat), conducts = conducting drops ∧
      openCaps = openOnes (s.rail (rcOf c)).vRail slopes ∧ 192 ≤ c ∧ c < 208 ∧ (s.chan c).fsm.state = .diag ∧
      (s.chan c).fsm.diagStep = 1 ∧ (s.chan c).fsm.calDone = true ∧ (s.chan c).share.joinReq = false ∧ railUp s c = true ∧
      badSwitch conducts = none ∧ openCaps = 0) ∧
    (∃ (s : State) (c : Nat) (conducts : Nat) (openCaps : Nat) (drops : List Rat) (slopes : List Rat), conducts = conducting drops ∧
      openCaps = openOnes (s.rail (rcOf c)).vRail slopes ∧ 192 ≤ c ∧ c < 208 ∧ (s.chan c).fsm.state = .diag ∧
      (s.chan c).fsm.diagStep = 1 ∧ (s.chan c).fsm.calDone = true ∧ (s.chan c).share.joinReq = false ∧ railUp s c = true ∧
      badSwitch conducts = none ∧ openCaps ≠ 0 ∧ (∃ row, fallbackRow? s.cfg.active (rcOf c) = some row)) ∧
    (∃ (s : State) (c : Nat) (conducts : Nat) (openCaps : Nat) (drops : List Rat) (slopes : List Rat), conducts = conducting drops ∧
      openCaps = openOnes (s.rail (rcOf c)).vRail slopes ∧ 192 ≤ c ∧ c < 208 ∧ (s.chan c).fsm.state = .diag ∧
      (s.chan c).fsm.diagStep = 1 ∧ (s.chan c).fsm.calDone = true ∧ (s.chan c).share.joinReq = false ∧ railUp s c = true ∧
      badSwitch conducts = none ∧ openCaps ≠ 0 ∧ fallbackRow? s.cfg.active (rcOf c) = none) ∧
    (∃ (s : State) (c : Nat) (n : Nat) (drops : List Rat), 192 ≤ c ∧ c < 208 ∧ (s.chan c).fsm.state = .fault ∧
      (s.chan c).fsm.diagStep = 1 ∧ railUp s c = true ∧ badSwitch (conducting drops) = some n) ∧
    (∃ (s : State) (c : Nat) (drops : List Rat) (slopes : List Rat), 192 ≤ c ∧ c < 208 ∧ (s.chan c).fsm.state = .fault ∧
      (s.chan c).fsm.diagStep = 1 ∧ railUp s c = true ∧ badSwitch (conducting drops) = none ∧
      openOnes (s.rail (rcOf c)).vRail slopes = 0) ∧
    (∃ (s : State) (c : Nat) (drops : List Rat) (slopes : List Rat), 192 ≤ c ∧ c < 208 ∧ (s.chan c).fsm.state = .fault ∧
      (s.chan c).fsm.diagStep = 1 ∧ railUp s c = true ∧ badSwitch (conducting drops) = none ∧
      openOnes (s.rail (rcOf c)).vRail slopes ≠ 0 ∧ (∃ row, fallbackRow? s.cfg.active (rcOf c) = some row) ∧
      retestable (s.chan c).fsm.code = true) :=
  ⟨⟨live.modPwmCh 15 fun q => { q with act := List.replicate 15 0 }, 15, 3, 14, by decide +kernel⟩,
   ⟨live.modPwmCh 15 fun q => { q with act := List.replicate 15 0 }, 15, 1, by decide +kernel⟩,
   ⟨live.modPwmCh 15 fun q => { q with act := List.replicate 15 0 }, 15, 2, by decide +kernel⟩,
   ⟨live.modPwmCh 15 fun q => { q with act := List.replicate 15 0 }, 15, 3, by decide +kernel⟩,
   ⟨live.modFsm 207 fun f => { f with state := .diag, diagStep := 1, calDone := true }, 207, 0x7FF, 0, List.replicate 11 0 ++ [1], List.replicate 4 0, 12,
     by decide +kernel⟩,
   ⟨live.modFsm 207 fun f => { f with state := .diag, diagStep := 1, calDone := true }, 207, 0xFFF, 0, List.replicate 12 0, List.replicate 4 0,
     by decide +kernel⟩,
   ⟨(live.modFsm 207 fun f => { f with state := .diag, diagStep := 1, calDone := true }).modRail 11 fun q => { q with vRail := 30 }, 207, 0xFFF, 15, List.replicate 12 0, List.replicate 4 1, by refine ⟨?_, ?_, ?_, ?_, ?_, ?_, ?_, ?_, ?_, ?_, ?_, ?_⟩ <;> first | decide +kernel | (refine ⟨3, ?_⟩; decide +kernel)⟩,
   ⟨(flatRail (live.modFsm 207 fun f => { f with state := .diag, diagStep := 1, calDone := true })).modRail 11 fun q => { q with vRail := 30 }, 207, 0xFFF, 1, List.replicate 12 0, [1, 0, 0, 0],
     by decide +kernel⟩,
   ⟨live.modFsm 207 fun f => { f with state := .fault, diagStep := 1 }, 207, 1, [1], by decide +kernel⟩,
   ⟨live.modFsm 207 fun f => { f with state := .fault, diagStep := 1, code := 0x6010 }, 207, List.replicate 12 0, List.replicate 4 0,
     by decide +kernel⟩,
   ⟨(live.modFsm 207 fun f => { f with state := .fault, diagStep := 1, code := 0x6010 }).modRail 11 fun q => { q with vRail := 30 }, 207, List.replicate 12 0, List.replicate 4 1, by refine ⟨?_, ?_, ?_, ?_, ?_, ?_, ?_, ?_, ?_⟩ <;> first | decide +kernel | (refine ⟨3, ?_⟩; decide +kernel)⟩⟩

theorem witness_MediaClockRows :
    (∃ (s : State), s.media.locked = true ∧ s.ptp.state ≠ .disabled) ∧
    (∃ (s : State), s.media.locked = true ∧ s.media.state = .free ∧ s.media.source = 0) ∧
    (∃ (s : State), s.media.locked = true ∧ s.media.state = .holdover) ∧
    (∃ (s : State) (e : Rat), s.media.locked = true ∧ (s.media.state = .acquire ∨ s.media.state = .track) ∧ loopError? s = some e ∧
      0 ≤ s.ratv 0x06 0 2) ∧
    (∃ (s : State), s.media.state = .holdover ∧ s.nat 0x06 0 1 ≠ 0 ∧ s.media.alarmed = false ∧ s.nat 0x06 0 1 * second ≤ s.media.holdoverUs) ∧
    (∃ (s : State), second ≤ s.media.clampUs ∧ s.media.clampRaised = false) ∧
    (∃ (s : State), s.media.locked = true ∧ s.media.stepDue = true ∧ (s.media.state = .acquire ∨ s.media.state = .track)) ∧
    (∃ (s : State) (b0 : Nat) (c : Nat), s.media.stepB0 = some b0 ∧ s.media.state = .step ∧ s.media.halted = false ∧ b0 + 132 ≤ winK s ∧
      c < 208) ∧
    (∃ (s : State), s.media.state = .step ∧ s.media.halted = true) :=
  ⟨⟨{ live with ptp.state := .listening }, by decide +kernel⟩,
   ⟨{ live with media := { live.media with state := .free } }, by decide +kernel⟩,
   ⟨{ live with media := { live.media with state := .holdover } }, by decide +kernel⟩,
   ⟨{ live with media := { live.media with source := 2, errSum := 3, errN := 2, state := .track } }, 3/2, by decide +kernel⟩,
   ⟨par 6 0 1 1 ({ live with media := { live.media with state := .holdover, holdoverUs := 1000000 } }), by decide +kernel⟩,
   ⟨{ live with media := { live.media with clampUs := 1000000 } }, by decide +kernel⟩,
   ⟨{ live with media := { live.media with stepDue := true, state := .track } }, by decide +kernel⟩,
   ⟨{ live with media := { live.media with state := .step, stepB0 := some 869 } }, 869, 207, by decide +kernel⟩,
   ⟨{ live with media := { live.media with state := .step, halted := true } }, by decide +kernel⟩⟩

theorem witness_TdmRows :
    (∃ (s : State) (x : Nat) (w : List TdmBit) (p : Nat) (mine : List Int), x < 4 ∧ s.media.locked = true ∧ s.cfg.active.tdmOn x = true ∧
      s.cfg.active.tdmSamples? x w = some mine ∧ s.cfg.active.tdmOnTime x p (s.tdm x) = true ∧ (s.tdm x).judge = none ∧
      (s.tdm x).base = none ∧ (s.tdm x).stable < 64) ∧
    (∃ (s : State) (x : Nat) (w : List TdmBit) (p : Nat) (mine : List Int), x < 4 ∧ s.media.locked = true ∧ s.cfg.active.tdmOn x = true ∧
      s.cfg.active.tdmSamples? x w = some mine ∧ s.cfg.active.tdmOnTime x p (s.tdm x) = false ∧ (s.tdm x).judge = none ∧
      (s.tdm x).base = none ∧ (s.tdm x).stable < 64 ∧ (s.tdm x).errs < 2) ∧
    (∃ (s : State) (x : Nat) (w : List TdmBit) (p : Nat) (mine : List Int), x < 4 ∧ s.media.locked = true ∧ s.cfg.active.tdmOn x = true ∧
      s.cfg.active.tdmSamples? x w = some mine ∧ s.cfg.active.tdmOnTime x p (s.tdm x) = true ∧ s.media.state ≠ .step ∧
      (s.tdm x).judge = none ∧ (s.tdm x).base = none ∧ 64 ≤ (s.tdm x).stable ∧ (s.tdm x).state = .waiting) ∧
    (∃ (s : State) (x : Nat) (w : List TdmBit) (p : Nat) (tick : Nat) (a : Nat) (mine : List Int), x < 4 ∧ s.media.locked = true ∧
      s.cfg.active.tdmOn x = true ∧ s.cfg.active.tdmSamples? x w = some mine ∧ s.cfg.active.tdmOnTime x p (s.tdm x) = true ∧
      s.media.state ≠ .step ∧ (s.tdm x).judge = none ∧ (s.tdm x).base = some a ∧ tdmFull s (s.tdm x) tick = false ∧
      absRat (((a + s.cfg.active.tdmStep x * (s.tdm x).frame) * 512 : Nat) - (tick : Rat)) ≤ 2048) ∧
    (∃ (s : State) (x : Nat), x < 4 ∧ s.media.locked = true ∧ s.cfg.active.tdmOn x = true ∧ (s.tdm x).alive = true ∧
      (s.tdm x).lastTick + 512 * (4 * s.cfg.active.tdmStep x) ≤ 512 * (s.media.index + 8) ∧
      ((s.tdm x).state = .playing ∨ (s.tdm x).state = .ramping)) ∧
    (∃ (s : State) (x : Nat), x < 4 ∧ s.media.locked = true ∧ s.cfg.active.tdmOn x = true ∧ (s.tdm x).alive = true ∧
      (s.tdm x).lastTick + 512 * (4 * s.cfg.active.tdmStep x) ≤ 512 * (s.media.index + 8) ∧ (s.tdm x).state = .rateMismatch) ∧
    (∃ (s : State) (x : Nat) (hz : Rat), x < 4 ∧ s.media.locked = true ∧ s.cfg.active.tdmOn x = true ∧ 64 ≤ (s.tdm x).winLen ∧
      absRat (hz - (s.nat 0x05 x 1 : Rat)) ≤ (s.nat 0x05 x 1 : Rat) / 1000 ∧ ((s.tdm x).judge = none ∨ (s.tdm x).errs < 3 ∧
      absRat (s.tdm x).err ≤ 2048)) ∧
    (∃ (s : State) (x : Nat) (hz : Rat) (tick : Nat) (placed : Bool), x < 4 ∧ s.media.locked = true ∧ s.cfg.active.tdmOn x = true ∧
      64 ≤ (s.tdm x).winLen ∧ absRat (hz - (s.nat 0x05 x 1 : Rat)) ≤ (s.nat 0x05 x 1 : Rat) / 1000 ∧
      (s.tdm x).judge = some (tick, placed) ∧ 3 ≤ (s.tdm x).errs ∧ ((s.tdm x).state = .playing ∨ (s.tdm x).state = .ramping)) ∧
    (∃ (s : State) (x : Nat) (hz : Rat), x < 4 ∧ s.media.locked = true ∧ s.cfg.active.tdmOn x = true ∧ 64 ≤ (s.tdm x).winLen ∧
      (s.nat 0x05 x 1 : Rat) / 1000 < absRat (hz - (s.nat 0x05 x 1 : Rat))) :=
  ⟨⟨par 5 3 0 0x8000 (live.modTdm 3 fun t => { t with stable := 63 }), 3, wave0, 64, [0, 0], by decide +kernel⟩,
   ⟨par 5 3 0 0x8000 (live.modTdm 3 fun t => { t with stable := 63, errs := 1, alive := true }), 3, wave0, 66, [0, 0], by decide +kernel⟩,
   ⟨par 5 3 0 0x8000 (live.modTdm 3 fun t => { t with stable := 64, state := .waiting }), 3, wave0, 64, [0, 0], by decide +kernel⟩,
   ⟨par 5 3 0 0x8000 (live.modTdm 3 fun t => { t with base := some 8 }), 3, wave0, 64, 2048, 8, [0, 0], by decide +kernel⟩,
   ⟨par 5 3 0 0x8000 (live.modTdm 3 fun t => { t with alive := true, state := .playing }), 3, by decide +kernel⟩,
   ⟨par 5 3 0 0x8000 (live.modTdm 3 fun t => { t with alive := true, state := .rateMismatch }), 3, by decide +kernel⟩,
   ⟨par 5 3 0 0x8000 (live.modTdm 3 fun t => { t with winLen := 64 }), 3, 48048, by decide +kernel⟩,
   ⟨par 5 3 0 0x8000 (live.modTdm 3 fun t => { t with winLen := 64, judge := some (0, true), errs := 3, state := .playing }), 3, 48048, 0, true,
     by decide +kernel⟩,
   ⟨par 5 3 0 0x8000 (live.modTdm 3 fun t => { t with winLen := 64 }), 3, 48049, by decide +kernel⟩⟩

theorem witness_StreamRows :
    (∃ (s : State) (port : Nat) (e : List Byte) (u : List Byte) (tick : Nat) (rest : List (List Byte × Nat)), port < 2 ∧
      (s.port port).audio = (e, tick) :: rest ∧ u = e.drop 6 ∧ streamOf s port (beAt e 0 4) (beAt e 4 2) = none) ∧
    (∃ (s : State) (port : Nat) (e : List Byte) (u : List Byte) (tick : Nat) (rest : List (List Byte × Nat)) (st : Nat), port < 2 ∧
      (s.port port).audio = (e, tick) :: rest ∧ u = e.drop 6 ∧ st < 32 ∧ streamOf s port (beAt e 0 4) (beAt e 4 2) = some st ∧
      otherFirst s port st tick = true) ∧
    (∃ (s : State) (port : Nat) (e : List Byte) (u : List Byte) (tick : Nat) (rest : List (List Byte × Nat)) (st : Nat), port < 2 ∧
      (s.port port).audio = (e, tick) :: rest ∧ u = e.drop 6 ∧ st < 32 ∧ streamOf s port (beAt e 0 4) (beAt e 4 2) = some st ∧
      otherFirst s port st tick = false ∧ rtpOk s.cfg.active st u = false) ∧
    (∃ (s : State) (port : Nat) (e : List Byte) (u : List Byte) (tick : Nat) (rest : List (List Byte × Nat)) (st : Nat), port < 2 ∧
      (s.port port).audio = (e, tick) :: rest ∧ u = e.drop 6 ∧ st < 32 ∧ streamOf s port (beAt e 0 4) (beAt e 4 2) = some st ∧
      otherFirst s port st tick = false ∧ rtpOk s.cfg.active st u = true ∧ SMap.wf 0 s.counters = true) ∧
    (∃ (s : State) (st : Nat) (n : Nat), st < 32 ∧ s.media.locked = true ∧ s.cfg.active.streamOn st = true ∧
      (s.stream st).state.plays = true ∧ firstMissing s st = some n) ∧
    (∃ (s : State) (st : Nat), st < 32 ∧ s.cfg.active.streamOn st = true ∧
      ((s.stream st).state = .waiting ∨ (s.stream st).state = .faded) ∧ 8 ≤ (s.stream st).good) ∧
    (∃ (s : State) (st : Nat) (x : Nat), st < 32 ∧ s.cfg.active.streamOn st = true ∧ (s.stream st).state.plays = true ∧
      (s.stream st).arrival = true ∧ (s.stream st).overrun = some x) ∧
    (∃ (s : State) (st : Nat), st < 32 ∧ s.cfg.active.streamOn st = true ∧ 1000 < skewNow s (s.stream st) ∧
      (s.stream st).skewRaised = false) ∧
    (∃ (s : State) (st : Nat) (side : Nat) (rec : Bool), st < 32 ∧ s.cfg.active.streamOn st = true ∧ s.cfg.active.streamSides st = 3 ∧
      ((if side = 0 then (s.stream st).lostA else (s.stream st).lostB) = rec) ∧
      (rec = false → (s.stream st).lastOn.getD side 0 + secondTicks ≤ nowTick s ∧
      nowTick s < (s.stream st).lastOn.getD (1 - side) 0 + secondTicks) ∧
      (rec = true → nowTick s < (s.stream st).lastOn.getD side 0 + secondTicks ∧
      (s.stream st).since.getD side 0 + secondTicks ≤ nowTick s)) :=
  ⟨⟨live.modPort 1 fun q => { q with audio := [([1], 0)] }, 1, [1], [], 0, [], by decide +kernel⟩,
   ⟨(par 3 31 1 0xEF010203 (par 3 31 0 0xE301 (par 3 31 2 0xEF010203 ((live.modPort 1 fun q => { q with audio := [([239, 1, 2, 3, 0x13, 0x8C] ++ zeros 12, 5)] }).modPort 0 fun q => { q with audio := [([239, 1, 2, 3, 0x13, 0x8C] ++ zeros 12, 5)] })))), 1, [239, 1, 2, 3, 0x13, 0x8C] ++ zeros 12, zeros 12, 5, [], 31,
     by decide +kernel⟩,
   ⟨(par 3 31 0 0xE301 (par 3 31 2 0xEF010203 (live.modPort 1 fun q => { q with audio := [([239, 1, 2, 3, 0x13, 0x8C] ++ zeros 12, 0)] }))).modStream 31 fun t => t, 1, [239, 1, 2, 3, 0x13, 0x8C] ++ zeros 12, zeros 12, 0, [], 31,
     by decide +kernel⟩,
   ⟨(par 3 31 0 0xE301 (par 3 31 2 0xEF010203 (live.modPort 1 fun q => { q with audio := [([239, 1, 2, 3, 0x13, 0x8C] ++ rtp0, 0)] }))).modStream 31 fun t => t, 1, [239, 1, 2, 3, 0x13, 0x8C] ++ rtp0, rtp0, 0, [], 31,
     by decide +kernel⟩,
   ⟨(par 3 31 0 0xE301 live).modStream 31 fun t => { t with state := .playing }, 31, winBase live, by decide +kernel⟩,
   ⟨(par 3 31 0 0xE301 live).modStream 31 fun t => { t with state := .waiting, good := 8 }, 31, by decide +kernel⟩,
   ⟨(par 3 31 0 0xE301 live).modStream 31 fun t => { t with state := .playing, overrun := some 1 }, 31, 1, by decide +kernel⟩,
   ⟨(par 3 31 0 0xE301 live).modStream 31 fun t => { t with skews := [(4096000, 1001)] }, 31, by decide +kernel⟩,
   ⟨{ (par 3 31 0 0xE301 live).modStream 31 fun t => { t with lastOn := [1, 0] } with media := { live.media with index := 96000 } }, 31, 1, false,
     by decide +kernel⟩⟩

theorem witness_PortRows :
    (∃ (s : State) (p : Nat) (ok : Bool), p < 2 ∧ s.cfg.active.portOn p = true ∧ (s.port p).up = true ∧ ok = false) ∧
    (∃ (s : State) (p : Nat) (f : List Byte) (ok : Bool), p < 2 ∧ s.cfg.active.portOn p = true ∧ (s.port p).up = true ∧ ok = true ∧
      (f.length < 64 ∨ 2500 < f.length)) ∧
    (∃ (s : State) (p : Nat) (f : List Byte) (ok : Bool), p < 2 ∧ s.cfg.active.portOn p = true ∧ (s.port p).up = true ∧ ok = true ∧
      64 ≤ f.length ∧ f.length ≤ 2500 ∧ addressed s p f = false) ∧
    (∃ (s : State) (p : Nat) (f : List Byte) (ok : Bool), p < 2 ∧ s.cfg.active.portOn p = true ∧ (s.port p).up = true ∧ ok = true ∧
      64 ≤ f.length ∧ f.length ≤ 2500 ∧ addressed s p f = true ∧ vlanOf f = none ∧ beAt f 12 2 = 0x0806 ∧
      keepRoom (s.port p) f.length = true) ∧
    (∃ (s : State) (p : Nat) (f : List Byte) (ok : Bool) (st : Nat) (e : List Byte), p < 2 ∧ s.cfg.active.portOn p = true ∧
      (s.port p).up = true ∧ ok = true ∧ 64 ≤ f.length ∧ f.length ≤ 2500 ∧ addressed s p f = true ∧ streamEntry? s p f = some (st, e) ∧
      (s.inj (2 * st + p)).heldPkt = none ∧ (s.inj (2 * st + p)).action = 0 ∧ audioRoom (s.port p) (e.length - 6) = true) ∧
    (∃ (s : State) (p : Nat), p < 2 ∧ s.cfg.active.portOn p = true ∧ (s.port p).present = true ∧ (s.port p).up = false) ∧
    (∃ (s : State) (p : Nat), p < 2 ∧ (s.port p).present = false) ∧
    (∃ (s : State) (mbps : Nat), firmwareRuns s = true ∧ (mbps = 1000 ∨ mbps = 100)) ∧
    (∃ (s : State), (s.port 2).up = true) ∧
    (∃ (s : State) (p : Nat), p < 3 ∧ (s.port p).up = true ∧ s.keeper.halted = false ∧ (s.port p).reportDue ≠ []) ∧
    (∃ (s : State) (p : Nat), p < 2 ∧ (s.port p).up = true ∧ s.keeper.halted = false) ∧
    (∃ (s : State) (p : Nat), p < 2 ∧ (s.port p).up = true ∧ s.keeper.halted = true) :=
  ⟨⟨par 2 0 1 1 (live.modPort 1 fun q => { q with up := true }), 1, false, by decide +kernel⟩,
   ⟨par 2 0 1 1 (live.modPort 1 fun q => { q with up := true }), 1, zeros 63, true, by decide +kernel⟩,
   ⟨par 2 0 1 1 (live.modPort 1 fun q => { q with up := true }), 1, zeros 64, true, by decide +kernel⟩,
   ⟨par 2 0 1 1 (live.modPort 1 fun q => { q with up := true }), 1, List.replicate 6 0xFF ++ zeros 6 ++ [8, 6] ++ zeros 50, true,
     by decide +kernel⟩,
   ⟨par 3 31 0 0xE301 (par 3 31 2 0xEF010203 (par 2 0 1 1 (live.modPort 1 fun q => { q with up := true }))), 1, frame0, true, 31, [239, 1, 2, 3, 0x13, 0x8C] ++ zeros 18,
     by decide +kernel⟩,
   ⟨par 2 0 1 1 live, 1, by decide +kernel⟩,
   ⟨live.modPort 1 fun q => { q with present := false }, 1, by decide +kernel⟩,
   ⟨live, 100, by decide +kernel⟩,
   ⟨live.modPort 2 fun q => { q with up := true }, by decide +kernel⟩,
   ⟨live.modPort 2 fun q => { q with up := true, reportDue := [(1, true)] }, 2, by decide +kernel⟩,
   ⟨live.modPort 1 fun q => { q with up := true }, 1, by decide +kernel⟩,
   ⟨{ live.modPort 1 fun q => { q with up := true } with keeper.halted := true }, 1, by decide +kernel⟩⟩

theorem witness_RingAndMonitorRows :
    (∃ (s : State) (p : Nat) (f : List Byte) (rest : List (List Byte)), p < 2 ∧ (s.port p).keep = f :: rest ∧ s.keeper.halted = false) ∧
    (∃ (s : State) (p : Nat) (f : List Byte) (rest : List (List Byte)) (a : Nat), p < 2 ∧ (s.port p).keep = f :: rest ∧
      Memory.wf s.sram = true ∧ (∀ d ∈ (s.port p).ring, d.1 < 128) ∧ (a < descAddr p 0 ∨ descAddr p 0 + 67584 ≤ a)) ∧
    (∃ (s : State) (f : List Byte) (ok : Bool), (s.port 2).up = true ∧ firmwareRuns s = true ∧ s.keeper.halted = false ∧
      s.keeper.dev ≠ .standby ∧ ok = true ∧ 64 ≤ f.length ∧ f.length ≤ 1522 ∧ nmPasses f = false) ∧
    (∃ (s : State) (f : List Byte) (ok : Bool), (s.port 2).up = true ∧ firmwareRuns s = true ∧ s.keeper.halted = false ∧
      s.keeper.dev ≠ .standby ∧ ok = true ∧ 64 ≤ f.length ∧ f.length ≤ 1522 ∧ nmPasses f = true ∧ (s.port 2).ring = [] ∧
      (s.port 2).ringBytes = [] ∧ (ipProto (etherBody f) ≠ 17 ∨ etherType f ≠ 0x0800)) ∧
    (∃ (s : State) (f : List Byte) (ok : Bool) (a : Nat), (s.port 2).up = true ∧ firmwareRuns s = true ∧ s.keeper.halted = false ∧
      s.keeper.dev ≠ .standby ∧ ok = true ∧ 64 ≤ f.length ∧ f.length ≤ 1522 ∧ nmPasses f = true ∧ (s.port 2).ring = [] ∧
      (s.port 2).ringBytes = [] ∧ Memory.wf s.sram = true ∧ (a < descAddr 2 0 ∨ descAddr 2 0 + 67584 ≤ a)) ∧
    (∃ (s : State) (f : List Byte) (ok : Bool), (s.port 2).up = true ∧ firmwareRuns s = true ∧ s.keeper.halted = false ∧
      s.keeper.dev ≠ .standby ∧ (ok = false ∨ f.length < 64 ∨ 1522 < f.length) ∧ f.length ≤ 65536 ∧ (s.port 2).ring = []) ∧
    (∃ (s : State) (j : Nat) (n : Nat) (i : Nat), j < 8 ∧ s.media.locked = true ∧ s.cfg.active.monOn j = true ∧ (s.mon j).next = some n ∧
      n + 48 ≤ s.media.index ∧ i ≠ j) :=
  ⟨⟨live.modPort 1 fun q => { q with keep := [[1]] }, 1, [1], [], by decide +kernel⟩,
   ⟨live.modPort 1 fun q => { q with keep := [[1]] }, 1, [1], [], descAddr 1 0 + 67584, by refine ⟨?_, ?_, ?_, ?_, ?_⟩ <;> first | exact .inr (Nat.le_refl _) | decide +kernel⟩,
   ⟨live.modPort 2 fun q => { q with up := true }, zeros 64, true, by decide +kernel⟩,
   ⟨live.modPort 2 fun q => { q with up := true }, List.replicate 6 0xFF ++ zeros 6 ++ [8, 6] ++ zeros 50, true, by decide +kernel⟩,
   ⟨live.modPort 2 fun q => { q with up := true }, List.replicate 6 0xFF ++ zeros 6 ++ [8, 6] ++ zeros 50, true, descAddr 2 0 + 67584, by refine ⟨?_, ?_, ?_, ?_, ?_, ?_, ?_, ?_, ?_, ?_, ?_, ?_⟩ <;> first | exact .inr (Nat.le_refl _) | decide +kernel⟩,
   ⟨live.modPort 2 fun q => { q with up := true }, zeros 1523, true, by decide +kernel⟩,
   ⟨(par 4 7 0 0x8000 live).modMon 7 fun m => { m with next := some 7952 }, 7, 7952, 6, by decide +kernel⟩⟩

theorem witness_PtpRows :
    (∃ (s : State) (port : Nat) (a : Announce), s.cfg.active.ptpOn port = true ∧
      (a.domain ≠ s.nat 0x02 0 5 ∨ a.logInterval < -3 ∨ 3 < a.logInterval)) ∧
    (∃ (s : State) (port : Nat) (a : Announce), s.cfg.active.ptpOn port = true ∧ a.domain = s.nat 0x02 0 5 ∧ -3 ≤ a.logInterval ∧
      a.logInterval ≤ 3) ∧
    (∃ (log : Int), (log < -7 ∨ 1 < log)) ∧
    (∃ (s : State) (port : Nat) (δ : Rat) (log : Int), port < 3 ∧ s.cfg.active.ptpOn port = true ∧ s.ptp.state.follows = true ∧
      s.ptp.port = port ∧ s.ptp.gmChanged = false ∧ -7 ≤ log ∧ log ≤ 1 ∧ s.ptp.state = .acquiring ∧ s.ptp.first = true ∧
      10000 < absRat (δ - (s.port port).pathDelay)) ∧
    (∃ (s : State) (port : Nat) (δ : Rat) (log : Int), port < 3 ∧ s.cfg.active.ptpOn port = true ∧ s.ptp.state.follows = true ∧
      s.ptp.port = port ∧ s.ptp.gmChanged = false ∧ -7 ≤ log ∧ log ≤ 1 ∧ s.ptp.state = .acquiring ∧ s.ptp.first = false ∧
      15 ≤ s.ptp.below ∧ absRat (δ - (s.port port).pathDelay) < 1000) ∧
    (∃ (s : State) (port : Nat) (δ : Rat) (log : Int), port < 3 ∧ s.cfg.active.ptpOn port = true ∧ s.ptp.state.follows = true ∧
      s.ptp.port = port ∧ s.ptp.gmChanged = false ∧ -7 ≤ log ∧ log ≤ 1 ∧ s.ptp.state = .locked ∧
      absRat (δ - (s.port port).pathDelay) ≤ 1000) ∧
    (∃ (s : State) (port : Nat) (log : Int), port < 3 ∧ s.cfg.active.ptpOn port = true ∧ s.ptp.state.follows = true ∧ s.ptp.port = port ∧
      s.ptp.gmChanged = true ∧ -7 ≤ log ∧ log ≤ 1) ∧
    (∃ (s : State) (port : Nat), port < 3 ∧ s.cfg.active.ptpOn port = true ∧ (s.port port).up = true) ∧
    (∃ (s : State) (at_ : Nat), announceOut s.ptp at_ = false ∧ syncOut s.ptp at_ = false) ∧
    (∃ (s : State) (at_ : Nat), s.ptp.state.follows = true ∧ (announceOut s.ptp at_ = true ∨ syncOut s.ptp at_ = true) ∧
      bestMaster { s with ptp := { s.ptp with clock := max s.ptp.clock at_, masters := s.ptp.masters.filter fun m => !(m.port == s.ptp.port && gmOf m.announce == s.ptp.gm) } } = none) ∧
    (∃ (s : State) (at_ : Nat) (m : Master), s.ptp.state.follows = true ∧ (announceOut s.ptp at_ = true ∨ syncOut s.ptp at_ = true) ∧
      bestMaster { s with ptp := { s.ptp with clock := max s.ptp.clock at_, masters := s.ptp.masters.filter fun m => !(m.port == s.ptp.port && gmOf m.announce == s.ptp.gm) } } = some m) ∧
    (∃ (s : State), s.ptp.state = .listening ∧ s.ptp.noMaster = false ∧ s.ptp.listenAt + 960000 ≤ s.media.samples) ∧
    (∃ (s : State) (at_ : Nat) (since : Nat), s.ptp.state = .locking ∧ s.ptp.since = some since ∧ since + 2000000000 ≤ at_ ∧
      s.ptp.gmChanged = false) :=
  ⟨⟨par 2 0 1 1 live, 1, ⟨1, 1, 1, 0, 0, 0, 0, 0, 0, 1, 0⟩, by decide +kernel⟩,
   ⟨par 2 0 1 1 live, 1, ⟨1, 1, 1, 0, 0, 0, 0, 0, 0, 0, 0⟩, by decide +kernel⟩,
   ⟨2, by decide +kernel⟩,
   ⟨par 2 0 1 1 { live with ptp := { port := 1, state := .acquiring, first := true } }, 1, 10001, -7, by decide +kernel⟩,
   ⟨par 2 0 1 1 { live with ptp := { port := 1, state := .acquiring, below := 15 } }, 1, 999, 1, by decide +kernel⟩,
   ⟨par 2 0 1 1 { live with ptp := { port := 1, state := .locked } }, 1, 1000, 0, by decide +kernel⟩,
   ⟨par 2 0 1 1 { live with ptp := { port := 1, state := .locked, gmChanged := true } }, 1, 0, by decide +kernel⟩,
   ⟨par 2 0 1 1 (live.modPort 1 fun q => { q with up := true }), 1, by decide +kernel⟩,
   ⟨{ live with ptp := { masters := [⟨1, ⟨1, 1, 1, 0, 0, 0, 0, 0, 0, 0, 0⟩, [0]⟩], gm := gmOf ⟨1, 1, 1, 0, 0, 0, 0, 0, 0, 0, 0⟩, port := 1, state := .locked } }, 0, by refine ⟨?_, ?_⟩ <;> first | decide +kernel | (intro p h; subst h; rfl)⟩,
   ⟨{ live with ptp := { state := .locked } }, 0, by decide +kernel⟩,
   ⟨par 2 0 1 1 { live with ptp := { masters := [⟨1, ⟨1, 2, 1, 0, 0, 0, 0, 0, 0, 0, 0⟩, [5, 0]⟩], port := 0, state := .locked } }, 3000000000, ⟨1, ⟨1, 2, 1, 0, 0, 0, 0, 0, 0, 0, 0⟩, [5, 0]⟩,
     by decide +kernel⟩,
   ⟨{ live with ptp := { state := .listening }, media := { live.media with samples := 960000 } }, by decide +kernel⟩,
   ⟨{ live with ptp := { state := .locking, since := some 5 } }, 2000000005, 5, by decide +kernel⟩⟩

theorem witness_DspWindowRow :
    (∃ (sense : List SensePair) (s : State), s.media.locked = false ∧ sense = []) ∧
    (∃ (sense : List SensePair) (s : State) (p : SensePair), s.media.locked = false ∧ sense = [p] ∧
      (s.misc.senseFifo.filter fun q => q.ch == p.ch).length < 32) ∧
    (∃ (sense : List SensePair) (s : State) (p : SensePair), s.media.locked = false ∧ sense = [p] ∧
      32 ≤ (s.misc.senseFifo.filter fun q => q.ch == p.ch).length) ∧
    (∃ (s : State) (r : Nat), s.media.locked = true ∧ s.media.halted = true ∧ r < 12) ∧
    (∃ (s : State) (c : Nat), s.media.locked = true ∧ s.media.halted = true ∧ c < 208) ∧
    (∃ (s : State), s.media.locked = true ∧ s.media.halted = false ∧ s.cfgShared = false) ∧
    (∃ (s : State) (c : Nat), s.media.locked = true ∧ s.media.halted = false ∧ c < 208) ∧
    (∃ (s : State) (d : Nat), s.media.locked = true ∧ s.media.halted = false ∧ d < 4 ∧ (s.dsd d).released = false) ∧
    (∃ (s : State) (d : Nat), s.media.locked = true ∧ s.media.halted = false ∧ d < 4 ∧ (s.dsd d).released = true) ∧
    (∃ (s : State) (r : Nat), s.media.locked = true ∧ s.media.halted = false ∧ r < 12 ∧ (s.rail r).state ≠ .regulating) ∧
    (∃ (s : State) (r : Nat), s.media.locked = true ∧ s.media.halted = false ∧ r < 12 ∧ (s.rail r).state = .regulating ∧
      freezes s r = false) ∧
    (∃ (s : State) (r : Nat), s.media.locked = true ∧ s.media.halted = false ∧ r < 12 ∧ (s.rail r).state = .regulating ∧ freezes s r = true) :=
  ⟨⟨[], State.reset, by decide +kernel⟩,
   ⟨[⟨207, 0, 0, 0, true⟩], State.reset, ⟨207, 0, 0, 0, true⟩, by decide +kernel⟩,
   ⟨[⟨207, 0, 0, 0, true⟩], { State.reset with misc.senseFifo := List.replicate 32 ⟨207, 0, 0, 0, true⟩ }, ⟨207, 0, 0, 0, true⟩,
     by decide +kernel⟩,
   ⟨{ live with media := { live.media with halted := true } }, 11, by decide +kernel⟩,
   ⟨{ live with media := { live.media with halted := true } }, 207, by decide +kernel⟩,
   ⟨live, by decide +kernel⟩,
   ⟨live, 207, by decide +kernel⟩,
   ⟨{ live with dsds := Vector.replicate 4 {} }, 3, by decide +kernel⟩,
   ⟨live, 3, by decide +kernel⟩,
   ⟨live.modRail 11 fun q => { q with state := .off }, 11, by decide +kernel⟩,
   ⟨live, 11, by decide +kernel⟩,
   ⟨inState 207 .precharge live, 11, by decide +kernel⟩⟩

theorem witness_ModelRows :
    (∃ (s : State) (c : Nat) (p : PilotReading), c < 208 ∧ s.enabled c = true ∧ (s.chan c).fsm.state = .run ∧ 96000 ≤ (s.chan c).win.n ∧
      openLoad s c p = none) ∧
    (∃ (s : State) (c : Nat) (p : PilotReading) (n : Nat), c < 208 ∧ s.enabled c = true ∧ (s.chan c).fsm.state = .run ∧
      96000 ≤ (s.chan c).win.n ∧ openLoad s c p = some n) ∧
    (∃ (s : State) (c : Nat) (p : PilotReading), c < 208 ∧ s.enabled c = true ∧ (s.chan c).fsm.state = .run ∧ 96000 ≤ (s.chan c).win.n ∧
      (s.chan c).model.runs = true ∧ (s.chan c).model.seed ≠ 0 ∧ windowOk s c p = true ∧
      tempOk s c (tempOf s c (pilotRe s c p)) = true ∧ (s.chan c).model.reConv = true ∧ (s.chan c).win.d2 ≤ (s.chan c).win.p2 / 4 ∧
      4 ≤ (s.chan c).model.reWin.length) ∧
    (∃ (s : State) (c : Nat), c < 208 ∧ (s.chan c).model.reConv = true ∧ (s.chan c).model.reAt + 30 * 96000 ≤ s.media.samples + 8) ∧
    (∃ (s : State) (c : Nat), keeperFree s = true ∧ storeWaits s = false ∧ s.keeper.dev = .run ∧ c < 208 ∧
      (s.cfg.active.modelled c = false ∨ (s.chan c).model.runs = false ∨ (s.chan c).model.seed = 0)) ∧
    (∃ (s : State) (c : Nat), keeperFree s = true ∧ storeWaits s = false ∧ s.keeper.dev = .run ∧ c < 208 ∧ s.cfg.active.modelled c = true ∧
      (s.chan c).model.runs = true ∧ (s.chan c).model.seed ≠ 0) ∧
    (∃ (s : State) (c : Nat) (r : ModelRec) (x : Rat), c < 208 ∧ (s.chan c).model.record = some r ∧ (s.chan c).model.runs = true ∧
      (s.chan c).model.hotSeed = true ∧ (s.chan c).model.reConv = false ∧ (s.chan c).model.seed = 3 ∧ s.ptp.state = .locked ∧
      s.keeper.counterUs ≤ (s.chan c).model.reseedUntil ∧ r.ptpNs.isSome = true ∧ elapsed? s r = some x ∧
      (decayed s c r x).1 < (s.chan c).model.tv) ∧
    (∃ (s : State) (c : Nat), c < 208 ∧ (s.chan c).model.magEp = true ∧ magnetCurve s c = 0) ∧
    (∃ (s : State) (c : Nat), c < 208 ∧ (s.chan c).model.coilEp = true ∧ coilCurve s c = 0) :=
  ⟨⟨win0 (par 0x10 207 0 1 (live.modFsm 207 fun f => { f with state := .run })), 207, pilot0, by decide +kernel⟩,
   ⟨par 0x10 207 0xF 1 (win0 (par 0x10 207 0 1 (live.modFsm 207 fun f => { f with state := .run }))), 207, { pilot0 with vRe := 96000 }, 1,
     by decide +kernel⟩,
   ⟨par 0x10 207 0xF 1 (win0 (par 0x10 207 0 1 (live.modChan 207 fun h => { h with fsm := { h.fsm with state := .run }, model := { h.model with runs := true, seed := 1, re25 := 5, reConv := true, reWin := [5, 5, 5, 5] } }))), 207, { pilot0 with vRe := 480000, iRe := 96000 },
     by decide +kernel⟩,
   ⟨{ live.modModel 207 fun m => { m with reConv := true } with media := { live.media with samples := 2880000 } }, 207, by decide +kernel⟩,
   ⟨live, 207, by decide +kernel⟩,
   ⟨par 0x10 207 0 1 (live.modChan 207 fun h => { h with fsm := { h.fsm with state := .run }, model := { h.model with runs := true, seed := 1 } }), 207,
     by decide +kernel⟩,
   ⟨hotAt 61, 207, rec0, 0, by decide +kernel⟩,
   ⟨live.modModel 207 fun m => { m with magEp := true }, 207, by decide +kernel⟩,
   ⟨live.modModel 207 fun m => { m with coilEp := true }, 207, by decide +kernel⟩⟩

theorem witness_FikezoFramesAreReadAsSent :
    (∃ (ty : Nat) (flags : Nat) (index : Nat) (seq : Nat) (body : List Byte), 1 ≤ ty ∧ ty ≤ 6 ∧ flags < 0x100 ∧
      index < 0x10000000000000000 ∧ seq < 0x100000000 ∧ body.length = fzLength ty) ∧
    (∃ (ty : Nat) (flags : Nat) (index : Nat) (seq : Nat) (body : List Byte), 1 ≤ ty ∧ ty ≤ 6 ∧ flags < 0x100 ∧
      index < 0x10000000000000000 ∧ seq < 0x100000000 ∧ body.length ≠ fzLength ty) :=
  ⟨⟨6, 255, 0xFFFFFFFFFFFFFFFF, 0xFFFFFFFF, zeros 24, by decide +kernel⟩,
   ⟨6, 255, 0xFFFFFFFFFFFFFFFF, 0xFFFFFFFF, zeros 25, by decide +kernel⟩⟩

theorem witness_FikezoFramesAreTaken :
    (∃ (s : State) (l : List Byte), fzLive s = true ∧ (s.inj 64).heldPkt = none ∧ (s.inj 64).action = 0 ∧ fzParse 1 l = none) ∧
    (∃ (s : State) (l : List Byte), fzLive s = true ∧ (s.inj 64).heldPkt = none ∧ (s.inj 64).action = 0 ∧ fzParse 2 l = none) ∧
    (∃ (s : State) (l : List Byte), fzLive s = true ∧ (s.inj 64).heldPkt = none ∧ (s.inj 64).action = 0 ∧ fzParse 3 l = none) ∧
    (∃ (s : State) (l : List Byte), fzLive s = true ∧ (s.inj 64).heldPkt = none ∧ (s.inj 64).action = 0 ∧ fzParse 4 l = none) ∧
    (∃ (s : State) (l : List Byte), fzLive s = true ∧ (s.inj 64).heldPkt = none ∧ (s.inj 64).action = 0 ∧ fzParse 5 l = none) ∧
    (∃ (s : State) (l : List Byte), fzLive s = true ∧ (s.inj 64).heldPkt = none ∧ (s.inj 64).action = 0 ∧ fzParse 6 l = none) ∧
    (∃ (s : State) (l : List Byte) (f : Fz), fzLive s = true ∧ (s.inj 64).heldPkt = none ∧ (s.inj 64).action = 0 ∧ fzParse 1 l = some f ∧
      s.twin.link = false) ∧
    (∃ (s : State) (l : List Byte) (f : Fz) (c : Nat), fzLive s = true ∧ (s.inj 64).heldPkt = none ∧ (s.inj 64).action = 0 ∧
      fzParse 1 l = some f ∧ s.twin.link = true ∧ c < 208 ∧ sharing s = false) ∧
    (∃ (s : State) (l : List Byte) (f : Fz) (c : Nat) (own : Int) (i : Rat) (p : Rat), fzLive s = true ∧ (s.inj 64).heldPkt = none ∧
      (s.inj 64).action = 0 ∧ fzParse 1 l = some f ∧ s.twin.link = true ∧ c < 208 ∧ sharing s = true ∧ armed s c = true ∧
      (s.chan c).share.joinReq = false ∧ leAt f.body (8 * c + 6) 1 = 3 ∧ (s.chan c).share.ownI = [(f.index, own)] ∧
      (s.chan c).share.partnerI = [] ∧ (s.chan c).share.corrs.length < 8 ∧ i = senseI c own ∧
      p = senseI c (signed 24 (leAt f.body (8 * c + 3) 3))) ∧
    (∃ (s : State) (l : List Byte) (f : Fz) (r : Nat), fzLive s = true ∧ (s.inj 64).heldPkt = none ∧ (s.inj 64).action = 0 ∧
      fzParse 2 l = some f ∧ r < 12) ∧
    (∃ (s : State) (l : List Byte) (f : Fz) (d : Nat), fzLive s = true ∧ (s.inj 64).heldPkt = none ∧ (s.inj 64).action = 0 ∧
      fzParse 2 l = some f ∧ d < 4) ∧
    (∃ (s : State) (l : List Byte) (f : Fz) (c : Nat), fzLive s = true ∧ (s.inj 64).heldPkt = none ∧ (s.inj 64).action = 0 ∧
      fzParse 2 l = some f ∧ c < 208 ∧ markFor s c (leAt f.body c 1 / 32 % 2 == 1) = 48 ∧ (s.chan c).share.mark = 0) ∧
    (∃ (s : State) (l : List Byte) (f : Fz) (c : Nat), fzLive s = true ∧ (s.inj 64).heldPkt = none ∧ (s.inj 64).action = 0 ∧
      fzParse 2 l = some f ∧ c < 208 ∧ (s.chan c).share.joinReq = true ∧ (s.chan c).fsm.state = .diag ∧
      (s.chan c).share.partnerMark = false ∧ leAt f.body c 1 / 128 % 2 = 1 ∧ (s.chan c).share.mark ≠ 0) ∧
    (∃ (s : State) (l : List Byte) (f : Fz) (i : Nat), fzLive s = true ∧ (s.inj 64).heldPkt = none ∧ (s.inj 64).action = 0 ∧
      fzParse 3 l = some f ∧ i < 8 ∧ leAt f.body (40 * i) 2 < 208) ∧
    (∃ (s : State) (l : List Byte) (f : Fz) (c : Nat), fzLive s = true ∧ (s.inj 64).heldPkt = none ∧ (s.inj 64).action = 0 ∧
      fzParse 3 l = some f ∧ c < 208) ∧
    (∃ (s : State) (c : Nat) (w : Shadow), fzLive s = true ∧ (s.inj 64).heldPkt = none ∧ (s.inj 64).action = 0 ∧ s.media.locked = true ∧
      s.media.halted = false ∧ s.twin.adoptDue = true ∧ (modelledChans s.cfg.active).all (fun c => s.twin.adoptGot.contains c) = true ∧
      c ∈ modelledChans s.cfg.active ∧ (s.chan c).share.shadow = some w) ∧
    (∃ (s : State) (l : List Byte) (f : Fz), fzLive s = true ∧ (s.inj 64).heldPkt = none ∧ (s.inj 64).action = 0 ∧ fzParse 4 l = some f ∧
      leAt f.body 60 4 ≠ (crc32 (f.body.take 60)).toNat) ∧
    (∃ (s : State) (l : List Byte) (f : Fz) (p : Proposal), fzLive s = true ∧ (s.inj 64).heldPkt = none ∧ (s.inj 64).action = 0 ∧
      fzParse 5 l = some f ∧
      (p = ⟨leAt f.body 0 4, leAt f.body 4 4, if leAt f.body 8 8 = 0xFFFFFFFFFFFFFFFF then none else some (leAt f.body 8 8), leAt f.body 16 1, leAt f.body 20 8⟩) ∧
      p.state = 2 ∧ (∀ a : Proposal, s.twin.own = some a → a.epoch ≠ p.epoch ∨ a.state = 2)) ∧
    (∃ (s : State) (l : List Byte) (f : Fz) (p : Proposal), fzLive s = true ∧ (s.inj 64).heldPkt = none ∧ (s.inj 64).action = 0 ∧
      fzParse 5 l = some f ∧
      (p = ⟨leAt f.body 0 4, leAt f.body 4 4, if leAt f.body 8 8 = 0xFFFFFFFFFFFFFFFF then none else some (leAt f.body 8 8), leAt f.body 16 1, leAt f.body 20 8⟩) ∧
      (p.state ≠ 2 ∨ (∃ a : Proposal, s.twin.own = some a ∧ a.epoch = p.epoch ∧ a.state ≠ 2)) ∧ s.cfg.commit = none) ∧
    (∃ (s : State) (l : List Byte) (f : Fz) (p : Proposal) (c : Commit) (a : Proposal), fzLive s = true ∧ (s.inj 64).heldPkt = none ∧
      (s.inj 64).action = 0 ∧ fzParse 5 l = some f ∧
      (p = ⟨leAt f.body 0 4, leAt f.body 4 4, if leAt f.body 8 8 = 0xFFFFFFFFFFFFFFFF then none else some (leAt f.body 8 8), leAt f.body 16 1, leAt f.body 20 8⟩) ∧
      s.cfg.commit = some c ∧ s.twin.own = some a ∧ a.epoch = p.epoch ∧ a.state ≠ 2 ∧ (p.state = 2 ∨ a.digest ≠ p.digest)) ∧
    (∃ (s : State) (l : List Byte) (f : Fz) (p : Proposal) (c : Commit) (a : Proposal), fzLive s = true ∧ (s.inj 64).heldPkt = none ∧
      (s.inj 64).action = 0 ∧ fzParse 5 l = some f ∧
      (p = ⟨leAt f.body 0 4, leAt f.body 4 4, if leAt f.body 8 8 = 0xFFFFFFFFFFFFFFFF then none else some (leAt f.body 8 8), leAt f.body 16 1, leAt f.body 20 8⟩) ∧
      s.cfg.commit = some c ∧ s.twin.own = some a ∧ a.epoch = p.epoch ∧ a.state ≠ 2 ∧ a.state = 1 ∧ p.state = 1 ∧ a.digest = p.digest ∧
      c.epoch = some a.epoch ∧ c.k0 = none) ∧
    (∃ (s : State) (l : List Byte) (f : Fz), fzLive s = true ∧ (s.inj 64).heldPkt = none ∧ (s.inj 64).action = 0 ∧ fzParse 6 l = some f ∧
      (leAt f.body 8 8 = 0 ∨ s.twin.link = false)) ∧
    (∃ (s : State) (l : List Byte) (f : Fz) (t2 : Nat) (o : Rat), fzLive s = true ∧ (s.inj 64).heldPkt = none ∧ (s.inj 64).action = 0 ∧
      fzParse 6 l = some f ∧ leAt f.body 8 8 ≠ 0 ∧ s.twin.link = true ∧
      o = (((((leAt f.body 16 8 : Nat) : Int) - (leAt f.body 8 8 : Nat)) - ((t2 : Int) - (leAt f.body 0 8 : Nat)) : Int) : Rat) / 2 ∧
      absRat o ≤ 1000) ∧
    (∃ (s : State) (l : List Byte) (f : Fz) (t2 : Nat) (o : Rat) (c : Nat), fzLive s = true ∧ (s.inj 64).heldPkt = none ∧
      (s.inj 64).action = 0 ∧ fzParse 6 l = some f ∧ leAt f.body 8 8 ≠ 0 ∧ s.twin.link = true ∧
      o = (((((leAt f.body 16 8 : Nat) : Int) - (leAt f.body 8 8 : Nat)) - ((t2 : Int) - (leAt f.body 0 8 : Nat)) : Int) : Rat) / 2 ∧
      1000 < absRat o ∧ s.cfgShared = true ∧ s.twin.paused = false ∧ s.twin.role = .follow ∧ c < 208) :=
  ⟨⟨live, [], by decide +kernel⟩,
   ⟨live, [], by decide +kernel⟩,
   ⟨live, [], by decide +kernel⟩,
   ⟨live, [], by decide +kernel⟩,
   ⟨live, [], by decide +kernel⟩,
   ⟨live, [], by decide +kernel⟩,
   ⟨live, fzBytes 1 0 8 0 (zeros 1672), ⟨0, 8, 0, zeros 1672⟩, by decide +kernel, by decide +kernel, by decide +kernel, parse_sample,
     by decide +kernel⟩,
   ⟨{ live with twin.link := true }, fzBytes 1 0 8 0 (zeros 1672), ⟨0, 8, 0, zeros 1672⟩, 207, by decide +kernel, by decide +kernel,
     by decide +kernel, parse_sample, by decide +kernel⟩,
   ⟨{ live.modChan 207 fun h => { h with fsm := { h.fsm with bridge := .switching }, share := { h.share with ownI := [(8, 1)] } } with twin := { live.twin with effShared := true, link := true } }, fzBytes 1 0 8 0 (zeros 1662 ++ [3] ++ zeros 9), ⟨0, 8, 0, zeros 1662 ++ [3] ++ zeros 9⟩, 207, 1, senseI 207 1, senseI 207 0,
     by decide +kernel, by decide +kernel, by decide +kernel, parse_drive, by decide +kernel⟩,
   ⟨live, fzBytes 2 0 8 0 (zeros 1116), ⟨0, 8, 0, zeros 1116⟩, 11, by decide +kernel, by decide +kernel, by decide +kernel, parse_block,
     by decide +kernel⟩,
   ⟨live, fzBytes 2 0 8 0 (zeros 1116), ⟨0, 8, 0, zeros 1116⟩, 3, by decide +kernel, by decide +kernel, by decide +kernel, parse_block,
     by decide +kernel⟩,
   ⟨{ live.modChan 207 fun h => { h with fsm := { h.fsm with state := .idle }, share := { h.share with mark := 0 } } with twin := { live.twin with effShared := true, link := true } }, fzBytes 2 0 8 0 (zeros 207 ++ [0x20] ++ zeros 908), ⟨0, 8, 0, zeros 207 ++ [0x20] ++ zeros 908⟩, 207,
     by decide +kernel, by decide +kernel, by decide +kernel, parse_flag 0x20, by decide +kernel⟩,
   ⟨live.modChan 207 fun h => { h with fsm := { h.fsm with state := .diag }, share := { h.share with joinReq := true, mark := 1 } }, fzBytes 2 0 8 0 (zeros 207 ++ [0x80] ++ zeros 908), ⟨0, 8, 0, zeros 207 ++ [0x80] ++ zeros 908⟩, 207,
     by decide +kernel, by decide +kernel, by decide +kernel, parse_flag 0x80, by decide +kernel⟩,
   ⟨live, fzBytes 3 0 8 0 (zeros 320), ⟨0, 8, 0, zeros 320⟩, 7, by decide +kernel, by decide +kernel, by decide +kernel, parse_model,
     by decide +kernel⟩,
   ⟨live, fzBytes 3 0 8 0 (zeros 320), ⟨0, 8, 0, zeros 320⟩, 207, by decide +kernel, by decide +kernel, by decide +kernel, parse_model,
     by decide +kernel⟩,
   ⟨{ (par 0x10 207 0xF 1 (par 0x10 207 0 1 live)).modChan 207 fun h => { h with share := { h.share with shadow := some shadow0 } } with twin.adoptDue := true, twin.adoptGot := [207] }, 207, shadow0,
     by decide +kernel⟩,
   ⟨live, fzBytes 4 0 8 0 (zeros 128), ⟨0, 8, 0, zeros 128⟩, by decide +kernel, by decide +kernel,
     by decide +kernel, parse_beacon _ (List.length_replicate ..), by decide +kernel⟩,
   ⟨live, fzBytes 5 0 8 0 (epochBody { epoch0 with state := 2 }), ⟨0, 8, 0, epochBody { epoch0 with state := 2 }⟩, { epoch0 with state := 2 },
     by decide +kernel, by decide +kernel, by decide +kernel, by decide +kernel, by decide +kernel⟩,
   ⟨live, fzBytes 5 0 8 0 (epochBody epoch0), ⟨0, 8, 0, epochBody epoch0⟩, epoch0, by decide +kernel, by decide +kernel,
     by decide +kernel, by decide +kernel, by decide +kernel⟩,
   ⟨{ inCommit commit0 live with twin.own := some ⟨1, 3, none, 0, 0⟩ }, fzBytes 5 0 8 0 (epochBody epoch0), ⟨0, 8, 0, epochBody epoch0⟩, epoch0, commit0, ⟨1, 3, none, 0, 0⟩,
     by decide +kernel, by decide +kernel, by decide +kernel, by decide +kernel, by decide +kernel⟩,
   ⟨{ inCommit { commit0 with k0 := none, epoch := some 1 } live with twin.own := some ⟨1, 2, none, 1, 0⟩ }, fzBytes 5 0 8 0 (epochBody epoch0), ⟨0, 8, 0, epochBody epoch0⟩, epoch0, { commit0 with k0 := none, epoch := some 1 }, ⟨1, 2, none, 1, 0⟩,
     by decide +kernel, by decide +kernel, by decide +kernel, by decide +kernel, by decide +kernel⟩,
   ⟨{ live with twin.link := true }, fzBytes 6 0 8 0 (time0 0 0), ⟨0, 8, 0, time0 0 0⟩, by decide +kernel, by decide +kernel,
     by decide +kernel, by decide +kernel, by decide +kernel⟩,
   ⟨{ live with twin.link := true }, fzBytes 6 0 8 0 (time0 1 2001), ⟨0, 8, 0, time0 1 2001⟩, 0, 1000, by decide +kernel,
     by decide +kernel, by decide +kernel, by decide +kernel, by decide +kernel⟩,
   ⟨{ twin0 2 with twin.link := true, twin.role := .follow }, fzBytes 6 0 8 0 (time0 1 2003), ⟨0, 8, 0, time0 1 2003⟩, 0, 1001, 207,
     by decide +kernel, by decide +kernel, by decide +kernel, by decide +kernel, by decide +kernel⟩⟩

theorem witness_BeaconsFormPairsAndSettleRoles :
    (∃ (s : State) (b : List Byte) (l : List Byte) (f : Fz), fzLive s = true ∧ (s.inj 64).heldPkt = none ∧ (s.inj 64).action = 0 ∧
      fzParse 4 l = some f ∧ f.body = b ∧ leAt b 60 4 = (crc32 (b.take 60)).toNat ∧ twinned s = true ∧ leAt b 8 4 = partnerId s ∧
      partnerId s ≠ 0 ∧ leAt b 24 4 = sysId s ∧ partnerId s ≠ sysId s ∧ s.twin.paired = false ∧ s.twin.role ≠ .lead ∧
      leAt b 15 1 / 16 % 2 = 0 ∧ leAt b 16 2 = s.keeper.fwLevel ∧ leAt b 65 1 % 2 = 0) ∧
    (∃ (s : State) (b : List Byte) (l : List Byte) (f : Fz), fzLive s = true ∧ (s.inj 64).heldPkt = none ∧ (s.inj 64).action = 0 ∧
      fzParse 4 l = some f ∧ f.body = b ∧ leAt b 60 4 = (crc32 (b.take 60)).toNat ∧ twinned s = true ∧ leAt b 8 4 = partnerId s ∧
      partnerId s ≠ 0 ∧ leAt b 24 4 = sysId s ∧ partnerId s ≠ sysId s ∧ s.twin.paired = true ∧ s.twin.role = .follow ∧
      s.twin.effShared = false ∧ s.cfgShared = false ∧ leAt b 65 1 % 2 = 1 ∧ (leAt b 64 1 = 0 ∨ leAt b 64 1 = 4 ∨ leAt b 64 1 = 5)) ∧
    (∃ (s : State) (b : List Byte) (l : List Byte) (f : Fz), fzLive s = true ∧ (s.inj 64).heldPkt = none ∧ (s.inj 64).action = 0 ∧
      fzParse 4 l = some f ∧ f.body = b ∧ leAt b 60 4 = (crc32 (b.take 60)).toNat ∧ twinned s = true ∧ leAt b 8 4 = partnerId s ∧
      partnerId s ≠ 0 ∧ leAt b 24 4 = sysId s ∧ partnerId s ≠ sysId s ∧ s.twin.role = .lead ∧ leAt b 15 1 / 16 % 2 = 1 ∧
      sysId s < leAt b 8 4) ∧
    (∃ (s : State) (b : List Byte) (l : List Byte) (f : Fz) (c : Nat), fzLive s = true ∧ (s.inj 64).heldPkt = none ∧
      (s.inj 64).action = 0 ∧ fzParse 4 l = some f ∧ f.body = b ∧ leAt b 60 4 = (crc32 (b.take 60)).toNat ∧ twinned s = true ∧
      leAt b 8 4 = partnerId s ∧ partnerId s ≠ 0 ∧ leAt b 24 4 = sysId s ∧ partnerId s ≠ sysId s ∧ s.twin.role = .lead ∧
      leAt b 15 1 / 16 % 2 = 1 ∧ leAt b 8 4 < sysId s ∧ leAt b 65 1 % 2 = 0 ∧ c < 208) ∧
    (∃ (s : State) (b : List Byte) (port : Nat), port < 2 ∧ s.cfg.active.portOn port = true ∧ canLog s = true ∧ b.length = 128 ∧
      leAt b 60 4 ≠ (crc32 (b.take 60)).toNat) ∧
    (∃ (s : State) (b : List Byte) (port : Nat), port < 2 ∧ s.cfg.active.portOn port = true ∧ canLog s = true ∧ b.length = 128 ∧
      leAt b 60 4 = (crc32 (b.take 60)).toNat ∧ leAt b 8 4 ≠ partnerId s ∧ leAt b 8 4 ≠ sysId s) ∧
    (∃ (s : State) (b : List Byte) (port : Nat) (c : Nat), port < 2 ∧ s.cfg.active.portOn port = true ∧ canLog s = true ∧ b.length = 128 ∧
      leAt b 60 4 = (crc32 (b.take 60)).toNat ∧ twinned s = true ∧ leAt b 8 4 = partnerId s ∧ partnerId s ≠ 0 ∧ leAt b 24 4 = sysId s ∧
      partnerId s ≠ sysId s ∧ s.twin.role = .lead ∧ leAt b 15 1 / 16 % 2 = 1 ∧ leAt b 8 4 < sysId s ∧ leAt b 65 1 % 2 = 0 ∧ c < 208) ∧
    (∃ (s : State) (b : List Byte) (port : Nat), port < 2 ∧ s.cfg.active.portOn port = true ∧ canLog s = true ∧ b.length = 128 ∧
      leAt b 60 4 = (crc32 (b.take 60)).toNat ∧ twinned s = true ∧ leAt b 8 4 = partnerId s ∧ partnerId s ≠ 0 ∧ leAt b 24 4 = sysId s ∧
      partnerId s ≠ sysId s ∧ s.twin.role = .lead ∧ leAt b 15 1 / 16 % 2 = 1 ∧ sysId s < leAt b 8 4) ∧
    (∃ (s : State) (b : List Byte) (port : Nat), port < 2 ∧ s.cfg.active.portOn port = true ∧ canLog s = true ∧ b.length = 128 ∧
      leAt b 60 4 = (crc32 (b.take 60)).toNat ∧ twinned s = true ∧ leAt b 8 4 = partnerId s ∧ partnerId s ≠ 0 ∧ leAt b 24 4 = sysId s ∧
      partnerId s ≠ sysId s ∧ s.twin.role = .follow ∧ s.twin.effShared = false ∧ s.cfgShared = false ∧ leAt b 65 1 % 2 = 1 ∧
      (leAt b 64 1 = 0 ∨ leAt b 64 1 = 4 ∨ leAt b 64 1 = 5)) :=
  ⟨⟨twin0 1, beacon0 0 0, fzBytes 4 0 8 0 (beacon0 0 0), ⟨0, 8, 0, beacon0 0 0⟩, by decide +kernel, by decide +kernel,
     by decide +kernel, parse_beacon _ (by decide +kernel), by decide +kernel⟩,
   ⟨{ twin0 1 with twin := { live.twin with paired := true, role := .follow } }, beacon0 0 1, fzBytes 4 0 8 0 (beacon0 0 1), ⟨0, 8, 0, beacon0 0 1⟩,
     by decide +kernel, by decide +kernel, by decide +kernel, parse_beacon _ (by decide +kernel), by decide +kernel⟩,
   ⟨lead3, beaconOf 5 3 16 0, fzBytes 4 0 8 0 (beaconOf 5 3 16 0), ⟨0, 8, 0, beaconOf 5 3 16 0⟩, by decide +kernel, by decide +kernel,
     by decide +kernel, parse_beacon _ (by decide +kernel), by decide +kernel⟩,
   ⟨{ twin0 1 with twin.role := .lead }, beacon0 16 0, fzBytes 4 0 8 0 (beacon0 16 0), ⟨0, 8, 0, beacon0 16 0⟩, 207, by decide +kernel,
     by decide +kernel, by decide +kernel, parse_beacon _ (by decide +kernel), by decide +kernel⟩,
   ⟨par 2 0 1 1 live, zeros 128, 1, by decide +kernel⟩,
   ⟨par 2 0 1 1 live, beacon0 0 0, 1, by decide +kernel⟩,
   ⟨par 2 0 1 1 { twin0 1 with twin.role := .lead }, beacon0 16 0, 1, 207, by decide +kernel⟩,
   ⟨par 2 0 1 1 lead3, beaconOf 5 3 16 0, 1, by decide +kernel⟩,
   ⟨par 2 0 1 1 { twin0 1 with twin.role := .follow }, beacon0 0 1, 1, by decide +kernel⟩⟩

theorem witness_TwinSendsAndLinkRows :
    (∃ (s : State), fzLive s = true ∧ s.twin.link = false ∧ 3 ≤ s.twin.beaconsOk) ∧
    (∃ (s : State), s.twin.link = true) ∧
    (∃ (s : State) (ty : Nat) (idx : Nat) (pairs : List SensePair) (sense : List SensePair) (body : List Byte), fzLive s = true ∧
      s.media.locked = true ∧ sense = pairs.map (marked s) ∧ ((ty = 1 ∧ s.twin.link = true ∧
      idx = (sense.head?.map (·.n)).getD (s.media.index - 3) ∧ body = sampleBody sense idx s) ∨ (ty = 2 ∧ s.twin.link = true ∧
      idx = 8 * winK s ∧ body = blockBody (nameRun s)) ∨ (ty = 3 ∧ s.twin.link = true ∧ s.twin.role = .lead ∧
      modelledChans s.cfg.active ≠ [] ∧ idx = 8 * (s.media.index / 8) ∧
      body = (modelTurn s).flatMap fun c => shadowEntry s c (s.media.index / 8)) ∨ (ty = 4 ∧ s.media.index / 8 % 12 = 0 ∧
      idx = 8 * (s.media.index / 8) ∧ body = beacon s) ∨ (ty = 5 ∧ s.twin.link = true ∧ idx = 8 * (s.media.index / 8) ∧
      s.twin.own.map epochBody = some body) ∨ (ty = 6 ∧ s.twin.link = true ∧ idx = 8 * (s.media.index / 8) ∧
      body = le 8 s.ptp.timeNs ++ le 8 s.twin.t1Last ++ le 8 s.twin.t2Last)) ∧ ty ≠ 1) ∧
    (∃ (s : State) (g : Nat), pairGroup s.cfg.active = some g ∧ s.media.locked = true ∧ canLog s = true ∧ s.media.index / 8 % 1200 = 0) ∧
    (∃ (s : State) (c : Commit), s.keeper.halted = false ∧ s.cfg.commit = some c ∧ c.epoch.isSome = true ∧ c.k0 = none ∧
      matched s.twin = false) ∧
    (∃ (s : State) (ty : Nat), fzLive s = false ∧ (ty ≠ 1 ∨ s.media.locked = false)) ∧
    (∃ (s : State) (ty : Nat) (c : Nat), fzLive s = false ∧ ty = 1 ∧ s.media.locked = true ∧ c < 208 ∧ (s.chan c).share.toPeer.length ≤ 8) :=
  ⟨⟨{ live with twin.beaconsOk := 3 }, by decide +kernel⟩,
   ⟨{ live with twin.link := true }, by decide +kernel⟩,
   ⟨{ live with twin.link := true }, 6, 8000, [], [], zeros 24, by decide +kernel⟩,
   ⟨{ twin0 0 with media := { live.media with index := 9600 } }, 0xEFFC0005, by decide +kernel⟩,
   ⟨inCommit { commit0 with k0 := none, epoch := some 1 } live, { commit0 with k0 := none, epoch := some 1 }, by decide +kernel⟩,
   ⟨State.reset, 6, by decide +kernel⟩,
   ⟨{ live with power.seqDone := false }, 1, 207, by decide +kernel⟩⟩

theorem witness_TwinRolesAndJoining :
    (∃ (s : State) (c : Nat), twinned s = true ∧ (s.twin.paired = true ∨ s.twin.peerSeen = true ∨ s.twin.netSeen = true) ∧ c < 208) ∧
    (∃ (s : State), twinned s = true ∧ (s.twin.paired = true ∨ s.twin.peerSeen = true ∨ s.twin.netSeen = true) ∧ s.twin.role = .follow ∧
      s.flag 0x08 0 3 = true) ∧
    (∃ (s : State), twinned s = true ∧ (s.twin.paired = true ∨ s.twin.peerSeen = true ∨ s.twin.netSeen = true) ∧ s.twin.role = .follow ∧
      s.flag 0x08 0 3 = false) ∧
    (∃ (s : State), twinned s = true ∧ (s.twin.paired = true ∨ s.twin.peerSeen = true ∨ s.twin.netSeen = true) ∧ s.twin.role ≠ .follow) ∧
    (∃ (s : State), twinned s = true ∧ s.twin.paired = false ∧ s.twin.peerSeen = false ∧ s.twin.netSeen = false ∧ s.twin.role = .follow ∧
      s.flag 0x08 0 3 = true) ∧
    (∃ (s : State), twinned s = true ∧ s.keeper.dev = .run ∧ s.twin.paired = false ∧ s.twin.peerSeen = false ∧ s.twin.netSeen = false ∧
      s.twin.role = .none) ∧
    (∃ (s : State) (c : Nat) (a : Nat) (vOwn : Rat) (vStarter : Rat) (iOwn : Rat), c < 208 ∧ sharing s = true ∧
      (s.chan c).share.joinReq = true ∧ (s.chan c).fsm.stop = .none ∧ (s.chan c).share.markAt = some a ∧ a + 288 ≤ winBase s ∧
      vOwn = meanOver (s.chan c).share.vOwnSum (s.chan c).share.nOwn ∧
      vStarter = meanOver (s.chan c).share.vStSum (s.chan c).share.nSt ∧
      iOwn = meanOver (s.chan c).share.iOwnSum (s.chan c).share.nOwn ∧ (s.chan c).fsm.state = .diag ∧ vStarter ≠ 0 ∧
      1/2 ≤ vOwn / vStarter) ∧
    (∃ (s : State) (c : Nat) (a : Nat) (vOwn : Rat) (vStarter : Rat) (iOwn : Rat), c < 208 ∧ sharing s = true ∧
      (s.chan c).share.joinReq = true ∧ (s.chan c).fsm.stop = .none ∧ (s.chan c).share.markAt = some a ∧ a + 288 ≤ winBase s ∧
      vOwn = meanOver (s.chan c).share.vOwnSum (s.chan c).share.nOwn ∧
      vStarter = meanOver (s.chan c).share.vStSum (s.chan c).share.nSt ∧
      iOwn = meanOver (s.chan c).share.iOwnSum (s.chan c).share.nOwn ∧ (s.chan c).fsm.state = .diag ∧ vStarter = 0) ∧
    (∃ (s : State) (c : Nat) (a : Nat) (vOwn : Rat) (vStarter : Rat) (iOwn : Rat), c < 208 ∧ sharing s = true ∧
      (s.chan c).share.joinReq = true ∧ (s.chan c).fsm.stop = .none ∧ (s.chan c).share.markAt = some a ∧ a + 288 ≤ winBase s ∧
      vOwn = meanOver (s.chan c).share.vOwnSum (s.chan c).share.nOwn ∧
      vStarter = meanOver (s.chan c).share.vStSum (s.chan c).share.nSt ∧
      iOwn = meanOver (s.chan c).share.iOwnSum (s.chan c).share.nOwn ∧ (s.chan c).fsm.state = .idle ∧ 10/1000 ≤ iOwn) ∧
    (∃ (s : State) (c : Nat) (a : Nat) (vOwn : Rat) (vStarter : Rat) (iOwn : Rat), c < 208 ∧ sharing s = true ∧
      (s.chan c).share.joinReq = true ∧ (s.chan c).fsm.stop = .none ∧ (s.chan c).share.markAt = some a ∧ a + 288 ≤ winBase s ∧
      vOwn = meanOver (s.chan c).share.vOwnSum (s.chan c).share.nOwn ∧
      vStarter = meanOver (s.chan c).share.vStSum (s.chan c).share.nSt ∧
      iOwn = meanOver (s.chan c).share.iOwnSum (s.chan c).share.nOwn ∧ (s.chan c).fsm.state = .idle ∧ 0 ≤ iOwn ∧ iOwn < 10/1000) ∧
    (∃ (s : State) (c : Nat), s.media.locked = true ∧ s.twin.runBlock ≠ 0 ∧ s.twin.runBlock ≤ winK s ∧ s.twin.theirRunBlock = 0 ∧ c < 208 ∧
      c ∉ s.twin.runMap) ∧
    (∃ (s : State) (c : Nat), s.media.locked = true ∧ s.twin.runBlock ≠ 0 ∧ s.twin.runBlock ≤ winK s ∧ s.twin.theirRunBlock = 0 ∧ c < 208 ∧
      c ∈ s.twin.runMap ∧ (s.chan c).fsm.state = .idle ∧ (s.chan c).fsm.admitted = true ∧ (s.chan c).fsm.stop = .none) ∧
    (∃ (s : State) (c : Nat), c < 208 ∧ bothDrive s c = true ∧ s.twin.role = .follow ∧ 96 ≤ (s.chan c).share.imbRun ∧
      (s.chan c).fsm.state.switching = true) ∧
    (∃ (s : State) (g : Nat), s.twin.paused = true ∧ s.twin.link = true ∧ s.twin.goodSince = some g ∧ g + 96000 ≤ s.media.samples ∧
      s.twin.partnerGm = s.ptp.gm ∧ (s.twin.role ≠ .follow ∨ s.twin.partnerPaused = false)) :=
  ⟨⟨{ twin0 1 with twin.paired := true, twin.role := .follow }, 207, by decide +kernel⟩,
   ⟨{ twin0 1 with twin.paired := true, twin.role := .follow }, by decide +kernel⟩,
   ⟨par 8 0 3 0 { twin0 1 with twin.paired := true, twin.role := .follow }, by decide +kernel⟩,
   ⟨{ twin0 1 with twin.paired := true }, by decide +kernel⟩,
   ⟨{ twin0 1 with twin.role := .follow }, by decide +kernel⟩,
   ⟨twin0 1, by decide +kernel⟩,
   ⟨{ live.modChan 207 fun h => { h with fsm := { h.fsm with state := .diag }, share := { h.share with joinReq := true, markAt := some 0, nOwn := 1, nSt := 1, vOwnSum := 1, vStSum := 2 } } with twin := { live.twin with effShared := true, link := true } }, 207, 0, 1, 2, 0,
     by decide +kernel⟩,
   ⟨{ live.modChan 207 fun h => { h with fsm := { h.fsm with state := .diag }, share := { h.share with joinReq := true, markAt := some 0, nOwn := 1, nSt := 1, vStSum := 0 } } with twin := { live.twin with effShared := true, link := true } }, 207, 0, 0, 0, 0,
     by decide +kernel⟩,
   ⟨{ live.modChan 207 fun h => { h with fsm := { h.fsm with state := .idle }, share := { h.share with joinReq := true, markAt := some 0, nOwn := 1, nSt := 1, iOwnSum := 1/100 } } with twin := { live.twin with effShared := true, link := true } }, 207, 0, 0, 0, 1/100,
     by decide +kernel⟩,
   ⟨{ live.modChan 207 fun h => { h with fsm := { h.fsm with state := .idle }, share := { h.share with joinReq := true, markAt := some 0, nOwn := 1, nSt := 1, iOwnSum := 0 } } with twin := { live.twin with effShared := true, link := true } }, 207, 0, 0, 0, 0,
     by decide +kernel⟩,
   ⟨{ live with twin := { live.twin with runBlock := 1001, runMap := [] } }, 207, by decide +kernel⟩,
   ⟨{ (live.modFsm 207 fun f => { f with state := .idle, admitted := true }) with twin := { live.twin with runBlock := 1001, runMap := [207] } }, 207,
     by decide +kernel⟩,
   ⟨{ live.modChan 207 fun h => { h with fsm := { h.fsm with state := .run, bridge := .switching }, share := { h.share with partnerDrives := true, imbRun := 96 } } with twin := { live.twin with effShared := true, link := true, role := .follow } }, 207,
     by decide +kernel⟩,
   ⟨{ live with twin := { live.twin with paused := true, link := true, goodSince := some 0 }, media := { live.media with samples := 96000 } }, 0,
     by decide +kernel⟩⟩

theorem witness_LogAndLifetimeRegions :
    (∃ (s : State) (x : Record) (l : List Record) (k : Nat), storeServes s = true ∧ s.log.buffer = x :: l ∧ 0 < s.log.flushing ∧
      s.store.log.slots.any (fun p => p.1 == s.store.log.writeSlot) = false ∧ (k = 1 ∨ k = 2) ∧ s.store.log.failsHere = 2) ∧
    (∃ (s : State) (x : Record) (l : List Record) (k : Nat), storeServes s = true ∧ s.log.buffer = x :: l ∧ 0 < s.log.flushing ∧
      s.store.log.slots.any (fun p => p.1 == s.store.log.writeSlot) = false ∧ (k = 1 ∨ k = 2) ∧ s.store.log.failsHere < 2) ∧
    (∃ (s : State) (x : Record) (l : List Record) (c : Nat), storeServes s = true ∧ s.store.lifeOut = x :: l ∧
      s.store.lifeRegion.slots.any (fun p => p.1 == s.store.lifeRegion.writeSlot) = false ∧ c < 208) ∧
    (∃ (s : State) (x : Record) (l : List Record), storeServes s = true ∧ s.store.lifeOut = x :: l ∧
      s.store.lifeRegion.slots.any (fun p => p.1 == s.store.lifeRegion.writeSlot) = false ∧ x.code = 0x9101) ∧
    (∃ (s : State) (n : Nat), storeServes s = true ∧
      (n = (if s.store.log.slots.any (fun p => p.1 == s.store.log.writeSlot) then s.store.log.writeSlot / 1024 else nextSlot (regionSlots false s.store.flashMb) s.store.log.retired (s.store.log.retired.length + 1) ((s.store.log.writeSlot / 1024 + 1) * 1024) / 1024)) ∧
      s.store.log.slots.any (fun p => p.1 / 1024 == n) = false) ∧
    (∃ (s : State) (n : Nat), storeServes s = true ∧
      (n = (if s.store.log.slots.any (fun p => p.1 == s.store.log.writeSlot) then s.store.log.writeSlot / 1024 else nextSlot (regionSlots false s.store.flashMb) s.store.log.retired (s.store.log.retired.length + 1) ((s.store.log.writeSlot / 1024 + 1) * 1024) / 1024)) ∧
      s.store.log.slots.any (fun p => p.1 / 1024 == n) = true) ∧
    (∃ (s : State), storeServes s = true ∧ s.keeper.dev ≠ .standby) :=
  ⟨⟨{ live with log.buffer := [⟨0, 0x1002, 0, 7, [], 1, true, false⟩], log.flushing := 1, store.log.failsHere := 2 }, ⟨0, 0x1002, 0, 7, [], 1, true, false⟩, [], 1,
     by decide +kernel⟩,
   ⟨{ live with log.buffer := [⟨0, 0x1002, 0, 7, [], 1, true, false⟩], log.flushing := 1, store.log.failsHere := 1 }, ⟨0, 0x1002, 0, 7, [], 1, true, false⟩, [], 2,
     by decide +kernel⟩,
   ⟨{ live with store.lifeOut := [⟨0, 0x1002, 0, 7, [], 1, true, false⟩] }, ⟨0, 0x1002, 0, 7, [], 1, true, false⟩, [], 207,
     by decide +kernel⟩,
   ⟨{ live with store.lifeOut := [⟨0, 0x9101, 0, 7, [], 1, true, false⟩] }, ⟨0, 0x9101, 0, 7, [], 1, true, false⟩, [], by decide +kernel⟩,
   ⟨live, 1, by decide +kernel⟩,
   ⟨{ live with store.log.slots := [(0, .torn)] }, 0, by decide +kernel⟩,
   ⟨live, by decide +kernel⟩⟩

theorem witness_AgeingAndTestEnds :
    (∃ (s : State) (q : Nat) (i : Nat) (c : Nat), keeperFree s = true ∧ storeWaits s = false ∧ s.keeper.dev ≠ .standby ∧
      s.flag 0x01 0 0xC = true ∧ ageUnit s q i = true ∧ c < 208) ∧
    (∃ (s : State) (q : Nat) (i : Nat), keeperFree s = true ∧ storeWaits s = false ∧ s.keeper.dev ≠ .standby ∧ s.flag 0x01 0 0xC = true ∧
      ageUnit s q i = true ∧ q ≤ 5 ∧ (s.store.ageOf q i).baseline = 0 ∧ (s.store.ageOf q i).evals.length = 4) ∧
    (∃ (s : State) (q : Nat) (i : Nat) (med : Rat) (x : Rat) (m : Rat), keeperFree s = true ∧ storeWaits s = false ∧
      s.keeper.dev ≠ .standby ∧ s.flag 0x01 0 0xC = true ∧ ageUnit s q i = true ∧ q = 1 ∧ s.flag 0x01 0 0xD = true ∧
      s.store.factoryValid = true ∧ (s.store.ageOf 1 i).baseline ≠ 0 ∧ (s.store.ageOf 1 i).replanned = false ∧
      x = median (((s.store.ageOf 1 i).evals ++ [med]).drop ((s.store.ageOf 1 i).evals.length - 4)) / (s.store.ageOf 1 i).baseline ∧
      (m = (if 1 ≤ x ∧ x ≤ 144/100 then s.ratv 0x10 i 0x14 / sqrtR x else s.ratv 0x10 i 0x14 * 5 / 6)) ∧ m ≠ s.ratv 0x10 i 0x14 ∧
      armed s i = false) ∧
    (∃ (s : State) (q : Nat) (i : Nat) (med : Rat) (x : Rat) (m : Rat), keeperFree s = true ∧ storeWaits s = false ∧
      s.keeper.dev ≠ .standby ∧ s.flag 0x01 0 0xC = true ∧ ageUnit s q i = true ∧ q = 1 ∧ s.flag 0x01 0 0xD = true ∧
      s.store.factoryValid = true ∧ (s.store.ageOf 1 i).baseline ≠ 0 ∧ (s.store.ageOf 1 i).replanned = false ∧
      x = median (((s.store.ageOf 1 i).evals ++ [med]).drop ((s.store.ageOf 1 i).evals.length - 4)) / (s.store.ageOf 1 i).baseline ∧
      (m = (if 1 ≤ x ∧ x ≤ 144/100 then s.ratv 0x10 i 0x14 / sqrtR x else s.ratv 0x10 i 0x14 * 5 / 6)) ∧ m ≠ s.ratv 0x10 i 0x14 ∧
      armed s i = true) ∧
    (∃ (s : State) (c : Nat) (m : Rat) (k : Nat), c < 208 ∧ (s.store.ageOf 3 c).pendingSecond = some m ∧ s.keeper.halted = false ∧
      (s.chan c).loop.mIdxAt + 24 ≤ s.media.samples ∧ k ≠ c) ∧
    (∃ (s : State) (u : Test) (e : Nat) (r : Nat) (v : List Byte), canLog s = true ∧ ((u.id = 5 ∧ v = le 4 (flashRegions s.store) ∧
      (e, r) = if s.store.fwA.valid = true ∧ s.store.fwB.valid = true ∧
      s.store.factoryValid = true then (1, 0) else (2, 0xA021)) ∨ (u.id = 2 ∧ u.values ≠ [] ∧ v = u.values ∧
      (e, r) = (1, 0)) ∨ (u.id = 3 ∧ (s.rail u.inst).test = 7 ∧ v = railValues (s.rail u.inst) ∧
      (e, r) = (if (s.rail u.inst).testCode = 0 then 1 else 2, (s.rail u.inst).testCode))) ∧ u.force = false) ∧
    (∃ (s : State) (k : Nat) (h : List Byte × Nat), k < 64 ∧ (s.inj k).heldPkt = some h ∧ rtpOk s.cfg.active (k / 2) (h.1.drop 6) = false) ∧
    (∃ (s : State) (k : Nat) (h : List Byte × Nat), k < 64 ∧ (s.inj k).heldPkt = some h ∧ rtpOk s.cfg.active (k / 2) (h.1.drop 6) = true ∧
      (∀ l, (s.stream (k / 2)).ssrc = some l → l = beAt (h.1.drop 6) 8 4)) ∧
    (∃ (s : State) (h : List Byte × Nat) (u : State), (s.inj 64).heldPkt = some h ∧ u = s.modInj 64 (fun j => { j with heldPkt := none }) ∧
      fzLive s = true ∧ (s.inj 64).action = 0 ∧ leAt h.1 0 1 = 1) ∧
    (∃ (s : State) (h : List Byte × Nat) (u : State), (s.inj 64).heldPkt = some h ∧ u = s.modInj 64 (fun j => { j with heldPkt := none }) ∧
      fzLive s = true ∧ (s.inj 64).action = 0 ∧ leAt h.1 0 1 = 2) ∧
    (∃ (s : State) (h : List Byte × Nat) (u : State), (s.inj 64).heldPkt = some h ∧ u = s.modInj 64 (fun j => { j with heldPkt := none }) ∧
      fzLive s = true ∧ (s.inj 64).action = 0 ∧ leAt h.1 0 1 = 3) ∧
    (∃ (s : State) (h : List Byte × Nat) (u : State), (s.inj 64).heldPkt = some h ∧ u = s.modInj 64 (fun j => { j with heldPkt := none }) ∧
      fzLive s = true ∧ (s.inj 64).action = 0 ∧ leAt h.1 0 1 = 4) ∧
    (∃ (s : State) (h : List Byte × Nat) (u : State), (s.inj 64).heldPkt = some h ∧ u = s.modInj 64 (fun j => { j with heldPkt := none }) ∧
      fzLive s = true ∧ (s.inj 64).action = 0 ∧ leAt h.1 0 1 = 5) ∧
    (∃ (s : State) (h : List Byte × Nat) (u : State), (s.inj 64).heldPkt = some h ∧ u = s.modInj 64 (fun j => { j with heldPkt := none }) ∧
      fzLive s = true ∧ (s.inj 64).action = 0 ∧ leAt h.1 0 1 = 6) ∧
    (∃ (s : State) (h : List Byte × Nat), (s.inj 64).heldPkt = some h ∧ fzParse (leAt h.1 0 1) h.1 = none ∧ leAt h.1 0 1 ≠ 4) :=
  ⟨⟨par 0x10 207 0 1 live, 3, 207, 207, by decide +kernel⟩,
   ⟨{ par 0x10 207 0 1 live with store.age := [(1, 207, { evals := [1, 1, 1, 1] })] }, 1, 207, by decide +kernel⟩,
   ⟨{ par 0x10 207 0 1 live with store.age := [(1, 207, { evals := [2, 2], baseline := 1 })] }, 1, 207, 2, 2, (par 0x10 207 0 1 live).ratv 0x10 207 0x14 * 5 / 6,
     by decide +kernel⟩,
   ⟨{ par 0x10 207 0 1 (live.modFsm 207 fun f => { f with state := .run, bridge := .switching }) with store.age := [(1, 207, { evals := [2, 2], baseline := 1 })] }, 1, 207, 2, 2, ({ par 0x10 207 0 1 (live.modFsm 207 fun f => { f with state := .run, bridge := .switching }) with store.age := [(1, 207, { evals := [2, 2], baseline := 1 })] }).ratv 0x10 207 0x14 * 5 / 6,
     by decide +kernel⟩,
   ⟨{ par 0x10 207 0 1 live with store.age := [(3, 207, { pendingSecond := some (9/10) })], media := { live.media with samples := 24 } }, 207, 9/10, 206,
     by decide +kernel⟩,
   ⟨live, ⟨1, 2, 0, 0, false, 0, 0, [0]⟩, 1, 0, [0], by decide +kernel⟩,
   ⟨live.modInj 63 fun i => { i with heldPkt := some ([], 0) }, 63, ([], 0), by decide +kernel⟩,
   ⟨(par 3 31 0 0xE301 live).modInj 63 fun i => { i with heldPkt := some ([239, 1, 2, 3, 0x13, 0x8C] ++ rtp0, 0) }, 63, ([239, 1, 2, 3, 0x13, 0x8C] ++ rtp0, 0),
     by decide +kernel⟩,
   ⟨live.modInj 64 fun i => { i with heldPkt := some ([1], 0) }, ([1], 0), (live.modInj 64 fun i => { i with heldPkt := some ([1], 0) }).modInj 64 fun j => { j with heldPkt := none },
     by decide +kernel⟩,
   ⟨live.modInj 64 fun i => { i with heldPkt := some ([2], 0) }, ([2], 0), (live.modInj 64 fun i => { i with heldPkt := some ([2], 0) }).modInj 64 fun j => { j with heldPkt := none },
     by decide +kernel⟩,
   ⟨live.modInj 64 fun i => { i with heldPkt := some ([3], 0) }, ([3], 0), (live.modInj 64 fun i => { i with heldPkt := some ([3], 0) }).modInj 64 fun j => { j with heldPkt := none },
     by decide +kernel⟩,
   ⟨live.modInj 64 fun i => { i with heldPkt := some ([4], 0) }, ([4], 0), (live.modInj 64 fun i => { i with heldPkt := some ([4], 0) }).modInj 64 fun j => { j with heldPkt := none },
     by decide +kernel⟩,
   ⟨live.modInj 64 fun i => { i with heldPkt := some ([5], 0) }, ([5], 0), (live.modInj 64 fun i => { i with heldPkt := some ([5], 0) }).modInj 64 fun j => { j with heldPkt := none },
     by decide +kernel⟩,
   ⟨live.modInj 64 fun i => { i with heldPkt := some ([6], 0) }, ([6], 0), (live.modInj 64 fun i => { i with heldPkt := some ([6], 0) }).modInj 64 fun j => { j with heldPkt := none },
     by decide +kernel⟩,
   ⟨live.modInj 64 fun i => { i with heldPkt := some ([], 0) }, ([], 0), by decide +kernel⟩⟩

theorem witness_CountersStopAtTheirLargestValue :
    (∃ (n : Nat), 1 ≤ n) ∧
    (∃ (s : State), windowLive s = true) :=
  ⟨⟨1, by decide +kernel⟩,
   ⟨live, by decide +kernel⟩⟩

theorem witness_HardStopsActByState :
    (∃ (c : Nat) (s : State), c < 208 ∧ (s.chan c).fsm.state = .off) ∧
    (∃ (c : Nat) (s : State), c < 208 ∧ (s.chan c).fsm.state ≠ .off ∧ (s.chan c).fsm.state ≠ .fault ∧ (s.chan c).fsm.state ≠ .retest) ∧
    (∃ (c : Nat) (code : Nat) (s : State), c < 208 ∧ ((s.chan c).fsm.state = .fault ∨ (s.chan c).fsm.state = .retest) ∧
      retestable code = true) :=
  ⟨⟨207, live, by decide +kernel⟩,
   ⟨207, inState 207 .run live, by decide +kernel⟩,
   ⟨207, 0x6001, inState 207 .retest live, by decide +kernel⟩⟩

theorem witness_RailFaultsStopFedChannels :
    (∃ (r : Nat) (k : Nat), r < 12 ∧ k < 12 ∧ k ≠ r) ∧
    (∃ (r : Nat) (s : State) (c : Nat), r < 12 ∧ c < 208 ∧ ((s.rail r).state ≠ .regulating ∨ (s.chan c).fsm.state = .off ∨ rcOf c ≠ r)) ∧
    (∃ (r : Nat) (s : State) (c : Nat), r < 12 ∧ c < 208 ∧ (s.rail r).state = .regulating ∧ rcOf c = r ∧ (s.chan c).fsm.state ≠ .off ∧
      (s.chan c).fsm.state ≠ .fault ∧ (s.chan c).fsm.state ≠ .retest) :=
  ⟨⟨11, 10, by decide +kernel⟩,
   ⟨11, live, 207, by decide +kernel⟩,
   ⟨11, inState 207 .run live, 207, by decide +kernel⟩⟩

theorem witness_EventQueueKeepsTheNewest256 :
    (∃ (code : Nat) (inst : Nat) (s : State), canLog s = false ∧ (s.log.waiting.countP fun e => e.1 == code && e.2.1 == inst) < 65535) ∧
    (∃ (code : Nat) (inst : Nat) (s : State), canLog s = false ∧ 65535 ≤ (s.log.waiting.countP fun e => e.1 == code && e.2.1 == inst)) ∧
    (∃ (code : Nat) (s : State), canLog s = true ∧ levelOf code < s.nat 0x01 0 15) ∧
    (∃ (code : Nat) (s : State), canLog s = true ∧ s.nat 0x01 0 15 ≤ levelOf code ∧ s.log.buffer.length < 4096) :=
  ⟨⟨0x1002, 0, State.reset, by decide +kernel⟩,
   ⟨0x1002, 0, { State.reset with log.waiting := List.replicate 65535 (0x1002, 0, []) }, rfl, by rw [List.countP_replicate]; decide⟩,
   ⟨0x1002, par 1 0 15 2 live, by decide +kernel⟩,
   ⟨0x1002, live, by decide +kernel⟩⟩

theorem witness_HostWindowAndResetCommandsComplete :
    (∃ (s : State) (i : Nat), Served i 0x10 s) ∧
    (∃ (s : State) (i : Nat), Served i 0x11 s) ∧
    (∃ (s : State) (i : Nat), Served i 0x12 s ∧ s.cfg.commit = none) ∧
    (∃ (s : State) (i : Nat), Served i 0x13 s ∧ (∀ h ∈ s.spi.held, h.1 ≠ i) ∧ (s.spi.rspReady &&& bit4 i) = 0) ∧
    (∃ (s : State) (i : Nat), Served i 0x14 s ∧ leAt (reqOf s i).payload 0 2 < 208) ∧
    (∃ (s : State) (i : Nat), Served i 0x15 s ∧ leAt (reqOf s i).payload 0 1 = 1) ∧
    (∃ (s : State) (i : Nat), Served i 0x24 s ∧ s.cfg.commit = none ∧ leAt (reqOf s i).payload 0 1 = 0 ∧
      commitRefusal s.keeper.strapTwin s.cfg.active s.cfg.pending = none) ∧
    (∃ (s : State) (i : Nat), Served i 0x41 s ∧ leAt (reqOf s i).payload 4 1 = 1 ∧ leAt (reqOf s i).payload 0 4 % 4 = 0 ∧
      leAt (reqOf s i).payload 0 4 + 4 ≤ 0xC00000 ∧ MemSound s) ∧
    (∃ (s : State) (i : Nat), Served i 0x50 s ∧
      testStatus (leAt (reqOf s i).payload 0 2) (leAt (reqOf s i).payload 2 2) (reqOf s i).force ((reqOf s i).payload.drop 4) s = stOk) ∧
    (∃ (s : State) (i : Nat) (k : Nat), Served i 0x52 s ∧ unlocked s.cfg.active = true ∧ k < 65 ∧
      injectorOf s.cfg.active (leAt (reqOf s i).payload 0 2) (leAt (reqOf s i).payload 2 1) = some k ∧
      leAt (reqOf s i).payload 3 1 = 1 ∧ leAt (reqOf s i).payload 4 1 = 0 ∧ leAt (reqOf s i).payload 8 4 ≤ 1000000) ∧
    (∃ (s : State) (i : Nat), Served i 0x60 s ∧ updateArgsBad (leAt (reqOf s i).payload 0 4) (leAt (reqOf s i).payload 4 4) s = false) ∧
    (∃ (s : State) (i : Nat), Served i 0x61 s ∧ updateData (leAt (reqOf s i).payload 0 4) ((reqOf s i).payload.drop 4) s = true) ∧
    (∃ (s : State) (i : Nat), Served i 0x62 s ∧ s.store.updLen ≠ 0 ∧ s.store.updLen ≤ s.store.updGot ∧
      imageGood (leAt (reqOf s i).payload 0 4) s.store = true) ∧
    (∃ (s : State) (i : Nat) (h : Nat × List Byte), s.spi.held.find? (·.1 == i) = some h ∧ s.keeper.halted = false ∧
      (s.spi.rspReady &&& bit4 i) = 0 ∧ s.keeper.resetWait ≠ some i) ∧
    (∃ (s : State) (p : List Byte), firmwareRuns s = true ∧ s.keeper.cfgLoaded = true ∧ heldFor s 0 = false ∧ 20 ≤ p.length ∧
      leAt p 0 1 = 0 ∧ leAt p 1 1 = 1 ∧ (s.spi.reqBusy &&& bit4 0) = 0 ∧ (s.spi.rspReady &&& bit4 0) = 0 ∧ leAt (p.drop 4) 6 2 ≤ 240 ∧
      (p.drop 4).length = 16 + leAt (p.drop 4) 6 2) ∧
    (∃ (s : State) (n : Nat), windowLive s = true ∧ 4 ≤ n) ∧
    (∃ (s : State) (a : Nat), windowLive s = true ∧ 0x400 ≤ a ∧ a < 0x800) ∧
    (∃ (s : State), windowLive s = true ∧ s.keeper.dev ≠ .standby) ∧
    (∃ (s : State), windowLive s = true ∧ (s.keeper.stage = 2 ∨ s.keeper.stage = 0xE) ∧ s.keeper.imgCount < bankSize) ∧
    (∃ (s : State), windowLive s = true ∧ (s.keeper.stage = 2 ∨ s.keeper.stage = 0xE) ∧ s.keeper.imgCount ≤ bankSize ∧
      fwHeadOk s.keeper.img = true) ∧
    (∃ (s : State), s.power.islandReset = true) ∧
    (∃ (s : State), s.power.islandReset = false ∧ s.power.resetN = true) ∧
    (∃ (s : State), s.power.islandReset = false ∧ s.power.resetN = false ∧ s.power.pll = true) ∧
    (∃ (s : State) (v : Rat), s.power.islandReset = false ∧ s.power.warn = true ∧ s.power.warnV + 1/2 ≤ v) ∧
    (∃ (s : State), s.power.islandReset = false ∧ s.power.ov = false) ∧
    (∃ (s : State), s.power.islandReset = false ∧ s.power.ov = true ∧ s.power.ovLong = false ∧ s.keeper.dev = .run) ∧
    (∃ (s : State), watchdogCounts s = true) ∧
    (∃ (s : State) (v : Rat), busRules s = true ∧ s.power.warn = false ∧ v ≤ s.power.warnV + warnBand s) ∧
    (∃ (s : State) (c : Nat), s.power.falling = true ∧ allSilent s = true ∧ c < 208) ∧
    (∃ (s : State), s.store.lastPending = true ∧ canLog s = true ∧ busRules s = true ∧ flashOn s = true) ∧
    (∃ (s : State), s.keeper.dev = .safe ∧ s.power.dipped = true ∧ s.power.warn = false ∧ s.flag 0x01 0 0 = true ∧ s.power.ov = false ∧
      s.misc.junctionHot = false ∧ s.keeper.halted = false ∧ s.store.lastPending = false) :=
  ⟨⟨asks 0 0x10 [] (inDev .ready live), 0, by unfold Served; decide +kernel⟩,
   ⟨asks 0 0x11 [] live, 0, by unfold Served; decide +kernel⟩,
   ⟨asks 0 0x12 [] live, 0, by unfold Served; decide +kernel⟩,
   ⟨asks 3 0x13 [] live, 3, by unfold Served; decide +kernel⟩,
   ⟨asks 0 0x14 (le 4 207) live, 0, by unfold Served; decide +kernel⟩,
   ⟨asks 0 0x15 (le 4 1) live, 0, by unfold Served; decide +kernel⟩,
   ⟨asks 0 0x24 (zeros 12) live, 0, by unfold Served; decide +kernel⟩,
   ⟨asks 0 0x41 (le 4 0xBFFFFC ++ le 4 1 ++ le 4 5) live, 0, by unfold Served MemSound; decide +kernel⟩,
   ⟨asks 0 0x50 (le 2 4 ++ le 2 0) live, 0, by unfold Served; decide +kernel⟩,
   ⟨asks 0 0x52 (le 2 0xFFFF ++ [2, 1] ++ le 4 0 ++ le 4 1000000 ++ le 4 1) unlockedLive, 0, 64, by refine ⟨?_, ?_, ?_, ?_, ?_, ?_, ?_⟩ <;> first | decide +kernel | (unfold Served; decide +kernel) | exact live_unlocked _⟩,
   ⟨asks 0 0x60 (le 4 64 ++ le 4 1) (inDev .ready live), 0, by unfold Served; decide +kernel⟩,
   ⟨{ asks 0 0x61 (le 4 0 ++ le 4 0xFF) (inDev .update live) with store.updBankB := true, store.updLen := 64 }, 0, by unfold Served; decide +kernel⟩,
   ⟨{ asks 0 0x62 (le 4 (crc32 image0).toNat) (inDev .update live) with store.updLen := 64, store.updGot := 64, store.fwA.bytes := image0 }, 0, by unfold Served; decide +kernel⟩,
   ⟨{ live with spi.held := [(3, [])] }, 3, (3, []), by decide +kernel⟩,
   ⟨live, [0, 1, 0, 0] ++ zeros 16, by decide +kernel⟩,
   ⟨live, 4, by decide +kernel⟩,
   ⟨live, 0x400, by decide +kernel⟩,
   ⟨live, by decide +kernel⟩,
   ⟨{ live with keeper := { live.keeper with stage := 0xE, imgCount := bankSize - 1, img := [] } }, by decide +kernel⟩,
   ⟨{ live with keeper := { live.keeper with stage := 2, imgCount := 64, img := image0 } }, by decide +kernel⟩,
   ⟨State.reset, by decide +kernel⟩,
   ⟨live, by decide +kernel⟩,
   ⟨{ live with power.resetN := false }, by decide +kernel⟩,
   ⟨{ live with power := { live.power with warn := true, tw := true } }, 9, by decide +kernel⟩,
   ⟨live, by decide +kernel⟩,
   ⟨{ live with power.ov := true }, by decide +kernel⟩,
   ⟨live, by decide +kernel⟩,
   ⟨live, 8, by decide +kernel⟩,
   ⟨{ live with power.falling := true }, 207, by decide +kernel⟩,
   ⟨{ live with store.lastPending := true }, by decide +kernel⟩,
   ⟨par 1 0 0 1 { live with keeper := { live.keeper with dev := .safe, safeCauses := [1] }, power.dipped := true }, by decide +kernel⟩⟩

theorem witness_SupplyBootCommitAndStartRowsComplete :
    (∃ (s : State), s.power.islandReset = false ∧ s.power.resetN = true ∧ s.power.pll = false) ∧
    (∃ (s : State), s.power.seqActive = true ∧ 5 ≤ s.power.seqStep) ∧
    (∃ (s : State), s.power.retryWait = true) ∧
    (∃ (s : State), s.power.seqDone = true ∧ s.keeper.stage = 3 ∧ s.keeper.strapBoot = true ∧ s.keeper.halted = false) ∧
    (∃ (s : State), s.keeper.stage = 4 ∧ s.keeper.halted = false ∧ fwBodyOk s.store.fwA.bytes = true) ∧
    (∃ (s : State), s.power.seqDone = true ∧ s.keeper.stage = 6 ∧ s.media.locked = false ∧ s.keeper.halted = false) ∧
    (∃ (s : State) (d : Nat) (vdrv : Rat), d < 4 ∧ s.media.locked = true ∧ s.keeper.stage = 6 ∧ s.keeper.halted = false ∧
      (s.dsd d).released = false ∧ (s.dsd d).failed = false ∧ vdrvInWindow (s.keeper.strapDrv / 2 ^ d % 2 == 1) vdrv = true) ∧
    (∃ (s : State), s.keeper.stage = 7 ∧ s.keeper.cfgLoaded = false ∧ s.keeper.halted = false) ∧
    (∃ (s : State), s.keeper.halted = false ∧ s.keeper.stage = 7 ∧ s.keeper.cfgLoaded = true) ∧
    (∃ (s : State) (n : Nat) (frame : List Byte), s.keeper.dev = .standby ∧ n < 8 ∧ s.nat 0x02 0 7 / 2 ^ n % 2 = 1 ∧
      s.keeper.waking = false ∧ wakeMatch s n frame = true) ∧
    (∃ (s : State), s.keeper.dev = .standby ∧ s.keeper.waking = false ∧ s.nat 0x01 0 2 ≠ 0) ∧
    (∃ (s : State), s.keeper.dev = .standby ∧ s.keeper.wakeHeld = true ∧ s.keeper.waking = false ∧ s.keeper.halted = false) ∧
    (∃ (s : State), s.power.islandReset = false ∧ s.power.resetN = true ∧ s.keeper.halted = false) ∧
    (∃ (s : State), s.keeper.halted = true) ∧
    (∃ (s : State) (die : Nat) (c : Rat), die < 5 ∧ junctionLimit < c ∧ s.power.islandReset = false ∧ s.power.seqDone = true ∧
      s.misc.junctionHot = false ∧ s.keeper.dev = .run) ∧
    (∃ (s : State) (c : Rat), canLog s = true ∧ s.misc.junctionEp = false ∧ s.ratv 0x01 0 0xB ≤ c) ∧
    (∃ (s : State), firmwareRuns s = true ∧ s.keeper.counterUs < s.misc.secondAt) ∧
    (∃ (s : State) (c : Commit) (u : UnitPlan), s.cfg.commit = some c ∧ c.epoch = none ∧ s.keeper.halted = false ∧
      c.units.find? (fun v => !v.armed) = some u ∧ stoppedForUnit s u.unit = true) ∧
    (∃ (s : State) (c : Commit) (u : UnitPlan), s.cfg.commit = some c ∧ s.media.locked = true ∧ s.media.halted = false ∧
      c.units.find? (c.due (winK s)) = some u ∧ c.first.isSome = true ∧ u.armed = true ∧ stoppedForUnit s u.unit = true) ∧
    (∃ (s : State) (c : Nat) (x : XFade), (s.chan c).dsp.xf = some x ∧ 1024 ≤ x.i ∧ c < 208) ∧
    (∃ (s : State) (c : Commit), s.cfg.commit = some c ∧ s.keeper.halted = false ∧ commitOver s c = true) ∧
    (∃ (s : State) (n : Nat), s.cfg.storePending = some n ∧ keeperFree s = true ∧ flashOn s = true ∧ s.keeper.dev ≠ .standby ∧
      s.store.lastPending = false) ∧
    (∃ (s : State) (us : Nat), 2000 ≤ us ∧ s.power.seqDone = true) ∧
    (∃ (s : State) (us : Nat), 2000 ≤ us ∧ s.media.locked = true) ∧
    (∃ (s : State) (rc : Nat), rc < 12 ∧ s.media.locked = true) ∧
    (∃ (s : State) (rc : Nat), rc < 12 ∧ canLog s = true) ∧
    (∃ (s : State) (rc : Nat), rc < 12 ∧ (s.rail rc).secondDue = true ∧ s.keeper.halted = false) ∧
    (∃ (s : State) (rc : Nat), rc < 12 ∧ (s.rail rc).state = .regulating ∧ (s.dsd (rc / 3)).linked = true) ∧
    (∃ (s : State) (rc : Nat), rc < 12 ∧ (s.rail rc).due = true ∧ (s.rail rc).test = 0 ∧ (s.rail rc).state = .off ∧
      railMayStart s rc = true) ∧
    (∃ (s : State) (rc : Nat) (v : Rat), rc < 12 ∧ 9 ≤ v ∧ v ≤ 60 ∧ (s.rail rc).state = .check ∧ (s.rail rc).check = 0) ∧
    (∃ (s : State) (rc : Nat) (isx : Rat), rc < 12 ∧ (s.rail rc).state = .check ∧ (s.rail rc).check = 1 ∧ isx < 1) ∧
    (∃ (s : State) (rc : Nat) (v : Rat) (ms : Rat), rc < 12 ∧ (s.rail rc).state = .softStart ∧ (s.rail rc).stopReq = false ∧
      (s.rail rc).ref = (s.rail rc).setpoint 0 ∧ rampMs s rc + 1 ≤ ms ∧
      absRat (v - (s.rail rc).setpoint 0) ≤ (s.rail rc).setpoint 0 * 3/100) ∧
    (∃ (s : State) (rc : Nat) (v : Rat) (ms : Rat), rc < 12 ∧ (s.rail rc).state = .softStart ∧ rampMs s rc + 2 ≤ ms ∧
      v < (s.rail rc).setpoint 0 / 4) ∧
    (∃ (s : State) (rc : Nat) (ms : Rat), rc < 12 ∧ (s.rail rc).state = .softStart ∧ rampMs s rc + 20 ≤ ms) ∧
    (∃ (s : State) (rc : Nat), rc < 12 ∧ (s.rail rc).state = .retryWait ∧ railMayStart s rc = true ∧
      (s.rail rc).cyc.stoppedAt + 1000 * (s.rail rc).cyc.retryMs ≤ s.keeper.counterUs) :=
  ⟨⟨{ live with power.pll := false }, by decide +kernel⟩,
   ⟨{ live with power := { live.power with seqActive := true, seqDone := false, seqStep := 5, retries := 0 }, keeper.straps := true },
     by decide +kernel⟩,
   ⟨{ live with power.retryWait := true }, by decide +kernel⟩,
   ⟨{ live with keeper := { live.keeper with stage := 3, strapBoot := true } }, by decide +kernel⟩,
   ⟨{ live with keeper.stage := 4, store.fwA.bytes := image0 }, by decide +kernel⟩,
   ⟨{ live with keeper.stage := 6, media.locked := false }, by decide +kernel⟩,
   ⟨{ live with keeper.stage := 6, dsds := Vector.replicate 4 {} }, 3, 6, by decide +kernel⟩,
   ⟨{ live with keeper := { live.keeper with stage := 7, cfgLoaded := false } }, by decide +kernel⟩,
   ⟨{ live with keeper.stage := 7 }, by decide +kernel⟩,
   ⟨par 1 0 5 0x0A000001 (inDev .standby live), 2, List.replicate 6 0xFF ++ zeros 6 ++ [8, 6] ++ zeros 6 ++ [0, 1] ++ zeros 16 ++ [10, 0, 0, 1],
     by decide +kernel⟩,
   ⟨par 1 0 2 1 (inDev .standby live), by decide +kernel⟩,
   ⟨{ live with keeper := { live.keeper with dev := .standby, wakeHeld := true } }, by decide +kernel⟩,
   ⟨live, by decide +kernel⟩,
   ⟨{ live with keeper.halted := true }, by decide +kernel⟩,
   ⟨live, 4, 136, by refine ⟨?_, ?_, ?_, ?_, ?_, ?_⟩ <;> first | decide +kernel | exact junction_below⟩,
   ⟨live, 110, by decide +kernel⟩,
   ⟨{ live with misc.secondAt := 6000000 }, by decide +kernel⟩,
   ⟨inCommit commit0 live, commit0, ⟨.chan 207, 0, false, false, false, false⟩, by decide +kernel⟩,
   ⟨inCommit { commit0 with units := [⟨.chan 207, 101, true, false, false, false⟩], first := some 900 } live, { commit0 with units := [⟨.chan 207, 101, true, false, false, false⟩], first := some 900 }, ⟨.chan 207, 101, true, false, false, false⟩,
     by decide +kernel⟩,
   ⟨live.modDsp 207 fun d => { d with xf := some xf0 }, 207, xf0, by decide +kernel⟩,
   ⟨inCommit { commit0 with units := [] } live, { commit0 with units := [] }, by decide +kernel⟩,
   ⟨{ live with cfg.storePending := some 1 }, 1, by decide +kernel⟩,
   ⟨live, 2000, by decide +kernel⟩,
   ⟨live, 2000, by decide +kernel⟩,
   ⟨live, 11, by decide +kernel⟩,
   ⟨live, 11, by decide +kernel⟩,
   ⟨live.modRail 11 fun q => { q with secondDue := true }, 11, by decide +kernel⟩,
   ⟨live, 11, by decide +kernel⟩,
   ⟨par 7 11 0 1 (live.modRail 11 fun q => { q with state := .off, due := true }), 11, by decide +kernel⟩,
   ⟨par 7 11 0 1 (live.modRail 11 fun q => { q with state := .check }), 11, 60, by decide +kernel⟩,
   ⟨par 7 11 0 1 (live.modRail 11 fun q => { q with state := .check, check := 1 }), 11, 99/100, by decide +kernel⟩,
   ⟨par 7 11 0 1 (live.modRail 11 fun q => { q with state := .softStart }), 11, 0, 1, by decide +kernel⟩,
   ⟨par 7 11 0 1 (live.modRail 11 fun q => { q with state := .softStart, table := [10] }), 11, 2, 2+rampMs (par 7 11 0 1 (live.modRail 11 fun q => { q with state := .softStart, table := [10] })) 11,
     by decide +kernel⟩,
   ⟨par 7 11 0 1 (live.modRail 11 fun q => { q with state := .softStart }), 11, 20, by decide +kernel⟩,
   ⟨par 7 11 0 1 (live.modRail 11 fun q => { q with state := .retryWait }), 11, by decide +kernel⟩⟩

end Sys2Proof.Tests
end

section
/-! PROOFS. The conventions of spec/00_scope.md: counters that saturate, the read-clear count of SPI_ERR, and the values that GET_PARAM and
PEEK answer. -/

namespace Sys2Proof

/-- Read after write at the same key, in any map, for a value that an unlisted key does not read as. -/
theorem SMap.get_put_of_ne_default {α : Type} [DecidableEq α] {d v : α} (hv : v ≠ d) (k : Nat) (m : SMap α) :
    SMap.get d k (SMap.put d k v m) = v := by
  induction m with
  | nil => simp [SMap.put, SMap.get, hv]
  | cons p m ih =>
    obtain ⟨j, w⟩ := p
    rcases Nat.lt_trichotomy k j with h | rfl | h
    · simp [SMap.put, SMap.get, h, hv]
    · simp [SMap.put, SMap.get, hv]
    · simp [SMap.put, SMap.get, h.ne, h.ne', h.not_gt, ih]

end Sys2Proof

namespace Sys2Proof.Machine

/-! ### Saturating counters (R11) -/

/-- A count that stops at the largest 32-bit value fits its word. -/
theorem toNat_word_satAdd (a n : Nat) : (word (satAdd 32 a n)).toNat = min (a + n) 0xFFFFFFFF := by
  simp only [word, satAdd, BitVec.toNat_ofNat]
  omega

/-- A counter reads after `n` events as the saturated sum. At least one event makes the sum nonzero, so the write is read back also where the
map of the counters is not canonical. -/
theorem count_toNat (id : Nat) {n : Nat} (hn : 1 ≤ n) (s : State) :
    (SMap.get 0 id (s.count id n).counters).toNat = min ((SMap.get 0 id s.counters).toNat + n) 0xFFFFFFFF := by
  have hsum := toNat_word_satAdd (SMap.get 0 id s.counters).toNat n
  have hne : word (satAdd 32 (SMap.get 0 id s.counters).toNat n) ≠ 0 := by
    intro h
    rw [h] at hsum
    change 0 = _ at hsum
    omega
  rw [← hsum, State.count, SMap.get_put_of_ne_default hne]

@[simp] theorem irq_errCount (m : Word) (s : State) : (s.irq m).spi.errCount = s.spi.errCount := by
  rw [irq_reports m s]

theorem spiErr_errCount (n : Nat) (s : State) : (spiErr n s).spi.errCount = min (s.spi.errCount + n) 0xFFFF := by
  have hsat : satAdd 16 s.spi.errCount n = min (s.spi.errCount + n) 0xFFFF := rfl
  unfold spiErr
  dsimp only
  split
  · rename_i h; rw [← hsat, h]
  · rw [irq_errCount, hsat]

/-- The command answers the count of one more unknown instruction, with its read byte 0. -/
theorem exec_spiUnknownInstruction {s : State} (op : Byte) (h : windowLive s = true) :
    exec (.spiUnknownInstruction op) s = .next (spiErr 1 { s with spi := { s.spi with sdo := [0] } }) := by
  show execSpiUnknownInstruction op s = _
  rw [execSpiUnknownInstruction, if_pos h]

/-! ### The count of SPI_ERR (R10) -/

theorem exec_spiErrRead {s : State} (n : Nat) (h : windowLive s = true) :
    exec (.spiErrRead n) s = .next { s with spi := { s.spi with
      sdo := le n s.spi.errCount, errCount := if 2 ≤ n then 0 else s.spi.errCount } } := by
  show execSpiErrRead n s = _
  rw [execSpiErrRead, if_pos h]

/-! ### GET_PARAM of configuration parameters (R107) -/

theorem readParam_of_config {id : Nat} (h : (cfgField id).isSome = true) (b : Bool) (s : State) :
    readParam b id s = some ((if b then s.cfg.pending else s.cfg.active).param id, s) := by
  obtain ⟨f, hf⟩ := Option.isSome_iff_exists.mp h
  simp only [readParam, hf]

/-- A list of configuration parameters is read to its end, in order, and leaves the state. -/
theorem readParams_of_config {l : List Nat} (h : ∀ id ∈ l, (cfgField id).isSome = true) (b : Bool) (vs : List Word) (s : State) :
    readParams b l vs s = (stOk, vs ++ l.map (if b then s.cfg.pending else s.cfg.active).param, s) := by
  induction l generalizing vs with
  | nil => simp [readParams]
  | cons id l ih =>
    have hl : ∀ j ∈ l, (cfgField j).isSome = true := fun j hj => h j (List.mem_cons_of_mem _ hj)
    simp [readParams, readParam_of_config (h id List.mem_cons_self), ih hl]

/-- GET_PARAM of a bank and a number of IDs in range answers what the list of its IDs reads as. -/
theorem exec_getParam_served {i : Nat} {s : State} (h : Served i 0x21 s) (hbank : leAt (reqOf s i).payload 0 1 ≤ 1)
    (h1 : 1 ≤ leAt (reqOf s i).payload 2 2) (h59 : leAt (reqOf s i).payload 2 2 ≤ 59) :
    exec (.getParam i) s =
      let q := readParams (leAt (reqOf s i).payload 0 1 == 1) (idList (reqOf s i).payload) [] (take i s)
      .next (reply i (reqOf s i) q.1 (le 2 q.2.1.length ++ [0, 0] ++ wordBytes q.2.1) q.2.2) := by
  show execGetParam i s = _
  rw [execGetParam, serve_served h]
  dsimp only
  rw [if_neg (by omega)]

/-! ### PEEK of the Keeper SRAM (R109, R165, R385) -/

/-- A word below the retention region reads as its descriptor shows it, else from its bytes, and the read changes nothing. -/
theorem xbarRead_sram {a : Nat} (h : a < retentionBase) (s : State) :
    xbarRead a s = some ((descShown s a).getD (word (ofLe (getBytes a 4 s.sram))), s) := by
  have ht : target? s a false = some (.sram a) := if_pos (by unfold retentionBase at h; omega)
  simp only [xbarRead, ht, if_pos h]

/-- A word of the retention region reads as a free value, which is drawn. -/
theorem xbarRead_retention {a : Nat} (h : retentionBase ≤ a) (hend : a < 0xC00000) (s : State) :
    xbarRead a s = some (word s.draw.1, s.draw.2) := by
  have ht : target? s a false = some (.sram a) := if_pos hend
  simp only [xbarRead, ht, if_neg (Nat.not_lt.mpr h)]

theorem peekWords_succ {n a : Nat} {vs : List Word} {s : State} {p : Word × State} (ha : a < 0x100000000) (h : xbarRead a s = some p) :
    peekWords (n + 1) a vs s = peekWords n (a + 4) (vs ++ [p.1]) p.2 := by
  rw [peekWords, Nat.mod_eq_of_lt ha, h]

theorem peekWords_sram {n a : Nat} (h : a + 4 * n ≤ retentionBase) (vs : List Word) (s : State) :
    peekWords n a vs s = (true, vs ++ (List.range n).map fun j =>
      (descShown s (a + 4 * j)).getD (word (ofLe (getBytes (a + 4 * j) 4 s.sram))), s) := by
  induction n generalizing a vs with
  | zero => simp [peekWords]
  | succ n ih =>
    have ha : a < retentionBase := by omega
    rw [peekWords_succ (by unfold retentionBase at ha; omega) (xbarRead_sram ha s), ih (by omega), List.range_succ_eq_map]
    simp [Nat.mul_add, Nat.add_assoc, Nat.add_comm 4]

/-- A range of the retention region is read to its end and only free values are drawn. -/
theorem peekWords_retention {n a : Nat} (h : retentionBase ≤ a) (hend : a + 4 * n ≤ 0xC00000) (vs : List Word) (s : State) :
    ∃ (ws : List Word) (f : Nat), ws.length = n ∧ peekWords n a vs s = (true, vs ++ ws, { s with free := f }) := by
  induction n generalizing a vs s with
  | zero => exact ⟨[], s.free, rfl, by simp [peekWords]⟩
  | succ n ih =>
    obtain ⟨ws, f, hlen, hpeek⟩ := ih (a := a + 4) (by omega) (by omega) (vs ++ [word s.draw.1]) s.draw.2
    refine ⟨word s.draw.1 :: ws, f, by simp [hlen], ?_⟩
    rw [peekWords_succ (by omega) (xbarRead_retention h (by omega) s), hpeek, List.append_assoc]
    rfl

/-- PEEK of an aligned range whose words all answer gives them with the address and their number. -/
theorem exec_peek_served {i a n : Nat} {s t : State} {vs : List Word} (h : Served i 0x40 s) (ha : leAt (reqOf s i).payload 0 4 = a)
    (hn : leAt (reqOf s i).payload 4 1 = n) (h1 : 1 ≤ n) (h58 : n ≤ 58) (halign : a % 4 = 0) (hlen : vs.length = n)
    (hpeek : peekWords n a [] (take i s) = (true, vs, t)) :
    exec (.peek i) s = .next (reply i (reqOf s i) stOk (le 4 a ++ [BitVec.ofNat 8 n, 0, 0, 0] ++ wordBytes vs) t) := by
  show execPeek i s = _
  rw [execPeek, serve_served h]
  dsimp only
  rw [ha, hn, if_neg (by omega), if_neg (not_not.mpr halign), hpeek, hlen]
  rfl

end Sys2Proof.Machine

open Sys2Proof Sys2Proof.Machine

/-- Settles O18, by the one equation of the read, with its test for the whole field decided each way. -/
theorem spiErrReadClearsWhole : Obligations.SpiErrReadClearsWhole := by
  intro n s hlive
  refine ⟨fun h2 => ?_, fun h2 => ?_⟩
  · rw [exec_spiErrRead n hlive, if_pos h2]
  · rw [exec_spiErrRead n hlive, if_neg (Nat.not_le.mpr h2)]

/-- Settles O55: both counts are saturated sums, of any number of events and of one unknown instruction. -/
theorem countersStopAtTheirLargestValue : Obligations.CountersStopAtTheirLargestValue := by
  intro s
  refine ⟨fun id n hn => count_toNat id hn s, fun op hlive => ?_⟩
  exact ⟨_, exec_spiUnknownInstruction op hlive, spiErr_errCount 1 _⟩

/-- Settles O7: taking the request leaves the banks, the rings and the SRAM, so the values are those of the state before. -/
theorem getParamAndPeekReadValues : Obligations.GetParamAndPeekReadValues := by
  intro i s
  refine ⟨?getParam, ?peekSram, ?peekRetention⟩
  case getParam =>
    intro bank n hserved hbank hbank1 hn h1 h59 hids
    have hlen : (idList (reqOf s i).payload).length = n := by simp [idList, hn]
    rw [exec_getParam_served hserved (by omega) (by omega) (by omega), readParams_of_config hids, hbank]
    simp only [List.nil_append, List.length_map, hlen, beq_iff_eq]
    rfl
  case peekSram =>
    intro a n hserved ha hn h1 h58 halign hend
    exact exec_peek_served hserved ha hn h1 h58 halign (by simp) (peekWords_sram hend [] (take i s))
  case peekRetention =>
    intro a n hserved ha hn h1 h58 halign hbase hend
    obtain ⟨vs, f, hlen, hpeek⟩ := peekWords_retention hbase hend [] (take i s)
    exact ⟨vs, f, hlen, exec_peek_served hserved ha hn h1 h58 halign hlen hpeek⟩

end

section
/-! PROOFS. The records of the event queue and of the log buffer (R30, R105, R396, R397). -/

namespace Sys2Proof.Machine

/-- The log buffer loses one record where it has one of a low level to lose. -/
theorem dropNewestLow_length {l b : List Record} (h : dropNewestLow l = some b) : b.length + 1 = l.length := by
  induction l generalizing b with
  | nil => cases h
  | cons r l ih =>
    rw [dropNewestLow] at h
    split at h
    · rename_i k hk
      cases h
      simp [ih hk]
    · split at h <;> cases h
      rfl

/-- The queue keeps the newest 256 records, whatever it held. -/
theorem length_drop_newest (q : List Record) (r : Record) : ((q ++ [r]).drop (q.length + 1 - 256)).length ≤ 256 := by
  rw [List.length_drop, List.length_append, List.length_singleton]
  omega

/-- What one record does to the queue, the sequence number and the buffer: it enters the queue, and the buffer where its level and the room
allow; a full buffer gives up a record of a low level for one of level 2, or the new one is lost. -/
theorem logRecord_entered (m : Nat) (r : Record) (l : Log) :
    ∃ q : Record, q.code = r.code ∧ q.inst = r.inst ∧ q.data = r.data ∧ q.seq = r.seq ∧ q.level = r.level ∧
      (logRecord m r l).1.queue = (l.queue ++ [q]).drop (l.queue.length + 1 - 256) ∧
      (logRecord m r l).1.nextSeq = l.nextSeq + 1 ∧
      (logRecord m r l).1.buffer.length ≤ max 4096 l.buffer.length ∧
      (r.level < m → (logRecord m r l).1.buffer = l.buffer) ∧
      (m ≤ r.level → l.buffer.length < 4096 → (logRecord m r l).1.buffer = l.buffer ++ [q]) := by
  unfold logRecord
  dsimp only
  by_cases hlevel : r.level < m
  · rw [if_pos hlevel]
    exact ⟨r, rfl, rfl, rfl, rfl, rfl, by dsimp only, rfl, le_max_right _ _, fun _ => rfl, fun h => absurd hlevel (Nat.not_lt.mpr h)⟩
  rw [if_neg hlevel]
  by_cases hroom : l.buffer.length < 4096
  · rw [if_pos hroom]
    refine ⟨{ r with lostBefore := l.lostBefore }, rfl, rfl, rfl, rfl, rfl, by dsimp only, rfl, ?_, fun h => absurd h hlevel, fun _ _ => rfl⟩
    rw [List.length_append, List.length_singleton]
    omega
  rw [if_neg hroom]
  split
  · rename_i b hb
    have hlen : b.length + 1 = l.buffer.length := by
      split at hb
      · exact dropNewestLow_length hb
      · cases hb
    refine ⟨{ r with lostBefore := true }, rfl, rfl, rfl, rfl, rfl, by dsimp only, rfl, ?_, fun h => absurd h hlevel, fun _ h => absurd h hroom⟩
    rw [List.length_append, List.length_singleton, hlen]
    exact le_max_right _ _
  · exact ⟨r, rfl, rfl, rfl, rfl, rfl, by dsimp only, rfl, le_max_right _ _, fun h => absurd h hlevel, fun _ h => absurd h hroom⟩

/-- The log after a record has been entered. -/
theorem enter_log (code inst : Nat) (data : List Word) (s : State) :
    (s.enter code inst data).log =
      (logRecord (s.nat 0x01 0 15) ⟨(recTime s).1, code, inst, s.log.nextSeq, data, levelOf code, (recTime s).2, false⟩ s.log).1 := by
  unfold State.enter
  dsimp only
  rw [irq_log]
  split <;> rfl

theorem raise_serving {s : State} (h : canLog s = true) (code inst : Nat) (data : List Word) :
    s.raise code inst data = s.enter code inst data := if_pos h

theorem raise_waiting {s : State} (h : canLog s = false) (code inst : Nat) (data : List Word) :
    s.raise code inst data = { s with log := s.log.cross code inst data } := if_neg (by simp [h])

end Sys2Proof.Machine

open Sys2Proof Sys2Proof.Machine

/-- Settles O58: while the Keeper does not serve, by the two ways into a crossing; while it serves, by what one record does to the log. -/
theorem eventQueueKeepsTheNewest256 : Obligations.EventQueueKeepsTheNewest256 := by
  intro code inst data s
  refine ⟨fun hwait hfew => ?_, fun hwait hmany => ?_, fun hserve => ?_⟩
  · rw [raise_waiting hwait, Log.cross, if_pos hfew]
  · rw [raise_waiting hwait, Log.cross, if_neg (Nat.not_lt.mpr hmany)]
  · obtain ⟨r, hcode, hinst, hdata, hseq, hlevel, hqueue, hnext, hlen, hlow, hhigh⟩ := logRecord_entered (s.nat 0x01 0 15)
      ⟨(recTime s).1, code, inst, s.log.nextSeq, data, levelOf code, (recTime s).2, false⟩ s.log
    rw [raise_serving hserve, enter_log]
    exact ⟨r, hcode, hinst, hdata, hseq, hlevel, hqueue, hqueue ▸ length_drop_newest _ r, hnext, hlen, hlow, hhigh⟩

end

section
/-! PROOFS. The Keeper's halt and resume, its clock and the wake from STANDBY (R36, R79 to R81, R90, R163). -/

namespace Sys2Proof.Machine

/-! ### What a loop keeps -/

/-- What every step of a fold keeps holds after it. -/
theorem foldl_invariant {α σ : Type} {P : σ → Prop} {f : σ → α → σ} (hf : ∀ s a, P s → P (f s a)) (l : List α) {s : σ} (h : P s) :
    P (l.foldl f s) := List.foldlRecOn l f h fun s hs a _ => hf s a hs

/-- What every step of a loop over units keeps holds after it. -/
theorem forUnits_invariant {P : State → Prop} {f : Nat → State → State} (hf : ∀ c s, P s → P (f c s)) (n : Nat) {s : State} (h : P s) :
    P (forUnits n f s) := by
  unfold forUnits
  exact foldl_invariant (fun s c => hf c s) _ h

/-! ### Bits that waited -/

/-- The Keeper runs, no interrupt bit waits for it, and the bits of `w` are set. -/
def Awake (w : Word) (s : State) : Prop := s.keeper.halted = false ∧ s.spi.irqWait = 0 ∧ s.spi.irqStatus &&& w = w

theorem and_or_of_and {v w : Word} (m : Word) (h : v &&& w = w) : (v ||| m) &&& w = w := by
  ext i hi
  have hbit := congrArg (·[i]) h
  simp only [BitVec.getElem_and, BitVec.getElem_or] at hbit ⊢
  grind

@[simp] theorem send_spi (f : Sent) (s : State) : (s.send f).spi = s.spi := by
  unfold State.send
  dsimp only
  split <;> rfl

@[simp] theorem send_keeper (f : Sent) (s : State) : (s.send f).keeper = s.keeper := by rw [send_reports f s]

theorem irq_spi (m : Word) (s : State) : (s.irq m).spi = irqSpi s.keeper.halted m s.spi := by
  unfold State.irq
  exact foldl_invariant (P := fun t => t.spi = irqSpi s.keeper.halted m s.spi) (fun t f h => (send_spi f t).trans h) _
    (s := { s with spi := irqSpi s.keeper.halted m s.spi }) rfl

/-- Setting further bits of IRQ_STATUS clears none. -/
theorem Awake.irq {w : Word} {s : State} (m : Word) (h : Awake w s) : Awake w (s.irq m) := by
  obtain ⟨hrun, hnone, hset⟩ := h
  rw [Awake, irq_spi, (irq_fields m s).1, hrun]
  exact ⟨rfl, hnone, and_or_of_and m hset⟩

/-- The bits that waited are set once the Keeper runs and none waits. -/
theorem awake_irq_waited {s : State} (w : Word) (hrun : s.keeper.halted = false) (hnone : s.spi.irqWait = 0) : Awake w (s.irq w) := by
  rw [Awake, irq_spi, (irq_fields w s).1, hrun]
  exact ⟨rfl, hnone, by
    rw [irqSpi, if_neg Bool.false_ne_true]
    dsimp only
    rw [BitVec.or_comm]
    exact and_or_of_and _ BitVec.and_self⟩

theorem Awake.of_eq {w : Word} {s t : State} (h : Awake w s) (hk : t.keeper = s.keeper) (hs : t.spi = s.spi) : Awake w t := by
  rw [Awake, hk, hs]; exact h

theorem Awake.send {w : Word} {s : State} (f : Sent) (h : Awake w s) : Awake w (s.send f) := h.of_eq (send_keeper f s) (send_spi f s)

theorem Awake.sendAll {w : Word} {s : State} (l : List Sent) (h : Awake w s) : Awake w (sendAll l s) :=
  foldl_invariant (fun _ f h => h.send f) l h

theorem Awake.enter {w : Word} {s : State} (code inst : Nat) (data : List Word) (h : Awake w s) : Awake w (s.enter code inst data) := by
  unfold State.enter
  dsimp only
  refine Awake.irq _ ?_
  split <;> exact h.of_eq rfl rfl

theorem Awake.raiseWaiting {w : Word} {s : State} (h : Awake w s) : Awake w s.raiseWaiting := by
  unfold State.raiseWaiting
  exact foldl_invariant (fun _ _ h => h.enter _ _ _) _ (foldl_invariant (fun _ _ h => h.enter _ _ _) _ (h.of_eq rfl rfl))

theorem Awake.answerQuery {w : Word} {s : State} (p version group : Nat) (h : Awake w s) : Awake w (answerQuery p version group s) := by
  unfold Machine.answerQuery
  exact Awake.sendAll _ (h.of_eq rfl rfl)

theorem Awake.serveQueries {w : Word} {s : State} (p : Nat) (h : Awake w s) : Awake w (serveQueries p s) := by
  unfold Machine.serveQueries
  exact foldl_invariant (fun _ _ h => h.answerQuery _ _ _) _ (h.of_eq rfl rfl)

theorem Awake.serveReports {w : Word} {s : State} (p : Nat) (h : Awake w s) : Awake w (serveReports p s) := by
  have hp : Awake w (s.modPort p fun q => { q with reportHeld := [] }) := h.of_eq rfl rfl
  unfold Machine.serveReports reportChange
  split
  · exact hp
  split
  · exact hp.of_eq rfl rfl
  · exact Awake.sendAll _ (hp.of_eq rfl rfl)

/-- A host datagram is posted, dropped, or finds its mailbox busy. -/
theorem Awake.hostTake {w : Word} {s : State} (addr port dst dport : Nat) (l : List Byte) (h : Awake w s) :
    Awake w (hostTake addr port dst dport l s) := by
  unfold Machine.hostTake ring
  dsimp only
  split
  · split
    · split
      · exact h
      · exact Awake.irq _ h
    · exact h.of_eq rfl rfl
  · exact h

theorem Awake.keeperServes {w : Word} {s : State} (p : Nat) (f : List Byte) (h : Awake w s) : Awake w (keeperServes p f s) := by
  unfold Machine.keeperServes
  dsimp only
  split
  · exact h.hostTake _ _ _ _ _
  · exact h.sendAll _

theorem Awake.returnRing {w : Word} {s : State} (p : Nat) (h : Awake w s) : Awake w (returnRing p s) := by
  unfold Machine.returnRing
  exact (foldl_invariant (P := Awake w) (f := fun s (d : Nat × Word) => ringGive p d.1 s) (fun _ _ h => h.of_eq rfl rfl) _ h).of_eq rfl rfl

theorem Awake.serveRing {w : Word} {s : State} (p : Nat) (h : Awake w s) : Awake w (serveRing p s) := by
  unfold Machine.serveRing
  split
  · exact (foldl_invariant (fun _ _ h => h.keeperServes p _) _ h).returnRing p
  · exact h

/-! ### A resume that finds no frame -/

/-- Like `s`, with no frame in a ring. -/
def RingsEmpty (s t : State) : Prop := Quiet s t ∧ ∀ p, (t.port p).ring = []

theorem Quiet.rfl' (s : State) : Quiet s s := ⟨rfl, rfl, rfl, rfl⟩

theorem Quiet.trans {s t u : State} (h : Quiet s t) (k : Quiet t u) : Quiet s u := by
  obtain ⟨h1, h2, h3, h4⟩ := h
  obtain ⟨k1, k2, k3, k4⟩ := k
  exact ⟨k1.trans h1, k2.trans h2, k3.trans h3, k4.trans h4⟩

/-- A change of a port that leaves its ring leaves every ring. -/
theorem modPort_ring (s : State) (p : Nat) {f : Port → Port} (hf : ∀ q, (f q).ring = q.ring ∨ (f q).ring = []) (k : Nat)
    (h : (s.port k).ring = []) : ((s.modPort p f).port k).ring = [] := by
  by_cases hk : k = p
  · subst hk
    by_cases hlt : k < 3
    · rw [port_modPort_self s f hlt]
      exact (hf _).elim (fun e => e.trans h) id
    · have e : (s.modPort k f).port k = s.port k := by simp [State.modPort, State.port, hlt]
      rw [e, h]
  · have e : (s.modPort p f).port k = s.port k := by
      simp [State.modPort, State.port, Vector.getElem?_setIfInBounds_ne (Ne.symm hk)]
    rw [e, h]

theorem sendAll_ports (l : List Sent) (s : State) : (sendAll l s).ports = s.ports := by
  rw [sendAll, foldl_send_reports]

theorem RingsEmpty.of_ports {s t u : State} (h : RingsEmpty s t) (hq : Quiet t u) (hp : u.ports = t.ports) : RingsEmpty s u :=
  ⟨h.1.trans hq, fun p => by unfold State.port; rw [hp]; exact h.2 p⟩

theorem RingsEmpty.modPort {s t : State} (h : RingsEmpty s t) (p : Nat) {f : Port → Port} (hf : ∀ q, (f q).ring = q.ring ∨ (f q).ring = []) :
    RingsEmpty s (t.modPort p f) :=
  ⟨h.1.trans ⟨rfl, rfl, rfl, rfl⟩, fun k => modPort_ring t p hf k (h.2 k)⟩

theorem RingsEmpty.sendAll {s t : State} (h : RingsEmpty s t) (l : List Sent) : RingsEmpty s (sendAll l t) :=
  h.of_ports (sendAll_frame l t) (sendAll_ports l t)

theorem RingsEmpty.serveQueries {s t : State} (h : RingsEmpty s t) (p : Nat) : RingsEmpty s (serveQueries p t) := by
  unfold Machine.serveQueries
  refine foldl_invariant (P := RingsEmpty s) (fun u e hu => ?_) _ (h.modPort p fun q => .inl rfl)
  refine RingsEmpty.sendAll (hu.modPort p fun q => .inl ?_) _
  split
  · rfl
  split <;> rfl

theorem RingsEmpty.serveReports {s t : State} (h : RingsEmpty s t) (p : Nat) : RingsEmpty s (serveReports p t) := by
  have hp := h.modPort p (f := fun q => { q with reportHeld := [] }) fun q => .inl rfl
  unfold Machine.serveReports reportChange
  split
  · exact hp
  split
  · exact hp.modPort p fun q => .inl rfl
  · exact (hp.modPort p (f := fun q => { q with reportDue := q.reportDue ++ (t.port p).reportHeld }) fun q => .inl rfl).sendAll _

/-- A ring without a frame is served without a word written. -/
theorem RingsEmpty.serveRing {s t : State} (h : RingsEmpty s t) (p : Nat) : RingsEmpty s (serveRing p t) := by
  unfold Machine.serveRing
  split
  · rw [show ringFrames (t.port p) = [] by rw [ringFrames, h.2 p]; rfl, List.foldl_nil, returnRing, h.2 p, List.foldl_nil]
    exact h.modPort p fun q => .inr rfl
  · exact h

/-! ### The rows -/

/-- The state of a resume before what waited in the ports is served: the Keeper runs, and bits and events that waited have been set and
recorded. -/
def resumed (s : State) : State :=
  let t := ({ s with keeper := { s.keeper with halted := false }, spi := { s.spi with irqWait := 0 } } : State).irq s.spi.irqWait
  if s.keeper.serving then t.raiseWaiting else t

theorem exec_keeperResume {s : State} (h : s.keeper.halted = true) :
    exec .keeperResume s = .next (forUnits 3 (fun p s => serveRing p (serveReports p (serveQueries p s))) (resumed s)) := by
  show execKeeperResume s = _
  rw [execKeeperResume, if_pos h]
  rfl

theorem resumed_awake (s : State) : Awake s.spi.irqWait (resumed s) := by
  unfold resumed
  have h := awake_irq_waited (s := { s with keeper := { s.keeper with halted := false }, spi := { s.spi with irqWait := 0 } })
    s.spi.irqWait rfl rfl
  dsimp only
  split
  · exact h.raiseWaiting
  · exact h

theorem resumed_reports (s : State) :
    Reports { s with keeper := { s.keeper with halted := false }, spi := { s.spi with irqWait := 0 } } (resumed s) := by
  unfold resumed
  dsimp only
  split
  · exact (irq_reports _ _).trans (raiseWaiting_reports _)
  · exact irq_reports _ _

theorem resumed_quiet (s : State) : Quiet s (resumed s) := by
  unfold Quiet
  rw [resumed_reports s]
  exact ⟨rfl, rfl, rfl, rfl⟩

theorem resumed_ports (s : State) : (resumed s).ports = s.ports := by rw [resumed_reports s]

theorem port_of_le {p : Nat} (h : 3 ≤ p) (s : State) : s.port p = {} := by
  simp [State.port, Vector.getElem?_eq_none h]

/-- What a resume does: the Keeper runs with the bits that waited set, and where no ring holds a frame nothing is written. -/
theorem keeperResume_resumes {s : State} (h : s.keeper.halted = true) : ∃ t, exec .keeperResume s = .next t ∧ Awake s.spi.irqWait t ∧
    ((∀ p : Nat, p < 3 → (s.port p).ring = []) → Quiet s t) := by
  refine ⟨_, exec_keeperResume h, ?_, fun hring => ?_⟩
  · exact forUnits_invariant (fun p _ h => ((h.serveQueries p).serveReports p).serveRing p) 3 (resumed_awake s)
  · have hempty : RingsEmpty s (resumed s) := ⟨resumed_quiet s, fun p => by
      unfold State.port
      rw [resumed_ports]
      by_cases hp : p < 3
      · exact hring p hp
      · exact congrArg Port.ring (port_of_le (Nat.not_lt.mp hp) s)⟩
    exact (forUnits_invariant (fun p _ h => ((h.serveQueries p).serveReports p).serveRing p) 3 hempty).1

theorem wakeEvent_held {s : State} (h : s.keeper.waking = false) : wakeEvent s = { s with keeper := { s.keeper with wakeHeld := true } } :=
  if_neg (by simp [h])

@[simp] theorem fillRing_keeper (p : Nat) (frame : List Byte) (bad : Bool) (s : State) : (fillRing p frame bad s).keeper = s.keeper := by
  have hput : ∀ (s0 : State) (l : List Nat) (g : Nat → State → State), (∀ i s, (g i s).keeper = s.keeper) →
      (l.foldl (fun s i => g i s) s0).keeper = s0.keeper := fun s0 l g hg =>
    foldl_invariant (P := fun t => t.keeper = s0.keeper) (fun t i h => (hg i t).trans h) l rfl
  unfold fillRing
  dsimp only
  split
  · exact hput _ _ (fun i s => ringPut p _ _ _ s) fun i s => rfl
  · exact hput _ _ (fun i s => ringPut p _ _ _ s) fun i s => rfl

theorem wakes_of_match {s : State} {n : Nat} {frame : List Byte} (hn : n < 8) (hon : s.nat 0x02 0 7 / 2 ^ n % 2 = 1)
    (h : wakeMatch s n frame = true) : wakes s frame = true :=
  List.any_eq_true.mpr ⟨n, List.mem_range.mpr hn, by simp [hon, h]⟩

/-- A frame that wakes: the event is held and the frame stands in the ring of NM. -/
theorem wakeTakes_of_asleep {s : State} (frame : List Byte) (h : s.keeper.waking = false) :
    wakeTakes frame s = { portCount 2 0 1 (fillRing 2 frame false s) with keeper := { s.keeper with wakeHeld := true } } := by
  have hk : (portCount 2 0 1 (fillRing 2 frame false s)).keeper = s.keeper := fillRing_keeper 2 frame false s
  rw [wakeTakes, wakeEvent_held (by rw [hk]; exact h), hk]

end Sys2Proof.Machine

open Sys2Proof Sys2Proof.Machine

/-- Settles O26: each row by the state that it leaves; the resume by what its services keep. -/
theorem keeperClockAndWake : Obligations.KeeperClockAndWake := by
  intro s
  refine ⟨?halt, ?resume, ?heartbeat, ?timer, ?pattern, ?wake⟩
  case halt =>
    intro hisland hreset hhalted
    show execKeeperHalt s = _
    rw [execKeeperHalt, if_pos (by simp [islandUp, hisland, hreset, hhalted])]
  case resume =>
    intro hhalted
    obtain ⟨t, hexec, ⟨hrun, hnone, hset⟩, hquiet⟩ := keeperResume_resumes hhalted
    exact ⟨t, hexec, hrun, fun hports => hquiet fun p hp => (hports p hp).1, hnone, hset⟩
  case heartbeat =>
    intro hruns
    show execHeartbeat s = _
    rw [execHeartbeat, if_pos hruns]
  case timer =>
    intro hdev hwaking hset
    show execStandbyWakeTimer s = _
    rw [execStandbyWakeTimer, if_pos (by simp [hdev, hwaking, hset]), wakeEvent_held hwaking]
  case pattern =>
    intro n frame hdev hn hon hwaking hmatch
    refine ⟨wakeTakes frame s, ?_, ?_⟩
    · show execWakePatternMatch frame true s = _
      rw [execWakePatternMatch, if_pos (by simp [hdev, wakes_of_match hn hon hmatch])]
    · obtain ⟨hpending, hmem, hcfg⟩ := wakeTakes_frame frame s
      exact ⟨by rw [wakeTakes_of_asleep frame hwaking], by rw [wakeTakes_of_asleep frame hwaking]; rfl, hmem, hcfg, hpending⟩
  case wake =>
    intro hdev hheld hwaking hhalted
    refine ⟨startSequence { s with
      keeper := { s.keeper with wakeHeld := false, waking := true }, power := { s.power with retries := 0 } }, ?_, ?_⟩
    · show execWake s = _
      rw [execWake, if_pos (by simp [hdev, hheld, hwaking, hhalted])]
    · unfold startSequence
      simp [Quiet]

end

section
/-! PROOFS. The CD link of a die, the re-test of a channel and its relay (R18, R272, R310, R311, R324, R326). -/

namespace Sys2Proof.Machine

theorem Touches.quiet {s t : State} (h : Touches s t) : Quiet s t := by
  unfold Quiet
  rw [h]
  exact ⟨rfl, rfl, rfl, rfl⟩

theorem Touches.dsd {s t : State} (h : Touches s t) (d : Nat) : t.dsd d = s.dsd d := by
  unfold State.dsd
  rw [h]

theorem forList_invariant {P : State → Prop} {f : Nat → State → State} (hf : ∀ c s, P s → P (f c s)) (l : List Nat) {s : State} (h : P s) :
    P (forList l f s) := by
  unfold forList
  exact foldl_invariant (fun s c => hf c s) l h

/-- A change of one channel relates each channel to itself by what it relates that one by. -/
theorem modChan_related {R : Chan → Chan → Prop} (hrefl : ∀ v, R v v) {s : State} {c : Nat} {f : Chan → Chan} (h : R (s.chan c) (f (s.chan c)))
    (k : Nat) : R (s.chan k) ((s.modChan c f).chan k) := by
  by_cases hk : k = c
  · subst hk
    by_cases hc : k < 208
    · rwa [chan_modChan_self _ _ hc]
    · have e : (s.modChan k f).chan k = s.chan k := by simp [State.modChan, State.setChan, State.chan, hc]
      rw [e]
      exact hrefl _
  · rw [chan_modChan_other _ _ hk]
    exact hrefl _

/-! ### The link of a die -/

theorem mem_chansOf {c d : Nat} (hc : c < 208) (hd : d < 4) : c ∈ chansOf d ↔ dsdOf c = d := by
  simp only [chansOf, dsdOf, List.mem_append, List.mem_map, List.mem_range]
  constructor
  · rintro (⟨i, hi, rfl⟩ | ⟨i, hi, rfl⟩)
    · rw [if_pos (by omega)]; omega
    · rw [if_neg (by omega)]; omega
  · intro h
    by_cases hS : c < 192
    · rw [if_pos hS] at h
      exact .inl ⟨c % 48, by omega, by omega⟩
    · rw [if_neg hS] at h
      exact .inr ⟨c % 4, by omega, by omega⟩

/-- The die with its link lost and the loss recorded, before its channels stop. -/
def unlinked (d : Nat) (s : State) : State := (s.modDsd d fun q => { q with linked := false }).raise 0x5016 (0x100 + d) [word d]

theorem exec_cdLinkLost {d : Nat} {s : State} (hreleased : (s.dsd d).released = true) (hlinked : (s.dsd d).linked = true) :
    exec (.cdLinkLost d) s = .next (forList (chansOf d) (fun c s => hardStop c (chanCode c 0x16) [word d] s) (unlinked d s)) := by
  show execCdLinkLost d s = _
  rw [execCdLinkLost, if_pos (by simp [hreleased, hlinked])]
  rfl

theorem unlinked_quiet (d : Nat) (s : State) : Quiet s (unlinked d s) := by
  have h := (raise_touches 0x5016 (0x100 + d) [word d] (s.modDsd d fun q => { q with linked := false })).quiet
  exact Quiet.trans ⟨rfl, rfl, rfl, rfl⟩ h

theorem unlinked_chan (d c : Nat) (s : State) : (unlinked d s).chan c = s.chan c := (raise_reports _ _ _ _).chan c

theorem unlinked_rail (d r : Nat) (s : State) : (unlinked d s).rail r = s.rail r := (raise_reports _ _ _ _).rail r

theorem unlinked_linked {d : Nat} (hd : d < 4) (s : State) : ((unlinked d s).dsd d).linked = false := by
  unfold unlinked
  rw [(raise_touches _ _ _ _).dsd, dsd_modDsd_self _ _ hd]

/-- A cause that stops the channels of a list leaves every controller. -/
theorem forList_hardStop_sameRail (low : Nat) (data : List Word) (l : List Nat) (s : State) (r : Nat) :
    SameRail (s.rail r) ((forList l (fun c s => hardStop c (chanCode c low) data s) s).rail r) :=
  forList_invariant (P := fun t => SameRail (s.rail r) (t.rail r)) (fun _ u h => h.trans (hardStop_sameRail _ _ _ u r)) l (SameRail.rfl' _)

/-! ### Re-tests -/

/-- The channel in RETEST, with its re-test counted. -/
def retesting (c : Nat) (s : State) : State :=
  ((((maskDue c s).modChan c fun h => { h with
      fsm := { h.fsm with state := .retest, bridge := if joiner s c then .open else .test, calDone := false, diagStep := firstTest s c true,
                          diagPassed := 0, failCode := 0, failData := [], relayWant := false }
      share := { h.share with joinReq := joiner s c, markAt := none } }).count (chanStat c 0x106) 1).life (chanStat c 0x185) 1)

theorem exec_retestStart {c : Nat} {s : State} (hstate : (s.chan c).fsm.state = .fault) (hstep : (s.chan c).fsm.diagStep = 0)
    (hflag : s.flag 0x10 c 0x17 = true) (hen : s.enabled c = true) (hdev : s.keeper.dev = .run) (hready : retestReady s c = true) :
    exec (.retestStart c) s = .next (retesting c s) := by
  show execRetestStart c s = _
  rw [execRetestStart]
  dsimp only
  rw [if_pos (by simp [hstate, hstep, hflag, hen, hdev, hready])]
  rfl

theorem retesting_touchesChan (c : Nat) (s : State) : TouchesChan c s (retesting c s) :=
  (((maskDue_touchesChan c c s).trans (modChan_touchesChan _ c _)).trans (count_touchesChan c _ _ _)).trans (life_touchesChan c _ _ _)

theorem retesting_fsm {c : Nat} (hc : c < 208) (s : State) :
    ((retesting c s).chan c).fsm.state = .retest ∧ ((retesting c s).chan c).fsm.code = (s.chan c).fsm.code ∧
    ((retesting c s).chan c).fsm.diagStep = firstTest s c true ∧ ((retesting c s).chan c).fsm.calDone = false := by
  unfold retesting
  rw [chan_life, chan_count, chan_modChan_self _ _ hc, maskDue_chan]
  exact ⟨rfl, rfl, rfl, rfl⟩

theorem toPrecharge_touchesChan (c : Nat) (s : State) : TouchesChan c s (toPrecharge c s) := by
  unfold toPrecharge
  exact ((noteDiag_touchesChan c c 0 s).trans (maskDue_touchesChan c c _)).trans (modFsm_touchesChan _ c _)

theorem toPrecharge_fsm {c : Nat} (hc : c < 208) (s : State) :
    ((toPrecharge c s).chan c).fsm.state = .precharge ∧ ((toPrecharge c s).chan c).fsm.code = 0 := by
  unfold toPrecharge
  rw [chan_modFsm_self _ _ hc]
  exact ⟨rfl, rfl⟩

/-- A re-test whose tests have passed comes to PRECHARGE. -/
theorem exec_retestComplete_passed {c : Nat} {s : State} (hstate : (s.chan c).fsm.state = .retest) (hstep : (s.chan c).fsm.diagStep = 7) :
    exec (.retestComplete c) s = .next (toPrecharge c s) := by
  show execRetestComplete c s = _
  simp [execRetestComplete, hstate, hstep]

/-- The channel back in FAULT after a re-test that failed, before the failure is recorded. -/
def retestFailed (c : Nat) (s : State) : State :=
  ((((maskDue c (noteDiag c (s.chan c).fsm.failCode s)).life (chanStat c 0x183) 1).modFsm c fun f => { f with
    state := .fault, bridge := holdFor s c, code := f.failCode, relayWant := false, diagStep := 0 }).modShare c Share.leave).count (chanStat c 0x107) 1

theorem exec_retestComplete_failed {c : Nat} {s : State} (hstate : (s.chan c).fsm.state = .retest) (hstep : (s.chan c).fsm.diagStep = 8) :
    exec (.retestComplete c) s =
      .next ((retestFailed c s).raiseHeldAs (60 * second) (s.chan c).fsm.failCode c (s.chan c).fsm.failData) := by
  show execRetestComplete c s = _
  simp [execRetestComplete, hstate, hstep]
  rfl

theorem retestFailed_touchesChan (c : Nat) (s : State) : TouchesChan c s (retestFailed c s) := by
  unfold retestFailed
  exact (((((noteDiag_touchesChan c c _ s).trans (maskDue_touchesChan c c _)).trans (life_touchesChan c _ _ _)).trans
    (modFsm_touchesChan _ c _)).trans (modShare_touchesChan _ c _)).trans (count_touchesChan c _ _ _)

theorem noteDiag_chan (c code k : Nat) (s : State) : (noteDiag c code s).chan k = s.chan k := rfl

theorem retestFailed_fsm {c : Nat} (hc : c < 208) (s : State) :
    ((retestFailed c s).chan c).fsm.state = .fault ∧ ((retestFailed c s).chan c).fsm.code = (s.chan c).fsm.failCode ∧
    ((retestFailed c s).chan c).fsm.bridge = holdFor s c := by
  unfold retestFailed
  rw [chan_count, chan_modShare_self _ _ hc, chan_modFsm_self _ _ hc, chan_life, maskDue_chan, noteDiag_chan]
  exact ⟨rfl, rfl, rfl⟩

/-! ### Relays -/

/-- The codes of a relay's coil and of its drive wait for no re-test (Table 12.5). -/
theorem retestable_relay (c : Nat) : retestable (chanCode c 6) = false ∧ retestable (chanCode c 7) = false := by
  unfold chanCode
  cases isL c <;> decide

/-- A relay judgement waits for the next DIAG where the bridge does not switch. -/
def coilNoted (c low : Nat) (v : Rat) (s : State) : State := s.modFsm c fun f => { f with coilLatched := low, coilRead := v }

theorem relayFault_switching {c low : Nat} {v : Rat} {s : State} (h : (s.chan c).fsm.state.switching = true) :
    relayFault c low v s = hardStop c (chanCode c low) [wordU (1000 * v)] s := by
  simp [relayFault, h]

theorem relayFault_faulted {c low : Nat} {v : Rat} {s : State} (hc : c < 208) (h : (s.chan c).fsm.state = .fault ∨ (s.chan c).fsm.state = .retest) :
    relayFault c low v s = faultAgain c (chanCode c low) [wordU (1000 * v)] (coilNoted c low v s) := by
  have hstate : ((coilNoted c low v s).chan c).fsm.state = (s.chan c).fsm.state := by rw [coilNoted, chan_modFsm_self _ _ hc]
  have hswitch : ¬ (s.chan c).fsm.state.switching = true := by rcases h with h | h <;> simp [h, ChanState.switching]
  have hoff : ¬ (s.chan c).fsm.state = .off := by rcases h with h | h <;> simp [h]
  unfold relayFault
  dsimp only
  rw [if_neg hswitch, if_pos h]
  change hardStop c _ _ (coilNoted c low v s) = _
  rw [hardStop, hstate, if_neg hoff, if_pos h]

theorem relayFault_waits {c low : Nat} {v : Rat} {s : State} (hswitch : (s.chan c).fsm.state.switching = false)
    (hfault : (s.chan c).fsm.state ≠ .fault) (hretest : (s.chan c).fsm.state ≠ .retest) : relayFault c low v s = coilNoted c low v s := by
  simp [relayFault, hswitch, hfault, hretest, coilNoted]

/-- A cause of FAULT that no re-test waits for, in FAULT or RETEST: it is counted, takes the place of a re-testable code, ends the re-test and
leaves what the coil's judgement noted. -/
theorem faultAgain_untestable {c code : Nat} (data : List Word) {s : State} (hc : c < 208) (h : retestable code = false) :
    ((faultAgain c code data s).chan c).fsm.state = .fault ∧
    ((faultAgain c code data s).chan c).fsm.code = (if retestable (s.chan c).fsm.code then code else (s.chan c).fsm.code) ∧
    ((faultAgain c code data s).chan c).fsm.coilLatched = (s.chan c).fsm.coilLatched ∧
    ((faultAgain c code data s).chan c).fsm.coilRead = (s.chan c).fsm.coilRead ∧
    ((faultAgain c code data s).chan c).fsm.relayOn = (s.chan c).fsm.relayOn ∧
    ((s.chan c).fsm.relayWant = false → ((faultAgain c code data s).chan c).fsm.relayWant = false) ∧
    ∃ u, Reports u (faultAgain c code data s) ∧ u.counters = (s.count (chanStat c 0x10A) 1).counters := by
  have hbase : ∀ u, u = (if (s.chan c).fsm.state = .retest then
        noteDiag c code (maskDue c ((s.count (chanStat c 0x10A) 1).life (chanStat c 0x183) 1)) else s.count (chanStat c 0x10A) 1) →
      u.chan c = s.chan c ∧ u.counters = (s.count (chanStat c 0x10A) 1).counters := by
    rintro u rfl
    split
    · rw [noteDiag_chan, maskDue_chan]
      exact ⟨rfl, by rw [maskDue_eq]; rfl⟩
    · exact ⟨rfl, rfl⟩
  have hleave : ∀ u : State, ((if (s.chan c).fsm.state = .retest then u.modShare c Share.leave else u).chan c).fsm = (u.chan c).fsm ∧
      (if (s.chan c).fsm.state = .retest then u.modShare c Share.leave else u).counters = u.counters := fun u => by
    split
    · exact ⟨by rw [chan_modShare_self _ _ hc], rfl⟩
    · exact ⟨rfl, rfl⟩
  unfold faultAgain
  dsimp only
  obtain ⟨hchan, hcount⟩ := hbase _ rfl
  generalize (if (s.chan c).fsm.state = .retest then
    noteDiag c code (maskDue c ((s.count (chanStat c 0x10A) 1).life (chanStat c 0x183) 1)) else s.count (chanStat c 0x10A) 1) = u at hchan hcount ⊢
  rw [if_neg (by simp [h]), (raise_reports _ _ _ _).chan, (hleave _).1, chan_modFsm_self _ _ hc, hchan]
  refine ⟨rfl, by simp [h], rfl, rfl, rfl, fun hwant => ?_, _, raise_reports _ _ _ _, (hleave _).2.trans hcount⟩
  dsimp only
  rw [hwant, ite_self]

/-- A relay change at zero current: the relay stands as wanted, counted. -/
theorem exec_relayChange {c : Nat} {i : Rat} {s : State} (hchange : (s.chan c).fsm.relayOn ≠ ((s.chan c).fsm.relayWant && s.flag 0x10 c 0x16))
    (hzero : zeroCurrent s c i = true) : exec (.relayChange c i) s = .next
      (((s.modFsm c fun f => { f with relayOn := (s.chan c).fsm.relayWant && s.flag 0x10 c 0x16 }).count (chanStat c 0x104) 1).life (chanStat c 0x186) 1) := by
  show execRelayChange c i s = _
  rw [execRelayChange, if_pos (by rw [hzero, Bool.and_true, bne_iff_ne]; exact hchange)]

theorem exec_relayCoilOpen {c : Nat} {v : Rat} {s : State} (hen : s.enabled c = true) (hrelay : s.flag 0x10 c 0x16 = true)
    (hoff : (s.chan c).fsm.relayOn = false) (hv : v < 1) : exec (.relayCoilOpen c v) s = .next (relayFault c 6 v s) := by
  show execRelayCoilOpen c v s = _
  rw [execRelayCoilOpen, if_pos (by simp [hen, hrelay, hoff, hv])]

/-- The state in which a relay with no drive current stands open, counted. -/
def relayDropped (c : Nat) (s : State) : State :=
  ((s.modFsm c fun f => { f with relayOn := false, relayWant := false }).count (chanStat c 0x104) 1).life (chanStat c 0x186) 1

theorem exec_relayDrive {c : Nat} {v : Rat} {s : State} (hen : s.enabled c = true) (hrelay : s.flag 0x10 c 0x16 = true)
    (hon : (s.chan c).fsm.relayOn = true) (hv : 1 < v) : exec (.relayDrive c v) s = .next (relayFault c 7 v (relayDropped c s)) := by
  show execRelayDrive c v s = _
  rw [execRelayDrive, if_pos (by simp [hen, hrelay, hon, hv])]
  rfl

theorem relayDropped_touchesChan (c : Nat) (s : State) : TouchesChan c s (relayDropped c s) :=
  ((modFsm_touchesChan s c _).trans (count_touchesChan c _ _ _)).trans (life_touchesChan c _ _ _)

theorem relayDropped_fsm {c : Nat} (hc : c < 208) (s : State) :
    ((relayDropped c s).chan c).fsm = { (s.chan c).fsm with relayOn := false, relayWant := false } := by
  unfold relayDropped
  rw [chan_life, chan_count, chan_modFsm_self _ _ hc]

theorem coilNoted_touchesChan (c low : Nat) (v : Rat) (s : State) : TouchesChan c s (coilNoted c low v s) := modFsm_touchesChan s c _

theorem coilNoted_chan {c : Nat} (low : Nat) (v : Rat) (hc : c < 208) (s : State) :
    (coilNoted c low v s).chan c = { s.chan c with fsm := { (s.chan c).fsm with coilLatched := low, coilRead := v } } := chan_modFsm_self s _ hc

/-- What a relay judgement leaves where the bridge does not switch: its code and its reading wait for the next DIAG. -/
theorem relayFault_notSwitching {c low : Nat} {v : Rat} {s : State} (hc : c < 208) (hlow : retestable (chanCode c low) = false)
    (h : (s.chan c).fsm.state.switching = false) :
    TouchesChan c s (relayFault c low v s) ∧ ((relayFault c low v s).chan c).fsm.coilLatched = low ∧
    ((relayFault c low v s).chan c).fsm.coilRead = v ∧ ((relayFault c low v s).chan c).fsm.relayOn = (s.chan c).fsm.relayOn ∧
    ((s.chan c).fsm.relayWant = false → ((relayFault c low v s).chan c).fsm.relayWant = false) := by
  by_cases hf : (s.chan c).fsm.state = .fault ∨ (s.chan c).fsm.state = .retest
  · rw [relayFault_faulted hc hf]
    obtain ⟨-, -, hlatched, hread, hon, hwant, -⟩ := faultAgain_untestable [wordU (1000 * v)] (s := coilNoted c low v s) hc hlow
    rw [coilNoted_chan low v hc] at hlatched hread hon hwant
    exact ⟨(coilNoted_touchesChan c low v s).trans (faultAgain_touchesChan _ _ _ _), hlatched, hread, hon, hwant⟩
  · obtain ⟨hfault, hretest⟩ := not_or.mp hf
    rw [relayFault_waits h hfault hretest, coilNoted_chan low v hc]
    exact ⟨coilNoted_touchesChan c low v s, rfl, rfl, rfl, id⟩

/-- A relay judgement in FAULT or RETEST is a suppressed cause, which replaces a re-testable code. -/
theorem relayFault_suppressed {c low : Nat} {v : Rat} {s : State} (hc : c < 208) (hlow : retestable (chanCode c low) = false)
    (h : (s.chan c).fsm.state = .fault ∨ (s.chan c).fsm.state = .retest) :
    ((relayFault c low v s).chan c).fsm.state = .fault ∧
    ((relayFault c low v s).chan c).fsm.code = (if retestable (s.chan c).fsm.code then chanCode c low else (s.chan c).fsm.code) ∧
    ∃ u, Reports u (relayFault c low v s) ∧ u.counters = (s.count (chanStat c 0x10A) 1).counters := by
  rw [relayFault_faulted hc h]
  obtain ⟨hstate, hcode, -, -, -, -, hcount⟩ := faultAgain_untestable [wordU (1000 * v)] (s := coilNoted c low v s) hc hlow
  rw [coilNoted_chan low v hc] at hcode
  exact ⟨hstate, hcode, hcount⟩

/-! ### What the end of a test leaves of a channel's state machine -/

/-- Two state machines of which only what a forced RAIL_CHECK holds may differ (R407). -/
def SameFsm (a b : Fsm) : Prop := b = { a with holdTest := b.holdTest }

theorem SameFsm.rfl' (a : Fsm) : SameFsm a a := rfl

theorem SameFsm.trans {a b c : Fsm} (h : SameFsm a b) (k : SameFsm b c) : SameFsm a c := by
  unfold SameFsm at *
  rw [k, h]

theorem modChan_sameFsm (s : State) (c : Nat) {f : Chan → Chan} (h : ∀ v, SameFsm v.fsm (f v).fsm) (k : Nat) :
    SameFsm (s.chan k).fsm ((s.modChan c f).chan k).fsm :=
  modChan_related (R := fun a b => SameFsm a.fsm b.fsm) (fun _ => SameFsm.rfl' _) (h _) k

theorem modDsp_sameFsm (s : State) (c : Nat) (f : Dsp → Dsp) (k : Nat) : SameFsm (s.chan k).fsm ((s.modDsp c f).chan k).fsm :=
  modChan_sameFsm s c (f := fun h => { h with dsp := f h.dsp }) (fun v => SameFsm.rfl' v.fsm) k

theorem modFsm_sameFsm (s : State) (c : Nat) {f : Fsm → Fsm} (h : ∀ v, SameFsm v (f v)) (k : Nat) :
    SameFsm (s.chan k).fsm ((s.modFsm c f).chan k).fsm := modChan_sameFsm s c (fun v => h v.fsm) k

theorem chan_modRail (s : State) (r k : Nat) (f : Rail → Rail) : (s.modRail r f).chan k = s.chan k := rfl

theorem undoForce_sameFsm (t : Test) (s : State) (k : Nat) : SameFsm (s.chan k).fsm ((undoForce t s).chan k).fsm := by
  unfold undoForce
  repeat' split
  · exact SameFsm.rfl' _
  · exact SameFsm.rfl' _
  · exact modDsp_sameFsm s _ _ k
  · exact SameFsm.rfl' _
  · rw [chan_modRail]
    exact forList_invariant (P := fun u => SameFsm (s.chan k).fsm (u.chan k).fsm) (f := fun c s => s.modFsm c fun f => { f with holdTest := false })
      (fun c u h => h.trans (modFsm_sameFsm u c (f := fun f => { f with holdTest := false }) (fun v => rfl) k)) (fedBy t.inst) (SameFsm.rfl' _)
  · exact SameFsm.rfl' _

theorem endTest_sameFsm (ticket state code : Nat) (v : List Byte) (s : State) (k : Nat) :
    SameFsm (s.chan k).fsm ((endTest ticket state code v s).chan k).fsm := by
  unfold endTest
  split
  · exact SameFsm.rfl' _
  · rw [(raise_reports _ _ _ _).chan]
    exact undoForce_sameFsm _ s k

theorem abortTests_sameFsm (p : Test → Bool) (code : Nat) (s : State) (k : Nat) :
    SameFsm (s.chan k).fsm ((abortTests p code s).chan k).fsm := by
  unfold abortTests
  exact foldl_invariant (P := fun u => SameFsm (s.chan k).fsm (u.chan k).fsm) (fun u t h => h.trans (endTest_sameFsm _ _ _ _ u k)) _ (SameFsm.rfl' _)

/-- FAULT lets the relay open and does not move it (R272). -/
theorem enterFault_relay {c : Nat} (code : Nat) (data : List Word) (hc : c < 208) (s : State) :
    ((enterFault c code data s).chan c).fsm.relayOn = (s.chan c).fsm.relayOn ∧ ((enterFault c code data s).chan c).fsm.relayWant = false := by
  have hstart : ((faultStart c code data s).chan c).fsm.relayOn = (s.chan c).fsm.relayOn ∧
      ((faultStart c code data s).chan c).fsm.relayWant = false := by
    have hnote : (if (s.chan c).fsm.state = .diag then noteDiag c code s else s).chan c = s.chan c := by split <;> rfl
    obtain ⟨x, hx⟩ := idleEnds_chan_self (if (s.chan c).fsm.state = .diag then noteDiag c code s else s) hc
    unfold faultStart
    dsimp only
    rw [(raise_reports _ _ _ _).chan, chan_life, chan_modChan_self _ _ hc, maskDue_chan, hx, hnote]
    exact ⟨rfl, rfl⟩
  unfold enterFault
  rw [abortTests_sameFsm (preparing s c) 0xA012 (faultStart c code data s) c]
  exact hstart

theorem hardStop_relay_of_switching {c code : Nat} {data : List Word} {s : State} (hc : c < 208) (h : (s.chan c).fsm.state.switching = true) :
    ((hardStop c code data s).chan c).fsm.relayOn = (s.chan c).fsm.relayOn ∧ ((hardStop c code data s).chan c).fsm.relayWant = false := by
  have hoff : ¬ (s.chan c).fsm.state = .off := fun e => by simp [e, ChanState.switching] at h
  have hfault : ¬ ((s.chan c).fsm.state = .fault ∨ (s.chan c).fsm.state = .retest) := by
    rintro (e | e) <;> simp [e, ChanState.switching] at h
  rw [hardStop, if_neg hoff, if_neg hfault]
  exact enterFault_relay code data hc s

end Sys2Proof.Machine
open Sys2Proof Sys2Proof.Machine

/-- Settles O35: the link by the stop of each channel of the die, the re-tests and relays by the state of their channel. -/
theorem linkRetestAndRelayRows : Obligations.LinkRetestAndRelayRows := by
  intro s
  refine ⟨?lost, ?trained, ?start, ?complete, ?change, ?coil, ?drive⟩
  case lost =>
    intro d hd hreleased hlinked
    have htouch : Touches (unlinked d s) _ := forList_touches
      (fun c s => hardStop_touches c (chanCode c 0x16) [word d] s) (chansOf d) (unlinked d s)
    refine ⟨_, exec_cdLinkLost hreleased hlinked, ?_, (unlinked_quiet d s).trans htouch.quiet, fun r => ?_, fun c hc => ?_⟩
    · rw [htouch.dsd, unlinked_linked hd]
    · have h := forList_hardStop_sameRail 0x16 [word d] (chansOf d) (unlinked d s) r
      rwa [unlinked_rail] at h
    · obtain ⟨hstop, hother, -⟩ := forList_hardStop 0x16 [word d] (chansOf d) (unlinked d s) hc
      rw [unlinked_chan, mem_chansOf hc hd] at hstop hother
      exact ⟨hstop, hother⟩
  case trained =>
    intro d hd hreleased hlinked
    refine ⟨s.modDsd d fun q => { q with linked := true }, ?_, rfl, dsd_modDsd_self s _ hd⟩
    show execCdLinkTrained d s = _
    rw [execCdLinkTrained, if_pos (by simp [hreleased, hlinked])]
  case start =>
    intro c hc hstate hstep hflag hen hdev hready
    refine ⟨_, exec_retestStart hstate hstep hflag hen hdev hready, retesting_touchesChan c s, ?_⟩
    obtain ⟨h1, h2, h3, h4⟩ := retesting_fsm hc s
    exact ⟨h1, h2, h3, h4, by rw [retesting, maskDue_eq]; rfl⟩
  case complete =>
    intro c hc hstate hstep
    rcases hstep with hpassed | hfailed
    · refine ⟨_, exec_retestComplete_passed hstate hpassed, toPrecharge_touchesChan c s, fun _ => toPrecharge_fsm hc s, fun h => ?_⟩
      rw [hpassed] at h
      cases h
    · refine ⟨_, exec_retestComplete_failed hstate hfailed, (retestFailed_touchesChan c s).trans (raiseHeldAs_touchesChan c _ _ _ _ _).1,
        fun h => ?_, fun _ => ?_⟩
      · rw [hfailed] at h
        cases h
      · rw [raiseHeldAs_chan]
        exact retestFailed_fsm hc s
  case change =>
    intro c i hc hchange hzero
    refine ⟨_, exec_relayChange hchange hzero, ((modFsm_touchesChan s c _).trans (count_touchesChan c _ _ _)).trans (life_touchesChan c _ _ _), ?_, rfl⟩
    rw [chan_life, chan_count, chan_modFsm_self _ _ hc]
  case coil =>
    intro c v hc hen hrelay hoff hv
    obtain ⟨h6, -⟩ := retestable_relay c
    refine ⟨_, exec_relayCoilOpen hen hrelay hoff hv, fun hswitch => ?_, fun hswitch => ?_, fun hswitch hfault hretest => ?_, relayFault_suppressed hc h6⟩
    · rw [relayFault_switching hswitch]
      exact hardStop_faulted hc hswitch
    · obtain ⟨htouch, hlatched, hread, -⟩ := relayFault_notSwitching hc h6 hswitch
      exact ⟨htouch, hlatched, hread⟩
    · rw [relayFault_waits hswitch hfault hretest, coilNoted_chan 6 v hc]
  case drive =>
    intro c v hc hen hrelay hon hv
    obtain ⟨-, h7⟩ := retestable_relay c
    have hfsm := relayDropped_fsm hc s
    have hdrop := relayDropped_touchesChan c s
    have hsame : ((relayDropped c s).chan c).fsm.state = (s.chan c).fsm.state := by rw [hfsm]
    refine ⟨_, exec_relayDrive hen hrelay hon hv, ?_⟩
    rw [← hsame]
    cases hswitch : ((relayDropped c s).chan c).fsm.state.switching with
    | true =>
      obtain ⟨hdrives, hstate, hcode, hbridge, hstop⟩ := hardStop_faulted (code := chanCode c 7) (data := [wordU (1000 * v)]) hc hswitch
      obtain ⟨hon', hwant⟩ := hardStop_relay_of_switching (code := chanCode c 7) (data := [wordU (1000 * v)]) hc hswitch
      rw [holdFor_touches c hdrop.1 (.of_eq rfl)] at hbridge
      rw [hfsm] at hon'
      rw [relayFault_switching hswitch]
      refine ⟨hon', hwant, fun _ => ⟨hdrop.drives.trans hdrives, hstate, hcode, hbridge, hstop⟩, fun h => absurd h (by decide), fun h => ?_⟩
      rcases h with h | h <;> simp [h, ChanState.switching] at hswitch
    | false =>
      obtain ⟨htouch, hlatched, hread, hon', hwant⟩ := relayFault_notSwitching (v := v) hc h7 hswitch
      rw [hfsm] at hon' hwant
      refine ⟨hon', hwant rfl, fun h => absurd h Bool.false_ne_true, fun _ => ⟨hlatched, hread, hdrop.trans htouch⟩, fun h => ?_⟩
      obtain ⟨hstate, hcode, -⟩ := relayFault_suppressed (v := v) hc h7 h
      rw [hfsm] at hcode
      exact ⟨hstate, hcode⟩
end

section
/-! PROOFS. The media-clock loop, its alarms and a media step (R27, R176 to R182, R441, Table 7.5). -/

namespace Sys2Proof.Machine

/-! ### The loop and its alarms -/

theorem absRat_clampRat_le {lim : Rat} (h : 0 ≤ lim) (x : Rat) : absRat (clampRat (-lim) lim x) ≤ lim := by
  unfold absRat clampRat
  repeat' split
  all_goals linarith

/-- One update takes the error with steer and i_term within the limit, and goes on in ACQUIRE or TRACK (R177). -/
theorem loopUpdate_media (e : Rat) {s : State} (hstate : s.media.state = .acquire ∨ s.media.state = .track) (hlim : 0 ≤ s.ratv 0x06 0 2) :
    (loopUpdate e s).media.err = e ∧ (loopUpdate e s).media.index = s.media.index ∧ absRat (loopUpdate e s).media.steer ≤ s.ratv 0x06 0 2 ∧
    absRat (loopUpdate e s).media.iTerm ≤ s.ratv 0x06 0 2 ∧
    ((loopUpdate e s).media.state = .acquire ∨ (loopUpdate e s).media.state = .track) := by
  have hstep : ∀ done again : Bool, (if done then .track else if again then .acquire else s.media.state) = MclkState.acquire ∨
      (if done then .track else if again then .acquire else s.media.state) = MclkState.track := by
    intro done again
    cases done with
    | true => exact .inr rfl
    | false => cases again with
      | true => exact .inl rfl
      | false => exact hstate
  exact ⟨rfl, rfl, absRat_clampRat_le hlim _, absRat_clampRat_le hlim _, hstep _ _⟩

theorem exec_mclkUpdate_loop {e : Rat} {s : State} (hlocked : s.media.locked = true) (hstate : s.media.state = .acquire ∨ s.media.state = .track)
    (herr : loopError? s = some e) : exec .mclkUpdate s = .next (loopUpdate e s) := by
  show execMclkUpdate s = _
  rcases hstate with h | h <;> simp [execMclkUpdate, hlocked, h, herr]

/-- The state of a steer that has been clamped for a second, counted (R182). -/
theorem exec_mclkSteerLimit {s : State} (hclamp : second ≤ s.media.clampUs) (hfirst : s.media.clampRaised = false) :
    exec .mclkSteerLimit s = .next ((({ s with media := { s.media with clampUs := s.media.clampUs - second, clampRaised := true } } : State).count
      (devStat 0x206) 1).raise 0x300E 0 []) := by
  show execMclkSteerLimit s = _
  rw [execMclkSteerLimit, if_pos (by simp [hclamp])]
  dsimp only
  rw [if_neg (by simp [hfirst])]

theorem exec_mclkHoldoverAlarm {s : State} (hstate : s.media.state = .holdover) (hset : s.nat 0x06 0 1 ≠ 0) (hfirst : s.media.alarmed = false)
    (htime : s.nat 0x06 0 1 * second ≤ s.media.holdoverUs) :
    exec .mclkHoldoverAlarm s = .next (({ s with media := { s.media with alarmed := true } } : State).raise 0x300D 0 []) := by
  show execMclkHoldoverAlarm s = _
  rw [execMclkHoldoverAlarm]
  dsimp only
  rw [if_pos (by simp [hstate, hset, hfirst, htime])]

/-! ### What stands through a media step -/

/-- From `s` to `t` the media clock, the channels, the queue, the memories and the configuration stand. -/
def ClockStands (s t : State) : Prop := t.media = s.media ∧ t.chans = s.chans ∧ Quiet s t

theorem ClockStands.rfl' (s : State) : ClockStands s s := ⟨rfl, rfl, Quiet.rfl' s⟩

theorem ClockStands.trans {s t u : State} (h : ClockStands s t) (k : ClockStands t u) : ClockStands s u :=
  ⟨k.1.trans h.1, k.2.1.trans h.2.1, h.2.2.trans k.2.2⟩

/-- Every stream and every TDM port that plays has begun its fade (R180). -/
def allFading (s : State) : State :=
  let n := winBase s
  forUnits 4 (fun x s => tdmFade true x n s) (forUnits 32 (fun i s => if (s.stream i).state.plays then streamFade i n false s else s) s)

theorem modStream_clockStands (s : State) (i : Nat) (f : Stream → Stream) : ClockStands s (s.modStream i f) := ⟨rfl, rfl, rfl, rfl, rfl, rfl⟩

theorem modTdm_clockStands (s : State) (x : Nat) (f : Tdm → Tdm) : ClockStands s (s.modTdm x f) := ⟨rfl, rfl, rfl, rfl, rfl, rfl⟩

theorem allFading_clockStands (s : State) : ClockStands s (allFading s) := by
  unfold allFading
  refine forUnits_invariant (fun x u h => h.trans (modTdm_clockStands u x _)) 4 ?_
  refine forUnits_invariant (P := ClockStands s) (fun i u h => ?_) 32 (ClockStands.rfl' s)
  split
  · exact h.trans (modStream_clockStands u i _)
  · exact h

theorem exec_mediaStepStart {s : State} (hlocked : s.media.locked = true) (hdue : s.media.stepDue = true)
    (hstate : s.media.state = .acquire ∨ s.media.state = .track) : exec .mediaStepStart s = .next { allFading s with
      media := { (allFading s).media with state := .step, stepDue := false, stepB0 := some (winK s), stepFrom := s.media.index } } := by
  show execMediaStepStart s = _
  rw [execMediaStepStart, if_pos (by rcases hstate with h | h <;> simp [hlocked, hdue, h])]
  rfl

theorem Reports.media {s t : State} (h : Reports s t) : t.media = s.media := by rw [h]

/-- Each channel after a change of all of them. -/
theorem chan_mapIdx (s : State) (f : Nat → Chan → Chan) {c : Nat} (hc : c < 208) :
    ({ s with chans := s.chans.mapIdx f } : State).chan c = f c (s.chan c) := by
  simp [State.chan, hc]

theorem exec_mediaStepHalt {b0 : Nat} {s : State} (hb0 : s.media.stepB0 = some b0) (hstate : s.media.state = .step)
    (hruns : s.media.halted = false) (hplayed : b0 + 132 ≤ winK s) : exec .mediaStepHalt s = .next { s with
      media := { s.media with halted := true, stepFrom := s.media.index }
      chans := s.chans.mapIdx fun c h => if s.enabled c then { h with dsp := h.dsp.afresh } else h } := by
  show execMediaStepHalt s = _
  simp only [execMediaStepHalt, hb0]
  rw [if_pos (by simp [hstate, hruns, hplayed])]

/-! ### The end of a media step -/

/-- What a check of the source leaves of the media clock, where it neither starts nor halts it. -/
def SameRun (a b : Media) : Prop := b.index = a.index ∧ b.halted = a.halted ∧ b.stepB0 = a.stepB0 ∧ b.pair = a.pair ∧ b.samples = a.samples ∧
  (a.state ≠ .step → b.state ≠ .step)

theorem SameRun.rfl' (a : Media) : SameRun a a := ⟨rfl, rfl, rfl, rfl, rfl, id⟩

/-- A loop starts in ACQUIRE or TRACK (Table 7.5). -/
theorem loopState_ne_step (s : State) : loopState s ≠ .step := by
  unfold loopState
  split <;> exact fun h => nomatch h

theorem loopEnter_sameRun (keep : Bool) (s : State) : SameRun s.media (loopEnter keep s).media :=
  ⟨rfl, rfl, rfl, rfl, rfl, fun _ => loopState_ne_step s⟩

theorem holdoverEnter_sameRun (s : State) : SameRun s.media (holdoverEnter s).media := by
  unfold holdoverEnter SameRun
  simp

theorem sourceCheck_sameRun (s : State) : SameRun s.media (sourceCheck s).media := by
  unfold sourceCheck
  repeat' split
  · exact SameRun.rfl' _
  · exact loopEnter_sameRun _ _
  · exact SameRun.rfl' _
  · exact loopEnter_sameRun _ _
  · exact SameRun.rfl' _
  · exact SameRun.rfl' _
  · exact holdoverEnter_sameRun _
  · exact SameRun.rfl' _
  · exact holdoverEnter_sameRun _
  · exact SameRun.rfl' _

/-- The source in force takes effect after the step: MEDIA is in FREE, ACQUIRE or TRACK, as the step left its index. -/
theorem stepLeave_media (s : State) : (stepLeave s).media.state ≠ .step ∧ (stepLeave s).media.index = s.media.index ∧
    (stepLeave s).media.halted = s.media.halted ∧ (stepLeave s).media.stepB0 = s.media.stepB0 ∧ (stepLeave s).media.pair = s.media.pair := by
  unfold stepLeave
  split
  · exact ⟨MclkState.noConfusion, rfl, rfl, rfl, rfl⟩
  · exact ⟨loopState_ne_step s, rfl, rfl, rfl, rfl⟩

theorem commitShift_media (s : State) : (commitShift s).media = s.media := by
  unfold commitShift
  repeat' split
  all_goals rfl

/-- No TDM port has a frame placed, and its clock is missed from index `idx` on (R180, R183). -/
def tdmsRestarted (idx : Nat) (s : State) : State :=
  forUnits 4 (fun x s => s.modTdm x fun t =>
    { t with samples := [], fadeFrom := none, fadeLast := none, fadeRamp := none, fadeSet := none, rampFrom := none, base := none, judge := none
             lastTick := 512 * idx
             state := if t.state = .faded then (if s.cfg.active.tdmOn x then .waiting else .disabled) else t.state }) s

theorem tdmsRestarted_clockStands (idx : Nat) (s : State) : ClockStands s (tdmsRestarted idx s) := by
  unfold tdmsRestarted
  exact forUnits_invariant (P := ClockStands s) (fun x u h => h.trans (modTdm_clockStands u x _)) 4 (ClockStands.rfl' s)

/-- MEDIA runs from index `idx` at the PTP instant `ns`, and the models have counted the wait (R180). -/
def indexResumed (ns idx : Nat) (s : State) : State :=
  let s0 := modelsWait ((idx : Rat) / 96000 - (ns : Rat) / 1000000000) s
  { s0 with
    pwm := { s0.pwm with tick := ns * 196608 / 1000000 - s0.pwm.count }
    media := { s0.media with index := idx, halted := false, stepB0 := none, pair := none, errSum := 0, errN := 0 } }

/-- The index at which MEDIA resumes: the next multiple of 8 at or after the PTP instant (R180). -/
def resumeIndex (ns : Nat) : Nat := 8 * ((ns * 96000 + 7999999999) / 8000000000)

/-- The state of a resume before the source takes effect: ports, streams and the units of a commit start from the new index. -/
def mediaResumed (ns : Nat) (s : State) : State :=
  commitShift (streamsCleared (tdmsRestarted (resumeIndex ns) (indexResumed ns (resumeIndex ns) s)))

theorem exec_mediaStepResume {s : State} (ns : Nat) (hstate : s.media.state = .step) (hhalted : s.media.halted = true) :
    exec (.mediaStepResume ns) s = .next (sourceCheck (((stepLeave (mediaResumed ns s)).count (devStat 0x205) 1).raise 0x300F 0
      (words64 ((resumeIndex ns : Int) - s.media.stepFrom)))) := by
  show execMediaStepResume ns s = _
  rw [execMediaStepResume, if_pos (by simp [hstate, hhalted])]
  unfold mediaResumed indexResumed tdmsRestarted resumeIndex
  rfl

theorem modelsWait_media (dt : Rat) (s : State) : (modelsWait dt s).media = s.media := by
  unfold modelsWait
  refine forUnits_invariant (P := fun u => u.media = s.media) (fun c u h => ?_) 208 rfl
  dsimp only
  split <;> exact h

theorem indexResumed_media (ns idx : Nat) (s : State) : (indexResumed ns idx s).media = { s.media with
    index := idx, halted := false, stepB0 := none, pair := none, errSum := 0, errN := 0 } := by
  have hwait := modelsWait_media ((idx : Rat) / 96000 - (ns : Rat) / 1000000000) s
  unfold indexResumed
  dsimp only
  rw [hwait]

theorem streamsCleared_media (s : State) : (streamsCleared s).media = s.media := rfl

theorem mediaResumed_media (ns : Nat) (s : State) : (mediaResumed ns s).media = { s.media with
    index := resumeIndex ns, halted := false, stepB0 := none, pair := none, errSum := 0, errN := 0 } := by
  obtain ⟨htdms, -⟩ := tdmsRestarted_clockStands (resumeIndex ns) (indexResumed ns (resumeIndex ns) s)
  rw [mediaResumed, commitShift_media, streamsCleared_media, htdms, indexResumed_media]

theorem mediaResumed_frame (ns : Nat) (s : State) :
    (mediaResumed ns s).pending = s.pending ∧ (mediaResumed ns s).spi.mem = s.spi.mem ∧ (mediaResumed ns s).sram = s.sram := by
  obtain ⟨-, -, hpending, hmem, hsram, -⟩ := tdmsRestarted_clockStands (resumeIndex ns) (indexResumed ns (resumeIndex ns) s)
  rw [mediaResumed]
  simp only [commitShift_frame, streamsCleared_frame, hpending, hmem, hsram]
  simp [indexResumed]

end Sys2Proof.Machine

open Sys2Proof Sys2Proof.Machine

/-- Settles O40: each row by the state that it leaves; the end of a media step by what the start of the source keeps of the clock. -/
theorem mediaClockRows : Obligations.MediaClockRows := by
  intro s
  refine ⟨?pair, ?free, ?holdover, ?loop, ?alarm, ?limit, ?start, ?halt, ?resume⟩
  case pair =>
    intro a b hlocked hptp
    show execTimeMediaPair a b s = _
    rw [execTimeMediaPair, if_pos (by simp [hlocked, hptp])]
  case free =>
    intro hlocked hstate hsource
    show execMclkUpdate s = _
    simp [execMclkUpdate, hlocked, hstate, hsource]
  case holdover =>
    intro hlocked hstate
    show execMclkUpdate s = _
    simp [execMclkUpdate, hlocked, hstate]
  case loop =>
    intro e hlocked hstate herr hlim
    exact ⟨_, exec_mclkUpdate_loop hlocked hstate herr, rfl, loopUpdate_media e hstate hlim⟩
  case alarm =>
    intro hstate hset hfirst htime
    exact ⟨_, exec_mclkHoldoverAlarm hstate hset hfirst htime, raise_reports _ _ _ _, raise_raised _ _ _ _⟩
  case limit =>
    intro hclamp hfirst
    exact ⟨_, exec_mclkSteerLimit hclamp hfirst, raise_raised _ _ _ _, (count_reports _ _ _).trans (raise_reports _ _ _ _)⟩
  case start =>
    intro hlocked hdue hstate
    obtain ⟨hmedia, hchans, hpending, hmem, hsram, hcfg⟩ := allFading_clockStands s
    exact ⟨_, exec_mediaStepStart hlocked hdue hstate, by rw [hmedia], hchans, hpending, hmem, hsram, hcfg⟩
  case halt =>
    intro b0 hb0 hstate hruns hplayed
    exact ⟨_, exec_mediaStepHalt hb0 hstate hruns hplayed, rfl, fun c hc => chan_mapIdx _ _ hc⟩
  case resume =>
    intro ns hstate hhalted
    obtain ⟨hpending, hmem, hsram⟩ := mediaResumed_frame ns s
    obtain ⟨hleft, hindex, hrun, hb0, hpair⟩ := stepLeave_media (mediaResumed ns s)
    rw [mediaResumed_media] at hindex hrun hb0 hpair
    obtain ⟨kindex, krun, kb0, kpair, -, kleft⟩ := sourceCheck_sameRun
      (((stepLeave (mediaResumed ns s)).count (devStat 0x205) 1).raise 0x300F 0 (words64 ((resumeIndex ns : Int) - s.media.stepFrom)))
    rw [(raise_reports _ _ _ _).media] at kindex krun kb0 kpair kleft
    refine ⟨_, exec_mediaStepResume ns hstate hhalted, krun.trans hrun, kindex.trans hindex, kleft hleft, kb0.trans hb0, kpair.trans hpair, ?_⟩
    simp only [sourceCheck_frame, State.raise_frame, State.count_frame, stepLeave_frame]
    exact ⟨hpending, hmem, hsram⟩

end

section
/-! PROOFS. What each part of a DSP window may change: the streams and ports, the channels' signals, the rail rows and the stage multipliers
(R24, R27, R35, R208, R322, R337). -/

namespace Sys2Proof.Machine

/-! ### The parts that leave every unit driving as it did -/

/-- Two share states of which only the join mark and its sums over the own pairs may differ (R375). -/
def JoinMarkOnly (a b : Share) : Prop := b = { a with mark := b.mark, vOwnSum := b.vOwnSum, iOwnSum := b.iOwnSum, nOwn := b.nOwn }

theorem JoinMarkOnly.rfl' (a : Share) : JoinMarkOnly a a := rfl

theorem JoinMarkOnly.trans {a b c : Share} (h : JoinMarkOnly a b) (k : JoinMarkOnly b c) : JoinMarkOnly a c := by
  unfold JoinMarkOnly at *
  rw [k, h]

/-- A channel that goes on as it is through a window: only its signals, its models and its join mark may differ. -/
def GoesOn (a b : Chan) : Prop :=
  b.fsm.state = a.fsm.state ∧ b.fsm.bridge = a.fsm.bridge ∧ b.loop = a.loop ∧ JoinMarkOnly a.share b.share

theorem GoesOn.rfl' (a : Chan) : GoesOn a a := ⟨rfl, rfl, rfl, rfl⟩

theorem GoesOn.trans {a b c : Chan} (h : GoesOn a b) (k : GoesOn b c) : GoesOn a c := by
  obtain ⟨h1, h2, h3, h4⟩ := h
  obtain ⟨k1, k2, k3, k4⟩ := k
  exact ⟨k1.trans h1, k2.trans h2, k3.trans h3, h4.trans k4⟩

/-- From `s` to `t` only streams, TDM ports, the adoption and the digest of a pair, the log with its notices and interrupt bits, and counted
values may differ, and every channel goes on. -/
def Windowed (s t : State) : Prop :=
  t = { s with
    streams := t.streams, tdms := t.tdms, chans := t.chans, log := t.log, counters := t.counters
    twin := { s.twin with adoptDue := t.twin.adoptDue, adoptRaise := t.twin.adoptRaise, adoptGot := t.twin.adoptGot, modelDigest := t.twin.modelDigest }
    misc := { s.misc with sent := t.misc.sent }, store := { s.store with life := t.store.life }
    spi := { s.spi with irqStatus := t.spi.irqStatus, irqWait := t.spi.irqWait } } ∧
  ∀ c, GoesOn (s.chan c) (t.chan c)

theorem Windowed.rfl' (s : State) : Windowed s s := ⟨rfl, fun _ => GoesOn.rfl' _⟩

theorem Windowed.trans {s t u : State} (h : Windowed s t) (k : Windowed t u) : Windowed s u :=
  ⟨by rw [k.1, h.1], fun c => (h.2 c).trans (k.2 c)⟩

theorem Reports.windowed {s t : State} (h : Reports s t) : Windowed s t :=
  ⟨by rw [h], fun c => by rw [h.chan c]; exact GoesOn.rfl' _⟩

theorem modChan_windowed (s : State) (c : Nat) {f : Chan → Chan} (h : ∀ v, GoesOn v (f v)) : Windowed s (s.modChan c f) :=
  ⟨rfl, modChan_related GoesOn.rfl' (h _)⟩

theorem modDsp_windowed (s : State) (c : Nat) (f : Dsp → Dsp) : Windowed s (s.modDsp c f) := modChan_windowed s c fun _ => ⟨rfl, rfl, rfl, rfl⟩
theorem modModel_windowed (s : State) (c : Nat) (f : Model → Model) : Windowed s (s.modModel c f) := modChan_windowed s c fun _ => ⟨rfl, rfl, rfl, rfl⟩
theorem modStream_windowed (s : State) (i : Nat) (f : Stream → Stream) : Windowed s (s.modStream i f) := ⟨rfl, fun _ => GoesOn.rfl' _⟩
theorem modTdm_windowed (s : State) (x : Nat) (f : Tdm → Tdm) : Windowed s (s.modTdm x f) := ⟨rfl, fun _ => GoesOn.rfl' _⟩
theorem count_windowed (id n : Nat) (s : State) : Windowed s (s.count id n) := ⟨rfl, fun _ => GoesOn.rfl' _⟩
theorem life_windowed (id n : Nat) (s : State) : Windowed s (s.life id n) := ⟨rfl, fun _ => GoesOn.rfl' _⟩
theorem raise_windowed (code inst : Nat) (data : List Word) (s : State) : Windowed s (s.raise code inst data) := (raise_reports _ _ _ _).windowed

theorem raiseHeld_reports (len code inst n : Nat) (more : List Word) (s : State) : Reports s (s.raiseHeld len code inst n more) := by
  unfold State.raiseHeld
  dsimp only
  split
  · rfl
  split
  · rfl
  · exact Reports.trans (t := { s with log := _ }) rfl (raise_reports _ _ _ _)

/-- A step that is taken or not. -/
theorem ite_windowed {p : Prop} [Decidable p] {s t u : State} (ht : Windowed s t) (hu : Windowed s u) : Windowed s (if p then t else u) := by
  split
  · exact ht
  · exact hu

theorem streamFade_windowed (st n : Nat) (real : Bool) (s : State) : Windowed s (streamFade st n real s) := by
  unfold streamFade
  exact modStream_windowed s st _

theorem streamBlock_windowed (st : Nat) (s : State) : Windowed s (streamBlock st s) := by
  unfold streamBlock
  split
  · exact Windowed.rfl' s
  extract_lets t b gone miss lost s1 good s2
  have h1 : Windowed s s1 := ite_windowed (count_windowed _ _ _) (Windowed.rfl' s)
  have h2 : Windowed s s2 := h1.trans (modStream_windowed s1 st _)
  refine ite_windowed h2 (ite_windowed ?_ ?_)
  · exact (h2.trans (streamFade_windowed _ _ _ _)).trans (modStream_windowed _ st _)
  · exact h2.trans (modStream_windowed _ st _)

theorem tdmBlock_windowed (x : Nat) (s : State) : Windowed s (tdmBlock x s) := by
  unfold tdmBlock
  exact modTdm_windowed s x _

theorem adoptOne_windowed (c : Nat) (s : State) : Windowed s (adoptOne c s) := by
  unfold adoptOne
  split
  · exact modModel_windowed s c _
  · exact Windowed.rfl' s

theorem adopt_windowed (s : State) : Windowed s (adopt s) := by
  unfold adopt
  extract_lets l twin s1
  have h1 : Windowed s s1 := forList_invariant (P := Windowed s) (fun c u h => h.trans (adoptOne_windowed c u)) l ⟨rfl, fun _ => GoesOn.rfl' _⟩
  exact ite_windowed (ite_windowed (h1.trans (raise_windowed _ _ _ _)) h1) (Windowed.rfl' s)

theorem formDigest_windowed (s : State) : Windowed s (formDigest s) := ite_windowed ⟨rfl, fun _ => GoesOn.rfl' _⟩ (Windowed.rfl' s)

theorem ownPair_joinMarkOnly (c m : Nat) (v i : Int) (h : Share) : JoinMarkOnly h (h.ownPair c m v i) := by
  unfold Share.ownPair
  split
  · rfl
  · exact JoinMarkOnly.rfl' h

theorem keepSense_windowed (s : State) (p : SensePair) : Windowed s (keepSense s p) := by
  refine modChan_windowed s p.ch fun v => ⟨rfl, rfl, rfl, ?_⟩
  dsimp only
  split
  · exact ownPair_joinMarkOnly _ _ _ _ _
  · exact JoinMarkOnly.rfl' _

theorem addEnergy_windowed (s : State) (p : SensePair) : Windowed s (addEnergy s p) := by
  unfold addEnergy
  refine ite_windowed (Windowed.rfl' s) ?_
  extract_lets j kj s1
  have h1 : Windowed s s1 := modChan_windowed s p.ch fun v => ⟨rfl, rfl, rfl, rfl⟩
  exact ite_windowed h1 (h1.trans (life_windowed _ _ _))

theorem gatherWindow_windowed (sense : List SensePair) (c : Nat) (s : State) : Windowed s (gatherWindow sense c s) := by
  unfold gatherWindow
  extract_lets h w
  refine ite_windowed (ite_windowed (Windowed.rfl' s) ?_) (ite_windowed ?_ ?_)
  all_goals exact modChan_windowed s c fun v => ⟨rfl, rfl, rfl, rfl⟩

theorem modelWindow_windowed (sense : List SensePair) (c : Nat) (s : State) : Windowed s (modelWindow sense c s) := by
  unfold modelWindow
  extract_lets h r0 r xs nOver reh p s1 coil mag target rth hot s2 s3 s4 s5 s6
  have h1 : Windowed s s1 := modChan_windowed s c fun v => ⟨rfl, rfl, rfl, rfl⟩
  have h3 : Windowed s s3 := (h1.trans (modModel_windowed s1 c _)).trans (modModel_windowed s2 c _)
  have h4 : Windowed s s4 := ite_windowed ((h3.trans (count_windowed _ _ s3)).trans (raiseHeld_reports _ _ _ _ _ _).windowed) h3
  have h5 : Windowed s s5 := ite_windowed (h4.trans (raise_windowed _ _ _ _)) h4
  have h6 : Windowed s s6 := ite_windowed (h5.trans (raise_windowed _ _ _ _)) h5
  exact ite_windowed (Windowed.rfl' s) (ite_windowed (h6.trans (raise_windowed _ _ _ _)) h6)

/-- The end of a silent stop's fade is a phase of the stop alone. -/
theorem stopZero_goesOn (h : Chan) : GoesOn h (stopZero h) := by
  unfold stopZero
  split
  · exact ⟨rfl, rfl, rfl, rfl⟩
  · exact GoesOn.rfl' h

theorem chanWindow_windowed (sense : List SensePair) (c : Nat) (s : State) : Windowed s (chanWindow sense c s) := by
  unfold chanWindow
  refine ite_windowed (modDsp_windowed s c _) ?_
  extract_lets s1 d f base a fed fedX d1 n0 ran s2 mode plays vt us holds rs n fi done out outLess vr final d2 hold s3 sats s4 add
  have h1 : Windowed s s1 := ((gatherWindow_windowed sense c s).trans (modelWindow_windowed sense c _)).trans
    (modChan_windowed _ c fun v => GoesOn.trans (b := { v with dsp := v.dsp.steerBoundary }) ⟨rfl, rfl, rfl, rfl⟩ (stopZero_goesOn _))
  have h2 : Windowed s s2 := h1.trans (modDsp_windowed s1 c _)
  have h3 : Windowed s s3 := h2.trans (modChan_windowed s2 c fun v => by
    refine ⟨?_, ?_, rfl, rfl⟩
    · dsimp only; split <;> rfl
    · dsimp only; split <;> rfl)
  have h4 : Windowed s s4 := ite_windowed ((h3.trans (count_windowed _ _ s3)).trans (raiseHeld_reports _ _ _ _ _ _).windowed) h3
  have hadd : ∀ k n u, Windowed s u → Windowed s (add k n u) := fun k n u hu => ite_windowed hu (hu.trans (count_windowed _ _ u))
  exact hadd _ _ _ (hadd _ _ _ (hadd _ _ _ h4))

end Sys2Proof.Machine
end

section
/-! PROOFS. The DSP window (R24, R27, R32, R35, R208, R322, R337, R369, Table 12.2). -/

namespace Sys2Proof.Machine

/-! ### The sample clock -/

/-- Each controller after a change of all of them. -/
theorem rail_mapIdx (s : State) (f : Nat → Rail → Rail) {r : Nat} (hr : r < 12) :
    ({ s with rails := s.rails.mapIdx f } : State).rail r = f r (s.rail r) := by
  simp [State.rail, hr]

theorem blockPasses_rail {r : Nat} (hr : r < 12) (s : State) : (blockPasses s).rail r = moveRef s r (s.rail r) := rail_mapIdx s (moveRef s) hr

/-- A block leaves of a controller all but its reference, which moves while the controller switches (R338, R342). -/
theorem moveRef_eq (s : State) (r : Nat) (q : Rail) :
    moveRef s r q = { q with ref := if q.state.gatesOn then approach q.ref (refGoal s r q) (refRate s r q / 12) else q.ref } := by
  unfold moveRef
  split <;> rfl

/-- A block leaves of a channel all but the time of its last switching (R310). -/
theorem blockPasses_chan (s : State) (c : Nat) :
    (blockPasses s).chan c = { s.chan c with fsm := { (s.chan c).fsm with swAt := ((blockPasses s).chan c).fsm.swAt } } := by
  have h : ∀ h : Chan, ∃ x, (if h.fsm.bridge = .switching then { h with fsm := { h.fsm with swAt := s.media.samples + 8 } } else h) =
      { h with fsm := { h.fsm with swAt := x } } := by
    intro h
    split
    · exact ⟨_, rfl⟩
    · exact ⟨_, rfl⟩
  have key : ∃ x, (blockPasses s).chan c = { s.chan c with fsm := { (s.chan c).fsm with swAt := x } } := by
    unfold blockPasses State.chan
    by_cases hc : c < 208
    · simpa [hc] using h (s.chans[c])
    · exact ⟨0, by simp [hc]⟩
  obtain ⟨x, hx⟩ := key
  rw [hx]

theorem blockPasses_goesOn (s : State) (c : Nat) : GoesOn (s.chan c) ((blockPasses s).chan c) := by
  rw [blockPasses_chan s c]
  exact ⟨rfl, rfl, rfl, rfl⟩

/-! ### Pairs that wait (R32) -/

/-- From `s` to `t` only the pairs that wait and those that found no room may differ. -/
def Queues (s t : State) : Prop :=
  t = { s with misc := { s.misc with senseFifo := t.misc.senseFifo, senseDrops := t.misc.senseDrops } }

theorem Queues.rfl' (s : State) : Queues s s := rfl

theorem queueSense_queues (p : SensePair) (s : State) : Queues s (queueSense p s) := by
  unfold queueSense Queues
  dsimp only
  split <;> rfl

theorem Queues.trans {s t u : State} (h : Queues s t) (k : Queues t u) : Queues s u := by
  unfold Queues at *
  rw [k, h]

theorem foldl_queueSense_queues (l : List SensePair) (s : State) : Queues s (l.foldl (fun s p => queueSense p s) s) :=
  foldl_invariant (P := Queues s) (fun u p h => h.trans (queueSense_queues p u)) l (Queues.rfl' s)

theorem queueSense_room {p : SensePair} {s : State} (h : (s.misc.senseFifo.filter fun q => q.ch == p.ch).length < 32) :
    queueSense p s = { s with misc := { s.misc with senseFifo := s.misc.senseFifo ++ [p] } } := by
  simp [queueSense, Nat.not_le.mpr h]

theorem queueSense_full {p : SensePair} {s : State} (h : 32 ≤ (s.misc.senseFifo.filter fun q => q.ch == p.ch).length) :
    queueSense p s = { s with misc := { s.misc with senseDrops := s.misc.senseDrops + 1 } } := by
  simp [queueSense, h]

/-! ### The partner's mute line (Table 14.9) -/

/-- What the partner's mute line may do to a channel: a muted one with every mute source released returns to RUN, and a multiplier moves. -/
def MuteEnds (s : State) (c : Nat) (b : Chan) : Prop :=
  (b.fsm.state = (s.chan c).fsm.state ∨
    ((s.chan c).fsm.state = .muted ∧ (s.chan c).fsm.stop = .none ∧ muteReleased s c = true ∧ b.fsm.state = .run)) ∧
  b.fsm.stop = (s.chan c).fsm.stop ∧ b.fsm.bridge = (s.chan c).fsm.bridge ∧ b.loop = (s.chan c).loop ∧ b.share = (s.chan c).share

theorem MuteEnds.rfl' (s : State) (c : Nat) : MuteEnds s c (s.chan c) := ⟨.inl rfl, rfl, rfl, rfl, rfl⟩

/-- From `s` to `t` only the registers of single generators and what the partner's mute line does to channels may differ. -/
def Mutes (s t : State) : Prop :=
  t = { s with chans := t.chans, pwm := { s.pwm with ch := t.pwm.ch } } ∧ ∀ c, MuteEnds s c (t.chan c)

theorem Mutes.rfl' (s : State) : Mutes s s := ⟨rfl, fun c => MuteEnds.rfl' s c⟩

/-- The mute sources of a channel rest on what the partner's mute line leaves. -/
theorem Mutes.muteReleased {s t : State} (h : Mutes s t) (c : Nat) : Machine.muteReleased t c = Machine.muteReleased s c := by
  obtain ⟨-, -, hbridge, -, hshare⟩ := h.2 c
  unfold Machine.muteReleased muteOf bothDrive sharing armed muteLine State.flag
  rw [hbridge, hshare, h.1]

theorem Mutes.trans {s t u : State} (h : Mutes s t) (k : Mutes t u) : Mutes s u := by
  refine ⟨by rw [k.1, h.1], fun c => ?_⟩
  obtain ⟨hstate, hstop, hbridge, hloop, hshare⟩ := h.2 c
  obtain ⟨kstate, kstop, kbridge, kloop, kshare⟩ := k.2 c
  refine ⟨?_, kstop.trans hstop, kbridge.trans hbridge, kloop.trans hloop, kshare.trans hshare⟩
  rcases kstate with ksame | ⟨kmuted, kidle, kfree, krun⟩
  · rw [ksame]
    exact hstate
  · rcases hstate with hsame | ⟨-, -, -, hrun⟩
    · exact .inr ⟨hsame ▸ kmuted, hstop ▸ kidle, h.muteReleased c ▸ kfree, krun⟩
    · rw [hrun] at kmuted
      cases kmuted

theorem modChan_mutes {s : State} {c : Nat} {f : Chan → Chan} (h : MuteEnds s c (f (s.chan c))) : Mutes s (s.modChan c f) := by
  refine ⟨rfl, fun k => ?_⟩
  by_cases hk : k = c
  · subst hk
    have hown : (s.modChan k f).chan k = s.chan k ∨ (s.modChan k f).chan k = f (s.chan k) :=
      modChan_related (R := fun a b => b = a ∨ b = f (s.chan k)) (fun _ => .inl rfl) (.inr rfl) k
    rcases hown with e | e
    · rw [e]
      exact MuteEnds.rfl' s k
    · rw [e]
      exact h
  · rw [chan_modChan_other _ _ hk]
    exact MuteEnds.rfl' s k

theorem modDsp_mutes (s : State) (c : Nat) (f : Dsp → Dsp) : Mutes s (s.modDsp c f) := modChan_mutes ⟨.inl rfl, rfl, rfl, rfl, rfl⟩

theorem maskDue_mutes (c : Nat) (s : State) : Mutes s (maskDue c s) :=
  ⟨by rw [maskDue_eq, maskDue_pins c s], fun k => by rw [maskDue_chan]; exact MuteEnds.rfl' s k⟩

theorem unmute_mutes (c : Nat) (s : State) : Mutes s (unmute c s) := by
  unfold unmute
  split
  · rename_i h
    obtain ⟨hmuted, hidle, hfree⟩ := h
    have hdue := maskDue_mutes c s
    refine hdue.trans (modChan_mutes ⟨.inr ⟨?_, ?_, hdue.muteReleased c ▸ hfree, rfl⟩, rfl, rfl, rfl, rfl⟩)
    · rw [maskDue_chan]; exact hmuted
    · rw [maskDue_chan]; exact hidle
  · exact Mutes.rfl' s

theorem partnerMute_mutes (c : Nat) (s : State) : Mutes s (partnerMute c s) := by
  unfold partnerMute
  extract_lets e
  split
  · exact Mutes.rfl' s
  split
  · split
    · exact Mutes.rfl' s
    · exact modDsp_mutes s c _
  split
  · exact (modDsp_mutes s c _).trans (unmute_mutes c _)
  · exact Mutes.rfl' s

/-! ### The rows of a controller (R337) -/

theorem modRail_related {R : Rail → Rail → Prop} (hrefl : ∀ v, R v v) {s : State} {r : Nat} {f : Rail → Rail} (h : R (s.rail r) (f (s.rail r)))
    (k : Nat) : R (s.rail k) ((s.modRail r f).rail k) := by
  by_cases hk : k = r
  · subst hk
    by_cases hr : k < 12
    · rwa [rail_modRail_self _ _ hr]
    · have e : (s.modRail k f).rail k = s.rail k := by simp [State.modRail, State.rail, hr]
      rw [e]
      exact hrefl _
  · rw [rail_modRail_other _ _ hk]
    exact hrefl _

/-- What the tracker makes of a controller with the DSP's ceiling `ce` and a selection that is frozen or not: where it does not regulate, the
plan of the samples played alone; where it does, the newest 12 rows and their selection. -/
def Tracked (ce : Nat) (frozen : Bool) (a b : Rail) : Prop :=
  (a.state ≠ .regulating → b = { a with plan := b.plan }) ∧ b.ref = a.ref ∧
  (a.state = .regulating → b.rows.tail = a.rows.take 11 ∧ (frozen = false → b.sent = b.rows.foldl max 0) ∧ (frozen = true → b.sent = min a.sent ce))

theorem trackRail_self {r : Nat} (hr : r < 12) (s : State) : Tracked (cEffDsp s r) (freezes s r) (s.rail r) ((trackRail r s).rail r) := by
  unfold trackRail
  extract_lets q played keep rows top sel
  split
  · rename_i hreg
    rw [rail_modRail_self _ _ hr]
    refine ⟨fun h => absurd hreg h, rfl, fun _ => ⟨?_, fun h => ?_, fun h => ?_⟩⟩
    · rfl
    · exact if_neg (by simp [h])
    · exact if_pos h
  · rename_i hreg
    rw [rail_modRail_self _ _ hr]
    exact ⟨fun _ => rfl, rfl, fun h => absurd h hreg⟩

theorem trackRail_other {r k : Nat} (hk : k ≠ r) (s : State) : (trackRail r s).rail k = s.rail k := by
  unfold trackRail
  extract_lets q played keep rows top sel
  split <;> exact rail_modRail_other _ _ hk

theorem trackRail_eq (r : Nat) (s : State) : trackRail r s = { s with rails := (trackRail r s).rails } := by
  unfold trackRail
  extract_lets q played keep rows top sel
  split <;> rfl

/-- A loop over units leaves those beyond its end. -/
theorem forUnits_beyond {α : Type} {get : State → Nat → α} {f : Nat → State → State} (hother : ∀ c k u, k ≠ c → get (f c u) k = get u k)
    (n : Nat) (s : State) {k : Nat} (hk : n ≤ k) : get (forUnits n f s) k = get s k := by
  induction n with
  | zero => rw [forUnits_zero]
  | succ n ih => rw [forUnits_succ, hother _ _ _ (by omega), ih (by omega)]

/-- Where each step of a loop relates its own unit by `R` and leaves the others, the loop relates each of its units by `R`. -/
theorem forUnits_units {α : Type} {get : State → Nat → α} {R : Nat → α → α → Prop} {P : State → Prop} {f : Nat → State → State} {n : Nat}
    (hkeep : ∀ c u, P u → P (f c u)) (hother : ∀ c k u, k ≠ c → get (f c u) k = get u k)
    (hself : ∀ c u, c < n → P u → R c (get u c) (get (f c u) c)) {s : State} (hs : P s) {c : Nat} (hc : c < n) :
    R c (get s c) (get (forUnits n f s) c) := by
  induction n with
  | zero => omega
  | succ n ih =>
    rw [forUnits_succ]
    by_cases h : c = n
    · subst h
      have hown := hself c _ hc (forUnits_invariant hkeep c hs)
      rwa [forUnits_beyond hother c s (Nat.le_refl c)] at hown
    · rw [hother _ _ _ h]
      exact ih (fun c u hc => hself c u (by omega)) (by omega)

theorem cEffDsp_congr {s t : State} {r : Nat} (hrow : t.misc.rselDsp = s.misc.rselDsp) (hkeep : (t.rail r).cKeepDsp = (s.rail r).cKeepDsp)
    (hfault : (t.rail r).dFaultDsp = (s.rail r).dFaultDsp) (htemp : (t.rail r).dTempDsp = (s.rail r).dTempDsp) : cEffDsp t r = cEffDsp s r := by
  unfold cEffDsp
  dsimp only
  rw [hrow, hkeep, hfault, htemp]

/-- The tracker leaves each ceiling and each freeze that it reads. -/
theorem trackRail_inputs (k r : Nat) (s : State) : cEffDsp (trackRail k s) r = cEffDsp s r ∧ freezes (trackRail k s) r = freezes s r := by
  have hrail : ((trackRail k s).rail r).cKeepDsp = (s.rail r).cKeepDsp ∧ ((trackRail k s).rail r).dFaultDsp = (s.rail r).dFaultDsp ∧
      ((trackRail k s).rail r).dTempDsp = (s.rail r).dTempDsp := by
    unfold trackRail
    extract_lets q played keep rows top sel
    split
    · exact modRail_related (R := fun a b => b.cKeepDsp = a.cKeepDsp ∧ b.dFaultDsp = a.dFaultDsp ∧ b.dTempDsp = a.dTempDsp)
        (fun _ => ⟨rfl, rfl, rfl⟩) ⟨rfl, rfl, rfl⟩ r
    · exact modRail_related (R := fun a b => b.cKeepDsp = a.cKeepDsp ∧ b.dFaultDsp = a.dFaultDsp ∧ b.dTempDsp = a.dTempDsp)
        (fun _ => ⟨rfl, rfl, rfl⟩) ⟨rfl, rfl, rfl⟩ r
  obtain ⟨hkeep, hfault, htemp⟩ := hrail
  refine ⟨cEffDsp_congr (by rw [trackRail_eq]) hkeep hfault htemp, ?_⟩
  unfold freezes State.chan
  rw [trackRail_eq]

/-- The tracker, for every controller. -/
theorem forUnits_trackRail (s : State) {r : Nat} (hr : r < 12) :
    Tracked (cEffDsp s r) (freezes s r) (s.rail r) ((forUnits 12 trackRail s).rail r) := by
  refine forUnits_units (get := State.rail) (R := fun r => Tracked (cEffDsp s r) (freezes s r))
    (P := fun u => ∀ r, cEffDsp u r = cEffDsp s r ∧ freezes u r = freezes s r) (fun k u hu r => ?_) (fun k j u hj => trackRail_other hj u)
    (fun k u hk hu => ?_) (fun r => ⟨rfl, rfl⟩) hr
  · obtain ⟨hce, hfr⟩ := trackRail_inputs k r u
    exact ⟨hce.trans (hu r).1, hfr.trans (hu r).2⟩
  · have h := trackRail_self hk u
    rwa [(hu k).1, (hu k).2] at h

/-! ### The stage multipliers (R322) -/

@[simp] theorem dsd_modDsd_other (s : State) {d k : Nat} (f : Dsd → Dsd) (h : k ≠ d) : (s.modDsd d f).dsd k = s.dsd k := by
  simp [State.modDsd, State.dsd, Vector.getElem?_setIfInBounds_ne (Ne.symm h)]

theorem Reports.dsd {s t : State} (h : Reports s t) (d : Nat) : t.dsd d = s.dsd d := h.touches.dsd d

/-- One block of a die's multiplier: a die in reset stands, a released one moves toward its target at the rates of Table 12.2. -/
def Staged (a b : Dsd) : Prop :=
  (a.released = false → b = a) ∧
  (a.released = true → b.sDb = (if stageTarget (a.zoneC + a.thetaK) < a.sDb then max (stageTarget (a.zoneC + a.thetaK)) (a.sDb - 1/600)
    else min (stageTarget (a.zoneC + a.thetaK)) (a.sDb + 1/24000)) ∧ b.zoneC = a.zoneC)

theorem stageBlock_self {d : Nat} (hd : d < 4) (s : State) : Staged (s.dsd d) ((stageBlock d s).dsd d) := by
  unfold stageBlock
  extract_lets q target db quiet starts s1
  split
  · rename_i h
    exact ⟨fun _ => rfl, fun k => by rw [k] at h; cases h⟩
  · rename_i h
    have h1 : Staged (s.dsd d) (s1.dsd d) := by
      rw [show s1.dsd d = _ from dsd_modDsd_self s _ hd]
      exact ⟨fun k => absurd (by rw [k]; rfl) h, fun _ => ⟨rfl, rfl⟩⟩
    split
    · rw [(raise_reports _ _ _ _).dsd]
      exact h1
    · exact h1

theorem stageBlock_other {d k : Nat} (hk : k ≠ d) (s : State) : (stageBlock d s).dsd k = s.dsd k := by
  unfold stageBlock
  extract_lets q target db quiet starts s1
  split
  · rfl
  split
  · rw [(raise_reports _ _ _ _).dsd]
    exact dsd_modDsd_other s _ hk
  · exact dsd_modDsd_other s _ hk

/-- From `s` to `t` only the dies, the log with its notices and interrupt bits, and counters may differ. -/
def Stages (s t : State) : Prop := Reports { s with dsds := t.dsds } t

theorem Stages.trans {s t u : State} (h : Stages s t) (k : Stages t u) : Stages s u := by
  unfold Stages Reports at *
  rw [k, h]

theorem stageBlock_stages (d : Nat) (s : State) : Stages s (stageBlock d s) := by
  unfold stageBlock
  extract_lets q target db quiet starts s1
  have h1 : Stages s s1 := rfl
  split
  · rfl
  split
  · exact h1.trans (by
      have h := raise_reports 0x5020 (0x100 + d) [wordS (10 * q.zoneC)] s1
      unfold Stages
      rw [show (s1.raise 0x5020 (0x100 + d) [wordS (10 * q.zoneC)]).dsds = s1.dsds by rw [h]]
      exact h)
  · exact h1

/-! ### The parts of a window that plays -/

/-- The partner's mute line acts at the start of a window of a device in SHARED. -/
def windowBegun (s : State) : State := if s.cfgShared then forUnits 208 partnerMute s else s

theorem windowBegun_mutes (s : State) : Mutes s (windowBegun s) := by
  unfold windowBegun
  split
  · exact forUnits_invariant (P := Mutes s) (fun c u h => h.trans (partnerMute_mutes c u)) 208 (Mutes.rfl' s)
  · exact Mutes.rfl' s

theorem windowBegun_alone {s : State} (h : s.cfgShared = false) : windowBegun s = s := if_neg (by simp [h])

/-- Streams, ports, the adoption, the sense pairs and every channel's window. -/
def windowPlayed (pairs : List SensePair) (s : State) : State :=
  forUnits 208 (chanWindow pairs) (pairs.foldl (fun s p => addEnergy (keepSense s p) p) (adopt (forUnits 4 tdmBlock (forUnits 32 streamBlock s))))

theorem windowPlayed_windowed (pairs : List SensePair) (s : State) : Windowed s (windowPlayed pairs s) := by
  have hstreams : Windowed s (forUnits 32 streamBlock s) :=
    forUnits_invariant (P := Windowed s) (fun st u h => h.trans (streamBlock_windowed st u)) 32 (Windowed.rfl' s)
  have htdms : Windowed s (forUnits 4 tdmBlock (forUnits 32 streamBlock s)) :=
    forUnits_invariant (P := Windowed s) (fun x u h => h.trans (tdmBlock_windowed x u)) 4 hstreams
  unfold windowPlayed
  refine forUnits_invariant (P := Windowed s) (fun c u h => h.trans (chanWindow_windowed pairs c u)) 208 ?_
  exact foldl_invariant (P := Windowed s) (fun u p h => (h.trans (keepSense_windowed u p)).trans (addEnergy_windowed _ p)) pairs
    (htdms.trans (adopt_windowed _))

/-- The tracker, the stages and the digest of a pair. -/
def windowTracked (s : State) : State := formDigest (forUnits 4 stageBlock (forUnits 12 trackRail s))

/-- The media index moves on by the block, and no pair waits. -/
def windowEnded (s : State) : State :=
  sourceCheck { s with
    media := { s.media with index := s.media.index + 8 }
    misc := { s.misc with senseFifo := [], muteState := if s.misc.muteState = 3 ∧ riseDone s then 0 else s.misc.muteState } }

theorem exec_dspWindow_playing {s : State} (sense : List SensePair) (hlocked : s.media.locked = true) (hruns : s.media.halted = false) :
    exec (.dspWindow sense) s = .next (windowEnded (windowTracked (windowPlayed (s.misc.senseFifo ++ sense.map (marked s))
      (windowBegun (blockPasses s))))) := by
  have hplays : ((blockPasses s).media.locked && !(blockPasses s).media.halted) = true := by
    show (s.media.locked && !s.media.halted) = true
    simp [hlocked, hruns]
  show execDspWindow sense s = _
  rw [execDspWindow, if_pos hlocked]
  dsimp only
  rw [if_pos hplays]
  rfl

theorem exec_dspWindow_halted {s : State} (sense : List SensePair) (hlocked : s.media.locked = true) (hhalted : s.media.halted = true) :
    exec (.dspWindow sense) s = .next ((sense.map (marked s)).foldl (fun s p => queueSense p s) (blockPasses s)) := by
  have hheld : ¬ ((blockPasses s).media.locked && !(blockPasses s).media.halted) = true := by
    show ¬ (s.media.locked && !s.media.halted) = true
    simp [hhalted]
  show execDspWindow sense s = _
  rw [execDspWindow, if_pos hlocked]
  dsimp only
  rw [if_neg hheld]

theorem exec_dspWindow_unlocked {s : State} (sense : List SensePair) (hlocked : s.media.locked = false) :
    exec (.dspWindow sense) s = .next ((sense.map (marked s)).foldl (fun s p => queueSense p s) s) := by
  show execDspWindow sense s = _
  simp [execDspWindow, hlocked]

end Sys2Proof.Machine
end

section
/-! PROOFS. The DSP window as a whole (R24, R27, R35, R208, R369). -/

namespace Sys2Proof.Machine

/-- What a window leaves from its start to its end beside the clock and the pairs: the queue, the memories, the configuration, ports, supplies,
generators and the time since both sides are released. -/
def WindowLeaves (s t : State) : Prop :=
  Quiet s t ∧ t.ports = s.ports ∧ t.power = s.power ∧ t.pwm = s.pwm ∧ t.twin.quiet = s.twin.quiet

theorem WindowLeaves.trans {s t u : State} (h : WindowLeaves s t) (k : WindowLeaves t u) : WindowLeaves s u := by
  obtain ⟨h1, h2, h3, h4, h5⟩ := h
  obtain ⟨k1, k2, k3, k4, k5⟩ := k
  exact ⟨h1.trans k1, k2.trans h2, k3.trans h3, k4.trans h4, k5.trans h5⟩

theorem Windowed.leaves {s t : State} (h : Windowed s t) : WindowLeaves s t := by
  unfold WindowLeaves Quiet
  rw [h.1]
  exact ⟨⟨rfl, rfl, rfl, rfl⟩, rfl, rfl, rfl, rfl⟩

theorem Reports.leaves {s t : State} (h : Reports s t) : WindowLeaves s t := h.windowed.leaves

theorem Queues.quiet {s t : State} (h : Queues s t) : Quiet s t := by
  unfold Quiet
  rw [h]
  exact ⟨rfl, rfl, rfl, rfl⟩
theorem Queues.rail {s t : State} (h : Queues s t) (r : Nat) : t.rail r = s.rail r := by
  unfold State.rail; rw [h]
theorem Queues.chan {s t : State} (h : Queues s t) (c : Nat) : t.chan c = s.chan c := by
  unfold State.chan; rw [h]

/-! ### The tracker and the stages together -/

theorem forUnits_trackRail_eq (s : State) : forUnits 12 trackRail s = { s with rails := (forUnits 12 trackRail s).rails } :=
  forUnits_rails s trackRail_eq

theorem forUnits_stageBlock_stages (s : State) : Stages s (forUnits 4 stageBlock s) :=
  forUnits_invariant (P := Stages s) (fun d u h => h.trans (stageBlock_stages d u)) 4 rfl

theorem forUnits_stageBlock (s : State) {d : Nat} (hd : d < 4) : Staged (s.dsd d) ((forUnits 4 stageBlock s).dsd d) :=
  forUnits_units (get := State.dsd) (R := fun _ => Staged) (P := fun _ => True) (fun _ _ _ => trivial) (fun _ _ u hk => stageBlock_other hk u)
    (fun _ u hd _ => stageBlock_self hd u) trivial hd

theorem Stages.chan {s t : State} (h : Stages s t) (c : Nat) : t.chan c = s.chan c := by
  unfold State.chan; rw [h]
theorem Stages.rail {s t : State} (h : Stages s t) (r : Nat) : t.rail r = s.rail r := by
  unfold State.rail; rw [h]
theorem Stages.media {s t : State} (h : Stages s t) : t.media = s.media := by rw [h]
theorem Stages.leaves {s t : State} (h : Stages s t) : WindowLeaves s t := by
  unfold WindowLeaves Quiet
  rw [h]
  exact ⟨⟨rfl, rfl, rfl, rfl⟩, rfl, rfl, rfl, rfl⟩

theorem Windowed.rail {s t : State} (h : Windowed s t) (r : Nat) : t.rail r = s.rail r := by
  unfold State.rail; rw [h.1]
theorem Windowed.dsd {s t : State} (h : Windowed s t) (d : Nat) : t.dsd d = s.dsd d := by
  unfold State.dsd; rw [h.1]
theorem Windowed.media {s t : State} (h : Windowed s t) : t.media = s.media := by rw [h.1]

theorem Mutes.rail {s t : State} (h : Mutes s t) (r : Nat) : t.rail r = s.rail r := by
  unfold State.rail; rw [h.1]
theorem Mutes.dsd {s t : State} (h : Mutes s t) (d : Nat) : t.dsd d = s.dsd d := by
  unfold State.dsd; rw [h.1]
theorem Mutes.media {s t : State} (h : Mutes s t) : t.media = s.media := by rw [h.1]

/-- What the tracker, the stages and the digest make of a state. -/
theorem windowTracked_spec (s : State) : WindowLeaves s (windowTracked s) ∧ (windowTracked s).media = s.media ∧
    (∀ c, GoesOn (s.chan c) ((windowTracked s).chan c)) ∧ (∀ d, d < 4 → Staged (s.dsd d) ((windowTracked s).dsd d)) ∧
    ∀ r, r < 12 → Tracked (cEffDsp s r) (freezes s r) (s.rail r) ((windowTracked s).rail r) := by
  have hrails := forUnits_trackRail_eq s
  have hstages := forUnits_stageBlock_stages (forUnits 12 trackRail s)
  have hdigest := formDigest_windowed (forUnits 4 stageBlock (forUnits 12 trackRail s))
  have hleaves : WindowLeaves s (forUnits 12 trackRail s) := by
    rw [hrails]
    exact ⟨⟨rfl, rfl, rfl, rfl⟩, rfl, rfl, rfl, rfl⟩
  refine ⟨(hleaves.trans hstages.leaves).trans hdigest.leaves, ?_, fun c => ?_, fun d hd => ?_, fun r hr => ?_⟩
  · rw [windowTracked, hdigest.media, hstages.media, hrails]
  · have hchan : (forUnits 4 stageBlock (forUnits 12 trackRail s)).chan c = s.chan c := by
      rw [hstages.chan, hrails]
      rfl
    have h := hdigest.2 c
    rwa [hchan] at h
  · have hdsd : (forUnits 12 trackRail s).dsd d = s.dsd d := by
      rw [hrails]
      rfl
    rw [windowTracked, hdigest.dsd, ← hdsd]
    exact forUnits_stageBlock _ hd
  · rw [windowTracked, hdigest.rail, hstages.rail]
    exact forUnits_trackRail s hr

/-! ### The end of a window -/

/-- A check of the source changes the media clock and reports. -/
theorem sourceCheck_reports (s : State) : Reports { s with media := (sourceCheck s).media } (sourceCheck s) := by
  have hhold : Reports { s with media := (holdoverEnter s).media } (holdoverEnter s) := by
    unfold holdoverEnter
    rw [(raise_reports _ _ _ _).media]
    exact raise_reports _ _ _ _
  unfold sourceCheck
  repeat' split
  · rfl
  · rfl
  · rfl
  · rfl
  · rfl
  · rfl
  · exact hhold
  · rfl
  · exact hhold
  · rfl

/-- The end of a window moves the index on by the block, empties the row of pairs and leaves every unit. -/
theorem windowEnded_spec (s : State) : WindowLeaves s (windowEnded s) ∧ (windowEnded s).media.index = s.media.index + 8 ∧
    (windowEnded s).misc.senseFifo = [] ∧ (∀ c, (windowEnded s).chan c = s.chan c) ∧ (∀ d, (windowEnded s).dsd d = s.dsd d) ∧
    ∀ r, (windowEnded s).rail r = s.rail r := by
  unfold windowEnded
  have hclock := sourceCheck_sameRun { s with
    media := { s.media with index := s.media.index + 8 }
    misc := { s.misc with senseFifo := [], muteState := if s.misc.muteState = 3 ∧ riseDone s then 0 else s.misc.muteState } }
  have h := sourceCheck_reports { s with
    media := { s.media with index := s.media.index + 8 }
    misc := { s.misc with senseFifo := [], muteState := if s.misc.muteState = 3 ∧ riseDone s then 0 else s.misc.muteState } }
  obtain ⟨hquiet, hports, hpower, hpwm, htwin⟩ := h.leaves
  exact ⟨⟨hquiet, hports, hpower, hpwm, htwin⟩, hclock.1, by rw [h], fun c => h.chan c, fun d => h.dsd d, fun r => h.rail r⟩

/-! ### A window from its start to its end -/

/-- What the tracker reads of a state whose controllers have the same ceilings and whose channels are in PRECHARGE alike. -/
theorem freezes_congr {s t : State} (h : ∀ c, (t.chan c).fsm.state = .precharge ↔ (s.chan c).fsm.state = .precharge) (r : Nat) :
    freezes t r = freezes s r := by
  unfold freezes
  congr 1
  funext c
  rw [Bool.eq_iff_iff, beq_iff_eq, beq_iff_eq]
  exact h c

theorem Windowed.inputs {s t : State} (h : Windowed s t) (r : Nat) : cEffDsp t r = cEffDsp s r ∧ freezes t r = freezes s r := by
  refine ⟨cEffDsp_congr (by rw [h.1]) (by rw [h.rail]) (by rw [h.rail]) (by rw [h.rail]), freezes_congr (fun c => ?_) r⟩
  obtain ⟨hstate, -⟩ := h.2 c
  rw [hstate]

theorem Mutes.inputs {s t : State} (h : Mutes s t) (r : Nat) : cEffDsp t r = cEffDsp s r ∧ freezes t r = freezes s r := by
  refine ⟨cEffDsp_congr (by rw [h.1]) (by rw [h.rail]) (by rw [h.rail]) (by rw [h.rail]), freezes_congr (fun c => ?_) r⟩
  obtain ⟨hstate, -⟩ := h.2 c
  rcases hstate with hsame | ⟨hmuted, -, -, hrun⟩
  · rw [hsame]
  · rw [hmuted, hrun]
    exact ⟨fun e => (nomatch e), fun e => (nomatch e)⟩

theorem blockPasses_inputs (s : State) {r : Nat} (hr : r < 12) :
    cEffDsp (blockPasses s) r = cEffDsp s r ∧ freezes (blockPasses s) r = freezes s r := by
  have hrail : (blockPasses s).rail r = _ := (blockPasses_rail hr s).trans (moveRef_eq s r _)
  refine ⟨cEffDsp_congr rfl (by rw [hrail]) (by rw [hrail]) (by rw [hrail]), freezes_congr (fun c => ?_) r⟩
  obtain ⟨hstate, -⟩ := blockPasses_goesOn s c
  rw [hstate]

/-- The mute sources of a channel rest on nothing that the sample clock moves. -/
theorem blockPasses_muteReleased (s : State) (c : Nat) : muteReleased (blockPasses s) c = muteReleased s c := by
  obtain ⟨-, hbridge, -, -⟩ := blockPasses_goesOn s c
  have hshare : ((blockPasses s).chan c).share = (s.chan c).share := by rw [blockPasses_chan]
  unfold muteReleased muteOf bothDrive armed
  rw [hbridge, hshare]
  rfl

/-- The state at the end of a window that begins in `s`. -/
def windowOf (pairs : List SensePair) (s : State) : State := windowEnded (windowTracked (windowPlayed pairs (windowBegun (blockPasses s))))

/-- From the start of a window, after the partner's mute line has acted, to its end. -/
theorem windowPlayed_toEnd (pairs : List SensePair) (m t : State) (ht : t = windowEnded (windowTracked (windowPlayed pairs m))) :
    WindowLeaves m t ∧ t.media.index = m.media.index + 8 ∧ t.misc.senseFifo = [] ∧ (∀ c, GoesOn (m.chan c) (t.chan c)) ∧
    (∀ d, d < 4 → Staged (m.dsd d) (t.dsd d)) ∧ ∀ r, r < 12 → Tracked (cEffDsp m r) (freezes m r) (m.rail r) (t.rail r) := by
  subst ht
  have hplayed := windowPlayed_windowed pairs m
  obtain ⟨kleaves, kmedia, kchan, kdsd, krail⟩ := windowTracked_spec (windowPlayed pairs m)
  obtain ⟨eleaves, eindex, efifo, echan, edsd, erail⟩ := windowEnded_spec (windowTracked (windowPlayed pairs m))
  refine ⟨(hplayed.leaves.trans kleaves).trans eleaves, ?_, efifo, fun c => ?_, fun d hd => ?_, fun r hr => ?_⟩
  · rw [eindex, kmedia, hplayed.media]
  · rw [echan]
    exact (hplayed.2 c).trans (kchan c)
  · rw [edsd, ← hplayed.dsd]
    exact kdsd d hd
  · have h := krail r hr
    rwa [(hplayed.inputs r).1, (hplayed.inputs r).2, hplayed.rail, ← erail] at h

/-- What a window does to a channel: it goes on as it is, but that in SHARED a muted one that the partner's line has released returns to RUN. -/
theorem windowOf_chan (pairs : List SensePair) (s : State) (c : Nat) :
    (((windowOf pairs s).chan c).fsm.state = (s.chan c).fsm.state ∨ (s.cfgShared = true ∧ (s.chan c).fsm.state = .muted ∧
      (s.chan c).fsm.stop = .none ∧ muteReleased s c = true ∧ ((windowOf pairs s).chan c).fsm.state = .run)) ∧
    ((windowOf pairs s).chan c).fsm.bridge = (s.chan c).fsm.bridge ∧ ((windowOf pairs s).chan c).loop = (s.chan c).loop ∧
    JoinMarkOnly (s.chan c).share ((windowOf pairs s).chan c).share := by
  obtain ⟨-, -, -, hchan, -, -⟩ := windowPlayed_toEnd pairs (windowBegun (blockPasses s)) (windowOf pairs s) rfl
  obtain ⟨hstate, hbridge, hloop, hshare⟩ := hchan c
  obtain ⟨mstate, -, mbridge, mloop, mshare⟩ := (windowBegun_mutes (blockPasses s)).2 c
  obtain ⟨bstate, bbridge, bloop, bshare⟩ := blockPasses_goesOn s c
  have bstop : ((blockPasses s).chan c).fsm.stop = (s.chan c).fsm.stop := by rw [blockPasses_chan]
  refine ⟨?_, hbridge.trans (mbridge.trans bbridge), hloop.trans (mloop.trans bloop), ?_⟩
  · cases hmode : s.cfgShared with
    | false =>
      rw [windowBegun_alone (s := blockPasses s) hmode] at hstate
      exact .inl (hstate.trans bstate)
    | true =>
      rcases mstate with hsame | ⟨hmuted, hidle, hfree, hrun⟩
      · exact .inl (hstate.trans (hsame.trans bstate))
      · exact .inr ⟨rfl, bstate ▸ hmuted, bstop ▸ hidle, blockPasses_muteReleased s c ▸ hfree, hstate.trans hrun⟩
  · rw [mshare] at hshare
    exact bshare.trans hshare

/-- What a window does to a controller: its reference moves by a block, and the tracker acts on it. -/
theorem windowOf_rail (pairs : List SensePair) (s : State) {r : Nat} (hr : r < 12) :
    Tracked (cEffDsp s r) (freezes s r) (moveRef s r (s.rail r)) ((windowOf pairs s).rail r) := by
  obtain ⟨-, -, -, -, -, hrail⟩ := windowPlayed_toEnd pairs (windowBegun (blockPasses s)) (windowOf pairs s) rfl
  have hmutes := windowBegun_mutes (blockPasses s)
  have h := hrail r hr
  rwa [(hmutes.inputs r).1, (hmutes.inputs r).2, (blockPasses_inputs s hr).1, (blockPasses_inputs s hr).2, hmutes.rail, blockPasses_rail hr] at h

/-- What the tracker makes of a controller whose reference has moved, against the controller before the block. -/
theorem Tracked.of_moveRef {ce r : Nat} {frozen : Bool} {s : State} {q b : Rail} (h : Tracked ce frozen (moveRef s r q) b) :
    (q.state ≠ .regulating → b = { q with plan := b.plan, ref := b.ref }) ∧
    b.ref = (if q.state.gatesOn then approach q.ref (refGoal s r q) (refRate s r q / 12) else q.ref) ∧
    (q.state = .regulating → b.rows.tail = q.rows.take 11 ∧ (frozen = false → b.sent = b.rows.foldl max 0) ∧
      (frozen = true → b.sent = min q.sent ce)) := by
  rw [moveRef_eq] at h
  obtain ⟨hidle, href, hreg⟩ := h
  refine ⟨fun hstate => (hidle hstate).trans ?_, href, hreg⟩
  rw [href]

theorem windowOf_dsd (pairs : List SensePair) (s : State) {d : Nat} (hd : d < 4) : Staged (s.dsd d) ((windowOf pairs s).dsd d) := by
  obtain ⟨-, -, -, -, hdsd, -⟩ := windowPlayed_toEnd pairs (windowBegun (blockPasses s)) (windowOf pairs s) rfl
  have h := hdsd d hd
  rwa [(windowBegun_mutes (blockPasses s)).dsd] at h

/-- The brown-out threshold of the configuration acts from a block boundary (R59). -/
theorem blockPasses_power (s : State) : (blockPasses s).power = { s.power with
    warnV := if s.keeper.cfgLoaded then s.ratv 0x01 0 1 else s.power.warnV, warnSet := s.power.warnSet || s.keeper.cfgLoaded } := by
  unfold blockPasses
  dsimp only
  cases s.keeper.cfgLoaded with
  | true => simp
  | false => simp

/-- What a window leaves, and what of the clock, the pairs, the supplies and the pair of devices it sets. -/
theorem windowOf_leaves (pairs : List SensePair) (s : State) : Quiet s (windowOf pairs s) ∧ (windowOf pairs s).media.index = s.media.index + 8 ∧
    (windowOf pairs s).ports = s.ports ∧ (windowOf pairs s).power = (blockPasses s).power ∧ SamePins s (windowOf pairs s) ∧
    (s.cfgShared = false → (windowOf pairs s).pwm = s.pwm) ∧ (windowOf pairs s).twin.quiet = (if released s then s.twin.quiet + 8 else 0) ∧
    (windowOf pairs s).misc.senseFifo = [] := by
  obtain ⟨hleaves, hindex, hfifo, -⟩ := windowPlayed_toEnd pairs (windowBegun (blockPasses s)) (windowOf pairs s) rfl
  obtain ⟨hquiet, hports, hpower, hpwm, htwin⟩ := hleaves
  have hmutes := windowBegun_mutes (blockPasses s)
  have hblock : Quiet s (blockPasses s) := blockPasses_frame s
  have hbegun : Quiet (blockPasses s) (windowBegun (blockPasses s)) := by
    unfold Quiet
    rw [hmutes.1]
    exact ⟨rfl, rfl, rfl, rfl⟩
  refine ⟨(hblock.trans hbegun).trans hquiet, ?_, ?_, ?_, ?_, fun halone => ?_, ?_, hfifo⟩
  · rw [hindex, hmutes.media]
    rfl
  · rw [hports, hmutes.1]
    rfl
  · rw [hpower, hmutes.1]
  · refine SamePins.trans (t := windowBegun (blockPasses s)) ?_ (.of_eq hpwm)
    show (windowBegun (blockPasses s)).pwm = _
    rw [hmutes.1]
    rfl
  · rw [hpwm, windowBegun_alone (s := blockPasses s) halone]
    rfl
  · rw [htwin, hmutes.1]
    rfl

end Sys2Proof.Machine

open Sys2Proof Sys2Proof.Machine

/-- Settles O46: without a lock by the row of pairs alone, in a halt by the sample clock, and else by what each part of a window may change. -/
theorem dspWindowRow : Obligations.DspWindowRow := by
  intro sense s
  refine ⟨fun hlocked => ?_, fun hlocked hhalted => ?_, fun hlocked hruns => ?_⟩
  · have hqueues := foldl_queueSense_queues (sense.map (marked s)) s
    refine ⟨_, exec_dspWindow_unlocked sense hlocked, by rw [hqueues], by rw [hqueues], ?_, ?_, ?_⟩
    · rintro rfl
      rfl
    · rintro p rfl hroom
      rw [List.map_singleton, List.foldl_cons, List.foldl_nil, queueSense_room (p := marked s p) hroom]
      exact ⟨rfl, rfl⟩
    · rintro p rfl hfull
      rw [List.map_singleton, List.foldl_cons, List.foldl_nil, queueSense_full (p := marked s p) hfull]
      exact ⟨rfl, rfl⟩
  · have hqueues := foldl_queueSense_queues (sense.map (marked s)) (blockPasses s)
    refine ⟨_, exec_dspWindow_halted sense hlocked hhalted, ?_, ?_, ?_, ?_, fun r hr => ?_, fun c _ => ?_⟩
    · exact Quiet.trans (blockPasses_frame s) hqueues.quiet
    · rw [hqueues]; rfl
    · rw [hqueues]; rfl
    · rw [hqueues]; rfl
    · rw [hqueues.rail, blockPasses_rail hr]
      rfl
    · rw [hqueues.chan]
      exact blockPasses_chan s c
  · obtain ⟨hquiet, hindex, hports, hpower, hpins, hpwm, htwin, hfifo⟩ := windowOf_leaves (s.misc.senseFifo ++ sense.map (marked s)) s
    refine ⟨_, exec_dspWindow_playing sense hlocked hruns, hquiet, hindex, hports, hpower.trans (blockPasses_power s), hpins, hpwm, htwin, hfifo,
      fun c _ => windowOf_chan _ s c, fun d hd => windowOf_dsd _ s hd, fun r hr => ?_⟩
    exact (windowOf_rail _ s hr).of_moveRef

end

section
/-! PROOFS. The supply sequence, its failure and its loss (R49, R67, R69, R70, R73, R80, R87, Tables 3.3 and 3.6). -/

namespace Sys2Proof.Machine

/-! ### The start of the sequence -/

/-- The sequence begins at step 0 with PWR_EN0, and no retry waits (R67). -/
@[simp] theorem startSequence_power (s : State) : (startSequence s).power =
    { s.power with seqActive := true, seqDone := false, seqStep := 0, pwrEn := 1, retryWait := false } := (setStage_fields 1 _).2.1

@[simp] theorem startSequence_stage (s : State) : (startSequence s).keeper.stage = 1 := by
  rw [startSequence, (setStage_fields 1 _).1]

theorem exec_keeperPllLock {s : State} (hisland : s.power.islandReset = false) (hreset : s.power.resetN = true) (hpll : s.power.pll = false) :
    exec .keeperPllLock s = .next (startSequence { s with power := { s.power with pll := true } }) := by
  show execKeeperPllLock s = _
  rw [execKeeperPllLock, if_pos (by simp [islandUp, hisland, hpll])]
  exact congrArg Host.Outcome.next (if_pos hreset)

theorem exec_sequenceRetry {s : State} (h : s.power.retryWait = true) : exec .sequenceRetry s = .next (startSequence s) := if_pos h

/-! ### Power good at each step (Table 3.3) -/

/-- The Keeper at a power good of the sequence: at step 0 the straps are sampled, where they have not been (R67, R73). -/
def strapsSampled (b : Bool) (n : Nat) (s : State) : Keeper :=
  if s.power.seqStep = 0 ∧ ¬ s.keeper.straps then { s.keeper with strapTwin := b, strapDrv := n % 16, straps := true } else s.keeper

theorem strapsSampled_first {s : State} (b : Bool) (n : Nat) (hstep : s.power.seqStep = 0) (hstraps : s.keeper.straps = false) :
    strapsSampled b n s = { s.keeper with strapTwin := b, strapDrv := n % 16, straps := true } := if_pos (by simp [hstep, hstraps])

theorem strapsSampled_again {s : State} (b : Bool) (n : Nat) (hstraps : s.keeper.straps = true) : strapsSampled b n s = s.keeper :=
  if_neg (by simp [hstraps])

/-- Outside a wake, power good at a step before the last adds the next enable. -/
theorem exec_pwrPgHigh_next {s : State} (b : Bool) (n : Nat) (hactive : s.power.seqActive = true) (hstep : s.power.seqStep < 5)
    (hwaking : s.keeper.waking = false) : exec (.pwrPgHigh b n) s = .next { s with
      keeper := strapsSampled b n s
      power := { s.power with
        seqStep := s.power.seqStep + 1, pwrEn := s.power.pwrEn ||| BitVec.ofNat 6 (2 ^ (s.power.seqStep + 1)) } } := by
  show execPwrPgHigh b n s = _
  rw [execPwrPgHigh, if_pos hactive, strapsSampled]
  dsimp only
  rw [if_pos hstep]
  by_cases hfirst : s.power.seqStep = 0 ∧ ¬ s.keeper.straps
  · rw [if_pos hfirst, if_pos hfirst]
  · rw [if_neg hfirst, if_neg hfirst, if_neg (by simp [hwaking])]

/-- Power good at the last step ends the sequence, at the ROM's stage or, on a wake, at the firmware's (R67, R80). -/
theorem exec_pwrPgHigh_last {s : State} (b : Bool) (n : Nat) (hactive : s.power.seqActive = true) (hstep : 5 ≤ s.power.seqStep) :
    exec (.pwrPgHigh b n) s = .next (({ s with power := { s.power with seqActive := false, seqDone := true } } : State).setStage
      (if s.keeper.waking then 6 else 3)) := by
  have hsampled : ¬ (s.power.seqStep = 0 ∧ ¬ s.keeper.straps) := by omega
  have hflushed : ¬ (s.power.seqStep = 0 ∧ s.keeper.waking ∧ ¬ s.keeper.halted) := by omega
  show execPwrPgHigh b n s = _
  rw [execPwrPgHigh, if_pos hactive]
  dsimp only
  rw [if_neg (Nat.not_lt.mpr hstep), if_neg hsampled, if_neg hflushed]

/-! ### A failed sequence (R69, R70) -/

/-- A change into BOOT leaves the controllers. -/
@[simp] theorem setDev_boot_rails (ev : Nat) (s : State) : (s.setDev .boot ev).rails = s.rails := by
  rw [State.setDev]
  dsimp only
  split <;> simp

theorem sequenceFailed_retries {s : State} (h : s.power.retries < 2) : sequenceFailed s =
    { s with power := { s.power with retries := s.power.retries + 1, retryWait := true } } := if_pos h

theorem sequenceFailed_stage {s : State} (h : 2 ≤ s.power.retries) : (sequenceFailed s).keeper.stage = 0xF := by
  rw [sequenceFailed, if_neg (Nat.not_lt.mpr h), (setStage_fields 0xF _).1]

/-- Of the supplies a failed sequence sets the retry alone: it waits where fewer than two have been made. -/
@[simp] theorem sequenceFailed_power (s : State) : (sequenceFailed s).power = { s.power with
    retries := if s.power.retries < 2 then s.power.retries + 1 else s.power.retries, retryWait := decide (s.power.retries < 2) } := by
  by_cases h : s.power.retries < 2
  · simp [sequenceFailed_retries h, h]
  · rw [sequenceFailed, if_neg h, (setStage_fields 0xF _).2.1]
    dsimp only
    split <;> simp [h]

/-- A failed sequence leaves every channel and controller, the media clock and the twin link. -/
theorem sequenceFailed_units (s : State) : (sequenceFailed s).chans = s.chans ∧ (sequenceFailed s).rails = s.rails ∧
    (sequenceFailed s).media = s.media ∧ (sequenceFailed s).twin = s.twin := by
  by_cases h : s.power.retries < 2
  · simp [sequenceFailed_retries h]
  · rw [sequenceFailed, if_neg h]
    dsimp only
    split <;> simp

theorem exec_pgTimeout {s : State} (h : s.power.seqActive = true) :
    exec .pgTimeout s = .next (sequenceFailed (powerDown (s.raise 0x1005 s.power.seqStep []))) := if_pos h

/-! ### The loss of the supplies (R70, R359) -/

/-- What stood behind the sequenced supplies is gone: every channel is in OFF, open and with its relay de-energised, every controller in OFF,
the media clock unlocked and the twin link down. -/
def Unsupplied (s : State) : Prop :=
  s.media.locked = false ∧ s.twin.link = false ∧
  (∀ c : Nat, c < 208 → (s.chan c).fsm.state = .off ∧ (s.chan c).fsm.bridge = .open ∧ (s.chan c).fsm.relayOn = false) ∧
  ∀ r : Nat, r < 12 → (s.rail r).state = .off

theorem Unsupplied.of_eq {s t : State} (h : Unsupplied s) (hmedia : t.media = s.media) (htwin : t.twin = s.twin) (hchans : t.chans = s.chans)
    (hrails : t.rails = s.rails) : Unsupplied t := by
  unfold Unsupplied State.chan State.rail at *
  rwa [hmedia, htwin, hchans, hrails]

theorem Reports.unsupplied {s t : State} (h : Reports s t) (hs : Unsupplied s) : Unsupplied t :=
  hs.of_eq (by rw [h]) (by rw [h]) (by rw [h]) (by rw [h])

theorem Unsupplied.setStage {s : State} (h : Unsupplied s) (n : Nat) : Unsupplied (s.setStage n) := by
  obtain ⟨-, -, hchans, hrails, -, -, -, hmedia, htwin, -, -⟩ := setStage_fields n s
  exact h.of_eq hmedia htwin hchans hrails

/-- Ending tests turns nothing on. -/
theorem Unsupplied.abortTests {s : State} (h : Unsupplied s) (p : Test → Bool) (code : Nat) : Unsupplied (abortTests p code s) := by
  obtain ⟨hmedia, hlink, hchan, hrail⟩ := h
  have htouch := abortTests_touches p code s
  refine ⟨by rw [htouch]; exact hmedia, by rw [htouch]; exact hlink, fun c hc => ?_, fun r hr => ?_⟩
  · rw [abortTests_sameFsm p code s c]
    exact hchan c hc
  · rw [(abortTests_steady p code s).2 r]
    exact hrail r hr

theorem linkDown_link (s : State) : (linkDown s).twin.link = false := by
  unfold linkDown
  dsimp only
  split
  · rw [raise_reports]
    rfl
  · rfl

theorem supplyLost_unsupplied (s : State) : Unsupplied (supplyLost s) := by
  refine ⟨rfl, linkDown_link _, fun c hc => ?_, fun r hr => ?_⟩
  · simp [supplyLost, State.chan, hc]
  · simp [supplyLost, State.rail, hr]

/-- The state after a loss of power good, before the sequence is ended: the supplies are gone, 0x1006 is raised and the tests have ended. -/
def pgGone (s : State) : State :=
  abortTests (fun _ => true) 0xA011 (({ supplyLost s with
    power := { (supplyLost s).power with falling := false, tw := false }
    store := { (supplyLost s).store with lastPending := false } } : State).raise 0x1006 0 [])

/-- What boots again after a loss in `s`: firmware that served goes through BOOT as in a wake, with its configuration kept; else the ROM. -/
def pgGoneBoots (s t : State) : State :=
  if s.keeper.serving then
    let u := if s.keeper.dev = .standby then t else t.setDev .boot 9
    { u with
      keeper := { u.keeper with waking := true, safeCauses := [], standbyWait := false }
      cfg := { u.cfg with commit := none, active := u.cfg.whole, target := u.cfg.whole } }
  else bootAgain t

theorem pgGone_unsupplied (s : State) : Unsupplied (pgGone s) := by
  unfold pgGone
  refine Unsupplied.abortTests ((raise_reports _ _ _ _).unsupplied ?_) _ _
  exact (supplyLost_unsupplied s).of_eq rfl rfl rfl rfl

theorem pgGone_frame (s : State) : (pgGone s).pending = s.pending ∧ (pgGone s).sram = s.sram := by simp [pgGone]

/-- What boots again turns nothing on and changes no link. -/
theorem pgGoneBoots_units (s t : State) : (pgGoneBoots s t).chans = t.chans ∧ (pgGoneBoots s t).rails = t.rails ∧
    (pgGoneBoots s t).media = t.media ∧ (pgGoneBoots s t).twin = t.twin := by
  unfold pgGoneBoots
  dsimp only
  split
  · split <;> simp
  · simp [bootAgain]

theorem pgGoneBoots_frame (s t : State) : (pgGoneBoots s t).pending = t.pending ∧ (pgGoneBoots s t).sram = t.sram := by
  unfold pgGoneBoots
  dsimp only
  split
  · split <;> simp
  · simp

/-- The state that the loss of power good leads to. -/
def pgFailed (s : State) : State := sequenceFailed (powerDown ((pgGoneBoots s (pgGone s)).setStage 1))

theorem exec_pgLost {s : State} (h : s.power.seqDone = true) : exec .pgLost s = .next (pgFailed s) := by
  show execPgLost s = _
  rw [execPgLost, if_pos h]
  rfl

theorem pgFailed_power (s : State) : (pgFailed s).power.pwrEn = 0 ∧ (pgFailed s).power.seqDone = false := by
  rw [pgFailed, sequenceFailed_power]
  exact ⟨rfl, rfl⟩

theorem pgFailed_frame (s : State) : (pgFailed s).pending = s.pending ∧ (pgFailed s).sram = s.sram := by
  obtain ⟨hpending, hsram⟩ := pgGone_frame s
  obtain ⟨hbootPending, hbootSram⟩ := pgGoneBoots_frame s (pgGone s)
  simp [pgFailed, hbootPending, hbootSram, hpending, hsram]

theorem pgFailed_unsupplied (s : State) : Unsupplied (pgFailed s) := by
  obtain ⟨hchans, hrails, hmedia, htwin⟩ := pgGoneBoots_units s (pgGone s)
  have hstage : Unsupplied ((pgGoneBoots s (pgGone s)).setStage 1) :=
    ((pgGone_unsupplied s).of_eq hmedia htwin hchans hrails).setStage 1
  obtain ⟨kchans, krails, kmedia, ktwin⟩ := sequenceFailed_units (powerDown ((pgGoneBoots s (pgGone s)).setStage 1))
  exact hstage.of_eq kmedia ktwin kchans krails

end Sys2Proof.Machine

open Sys2Proof Sys2Proof.Machine

/-- Settles O24: the steps by the equation of each row, the loss by what each part of it leaves unsupplied. Stage 0x6 on a wake is R80 and
Table 3.6 with the model's reading in notes/assumptions/22.md. -/
theorem supplySequence : Obligations.SupplySequence := by
  intro s
  refine ⟨?lock, ?next, ?last, ?timeout, ?lost, ?retry⟩
  case lock =>
    intro hisland hreset hpll
    refine ⟨_, exec_keeperPllLock hisland hreset hpll, ?_, startSequence_stage _, ?_, ?_, ?_, startSequence_frame _⟩ <;> rw [startSequence_power]
  case next =>
    intro b n hactive hstep hwaking
    refine ⟨_, exec_pwrPgHigh_next b n hactive hstep hwaking, rfl, rfl, hactive, ⟨rfl, rfl, rfl, rfl⟩,
      fun hfirst hstraps => ?_, fun hstraps => ?_⟩
    · dsimp only
      rw [strapsSampled_first b n hfirst hstraps]
      exact ⟨rfl, rfl⟩
    · dsimp only
      rw [strapsSampled_again b n hstraps]
      exact ⟨rfl, rfl⟩
  case last =>
    intro b n hactive hstep
    obtain ⟨hkeeper, hpower, -⟩ := setStage_fields (if s.keeper.waking then 6 else 3)
      { s with power := { s.power with seqActive := false, seqDone := true } }
    exact ⟨_, exec_pwrPgHigh_last b n hactive hstep, by rw [hpower], by rw [hpower], by rw [hkeeper], State.setStage_frame _ _⟩
  case timeout =>
    intro hactive
    have hquiet : Quiet s (powerDown (s.raise 0x1005 s.power.seqStep [])) := State.raise_frame _ _ _ _
    have hretries : (powerDown (s.raise 0x1005 s.power.seqStep [])).power.retries = s.power.retries := by simp [powerDown]
    refine ⟨_, exec_pgTimeout hactive, ?_, ?_, hquiet.trans (sequenceFailed_frame _), fun hfew => ?_, fun hmany => ?_⟩
    · rw [sequenceFailed_power]
      rfl
    · rw [sequenceFailed_power]
      rfl
    · rw [sequenceFailed_retries (hretries ▸ hfew)]
      exact ⟨rfl, congrArg (· + 1) hretries, raise_raised 0x1005 s.power.seqStep [] s⟩
    · refine ⟨?_, sequenceFailed_stage (hretries ▸ hmany)⟩
      rw [sequenceFailed_power, hretries]
      exact decide_eq_false (Nat.not_lt.mpr hmany)
  case lost =>
    intro hdone
    obtain ⟨hen, hundone⟩ := pgFailed_power s
    obtain ⟨hpending, hsram⟩ := pgFailed_frame s
    obtain ⟨hmedia, hlink, hchan, hrail⟩ := pgFailed_unsupplied s
    exact ⟨_, exec_pgLost hdone, hen, hundone, hmedia, hlink, hsram, hpending, hchan, hrail⟩
  case retry =>
    intro hwait
    refine ⟨_, exec_sequenceRetry hwait, ?_, ?_, startSequence_stage s, ?_, startSequence_frame s⟩ <;> rw [startSequence_power]

end

section
/-! PROOFS. The resets, and the records that the device writes before it goes down (R69 to R73, R111, R394, R397, R399, Table 3.4). -/

namespace Sys2Proof.Machine

/-! ### Records on their way to the flash -/

/-- From `s` to `t` only the log, the records of the flash and those kept of channels may differ: the banks of the flash and every channel's
state machine stand. -/
def Archives (s t : State) : Prop :=
  t = { s with
    log := t.log, chans := t.chans
    store := { s.store with
      log := t.store.log, lifeRegion := t.store.lifeRegion, lifeOut := t.store.lifeOut, snap := t.store.snap, snapNext := t.store.snapNext
      checkpoint := t.store.checkpoint, snapNumber := t.store.snapNumber, snapAge := t.store.snapAge, ageWas := t.store.ageWas } } ∧
  ∀ c, (t.chan c).fsm = (s.chan c).fsm

theorem Archives.rfl' (s : State) : Archives s s := ⟨rfl, fun _ => rfl⟩

theorem Archives.trans {s t u : State} (h : Archives s t) (k : Archives t u) : Archives s u :=
  ⟨by rw [k.1, h.1], fun c => (k.2 c).trans (h.2 c)⟩

theorem Archives.fields {s t : State} (h : Archives s t) :
    t.keeper = s.keeper ∧ t.power = s.power ∧ t.rails = s.rails ∧ t.sram = s.sram := by
  rw [h.1]
  exact ⟨rfl, rfl, rfl, rfl⟩

theorem modChan_archives (s : State) (c : Nat) {f : Chan → Chan} (h : ∀ v, (f v).fsm = v.fsm) : Archives s (s.modChan c f) :=
  ⟨rfl, modChan_related (R := fun a b => b.fsm = a.fsm) (fun _ => rfl) (h _)⟩

theorem lifeRec_archives (code inst : Nat) (data : List Word) (s : State) : Archives s (lifeRec code inst data s) := ⟨rfl, fun _ => rfl⟩

theorem lifeModel_archives (c : Nat) (m : ModelRec) (s : State) : Archives s (lifeModel c m s) := lifeRec_archives _ _ _ _

theorem lifeRetired_archives (lifetime : Bool) (s : State) : Archives s (lifeRetired lifetime s) := by
  unfold lifeRetired
  exact forUnits_invariant (fun i u h => h.trans (lifeRec_archives _ _ _ u)) _ (Archives.rfl' s)

theorem snapshot_archives (s : State) : Archives s (snapshot s) := by
  unfold snapshot
  extract_lets n first store s1 s2 s3 s4 s5 run s6
  have h1 : Archives s s1 := ⟨rfl, fun _ => rfl⟩
  have h2 : Archives s s2 := forUnits_invariant
    (fun u t h => forUnits_invariant (fun i v k => k.trans (lifeRec_archives _ _ _ v)) _ h) 221 h1
  have h3 : Archives s s3 := forUnits_invariant (P := Archives s) (fun c t h => by
    split
    · exact h.trans (lifeModel_archives _ _ t)
    · exact h) 208 h2
  have h4 : Archives s s4 := foldl_invariant
    (fun t a h => h.trans ((lifeRec_archives _ _ _ t).trans (lifeRec_archives _ _ _ _))) s3.store.age h3
  have h5 : Archives s s5 := h4.trans ((lifeRetired_archives true s4).trans (lifeRetired_archives false _))
  exact (h5.trans (lifeRec_archives _ _ _ s5)).trans ⟨rfl, fun _ => rfl⟩

theorem storeModel_archives (c : Nat) (s : State) : Archives s (storeModel c s) := by
  unfold storeModel
  extract_lets h dts r
  split
  · exact (modChan_archives s c (f := fun h => { h with model := { h.model with record := some r }, loop := { h.loop with stored := dts } })
      fun _ => rfl).trans (lifeModel_archives c r _)
  · exact Archives.rfl' s

theorem storeModels_archives (s : State) : Archives s (storeModels s) :=
  forUnits_invariant (fun c u h => h.trans (storeModel_archives c u)) 208 (Archives.rfl' s)

theorem flushLog_archives (s : State) : Archives s (flushLog s) := ⟨rfl, fun _ => rfl⟩

theorem noteStored_archives (r : Record) (s : State) : Archives s (noteStored r s) := by
  unfold noteStored
  split
  · exact modChan_archives s r.inst (f := fun h => { h with model := { h.model with recordWas := h.model.record } }) fun _ => rfl
  split
  · exact ⟨rfl, fun _ => rfl⟩
  · exact Archives.rfl' s

theorem roomFor_archives (lifetime : Bool) (s : State) : Archives s (roomFor lifetime s) := by
  unfold roomFor Store.setRegion
  dsimp only
  split
  · cases lifetime <;> exact ⟨rfl, fun _ => rfl⟩
  · exact Archives.rfl' s

theorem programRecord_archives (lifetime : Bool) (r : Record) (s : State) : Archives s (programRecord lifetime r s) := by
  unfold programRecord
  cases lifetime <;> exact ⟨rfl, fun _ => rfl⟩

theorem drainStore_archives (s : State) : Archives s (drainStore s) := by
  unfold drainStore
  extract_lets s1 s2
  have hprogram : ∀ (lifetime : Bool) (u : State) (r : Record), Archives s u → Archives s (programRecord lifetime r (roomFor lifetime u)) :=
    fun lifetime u r h => (h.trans (roomFor_archives lifetime u)).trans (programRecord_archives lifetime r _)
  have h1 : Archives s s1 := foldl_invariant (hprogram false) _ (Archives.rfl' s)
  have h2 : Archives s s2 := foldl_invariant (hprogram true) _ h1
  exact foldl_invariant (fun u r h => h.trans (noteStored_archives r u)) _ (h2.trans ⟨rfl, fun _ => rfl⟩)

/-! ### What a reset leaves (R71, Table 3.4) -/

/-- The two stores hold the same firmware and configuration banks. -/
def SameBanks (a b : Store) : Prop := b.fwA = a.fwA ∧ b.fwB = a.fwB ∧ b.cfgA = a.cfgA ∧ b.cfgB = a.cfgB

theorem SameBanks.trans {a b c : Store} (h : SameBanks a b) (k : SameBanks b c) : SameBanks a c := by
  obtain ⟨h1, h2, h3, h4⟩ := h
  obtain ⟨k1, k2, k3, k4⟩ := k
  exact ⟨k1.trans h1, k2.trans h2, k3.trans h3, k4.trans h4⟩

theorem Archives.sameBanks {s t : State} (h : Archives s t) : SameBanks s.store t.store := by
  rw [h.1]
  exact ⟨rfl, rfl, rfl, rfl⟩

theorem revertStored_sameBanks (s : State) : SameBanks s.store (revertStored s).store := by
  unfold revertStored
  have hloop : SameBanks s.store
      (forUnits 208 (fun c t => if waitsModel s.store c then t.modModel c fun m => { m with record := m.recordWas } else t) s).store :=
    forUnits_invariant (P := fun u => SameBanks s.store u.store) (fun c u h => by split <;> exact h) 208 ⟨rfl, rfl, rfl, rfl⟩
  dsimp only
  split <;> exact hloop

theorem Rebooted.of_units {cause : Nat} {s t u : State} (h : Rebooted cause s t) (hdev : u.keeper.dev = t.keeper.dev)
    (hcause : u.keeper.cause = t.keeper.cause) (hbanks : SameBanks t.store u.store) (hchans : u.chans = t.chans) (hrails : u.rails = t.rails) :
    Rebooted cause s u := by
  obtain ⟨kdev, kcause, kA, kB, kcA, kcB, krail, kchan⟩ := h
  obtain ⟨hA, hB, hcA, hcB⟩ := hbanks
  refine ⟨hdev.trans kdev, hcause.trans kcause, hA.trans kA, hB.trans kB, hcA.trans kcA, hcB.trans kcB, ?_, ?_⟩
  · unfold State.rail; rw [hrails]; exact krail
  · unfold State.chan; rw [hchans]; exact kchan

theorem Rebooted.from_banks {cause : Nat} {s t u : State} (h : Rebooted cause t u) (hbanks : SameBanks s.store t.store) : Rebooted cause s u := by
  obtain ⟨kdev, kcause, kA, kB, kcA, kcB, krail, kchan⟩ := h
  obtain ⟨hA, hB, hcA, hcB⟩ := hbanks
  exact ⟨kdev, kcause, kA.trans hA, kB.trans hB, kcA.trans hcA, kcB.trans hcB, krail, kchan⟩

theorem resetTo_rebooted (cause : Nat) (por : Bool) (s : State) : Rebooted cause s (resetTo cause por s) := by
  obtain ⟨hA, hB, hcA, hcB⟩ := revertStored_sameBanks s
  refine ⟨rfl, rfl, hA, hB, hcA, hcB, fun r => ?_, fun c => ?_⟩
  · by_cases hr : r < 12 <;> simp [resetTo, State.rail, hr]
  · by_cases hc : c < 208 <;> simp [resetTo, State.chan, Chan.afterReset, hc]

/-- The start of the sequence leaves the Keeper but for its stage. -/
theorem startSequence_keeper (s : State) : (startSequence s).keeper = { s.keeper with stage := 1 } := (setStage_fields 1 _).1

/-- The start of the sequence leaves the units, the flash and the log. -/
theorem startSequence_units (s : State) : (startSequence s).chans = s.chans ∧ (startSequence s).rails = s.rails ∧
    (startSequence s).store = s.store ∧ (startSequence s).log = s.log := by
  simp [startSequence]

theorem Rebooted.startSequence {cause : Nat} {s t : State} (h : Rebooted cause s t) : Rebooted cause s (startSequence t) := by
  obtain ⟨hchans, hrails, hstore, -⟩ := startSequence_units t
  refine h.of_units ?_ ?_ (hstore ▸ ⟨rfl, rfl, rfl, rfl⟩) hchans hrails <;> rw [startSequence_keeper]

/-! ### RESET and its answer (R98, R111) -/

/-- What RESET resets: the state with its records in the flash, where that has its supply. -/
theorem commandReset_resets (s : State) : ∃ u, commandReset s = startSequence (resetTo 3 false u) ∧ SameBanks s.store u.store ∧
    u.sram = s.sram ∧ u.keeper.counterUs = s.keeper.counterUs := by
  unfold commandReset
  extract_lets s1 keeper s2
  have h1 : Archives s s1 := by
    unfold s1
    split
    · exact Archives.rfl' s
    · exact ((flushLog_archives s).trans (snapshot_archives _)).trans (drainStore_archives _)
  have h2 : s2.store = s1.store ∧ s2.sram = s1.sram ∧ s2.keeper.counterUs = s1.keeper.counterUs := by
    unfold s2
    split <;> exact ⟨rfl, rfl, rfl⟩
  obtain ⟨hkeeper, -, -, hsram⟩ := h1.fields
  obtain ⟨hstore2, hsram2, hcounter2⟩ := h2
  exact ⟨s2, rfl, hstore2 ▸ h1.sameBanks, hsram2.trans hsram, hcounter2.trans (congrArg Keeper.counterUs hkeeper)⟩

@[simp] theorem irq_held (m : Word) (s : State) : (s.irq m).spi.held = s.spi.held := by
  rw [irq_spi, irqSpi]
  split <;> rfl

theorem deliver_held (i : Nat) (frame : List Byte) (s : State) : (deliver i frame s).spi.held = s.spi.held := by
  unfold deliver
  split
  · rw [irq_held, send_spi]
    rfl
  · rw [deliverSpi, irq_held]
    rfl

/-- An answer to a released mailbox holds no response. -/
theorem reply_held {i : Nat} {s : State} (r : Req) (st : Nat) (p : List Byte) (h : (s.spi.rspReady &&& bit4 i) = 0) :
    (reply i r st p s).spi.held = s.spi.held := by
  rw [reply, answer, if_pos h, deliver_held]

/-- What an answer leaves of the device. -/
theorem Answers.fields {s t : State} (h : Answers s t) :
    t.keeper = s.keeper ∧ t.power = s.power ∧ t.cfg = s.cfg ∧ t.store = s.store ∧ t.sram = s.sram := by
  rw [h]
  exact ⟨rfl, rfl, rfl, rfl, rfl⟩

theorem exec_reset_served {i : Nat} {s : State} (h : Served i 0x13 s) (hheld : ∀ h ∈ s.spi.held, h.1 ≠ i) (hready : (s.spi.rspReady &&& bit4 i) = 0) :
    exec (.reset i) s = .next (commandReset (reply i (reqOf s i) stOk [] (take i s))) := by
  have hnone : (reply i (reqOf s i) stOk [] (take i s)).spi.held.any (·.1 == i) = false := by
    rw [reply_held _ _ _ (s := take i s) hready, List.any_eq_false]
    exact fun e he => by simpa using hheld e he
  show execReset i s = _
  rw [execReset, serve_served h, resetAfter, hnone, if_neg Bool.false_ne_true]

/-- A mailbox taken and answered leaves all but the window, the counters and the sent frames. -/
theorem take_reply_answers (i : Nat) (r : Req) (st : Nat) (p : List Byte) (s : State) : Answers s (reply i r st p (take i s)) :=
  Answers.trans (t := take i s) rfl (reply_answers i r st p _)

end Sys2Proof.Machine

open Sys2Proof Sys2Proof.Machine

/-- Settles O4: every field of the clause is the default of `State`. -/
theorem resetStateIsSound : Obligations.ResetStateIsSound :=
  ⟨⟨rfl, rfl⟩, rfl, rfl, rfl, rfl, rfl, rfl, rfl, rfl, rfl⟩

/-- Settles O21: every source by what `resetTo` leaves; RESET after the records that it saves, which leave the banks. -/
theorem resetSourcesReturnToBoot : Obligations.ResetSourcesReturnToBoot := by
  intro s
  refine ⟨?powerOn, ?island, ?assert, ?release, ?watchdog, ?command⟩
  case powerOn =>
    intro b hisland
    exact ⟨_, if_pos hisland, (resetTo_rebooted 0 true s).of_units rfl rfl ⟨rfl, rfl, rfl, rfl⟩ rfl rfl, rfl, rfl, rfl, rfl, rfl, rfl⟩
  case island =>
    intro hup
    refine ⟨_, if_pos (by simp [islandUp, hup]), (resetTo_rebooted 0 true s).of_units rfl rfl ?_ rfl rfl, rfl, rfl, rfl, rfl, rfl⟩
    dsimp only
    split <;> exact ⟨rfl, rfl, rfl, rfl⟩
  case assert =>
    intro hreset hup
    refine ⟨{ resetTo 1 false s with power := { (resetTo 1 false s).power with resetN := false } }, ?_,
      (resetTo_rebooted 1 false s).of_units rfl rfl ⟨rfl, rfl, rfl, rfl⟩ rfl rfl, rfl, rfl, rfl, rfl, rfl, rfl⟩
    show execResetNAssert s = _
    rw [execResetNAssert, if_pos hreset, if_pos (by simp [islandUp, hup])]
  case release =>
    intro b hreset hup hpll
    refine ⟨startSequence { s with power := { s.power with resetN := true }, keeper := { s.keeper with strapBoot := b } }, ?_, ?_, ?_,
      startSequence_stage _, ?_, ?_, ?_⟩
    · show execResetNRelease b s = _
      rw [execResetNRelease, if_neg (by simp [hreset])]
      dsimp only
      rw [if_pos (by simp [islandUp, hup]), if_pos hpll]
    · rw [startSequence_power]
    · rw [startSequence_keeper]
    · rw [startSequence_power]
    · rw [startSequence_power]
    · obtain ⟨hchans, -⟩ := startSequence_units { s with power := { s.power with resetN := true }, keeper := { s.keeper with strapBoot := b } }
      exact hchans
  case watchdog =>
    intro hcounts
    refine ⟨_, if_pos hcounts, (resetTo_rebooted 2 false s).startSequence, startSequence_stage _, ?_, ?_, ?_, ?_, ?_, ?_⟩
    · rw [startSequence_power]
    · rw [startSequence_keeper]; rfl
    · simp only [startSequence_frame]; rfl
    · simp only [startSequence_units]; rfl
    · rw [startSequence_keeper]; rfl
    · rw [startSequence_keeper]; rfl
  case command =>
    intro i hserved hheld hready
    obtain ⟨hkeeper, -, -, hstore, hsram⟩ := (take_reply_answers i (reqOf s i) stOk [] s).fields
    obtain ⟨u, hreset, hbanks, husram, hcounter⟩ := commandReset_resets (reply i (reqOf s i) stOk [] (take i s))
    rw [hstore] at hbanks
    refine ⟨_, exec_reset_served hserved hheld hready, ?_, ?_, ?_, ?_, ?_⟩ <;> rw [hreset]
    · exact (resetTo_rebooted 3 false u).startSequence.from_banks hbanks
    · rw [startSequence_stage]
    · rw [startSequence_power]
    · simp only [startSequence_frame]
      exact husram.trans hsram
    · rw [startSequence_keeper]
      exact hcounter.trans (congrArg Keeper.counterUs hkeeper)

end

section
/-! PROOFS. The input bus: brown-out, over-voltage and reverse protection (R59 to R66, R272, R397, R437, Tables 3.1, 3.2 and 3.7). -/

namespace Sys2Proof.Machine

/-! ### A code raised before another -/

/-- A raised code depends on the sequence number and on the events that waited alone. -/
theorem Raised.of_log {code inst : Nat} {data : List Word} {s t u : State} (h : Raised code inst data t u)
    (hseq : t.log.nextSeq = s.log.nextSeq) (hwait : t.log.waiting = s.log.waiting) : Raised code inst data s u := by
  unfold Raised at *
  rwa [← hseq, ← hwait]

theorem Raised.to_log {code inst : Nat} {data : List Word} {s t u : State} (h : Raised code inst data s t) (hlog : u.log = t.log) :
    Raised code inst data s u := by
  unfold Raised at *
  rwa [hlog]

/-- The queue keeps the record before its newest. -/
theorem mem_drop_newest {q : List Record} {r : Record} (hr : r ∈ q.drop (q.length - 255)) (r' : Record) :
    r ∈ (q ++ [r']).drop (q.length + 1 - 256) := by
  rw [List.drop_append_of_le_length (by omega)]
  exact List.mem_append_left _ (by rwa [show q.length + 1 - 256 = q.length - 255 by omega])

/-- A record entered last is among the newest 255. -/
theorem mem_newest_of_getLast {q : List Record} {r : Record} (h : q.getLast? = some r) : r ∈ q.drop (q.length - 255) := by
  have hne : ¬ q.length ≤ q.length - 255 := by
    have hpos : 0 < q.length := List.length_pos_of_mem (List.mem_of_getLast? h)
    omega
  refine List.mem_of_getLast? ?_
  rw [List.getLast?_drop, if_neg hne, h]

/-- An event that crosses leaves those that wait, and the overflow of every other code. -/
theorem cross_keeps {code inst code' inst' : Nat} {data' : List Word} (hne : (code, inst) ≠ (code', inst')) (l : Log) :
    (∃ e, (l.cross code' inst' data').waiting = l.waiting ++ e) ∧
    ((code, inst) ∈ l.overflow → (code, inst) ∈ (l.cross code' inst' data').overflow) := by
  unfold Log.cross
  split
  · exact ⟨⟨_, rfl⟩, id⟩
  · exact ⟨⟨[], (List.append_nil _).symm⟩, fun h => List.mem_cons_of_mem _ (List.mem_filter.mpr ⟨h, by simpa using hne⟩)⟩

/-- A code that has just been raised stands while one of another code or unit is raised. -/
theorem raised_raise {code inst code' inst' : Nat} {data : List Word} (data' : List Word) {s t : State}
    (hlog : t.log = (s.raise code inst data).log) (hcan : canLog t = canLog s) (hne : (code, inst) ≠ (code', inst')) :
    Raised code inst data s (t.raise code' inst' data') := by
  cases hserve : canLog s with
  | true =>
    rw [raise_serving hserve, enter_log] at hlog
    rw [raise_serving (hcan.trans hserve)]
    obtain ⟨r, hlast, hseq, hcode, hinst, hdata, hlevel⟩ := logRecord_getLast (s.nat 0x01 0 15)
      ⟨(recTime s).1, code, inst, s.log.nextSeq, data, levelOf code, (recTime s).2, false⟩ s.log
    rw [← hlog] at hlast
    obtain ⟨r', -, -, -, -, -, hqueue, -⟩ := logRecord_entered (t.nat 0x01 0 15)
      ⟨(recTime t).1, code', inst', t.log.nextSeq, data', levelOf code', (recTime t).2, false⟩ t.log
    refine .inl ⟨r, ?_, hseq, hcode, hinst, hdata, hlevel⟩
    rw [enter_log, hqueue]
    exact mem_drop_newest (mem_newest_of_getLast hlast) r'
  | false =>
    rw [raise_waiting hserve] at hlog
    rw [raise_waiting (hcan.trans hserve)]
    obtain ⟨⟨e, hwaiting⟩, hoverflow⟩ := cross_keeps (data' := data') hne t.log
    refine .inr ((cross_there code inst data s.log).imp (fun h => ?_) fun h => hoverflow (hlog ▸ h))
    rw [hwaiting, hlog, List.drop_append]
    exact List.mem_append_left _ h

/-! ### Changes of the device state (Table 3.7) -/

/-- A change of the device state that is recorded at once: its interrupt bit is set and its record raised (R78, R105). -/
def devChanged (d : DevState) (ev : Nat) (s : State) : State :=
  (({ s with keeper := { s.keeper with dev := d } } : State).irq irqState).raise 0x900D d.code [word s.keeper.dev.code, word ev, 0]

theorem devChanged_reports (d : DevState) (ev : Nat) (s : State) :
    Reports { s with keeper := { s.keeper with dev := d } } (devChanged d ev s) := (irq_reports _ _).trans (raise_reports _ _ _ _)

theorem setDev_same (ev : Nat) {s : State} {d : DevState} (h : s.keeper.dev = d) : s.setDev d ev = s := if_pos h

theorem setDev_changed (ev : Nat) {s : State} {d : DevState} (hne : s.keeper.dev ≠ d) (hboot : d ≠ .boot) : s.setDev d ev =
    if d = .safe then (devChanged d ev s).life (devStat 0x80A) 1
    else if d = .run then { devChanged d ev s with rails := (devChanged d ev s).rails.map fun q => { q with due := true } }
    else devChanged d ev s := by
  rw [State.setDev]
  dsimp only
  rw [if_neg hne, if_neg hboot]
  rfl

/-- Outside BOOT a change of the device state leaves the rest of the Keeper. -/
theorem setDev_keeper (ev : Nat) (s : State) {d : DevState} (hboot : d ≠ .boot) : (s.setDev d ev).keeper = { s.keeper with dev := d } := by
  by_cases h : s.keeper.dev = d
  · rw [setDev_same ev h, ← h]
  · have hkeeper : (devChanged d ev s).keeper = { s.keeper with dev := d } := by rw [devChanged_reports]
    rw [setDev_changed ev h hboot]
    split
    · exact hkeeper
    split <;> exact hkeeper

theorem setDev_safe_fields (ev : Nat) (s : State) : (s.setDev .safe ev).rails = s.rails ∧
    (s.setDev .safe ev).store = { s.store with life := (s.setDev .safe ev).store.life } := by
  by_cases h : s.keeper.dev = .safe
  · rw [setDev_same ev h]
    exact ⟨rfl, rfl⟩
  · rw [setDev_changed ev h DevState.noConfusion, if_pos rfl]
    unfold State.life
    rw [devChanged_reports]
    exact ⟨rfl, rfl⟩

/-- SAFE leaves the media clock, the controllers and the flash but for its counts. -/
theorem enterSafe_fields (ev cause : Nat) (s : State) : (enterSafe ev cause s).media = s.media ∧ (enterSafe ev cause s).rails = s.rails ∧
    (enterSafe ev cause s).store = { s.store with life := (enterSafe ev cause s).store.life } := by
  obtain ⟨hrails, hstore⟩ := setDev_safe_fields ev (safeChannels s)
  obtain ⟨-, -, -, hmedia, -⟩ := setDev_fields .safe ev (safeChannels s)
  have hsafe := safeChannels_eq s
  unfold enterSafe
  dsimp only
  refine ⟨hmedia.trans ?_, hrails.trans ?_, hstore.trans ?_⟩ <;> rw [hsafe]

/-- The record of SAFE leaves a code that has just been raised. -/
theorem raised_enterSafe {code inst : Nat} {data : List Word} (ev cause : Nat) {s t : State} (hlog : t.log = (s.raise code inst data).log)
    (hcan : canLog t = canLog s) (hcode : code ≠ 0x900D) : Raised code inst data s (enterSafe ev cause t) := by
  have hsafe : (safeChannels t).log = t.log ∧ (safeChannels t).keeper = t.keeper := by
    rw [safeChannels_eq t]
    exact ⟨rfl, rfl⟩
  obtain ⟨hlog1, hkeeper⟩ := hsafe
  show Raised code inst data s ((safeChannels t).setDev .safe ev)
  by_cases h : (safeChannels t).keeper.dev = .safe
  · rw [setDev_same ev h]
    exact (raise_raised code inst data s).to_log (hlog1.trans hlog)
  · rw [setDev_changed ev h DevState.noConfusion, if_pos rfl]
    refine raised_raise _ ((irq_log _ _).trans (hlog1.trans hlog)) ?_ fun e => hcode (congrArg Prod.fst e)
    unfold canLog at *
    simpa [hkeeper] using hcan

/-! ### Brown-out (R63 to R65) -/

/-- The state of a brown-out warning with the bus rules in force: the fall has begun, an update has ended and the last record is due. -/
def warned (s : State) : State :=
  { abandonUpdate (startFall s) with
    power := { s.power with warn := true, tw := true, dipped := false, falling := true }
    store := { (abandonUpdate (startFall s)).store with lastPending := true }
    log := { s.log with buffer := if canLog s then [] else s.log.buffer, flushing := if canLog s then 0 else s.log.flushing } }

theorem busRules_islandUp {s : State} (h : busRules s = true) : islandUp s = true := by
  rw [busRules, Bool.and_eq_true] at h
  exact h.1

theorem exec_busWarn {v : Rat} {s : State} (hrules : busRules s = true) (hfirst : s.power.warn = false) (hv : v ≤ s.power.warnV + warnBand s) :
    exec (.busWarn v) s = .next (((warned s).life (devStat 0x804) 1).raise 0x1001 0 [word s.log.buffer.length]) := by
  have hfall := startFall_eq s
  show execBusWarn v s = _
  rw [execBusWarn, if_neg (by simp [busRules_islandUp hrules, hfirst, hv]), if_pos hrules, warned, abandonUpdate, hfall]

theorem warned_chan {c : Nat} (hc : c < 208) (s : State) :
    (warned s).chan c = { s.chan c with dsp := { (s.chan c).dsp with e := (s.chan c).dsp.e.to 0 1024 } } := startFall_chan s hc

theorem warned_quiet (s : State) : Quiet s (warned s) := by
  obtain ⟨hpending, hmem, hsram, hcfg⟩ := startFall_frame s
  exact ⟨hpending, hmem, hsram, hcfg⟩

theorem exec_lastRecord {s : State} (a b : Nat) (hlast : s.store.lastPending = true) (hlog : canLog s = true) (hrules : busRules s = true)
    (hflash : flashOn s = true) : exec (.lastRecord a b) s = .next (enterSafe 4 1 (abortTests (fun _ => true) 0xA011
      { lastCheckpoint b (lastLog a s) with store := { (lastCheckpoint b (lastLog a s)).store with lastPending := false } })) := by
  show execLastRecord a b s = _
  rw [execLastRecord, if_pos (by simp [hlast, hlog, hrules, hflash])]

theorem exec_busDip {v : Rat} {s : State} (hisland : s.power.islandReset = false) (hwarn : s.power.warn = true) (hv : s.power.warnV + 1 / 2 ≤ v) :
    exec (.busDip v) s = .next (if s.power.tw then
      ({ s with power := { s.power with warn := false, tw := false, dipped := true } } : State).raise 0x1008 0 []
      else { s with power := { s.power with warn := false } }) := by
  have hrearm : rearmV s ≤ v := hv
  show execBusDip v s = _
  rw [execBusDip, if_pos (by simp [islandUp, hisland, hwarn, hrearm])]

theorem exec_busRecovery {s : State} (hdev : s.keeper.dev = .safe) (hdipped : s.power.dipped = true) (hwarn : s.power.warn = false)
    (hauto : s.flag 0x01 0 0 = true) (hov : s.power.ov = false) (hcool : s.misc.junctionHot = false) (hruns : s.keeper.halted = false)
    (hlast : s.store.lastPending = false) : exec .busRecovery s = .next { releaseFall (s.setDev .run 8) with
      keeper := { (releaseFall (s.setDev .run 8)).keeper with safeCauses := [] }
      power := { (releaseFall (s.setDev .run 8)).power with dipped := false, falling := false } } := by
  show execBusRecovery s = _
  rw [execBusRecovery, if_pos (by simp [hdev, hdipped, hwarn, hauto, hov, hcool, hruns, hlast])]

/-! ### Over-voltage and reverse protection (R60 to R62) -/

theorem exec_overVoltageClear {s : State} (hisland : s.power.islandReset = false) (hov : s.power.ov = true) :
    exec .overVoltageClear s = .next (if s.power.ovLong then { s with power := { s.power with ov := false, ovLong := false } }
      else ({ s with power := { s.power with ov := false, ovLong := false } } : State).raise 0x1002 0 []) := by
  show execOverVoltageClear s = _
  rw [execOverVoltageClear, if_pos (by simp [islandUp, hisland, hov])]

/-- The record of an over-voltage that persists (R60). -/
def overVoltageLong (s : State) : State := ({ s with power := { s.power with ovLong := true } } : State).raise 0x1003 0 []

/-- The state in which a persisting over-voltage enters SAFE: the fall has begun, an update and the tests have ended. -/
def overVoltageFall (s : State) : State := abortTests (fun _ => true) 0xA011 (abandonUpdate (startFall (overVoltageLong s)))

theorem exec_busOvLong_safe {s : State} (hisland : s.power.islandReset = false) (hov : s.power.ov = true) (hfirst : s.power.ovLong = false)
    (hdev : s.keeper.dev = .ready ∨ s.keeper.dev = .run ∨ s.keeper.dev = .update ∨ s.keeper.dev = .safe) : exec .busOvLong s = .next
      (enterSafe 5 2 { overVoltageFall s with power := { (overVoltageFall s).power with falling := true } }) := by
  show execBusOvLong s = _
  rw [execBusOvLong, if_pos (by simp [islandUp, hisland, hov, hfirst])]
  dsimp only
  rw [if_pos hdev]
  rfl

theorem exec_busOvLong_reports {s : State} (hisland : s.power.islandReset = false) (hov : s.power.ov = true) (hfirst : s.power.ovLong = false)
    (hdev : s.keeper.dev = .boot ∨ s.keeper.dev = .standby) : exec .busOvLong s = .next (overVoltageLong s) := by
  show execBusOvLong s = _
  rw [execBusOvLong, if_pos (by simp [islandUp, hisland, hov, hfirst])]
  dsimp only
  rw [if_neg (by rcases hdev with h | h <;> simp [h])]
  rfl

theorem overVoltageLong_reports (s : State) : Reports { s with power := { s.power with ovLong := true } } (overVoltageLong s) :=
  raise_reports _ _ _ _

theorem overVoltageFall_quiet (s : State) : Quiet s (overVoltageFall s) := by
  simp [Quiet, overVoltageFall, overVoltageLong]

/-- Before SAFE an over-voltage leaves the media clock, and of the flash all but its counts and the update. -/
theorem overVoltageFall_fields (s : State) : (overVoltageFall s).power = { s.power with ovLong := true } ∧ (overVoltageFall s).media = s.media ∧
    (overVoltageFall s).store = { s.store with life := (overVoltageFall s).store.life, updLen := 0, updGot := 0 } := by
  have htouch := abortTests_touches (fun _ => true) 0xA011 (abandonUpdate (startFall (overVoltageLong s)))
  have hfall := startFall_eq (overVoltageLong s)
  have hreports := overVoltageLong_reports s
  unfold overVoltageFall
  rw [htouch, abandonUpdate, hfall, hreports]
  exact ⟨rfl, rfl, rfl⟩

/-- Without a test the record, the fall and the end of the update leave the controllers, and the record is the newest. -/
theorem overVoltageFall_untested {s : State} (h : s.tests.list = []) : (overVoltageFall s).rails = s.rails ∧
    (overVoltageFall s).log = (overVoltageLong s).log ∧ (overVoltageFall s).keeper = s.keeper := by
  have hfall := startFall_eq (overVoltageLong s)
  have hreports := overVoltageLong_reports s
  have hnone : overVoltageFall s = abandonUpdate (startFall (overVoltageLong s)) := by
    have htests : (abandonUpdate (startFall (overVoltageLong s))).tests.list = [] := by
      rw [abandonUpdate, hfall, hreports]
      exact h
    rw [overVoltageFall, abortTests, htests]
    rfl
  rw [hnone, abandonUpdate, hfall]
  refine ⟨?_, rfl, ?_⟩ <;> rw [hreports]

end Sys2Proof.Machine

open Sys2Proof Sys2Proof.Machine

/-- Settles O22: each row by the equation of its command; the channels by what the fall and the hold in OFF make of each. -/
theorem brownOutRows : Obligations.BrownOutRows := by
  intro s
  refine ⟨?warn, ?silent, ?last, ?dip, ?recovery⟩
  case warn =>
    intro v hrules hfirst hv
    have hreports := raise_reports 0x1001 0 [word s.log.buffer.length] ((warned s).life (devStat 0x804) 1)
    refine ⟨_, exec_busWarn hrules hfirst hv, by rw [hreports]; rfl, by rw [hreports]; rfl, (raise_raised _ _ _ _).of_log rfl rfl,
      (warned_quiet s).trans (hreports.touches.quiet), fun c hc => ?_⟩
    rw [hreports.chan, chan_life, warned_chan hc]
    exact ⟨rfl, rfl⟩
  case silent =>
    intro hfalling hsilent
    have hrails := railsOff_eq (allOff s)
    have hchans := allOff_eq s
    refine ⟨_, if_pos (by simp [hfalling, hsilent]), rfl, ?_, ?_, fun c hc => ?_, fun r hr => ?_⟩
    · exact Quiet.trans (allOff_frame s) (railsOff_frame _)
    · show (railsOff (allOff s)).keeper = _
      rw [hrails, hchans]
    · show ((railsOff (allOff s)).chan c).fsm.state = _
      rw [hrails]
      exact allOff_chan s hc
    · show ((railsOff (allOff s)).rail r).state = _
      rw [railsOff_rail _ hr]
      rfl
  case last =>
    intro a b hlast hlog hrules hflash
    refine ⟨_, exec_lastRecord a b hlast hlog hrules hflash, enterSafe_dev _ _ _, enterSafe_cause _ _ _, ?_, ?_⟩
    · obtain ⟨-, -, hstore⟩ := enterSafe_fields 4 1 (abortTests (fun _ => true) 0xA011
        { lastCheckpoint b (lastLog a s) with store := { (lastCheckpoint b (lastLog a s)).store with lastPending := false } })
      rw [hstore, abortTests_touches]
    · simp [Quiet]
  case dip =>
    intro v hisland hwarn hv
    refine ⟨_, exec_busDip hisland hwarn hv, fun htw => ?_, fun htw => ?_⟩
    · rw [if_pos htw]
      exact ⟨raise_reports _ _ _ _, (raise_raised _ _ _ _).of_log rfl rfl⟩
    · exact if_neg (by simp [htw])
  case recovery =>
    intro hdev hdipped hwarn hauto hov hcool hruns hlast
    exact ⟨_, exec_busRecovery hdev hdipped hwarn hauto hov hcool hruns hlast, setDev_dev .run 8 s, rfl, rfl, State.setDev_frame .run 8 s⟩

/-- Settles O23: each row by the equation of its command; the record of a persisting over-voltage stands while SAFE is recorded. -/
theorem overVoltageAndReverseProtection : Obligations.OverVoltageAndReverseProtection := by
  intro s hisland
  have hup : islandUp s = true := by simp [islandUp, hisland]
  refine ⟨?ov, ?clear, ?clearLong, ?long, ?longReports, ?reversed, if_pos hup, if_pos hup⟩
  case ov =>
    intro hov
    exact if_pos (by simp [hup, hov])
  case clear =>
    intro hov hlong
    refine ⟨_, exec_overVoltageClear hisland hov, ?_⟩
    rw [if_neg (by simp [hlong])]
    exact ⟨raise_reports _ _ _ _, (raise_raised _ _ _ _).of_log rfl rfl⟩
  case clearLong =>
    intro hov hlong
    rw [exec_overVoltageClear hisland hov, if_pos hlong]
  case long =>
    intro hov hfirst hdev
    obtain ⟨hpower, hmedia, hstore⟩ := overVoltageFall_fields s
    obtain ⟨kmedia, krails, kstore⟩ := enterSafe_fields 5 2 { overVoltageFall s with power := { (overVoltageFall s).power with falling := true } }
    refine ⟨_, exec_busOvLong_safe hisland hov hfirst hdev, enterSafe_dev _ _ _, enterSafe_cause _ _ _, ?_, ?_, ?_, ?_, ?_, kmedia.trans hmedia,
      fun htests => ?_⟩
    · exact Quiet.trans (overVoltageFall_quiet s) (enterSafe_frame 5 2 _)
    · rw [enterSafe_power, hpower]
    · rw [kstore, hstore]
    · rw [kstore, hstore]
    · rw [kstore, hstore]
    · obtain ⟨hrails, hlog, hkeeper⟩ := overVoltageFall_untested htests
      refine ⟨?_, krails.trans hrails⟩
      refine Raised.of_log (t := { s with power := { s.power with ovLong := true } }) ?_ rfl rfl
      exact raised_enterSafe 5 2 hlog (by unfold canLog; rw [hkeeper]) (by decide)
  case longReports =>
    intro hov hfirst hdev
    exact ⟨_, exec_busOvLong_reports hisland hov hfirst hdev, overVoltageLong_reports s, (raise_raised _ _ _ _).of_log rfl rfl⟩
  case reversed =>
    exact ⟨_, if_pos hup, raise_reports _ _ _ _, (raise_raised _ _ _ _).of_log rfl rfl⟩

end

section
/-! PROOFS. The boot, from the choice of a bank to the mailbox (R73 to R78, R92, R118, R123, R175, R388, Tables 3.5 and 3.6). -/

namespace Sys2Proof.Machine

/-- A change of STAGE is reported, and nothing else differs. -/
theorem setStage_reports (n : Nat) (s : State) : Reports { s with keeper := { s.keeper with stage := n } } (s.setStage n) := by
  unfold State.setStage
  split
  · rename_i h
    subst h
    rfl
  · exact irq_reports _ _

/-- A change of STAGE after a report. -/
theorem Reports.setStage {s t : State} (h : Reports s t) (n : Nat) :
    Reports { s with keeper := { s.keeper with stage := n } } (t.setStage n) := by
  have hstage := setStage_reports n t
  unfold Reports at *
  rw [hstage, h]

theorem Reports.quiet {s t : State} (h : Reports s t) : Quiet s t := h.touches.quiet

theorem Reports.keeper {s t : State} (h : Reports s t) : t.keeper = s.keeper := by rw [h]

/-! ### The ROM (R74, R75, R388) -/

/-- The size of the flash is the one of its SFDP table, where that is readable. -/
def flashSized (sfdp : Option Nat) (s : State) : State :=
  match sfdp with
  | some mb => { s with store := { s.store with flashMb := min 256 mb } }
  | none => s

/-- The stage that the ROM goes to (R74). -/
def romStage (sfdp : Option Nat) (s : State) : Nat :=
  if s.keeper.strapBoot then 2 else if sfdp = none then 0xE
  else if s.store.fwA.usable s.keeper.attemptsA ∧ (s.store.fwB.usable s.keeper.attemptsB = false ∨ s.store.fwB.seq ≤ s.store.fwA.seq) then 4
  else if s.store.fwB.usable s.keeper.attemptsB then 5 else 0xE

theorem exec_romBankSelect {s : State} (sfdp : Option Nat) (hdone : s.power.seqDone = true) (hstage : s.keeper.stage = 3)
    (hruns : s.keeper.halted = false) : exec (.romBankSelect sfdp) s = .next ((flashSized sfdp s).setStage (romStage sfdp s)) := by
  show execRomBankSelect sfdp s = _
  unfold execRomBankSelect romStage
  rw [if_pos (by simp [hdone, hstage, hruns])]
  have hbest : ∀ a b le : Bool, (a && (!b || le)) = true ↔ a = true ∧ (b = false ∨ le = true) := by decide
  cases sfdp <;> simp only [hbest, decide_eq_true_eq] <;> split_ifs <;> rfl

/-- The ROM leaves of the flash all but its size, and the rest as it was. -/
theorem flashSized_fields (sfdp : Option Nat) (s : State) :
    Quiet s (flashSized sfdp s) ∧ (flashSized sfdp s).keeper = s.keeper ∧
    (flashSized sfdp s).store.flashMb = (match sfdp with | some mb => min 256 mb | none => s.store.flashMb) := by
  cases sfdp <;> exact ⟨⟨rfl, rfl, rfl, rfl⟩, rfl, rfl⟩

/-! ### Firmware (R74, R391) -/

/-- The bank that the ROM starts at stage 0x4 or 0x5. -/
def romBank (bankB : Bool) (st : Store) : FwBank := if bankB then st.fwB else st.fwA

/-- An attempt of a bank is counted. -/
def attempted (bankB : Bool) (s : State) : State := { s with keeper := { s.keeper with
  attemptsA := s.keeper.attemptsA + (if bankB then 0 else 1), attemptsB := s.keeper.attemptsB + (if bankB then 1 else 0) } }

theorem exec_firmwareStart {bankB : Bool} {s : State} (hstage : s.keeper.stage = if bankB then 5 else 4) (hruns : s.keeper.halted = false)
    (hbody : fwBodyOk (romBank bankB s.store).bytes = true) :
    exec .firmwareStart s = .next (fallbackRecord bankB (startImage (romBank bankB s.store).bytes bankB false (attempted bankB s))) := by
  show execFirmwareStart s = _
  have hbank : (s.keeper.stage == 5) = bankB := by rw [hstage]; cases bankB <;> rfl
  have hloads : s.keeper.stage = 4 ∨ s.keeper.stage = 5 := by rw [hstage]; cases bankB <;> decide
  rw [execFirmwareStart, if_pos ⟨hloads, by simp [hruns]⟩]
  dsimp only
  rw [hbank, if_pos (show fwBodyOk (if bankB = true then s.store.fwB else s.store.fwA).bytes = true from hbody)]
  rfl

theorem fallbackRecord_reports (bankB : Bool) (s : State) : Reports s (fallbackRecord bankB s) := by
  unfold fallbackRecord
  extract_lets run other
  split
  · exact raise_reports _ _ _ _
  · exact Reports.rfl' s

/-- A started image runs at stage 0x6 with the watchdog on, and stands at the start of the Keeper SRAM. -/
theorem startImage_reports (bytes : List Byte) (bankB spi : Bool) (s : State) : Reports { s with
    sram := putBytes 0 bytes s.sram
    keeper := { s.keeper with
      fwBank := bankB, fwSpi := spi, watchdog := true, fwBytes := bytes, stage := 6
      fwVersion := word (leAt bytes 16 4), fwSeq := word (leAt bytes 4 4), fwLevel := leAt bytes 20 2 } } (startImage bytes bankB spi s) :=
  setStage_reports 6 _

/-- What the start of a good body of the ROM's bank leaves. -/
theorem firmwareStarted_reports (bankB : Bool) (s : State) : Reports { attempted bankB s with
    sram := putBytes 0 (romBank bankB s.store).bytes s.sram
    keeper := { (attempted bankB s).keeper with
      fwBank := bankB, fwSpi := false, watchdog := true, fwBytes := (romBank bankB s.store).bytes, stage := 6
      fwVersion := word (leAt (romBank bankB s.store).bytes 16 4), fwSeq := word (leAt (romBank bankB s.store).bytes 4 4)
      fwLevel := leAt (romBank bankB s.store).bytes 20 2 } }
    (fallbackRecord bankB (startImage (romBank bankB s.store).bytes bankB false (attempted bankB s))) :=
  (startImage_reports _ _ _ (attempted bankB s)).trans (fallbackRecord_reports _ _)

/-! ### The media PLL (R175) -/

theorem exec_mediaPllLock {s : State} (hdone : s.power.seqDone = true) (hstage : s.keeper.stage = 6) (hlock : s.media.locked = false)
    (hruns : s.keeper.halted = false) : exec .mediaPllLock s = .next { s with
      media := { locked := true }
      chans := s.chans.mapIdx fun c h => { h with dsp := {
        e := Ramp.flat (if muteLine s then 0 else 1)
        steer := [(s.nat 0x10 c 4, 1)]
        mute := Ramp.flat (if s.flag 0x10 c 3 then 0 else 1) } } } := by
  show execMediaPllLock s = _
  rw [execMediaPllLock, if_pos (by simp [hdone, hstage, hlock, hruns])]

/-! ### The dies (R76, Table 3.5) -/

/-- A die that fails is reported and not released. -/
def dieFailed (d code : Nat) (s : State) : State := (s.modDsd d fun q => { q with failed := true }).raise code d []

/-- The die as its release leaves it. -/
def dieUp (d : Nat) (ntcOhm : Rat) (s : State) : State :=
  s.modDsd d fun q => restoreDie s.store d { q with
    released := true, linked := true, vdrvOk := true
    readings := if decide (100 ≤ ntcOhm) && decide (ntcOhm ≤ 1000000) then [ntcCelsius ntcOhm] else []
    zoneC := if decide (100 ≤ ntcOhm) && decide (ntcOhm ≤ 1000000) then ntcCelsius ntcOhm else 0 }

/-- A die that passes is released, with its channels and its controllers in OFF. -/
def dieReleased (d : Nat) (ntcOhm : Rat) (s : State) : State :=
  forList [3 * d, 3 * d + 1, 3 * d + 2] (fun r s => s.modRail r fun q => q.stopped .off)
    (forList (chansOf d) (fun c u => u.modFsm c fun f => { f with state := .off, bridge := holdFor (dieUp d ntcOhm s) c }) (dieUp d ntcOhm s))

/-- A die of the bring-up by its results, in the order of Table 3.5. -/
def dieTested (d : Nat) (vdrv : Rat) (tests : Bool) (ntcOhm : Rat) (s : State) : State :=
  if !vdrvInWindow (s.keeper.strapDrv / 2 ^ d % 2 == 1) vdrv then dieFailed d 0x1007 s
  else if !tests then dieFailed d 0x100A s else dieReleased d ntcOhm s

/-- The last die of a boot moves it to stage 0x7 (R77). -/
def bringupNext (waking : Bool) (s : State) : State := if bringupDone s && !waking then s.setStage 7 else s

theorem exec_dsdBringup {d : Nat} {vdrv ntcOhm : Rat} {trim link sref : Bool} {s : State} (hd : d < 4) (hlock : s.media.locked = true)
    (hstage : s.keeper.stage = 6) (hruns : s.keeper.halted = false) (hheld : (s.dsd d).released = false) (hgood : (s.dsd d).failed = false) :
    exec (.dsdBringup d vdrv trim link sref ntcOhm) s =
      .next (bringupNext s.keeper.waking (dieTested d vdrv (trim && link && sref) ntcOhm s)) := by
  show execDsdBringup d vdrv trim link sref ntcOhm s = _
  rw [execDsdBringup]
  dsimp only
  rw [if_pos (by simp [hd, hlock, hstage, hruns, hheld, hgood])]
  rfl

theorem bringupNext_reports (waking : Bool) (s : State) :
    ∃ n, Reports { s with keeper := { s.keeper with stage := n } } (bringupNext waking s) ∧ (bringupNext waking s).log = s.log := by
  unfold bringupNext
  split
  · exact ⟨7, setStage_reports 7 s, by simp⟩
  · exact ⟨s.keeper.stage, Reports.rfl' s, rfl⟩

theorem dieFailed_dsd {d : Nat} (hd : d < 4) (code : Nat) (s : State) : (dieFailed d code s).dsd d = { s.dsd d with failed := true } := by
  rw [dieFailed, (raise_touches _ _ _ _).dsd, dsd_modDsd_self _ _ hd]

theorem dieFailed_raised (d code : Nat) (s : State) : Raised code d [] s (dieFailed d code s) := (raise_raised _ _ _ _).of_log rfl rfl

/-- The stops of a die's channels and controllers leave every die. -/
theorem dieReleased_dsds (d : Nat) (ntcOhm : Rat) (s : State) : (dieReleased d ntcOhm s).dsds = (dieUp d ntcOhm s).dsds := by
  unfold dieReleased
  refine forList_invariant (P := fun u => u.dsds = (dieUp d ntcOhm s).dsds) (fun r u h => ?_) _ ?_
  · exact h
  · refine forList_invariant (P := fun u => u.dsds = (dieUp d ntcOhm s).dsds) (fun c u h => ?_) _ rfl
    exact h

theorem dieReleased_dsd {d : Nat} (hd : d < 4) (ntcOhm : Rat) (s : State) : ((dieReleased d ntcOhm s).dsd d).released = true ∧
    ((dieReleased d ntcOhm s).dsd d).linked = true ∧ ((dieReleased d ntcOhm s).dsd d).failed = (s.dsd d).failed := by
  have hup : (dieReleased d ntcOhm s).dsd d = (dieUp d ntcOhm s).dsd d := by
    unfold State.dsd
    rw [dieReleased_dsds]
  rw [hup, dieUp, dsd_modDsd_self _ _ hd]
  exact ⟨rfl, rfl, rfl⟩

/-- Where every step of a loop over a list gives its unit a property that no step takes away, each unit of the list has it at the end. -/
theorem forList_each {f : Nat → State → State} {Q : Nat → State → Prop} (hf : ∀ c s, Q c (f c s)) (hk : ∀ c k s, Q k s → Q k (f c s))
    {l : List Nat} {c : Nat} (hc : c ∈ l) (s : State) : Q c (forList l f s) := by
  unfold forList
  induction l generalizing s with
  | nil => cases hc
  | cons a l ih =>
    rcases List.mem_cons.mp hc with rfl | hc
    · exact foldl_invariant (fun s k h => hk k _ s h) l (hf c s)
    · exact ih hc (f a s)

theorem dieReleased_chan {c d : Nat} (hc : c < 208) (hd : d < 4) (hdie : dsdOf c = d) (ntcOhm : Rat) (s : State) :
    ((dieReleased d ntcOhm s).chan c).fsm.state = .off := by
  unfold dieReleased
  refine forList_invariant (P := fun u => (u.chan c).fsm.state = .off) (fun r u h => ?_) _
    (forList_each (Q := fun c u => c < 208 → (u.chan c).fsm.state = .off) (fun c u hc => ?_) (fun c k u h hk => ?_)
      ((mem_chansOf hc hd).mpr hdie) _ hc)
  · exact h
  · rw [chan_modFsm_self _ _ hc]
  · exact modChan_related (R := fun a b => a.fsm.state = .off → b.fsm.state = .off) (fun _ => id) (fun _ => rfl) k (h hk)

theorem dieReleased_rail {r d : Nat} (hr : r < 12) (hdie : r / 3 = d) (ntcOhm : Rat) (s : State) :
    ((dieReleased d ntcOhm s).rail r).state = .off := by
  unfold dieReleased
  refine forList_each (Q := fun r u => r < 12 → (u.rail r).state = .off) (fun r u hr => ?_) (fun r k u h hk => ?_)
    (show r ∈ [3 * d, 3 * d + 1, 3 * d + 2] by simp; omega) _ hr
  · rw [rail_modRail_self _ _ hr]
    rfl
  · exact modRail_related (R := fun a b => a.state = .off → b.state = .off) (fun _ => id) (fun _ => rfl) k (h hk)

theorem dieTested_quiet (d : Nat) (vdrv : Rat) (tests : Bool) (ntcOhm : Rat) (s : State) : Quiet s (dieTested d vdrv tests ntcOhm s) := by
  unfold dieTested
  split
  · simp [Quiet, dieFailed]
  split
  · simp [Quiet, dieFailed]
  · simp [Quiet, dieReleased, dieUp]

/-! ### The configuration (R75, R118, R123) -/

/-- The bank that the boot puts into force: that of the flash that counts, else the factory defaults. -/
def bootBank (st : Store) : Bank :=
  match bestCfg st with
  | some i => (cfgBankOf st i).bank
  | none => {}

/-- The state with the configuration of the boot in force (R75, R123). -/
def configInForce (s : State) : State :=
  let t := resetLife (recover s)
  applyAll { t with
    cfg := { active := bootBank s.store, whole := bootBank s.store, pending := bootBank s.store, target := bootBank s.store }
    keeper := { t.keeper with cfgBank := bestCfg s.store == some 1, cfgFactory := bestCfg s.store == none, cfgLoaded := true, holdupShort := false }
    twin := { t.twin with epoch := match bestCfg s.store with | some i => (cfgBankOf s.store i).epoch.toNat | none => 0 } }

theorem exec_configLoad {s : State} (hstage : s.keeper.stage = 7) (hfirst : s.keeper.cfgLoaded = false) (hruns : s.keeper.halted = false) :
    exec .configLoad s = .next (forUnits 2
      (fun p s => if s.cfg.active.portOn p && !(s.port p).present then s.raise 0x2008 p [] else s) (configInForce s)) := by
  show execConfigLoad s = _
  rw [execConfigLoad, if_pos (by simp [hstage, hfirst, hruns])]
  rfl

/-- The check of the modules reports and changes nothing else. -/
theorem modulesChecked_reports (s : State) : Reports s
    (forUnits 2 (fun p s => if s.cfg.active.portOn p && !(s.port p).present then s.raise 0x2008 p [] else s) s) :=
  forUnits_invariant (P := Reports s) (fun p u h => by
    split
    · exact h.trans (raise_reports _ _ _ _)
    · exact h) 2 (Reports.rfl' s)

/-! ### The mailbox serves (R77, R78) -/

/-- A report that is made or not. -/
theorem ite_reports {p : Prop} [Decidable p] {s t u : State} (ht : Reports s t) (hu : Reports s u) : Reports s (if p then t else u) := by
  split
  · exact ht
  · exact hu

/-- The boot at stage 0x8 before the device state changes: what waited has been recorded. -/
def bootServes (s : State) : State :=
  let s1 : State := { s with keeper := { s.keeper with serving := true, attemptsA := 0, attemptsB := 0, bootFrom := none, watchdogStage := none } }
  let s2 := (s1.raiseWaiting).setStage 8
  let s3 := match s.keeper.watchdogStage with | some g => s2.raise 0x9005 0 [word g] | none => s2
  let s4 := match s.keeper.bootFrom with | some (p, e, c) => s3.raise 0x900D 0 [word p.code, word e, word c] | none => s3
  if s.store.factoryValid then s4 else s4.raise 0x900A 0 []

theorem exec_mailboxReady {s : State} (hruns : s.keeper.halted = false) (hstage : s.keeper.stage = 7) (hloaded : s.keeper.cfgLoaded = true) :
    exec .mailboxReady s =
      .next (if s.flag 0x01 0 0 then ((bootServes s).setDev .ready 10).setDev .run 2 else (bootServes s).setDev .ready 10) := by
  show execMailboxReady s = _
  rw [execMailboxReady, if_neg (by simp [hruns]), if_pos (by simp [hstage, hloaded])]
  rfl

theorem bootServes_reports (s : State) : Reports { s with keeper := { s.keeper with
    serving := true, attemptsA := 0, attemptsB := 0, bootFrom := none, watchdogStage := none, stage := 8 } } (bootServes s) := by
  unfold bootServes
  extract_lets keeper s1 s2 s3 s4
  have h2 : Reports { s1 with keeper := { s1.keeper with stage := 8 } } s2 := (raiseWaiting_reports s1).setStage 8
  have h3 : Reports { s1 with keeper := { s1.keeper with stage := 8 } } s3 := by
    unfold s3
    split
    · exact h2.trans (raise_reports _ _ _ _)
    · exact h2
  have h4 : Reports { s1 with keeper := { s1.keeper with stage := 8 } } s4 := by
    unfold s4
    split
    · exact h3.trans (raise_reports _ _ _ _)
    · exact h3
  exact ite_reports h4 (h4.trans (raise_reports _ _ _ _))

end Sys2Proof.Machine

open Sys2Proof Sys2Proof.Machine

/-- Settles O25: each row by the equation of its command and what its parts leave. STRAP_BOOT with an unreadable SFDP table gives stage 0x2, by the
pseudocode of R74 against R75, which is the model's reading (notes/assumptions/59.md). -/
theorem bootRows : Obligations.BootRows := by
  intro s
  refine ⟨?rom, ?bankA, ?bankB, ?pll, ?die, ?config, ?mailbox⟩
  case rom =>
    intro sfdp hdone hstage hruns
    obtain ⟨hquiet, hkeeper, hsize⟩ := flashSized_fields sfdp s
    obtain ⟨kkeeper, -, -, -, -, kstore, -⟩ := setStage_fields (romStage sfdp s) (flashSized sfdp s)
    refine ⟨_, exec_romBankSelect sfdp hdone hstage hruns, hquiet.trans (State.setStage_frame _ _), ?_, ?_⟩
    · have hmb := (congrArg Store.flashMb kstore).trans hsize
      cases sfdp <;> exact hmb
    · rw [kkeeper, romStage]
  case bankA =>
    intro hstage hruns hbody
    have hstarted := firmwareStarted_reports false s
    refine ⟨_, exec_firmwareStart (bankB := false) hstage hruns hbody, ?_⟩
    rw [hstarted]
    exact ⟨rfl, rfl, rfl, rfl, rfl, rfl, rfl, rfl, rfl, rfl⟩
  case bankB =>
    intro hstage hruns hbody
    have hstarted := firmwareStarted_reports true s
    refine ⟨_, exec_firmwareStart (bankB := true) hstage hruns hbody, ?_⟩
    rw [hstarted]
    exact ⟨rfl, rfl, rfl, rfl, rfl, rfl, rfl, rfl⟩
  case pll =>
    intro hdone hstage hlock hruns
    exact ⟨_, exec_mediaPllLock hdone hstage hlock hruns, rfl, rfl, rfl, ⟨rfl, rfl, rfl, rfl⟩, rfl⟩
  case die =>
    intro d vdrv ntcOhm trim link sref hd hlock hstage hruns hheld hgood
    obtain ⟨n, hnext, hlog⟩ := bringupNext_reports s.keeper.waking (dieTested d vdrv (trim && link && sref) ntcOhm s)
    have hdsd : ∀ k, (bringupNext s.keeper.waking (dieTested d vdrv (trim && link && sref) ntcOhm s)).dsd k =
        (dieTested d vdrv (trim && link && sref) ntcOhm s).dsd k := hnext.dsd
    refine ⟨_, exec_dsdBringup hd hlock hstage hruns hheld hgood, (dieTested_quiet _ _ _ _ _).trans (Quiet.trans ⟨rfl, rfl, rfl, rfl⟩ hnext.quiet),
      fun hwindow => ?_, fun hwindow hfails => ?_, fun hwindow hpasses => ?_⟩
    · have hdie : dieTested d vdrv (trim && link && sref) ntcOhm s = dieFailed d 0x1007 s := if_pos (by simp [hwindow])
      rw [hdsd, hdie, dieFailed_dsd hd]
      exact ⟨rfl, hheld, (dieFailed_raised d 0x1007 s).to_log (hdie ▸ hlog)⟩
    · have hdie : dieTested d vdrv (trim && link && sref) ntcOhm s = dieFailed d 0x100A s := by
        rw [dieTested, if_neg (by simp [hwindow]), if_pos (by rw [hfails]; rfl)]
      rw [hdsd, hdie, dieFailed_dsd hd]
      exact ⟨rfl, hheld, (dieFailed_raised d 0x100A s).to_log (hdie ▸ hlog)⟩
    · have hdie : dieTested d vdrv (trim && link && sref) ntcOhm s = dieReleased d ntcOhm s := by
        rw [dieTested, if_neg (by simp [hwindow]), if_neg (by rw [hpasses]; decide)]
      obtain ⟨hreleased, hlinked, hfailed⟩ := dieReleased_dsd hd ntcOhm s
      rw [hdsd, hdie]
      refine ⟨hreleased, hfailed.trans hgood, hlinked, fun c hc hof => ?_, fun r hr hof => ?_⟩
      · rw [← dieReleased_chan hc hd hof ntcOhm s, ← hdie]
        exact congrArg (·.fsm.state) (hnext.chan c)
      · rw [← dieReleased_rail hr hof ntcOhm s, ← hdie]
        exact congrArg (·.state) (hnext.rail r)
  case config =>
    intro hstage hfirst hruns
    have hmodules := modulesChecked_reports (configInForce s)
    refine ⟨_, exec_configLoad hstage hfirst hruns, ?_⟩
    rw [hmodules]
    exact ⟨rfl, rfl, rfl, rfl, rfl, rfl⟩
  case mailbox =>
    intro hruns hstage hloaded
    have hserves := bootServes_reports s
    have hready := setDev_keeper 10 (bootServes s) (d := .ready) DevState.noConfusion
    have hkeeper := hserves.keeper
    refine ⟨_, exec_mailboxReady hruns hstage hloaded, ?_⟩
    split
    · rw [setDev_keeper 2 _ DevState.noConfusion, hready, hkeeper]
      refine ⟨?_, rfl, rfl, rfl⟩
      simp only [State.setDev_frame]
      rw [hserves]
    · rw [hready, hkeeper]
      refine ⟨?_, rfl, rfl, rfl⟩
      simp only [State.setDev_frame]
      rw [hserves]

end

section
/-! PROOFS. RUN, STOP, STANDBY, RESET, CLEAR_FAULT and EMUTE (R71, R78, R79, R89, R111, R135, R272, R296, R325). -/

namespace Sys2Proof.Machine

/-! ### The served requests -/

theorem exec_standby_served {i : Nat} {s : State} (h : Served i 0x12 s) :
    exec (.standby i) s = .next (askStandby (reply i (reqOf s i) stOk [] (take i s))) := by
  show execStandby i s = _
  rw [execStandby, serve_served h]

theorem exec_clearFault_served {i scope : Nat} {s : State} (h : Served i 0x14 s) (hscope : leAt (reqOf s i).payload 0 2 = scope)
    (hrange : scope < 208 ∨ scope = 0xFFFF) : exec (.clearFault i) s = .next (reply i (reqOf s i) stOk
      (le 2 (faultsLeft scope (clearFaults scope (take i s))) ++ [0, 0]) (clearFaults scope (take i s))) := by
  show execClearFault i s = _
  rw [execClearFault, serve_served h]
  dsimp only
  rw [hscope, if_neg (by omega)]

theorem exec_emute_served {i v : Nat} {s : State} (h : Served i 0x15 s) (hv : leAt (reqOf s i).payload 0 1 = v) (hrange : v ≤ 1) :
    exec (.emute i) s = .next (reply i (reqOf s i) stOk [] (setEmute (v == 1) (take i s))) := by
  show execEmute i s = _
  rw [execEmute, serve_served h]
  dsimp only
  rw [hv, if_neg (by omega)]

theorem askStandby_enters {s : State} (h : s.cfg.commit = none) : askStandby s = enterStandby s := if_neg (by simp [h])

theorem askStandby_waits {s : State} {k : Commit} (h : s.cfg.commit = some k) :
    askStandby s = { s with keeper := { s.keeper with standbyWait := true } } := if_pos (by simp [h])

/-! ### STOP (R78, R265, R272) -/

/-- What STOP asks of a channel: FAULT goes to OFF, and one that can stop is asked to, where it has not been. -/
def StopAsked (a b : Fsm) : Prop :=
  b.state = (if a.state = .fault then .off else a.state) ∧ (a.state ≠ .off → a.state ≠ .fault → a.stop = .none → b.stop = .requested)

theorem requestStop_asked {c : Nat} (hc : c < 208) {s : State} (h : (s.chan c).fsm.state ≠ .fault) :
    StopAsked (s.chan c).fsm ((requestStop c false s).chan c).fsm := by
  unfold requestStop StopAsked
  rw [chan_modFsm_self _ _ hc, if_neg h]
  dsimp only
  split
  · rename_i hheld
    exact ⟨rfl, fun hoff hfault => absurd hheld (by simp [hoff, hfault])⟩
  · exact ⟨rfl, fun _ _ hstop => by simp [hstop]⟩

theorem stopChannels_asked {c : Nat} (hc : c < 208) (s : State) : StopAsked (s.chan c).fsm ((stopChannels s).chan c).fsm := by
  unfold stopChannels
  refine forUnits_units (get := State.chan) (R := fun _ a b => StopAsked a.fsm b.fsm) (P := fun _ => True) (fun _ _ _ => trivial)
    (fun c k u hk => ?_) (fun c u hc _ => ?_) trivial hc
  · split
    · exact toOff_chan_other u hk
    · exact chan_modChan_other u _ hk
  · split
    · rename_i hfault
      exact ⟨by rw [if_pos hfault, (toOff_chan_self u hc).1], fun _ h => absurd hfault h⟩
    · rename_i hfault
      exact requestStop_asked hc hfault

theorem stopRails_rails (s : State) : stopRails s = { s with rails := (stopRails s).rails } := forUnits_rails s fun _ _ => rfl

theorem stopDevice_dev (s : State) : (stopDevice s).keeper.dev = .ready := by
  unfold stopDevice
  obtain ⟨hsnap, -⟩ := (snapshot_archives (storeModels (stopRails (stopChannels (abortTests (fun _ => true) 0xA011 (s.setDev .ready 1)))))).fields
  obtain ⟨hmodels, -⟩ := (storeModels_archives (stopRails (stopChannels (abortTests (fun _ => true) 0xA011 (s.setDev .ready 1))))).fields
  rw [hsnap, hmodels, stopRails_rails, stopChannels_eq, abortTests_touches]
  exact setDev_dev .ready 1 s

theorem stopDevice_chan {c : Nat} (hc : c < 208) (s : State) : StopAsked (s.chan c).fsm ((stopDevice s).chan c).fsm := by
  have hsame : SameFsm (s.chan c).fsm ((abortTests (fun _ => true) 0xA011 (s.setDev .ready 1)).chan c).fsm := by
    have h := abortTests_sameFsm (fun _ => true) 0xA011 (s.setDev .ready 1) c
    rwa [show (s.setDev .ready 1).chan c = s.chan c by simp [State.chan]] at h
  have hasked := stopChannels_asked hc (abortTests (fun _ => true) 0xA011 (s.setDev .ready 1))
  have hstored := ((storeModels_archives (stopRails (stopChannels (abortTests (fun _ => true) 0xA011 (s.setDev .ready 1))))).trans
    (snapshot_archives _)).2 c
  have hrails : (stopRails (stopChannels (abortTests (fun _ => true) 0xA011 (s.setDev .ready 1)))).chan c =
      (stopChannels (abortTests (fun _ => true) 0xA011 (s.setDev .ready 1))).chan c := by
    rw [stopRails_rails]
    rfl
  unfold stopDevice
  rw [hstored, hrails]
  rw [hsame] at hasked
  exact hasked

/-! ### STANDBY (R79, R82) -/

theorem linkDown_keeper (s : State) : (linkDown s).keeper = s.keeper := by
  unfold linkDown
  dsimp only
  split
  · rw [raise_reports]
    rfl
  · rfl

theorem dropRelays_keeper (s : State) : (dropRelays s).keeper = s.keeper :=
  forUnits_invariant (P := fun u => u.keeper = s.keeper) (fun c u h => by split <;> exact h) 208 rfl

theorem supplyLost_keeper (s : State) : (supplyLost s).keeper = s.keeper := (linkDown_keeper _).trans (dropRelays_keeper s)

/-- STANDBY is entered with every sequenced supply off. -/
theorem standbyOff_fields (s : State) : (standbyOff s).keeper.dev = s.keeper.dev ∧ (standbyOff s).power.pwrEn = 0 ∧
    (standbyOff s).power.seqDone = false ∧ Unsupplied (standbyOff s) := by
  refine ⟨?_, rfl, rfl, (supplyLost_unsupplied _).of_eq rfl rfl rfl rfl⟩
  unfold standbyOff powerDown
  dsimp only
  rw [supplyLost_keeper]

theorem enterStandby_dev (s : State) : (enterStandby s).keeper.dev = .standby := by
  obtain ⟨hdrain, -⟩ := (((storeModels_archives (abortTests (fun _ => true) 0xA011 (s.setDev .standby 1))).trans (flushLog_archives _)).trans
    ((snapshot_archives _).trans (drainStore_archives _))).fields
  unfold enterStandby
  obtain ⟨hdev, -⟩ := standbyOff_fields
    (drainStore (snapshot (flushLog (storeModels (abortTests (fun _ => true) 0xA011 (s.setDev .standby 1))))))
  rw [hdev, hdrain, abortTests_touches]
  exact setDev_dev .standby 1 s

/-! ### CLEAR_FAULT of a channel (R111, R272, R296, R325) -/

/-- Two state machines of which only the hold of the bridge may differ. -/
def BridgeOnly (a b : Fsm) : Prop := b = { a with bridge := b.bridge }

theorem freshHolds_bridgeOnly (s : State) (k : Nat) : BridgeOnly (s.chan k).fsm ((freshHolds s).chan k).fsm := by
  unfold freshHolds
  refine forUnits_invariant (P := fun u => BridgeOnly (s.chan k).fsm (u.chan k).fsm) (fun c u h => ?_) 208 rfl
  split
  · refine modChan_related (R := fun a b => BridgeOnly (s.chan k).fsm a.fsm → BridgeOnly (s.chan k).fsm b.fsm) (fun _ => id) (fun h => ?_) k h
    unfold BridgeOnly at *
    rw [h]
  · exact h

/-- The latches that clear move the hold of channels at rest and nothing else of a channel. -/
theorem clearLatches_bridgeOnly (scope : Nat) (s : State) (k : Nat) : BridgeOnly (s.chan k).fsm ((clearLatches scope s).chan k).fsm := by
  unfold clearLatches
  extract_lets s1
  have hchans : s1.chans = s.chans :=
    forUnits_invariant (P := fun u => u.chans = s.chans) (fun i u h => by split <;> exact h) 4 rfl
  have hchan : s1.chan k = s.chan k := by
    unfold State.chan
    rw [hchans]
  split
  · rfl
  · rw [← hchan]
    exact freshHolds_bridgeOnly s1 k

theorem clearLatches_enabled (scope c : Nat) (s : State) : (clearLatches scope s).enabled c = s.enabled c := by
  unfold State.enabled State.flag
  simp only [clearLatches_frame]

theorem startDiag_state {c : Nat} (hc : c < 208) {s : State} (h : (s.chan c).fsm.coilLatched = 0) :
    ((startDiag c s).chan c).fsm.state = .diag := by
  unfold startDiag
  dsimp only
  rw [if_pos h, chan_modChan_self _ _ hc]

/-- A channel in FAULT whose cause is gone, which no role holds and which latches no relay code, starts DIAG. -/
theorem clearChannel_diag {c : Nat} (hc : c < 208) {s : State} (hen : s.enabled c = true) (hstate : (s.chan c).fsm.state = .fault)
    (hgone : causePresent s c = false) (hrole : heldByRole s c = false) (hcoil : (s.chan c).fsm.coilLatched = 0) :
    ((clearChannel c s).chan c).fsm.state = .diag := by
  unfold clearChannel
  dsimp only
  rw [if_pos ⟨hen, hstate, by simp [hgone]⟩, if_neg (by simp [hrole])]
  refine startDiag_state hc ?_
  rw [chan_modFsm_self _ _ hc]
  exact hcoil

/-- A channel whose cause is present keeps its state and its code. -/
theorem clearChannel_held {c : Nat} (hc : c < 208) {s : State} (hpresent : causePresent s c = true) :
    ((clearChannel c s).chan c).fsm.state = (s.chan c).fsm.state ∧ ((clearChannel c s).chan c).fsm.code = (s.chan c).fsm.code := by
  unfold clearChannel
  dsimp only
  rw [if_neg (by simp [hpresent]), chan_modFsm_self _ _ hc]
  exact ⟨rfl, rfl⟩

theorem clearFaults_channel {c : Nat} (hc : c < 208) (s : State) : clearFaults c s = clearChannel c (clearLatches c s) :=
  if_neg (by omega)

end Sys2Proof.Machine

open Sys2Proof Sys2Proof.Machine

/-- Settles O11: the answers by the served request, and what each operation leaves by its own lemmas. That STOP answers READY while channels still
stop, and that STANDBY and RESET are one step each, is the model's choice (notes/assumptions/23.md). -/
theorem deviceStateCommands : Obligations.DeviceStateCommands := by
  intro i s
  refine ⟨?run, ?stop, ?standby, ?standbyWaits, ?reset, ?clearFault, ?emute, ⟨stopDevice_dev s, ?stopped⟩, ?inStandby, ?resets, ?cleared⟩
  case run =>
    intro hserved
    show execRun i s = _
    rw [execRun, serve_served hserved]
  case stop =>
    intro hserved
    show execStop i s = _
    rw [execStop, serve_served hserved]
  case standby =>
    intro hserved hcommit
    obtain ⟨-, -, hcfg, -⟩ := (take_reply_answers i (reqOf s i) stOk [] s).fields
    rw [exec_standby_served hserved, askStandby_enters (by rw [hcfg, hcommit])]
  case standbyWaits =>
    intro hserved k hcommit
    obtain ⟨hkeeper, -, hcfg, -⟩ := (take_reply_answers i (reqOf s i) stOk [] s).fields
    refine ⟨_, exec_standby_served hserved, ?_⟩
    rw [askStandby_waits (by rw [hcfg, hcommit]), hkeeper]
    exact ⟨rfl, rfl, hcfg⟩
  case reset =>
    exact exec_reset_served
  case clearFault =>
    exact fun scope => exec_clearFault_served
  case emute =>
    exact fun v => exec_emute_served
  case stopped =>
    simp only [stopDevice_frame, true_and]
    exact fun c hc => stopDevice_chan hc s
  case inStandby =>
    obtain ⟨-, hen, hdone, -, -, hchan, -⟩ := standbyOff_fields
      (drainStore (snapshot (flushLog (storeModels (abortTests (fun _ => true) 0xA011 (s.setDev .standby 1))))))
    simp only [enterStandby_frame, true_and]
    refine ⟨enterStandby_dev s, hen, hdone, fun c hc => ?_⟩
    obtain ⟨hoff, -, hrelay⟩ := hchan c hc
    exact ⟨hoff, hrelay⟩
  case resets =>
    obtain ⟨u, hreset, hbanks, -⟩ := commandReset_resets s
    obtain ⟨hdev, hcause, hA, hB, hcA, hcB, hrail, hchan⟩ := (resetTo_rebooted 3 false u).startSequence.from_banks hbanks
    rw [hreset]
    exact ⟨hcause, hdev, startSequence_stage _, hA, hB, hcA, hcB, fun c _ => (hchan c).1, fun r _ => hrail r⟩
  case cleared =>
    intro c hc hfault
    have hlatches := clearLatches_bridgeOnly c s c
    have hstate : ((clearLatches c s).chan c).fsm.state = .fault := by rw [hlatches]; exact hfault
    rw [clearFaults_channel hc]
    refine ⟨fun hen hgone hrole hcoil => ?_, fun hpresent => ?_⟩
    · exact clearChannel_diag hc ((clearLatches_enabled c c s).trans hen) hstate hgone hrole (by rw [hlatches]; exact hcoil)
    · obtain ⟨kstate, kcode⟩ := clearChannel_held hc hpresent
      refine ⟨kstate.trans hstate, kcode.trans ?_⟩
      rw [hlatches]

end

section
/-! PROOFS. The sensors of the Keeper, a commit's steps, the ceiling path and the start of a controller (R129 to R136, R335 to R343, R384). -/

namespace Sys2Proof.Machine

/-! ### Junctions and sensors (R384, Table 15.1) -/

/-- A junction above the limit in RUN leads to SAFE with the fall begun. -/
theorem exec_junctionShutdown_run {die : Nat} {tempC : Rat} {s : State} (hdie : die < 5) (hhot : junctionLimit < tempC)
    (hisland : s.power.islandReset = false) (hdone : s.power.seqDone = true) (hfirst : s.misc.junctionHot = false) (hdev : s.keeper.dev = .run) :
    ∃ t, exec (.junctionShutdown die tempC) s = .next t ∧ t.keeper.dev = .safe ∧ t.power.falling = true := by
  show ∃ t, execJunctionShutdown die tempC s = .next t ∧ _
  unfold execJunctionShutdown
  dsimp only
  rw [if_pos (by simp [islandUp, hisland, hdone, hfirst, hdie, hhot]), if_pos (.inl (by rw [hdev]; rfl))]
  exact ⟨_, rfl, enterSafe_dev _ _ _, by rw [enterSafe_power]⟩

theorem exec_junctionWarn {tempC : Rat} {s : State} (die : Nat) (hlog : canLog s = true) (hfirst : s.misc.junctionEp = false)
    (hwarm : s.ratv 0x01 0 0xB ≤ tempC) : exec (.junctionWarn die tempC) s =
      .next (({ s with misc := { s.misc with junctionEp := true } } : State).raise 0x900B die [wordS (10 * tempC)]) :=
  if_pos (by simp [hlog, hfirst, hwarm])

/-- Within its second a sample of the sensors is only taken. -/
theorem exec_keeperSensorSample_within (l : List Rat) (v : Rat) (m x g : List Rat) {s : State} (hruns : firmwareRuns s = true)
    (hwithin : s.keeper.counterUs < s.misc.secondAt) :
    ∃ t, exec (.keeperSensorSample l v m x g) s = .next t ∧ t.power.vbus = v ∧ t.misc.junction = l := by
  show ∃ t, execKeeperSensorSample l v m x g s = .next t ∧ _
  unfold execKeeperSensorSample
  dsimp only
  rw [if_pos hruns, if_neg (by omega)]
  exact ⟨_, rfl, rfl, rfl⟩

/-! ### The steps of a commit (R129 to R136) -/

theorem modCommit_some {s : State} {c : Commit} (h : s.cfg.commit = some c) (f : Commit → Commit) :
    modCommit f s = { s with cfg := { s.cfg with commit := some (f c) } } := by
  rw [modCommit, h]
  rfl

/-- A unit whose restarts have stopped is armed. -/
theorem exec_unitArm_stopped {s : State} {c : Commit} {u : UnitPlan} (hcommit : s.cfg.commit = some c) (halone : c.epoch = none)
    (hruns : s.keeper.halted = false) (hnext : c.units.find? (fun v => !v.armed) = some u) (hstopped : stoppedForUnit s u.unit = true) :
    ∃ c' t, exec .unitArm s = .next t ∧ Quiet { s with cfg := { s.cfg with commit := some c' } } t ∧
      c'.units = c.units.map (fun v => if v.unit = u.unit then { v with armed := true } else v) := by
  show ∃ c' t, execUnitArm s = .next t ∧ _
  unfold execUnitArm
  rw [hcommit]
  dsimp only
  rw [if_neg (by simp [hruns]), if_neg (by simp [halone]), hnext]
  dsimp only
  rw [if_pos hstopped, modCommit_some hcommit]
  exact ⟨_, _, rfl, holdForUnit_frame _ _, rfl⟩

theorem switchUnit_active (u : UnitPlan) (b : Nat) (s : State) :
    (switchUnit u b s).cfg.active = copyUnit s.cfg.target u.unit s.cfg.active := by
  simp [switchUnit, modCommit]

theorem exec_unitSwitch_due {s : State} {c : Commit} {u : UnitPlan} (hcommit : s.cfg.commit = some c) (hlock : s.media.locked = true)
    (hgoes : s.media.halted = false) (hdue : c.units.find? (c.due (winK s)) = some u) (hfirst : c.first.isSome = true) (harmed : u.armed = true)
    (hstopped : stoppedForUnit s u.unit = true) : exec .unitSwitch s = .next (switchUnit u ((c.blockOf u).getD 0) s) := by
  have hbegun : c.first.isNone = false := by rw [← Option.not_isSome, hfirst]; rfl
  show execUnitSwitch s = _
  unfold execUnitSwitch
  rw [hcommit]
  dsimp only
  rw [hdue]
  dsimp only
  rw [if_neg (by simp [hlock, hgoes]), if_neg (by simp [hbegun]), if_pos (by simp [harmed, hstopped])]

theorem exec_crossfadeEnd_over {c : Nat} {x : XFade} {s : State} (hfade : (s.chan c).dsp.xf = some x) (hover : 1024 ≤ x.i) :
    exec (.crossfadeEnd c) s =
      .next (modCommit (fun k => { k with xfading := k.xfading.erase c }) (s.modDsp c fun d => { d with xf := none })) := by
  show execCrossfadeEnd c s = _
  rw [execCrossfadeEnd, hfade]
  exact if_pos hover

/-- The end of a commit puts its target into force. -/
theorem exec_commitDone_over {s : State} {c : Commit} (hcommit : s.cfg.commit = some c) (hruns : s.keeper.halted = false)
    (hover : commitOver s c = true) : ∃ t, exec .commitDone s = .next t ∧ t.cfg.active = s.cfg.target ∧ t.cfg.commit = none := by
  show ∃ t, execCommitDone s = .next t ∧ _
  unfold execCommitDone
  rw [hcommit]
  dsimp only
  rw [if_neg (by simp [hruns, hover])]
  refine ⟨_, rfl, ?_⟩
  simp

theorem keeperFree_canLog {s : State} (h : keeperFree s = true) : canLog s = true := by
  simp only [keeperFree, Bool.and_eq_true] at h
  obtain ⟨⟨hlog, -⟩, -⟩ := h
  exact hlog

theorem cfgBankOf_setCfgBank (i : Nat) (b : CfgBank) (st : Store) : cfgBankOf (setCfgBank i b st) i = b := by
  unfold cfgBankOf setCfgBank
  split <;> rfl

/-- The store of the configuration writes one bank, and reports it. -/
theorem exec_cfgStore_writes {s : State} {n : Nat} (ok : Bool) (hdue : s.cfg.storePending = some n) (hfree : keeperFree s = true)
    (hflash : flashOn s = true) (hdev : s.keeper.dev ≠ .standby) (hlast : s.store.lastPending = false) :
    ∃ t, exec (.cfgStore ok) s = .next t ∧
      cfgBankOf t.store (storeBank s.store) = ⟨if ok then 0xA5 else 0xFF, storeSeq s.store, word s.twin.epoch, s.cfg.whole⟩ := by
  show ∃ t, execCfgStore ok s = .next t ∧ _
  unfold execCfgStore
  rw [hdue]
  dsimp only
  rw [if_pos (by simp [hfree, keeperFree_canLog hfree, hflash, hdev, hlast])]
  refine ⟨_, rfl, ?_⟩
  split
  · rw [raise_reports]
    exact cfgBankOf_setCfgBank _ _ _
  · rw [raise_reports]
    exact cfgBankOf_setCfgBank _ _ _

/-! ### The ceilings (R335, R336, R338) -/

/-- A row other than the old one is taken once it has stood for the longest time of its filter. -/
theorem rselTaken_stood {up down us : Nat} (hup : up + 100 ≤ us) (hdown : down + 100 ≤ us) (old row : Nat) (s : State) :
    rselTaken up down old row us s = (decide (row ≠ old), s) := by
  unfold rselTaken State.filtered
  by_cases hrow : row = old
  · simp [hrow]
  · by_cases hlt : old < row
    · simp only [if_neg hrow, if_pos hlt, if_neg (show ¬ us < up by omega), if_pos hup, decide_not, decide_eq_false hrow, Bool.not_false]
    · simp only [if_neg hrow, if_neg hlt, if_neg (show ¬ us < down by omega), if_pos hdown, decide_not, decide_eq_false hrow, Bool.not_false]

theorem exec_rselFilterRail_stood {us : Nat} (row : Nat) {s : State} (hus : 2000 ≤ us) (hdone : s.power.seqDone = true) :
    ∃ t, exec (.rselFilterRail row us) s = .next t ∧ t.misc.rselRail = min row 7 := by
  show ∃ t, execRselFilterRail row us s = .next t ∧ _
  unfold execRselFilterRail
  dsimp only
  rw [if_pos hdone, rselTaken_stood (by omega) (by omega)]
  refine ⟨_, rfl, ?_⟩
  split
  · refine forUnits_invariant (P := fun t => t.misc.rselRail = min row 7) (fun r t h => ?_) 12 rfl
    rw [ceilingChanged_touches]
    exact h
  · rename_i hsame
    exact (by simpa using hsame : min row 7 = s.misc.rselRail).symm

theorem exec_rselFilterDsp_stood {us : Nat} (row : Nat) {s : State} (hus : 2000 ≤ us) (hlock : s.media.locked = true) :
    exec (.rselFilterDsp row us) s = .next { s with misc := { s.misc with rselDsp := min row 7 } } := by
  show execRselFilterDsp row us s = _
  unfold execRselFilterDsp
  dsimp only
  rw [if_pos hlock, rselTaken_stood (by omega) (by omega)]
  split
  · rfl
  · rename_i hsame
    rw [(by simpa using hsame : min row 7 = s.misc.rselDsp)]

theorem exec_ceilingTermsRefresh {rc : Nat} (v : Rat) {s : State} (hlock : s.media.locked = true) : exec (.ceilingTermsRefresh rc v) s =
    .next (s.modRail rc fun q => { q with dFaultDsp := q.dFaultRail, dTempDsp := q.dTempRail, vRail := v }) := if_pos hlock

/-- The RAIL logic takes its c_keeper; of the controller only the row and the target may follow. -/
theorem keepRail_rail {rc : Nat} (hrc : rc < 12) (row : Nat) (s : State) : (keepRail rc row s).rail rc =
    { s.rail rc with cKeepRail := row, row := ((keepRail rc row s).rail rc).row, target := ((keepRail rc row s).rail rc).target } := by
  have h := (ceilingChanged_rail rc (cEffRail s rc) (s.modRail rc fun q => { q with cKeepRail := row })).2
  rw [rail_modRail_self _ _ hrc] at h
  exact h

theorem exec_keeperCeilingWrite_goal {rc : Nat} (hrc : rc < 12) (row : Nat) {s : State} (hlog : canLog s = true) :
    ∃ t, exec (.keeperCeilingWrite rc row) s = .next t ∧
      (t.rail rc).cKeepGoal = min row (if groupFallback s rc then (fallbackRow? s.cfg.active rc).getD 7 else 7) := by
  show ∃ t, execKeeperCeilingWrite rc row s = .next t ∧ _
  unfold execKeeperCeilingWrite
  rw [if_pos (show (s.keeper.serving && !s.keeper.halted) = true from hlog)]
  extract_lets cap goal old s1
  have hgoal : (s1.rail rc).cKeepGoal = goal := by rw [rail_modRail_self _ _ hrc]
  split
  · exact ⟨_, rfl, by rw [rail_modRail_self _ _ hrc]; exact hgoal⟩
  split
  · exact ⟨_, rfl, by rw [keepRail_rail hrc]; exact hgoal⟩
  · exact ⟨_, rfl, hgoal⟩

theorem exec_cKeeperSecondWrite {rc : Nat} {s : State} (hdue : (s.rail rc).secondDue = true) (hruns : s.keeper.halted = false) :
    exec (.cKeeperSecondWrite rc) s = .next (keepRail rc (s.rail rc).cKeepGoal
      (s.modRail rc fun q => { q with secondDue := false, cKeepDsp := q.cKeepGoal })) :=
  if_pos (by simp [hdue, hruns])

/-- With the CD link the selection and its setpoints are taken. -/
theorem exec_railSelectionApply_linked {rc : Nat} {s : State} (hstate : (s.rail rc).state = .regulating)
    (hlink : (s.dsd (rc / 3)).linked = true) : exec (.railSelectionApply rc) s = .next (s.modRail rc fun q =>
      { q with table := q.sentTable, row := min (s.rail rc).sent (cEffRail s rc),
               target := ({ q with table := q.sentTable } : Rail).setpoint (min (s.rail rc).sent (cEffRail s rc)) }) := by
  show execRailSelectionApply rc s = _
  unfold execRailSelectionApply
  dsimp only
  rw [if_pos (by simp [hstate]), hlink]
  rfl

/-! ### The start of a controller (R340 to R343) -/

/-- Two values of a controller in the same step of its start. -/
def SameStart (a b : Rail) : Prop := b.state = a.state ∧ b.check = a.check ∧ b.attempts = a.attempts

theorem SameStart.rfl' (a : Rail) : SameStart a a := ⟨rfl, rfl, rfl⟩

theorem SameStart.trans {a b c : Rail} (h : SameStart a b) (k : SameStart b c) : SameStart a c := by
  obtain ⟨hstate, hcheck, htries⟩ := h
  obtain ⟨kstate, kcheck, ktries⟩ := k
  exact ⟨kstate.trans hstate, kcheck.trans hcheck, ktries.trans htries⟩

/-- A change of one controller that keeps the step of every start, and its report. -/
theorem raise_modRail_sameStart {f : Rail → Rail} (h : ∀ q, SameStart q (f q)) (s : State) (r code inst : Nat) (data : List Word) (k : Nat) :
    SameStart (s.rail k) (((s.modRail r f).raise code inst data).rail k) := by
  rw [(raise_reports _ _ _ _).rail]
  exact modRail_related SameStart.rfl' (h _) k

theorem moveFreq_sameStart (r moving there : Nat) (s : State) (k : Nat) : SameStart (s.rail k) ((moveFreq r moving there s).rail k) := by
  unfold moveFreq
  refine modRail_related SameStart.rfl' ?_ k
  split <;> exact ⟨rfl, rfl, rfl⟩

/-- A controller that meets RSYNC goes on with its start. -/
theorem meetSync_sameStart (r : Nat) (s : State) (k : Nat) : SameStart (s.rail k) ((meetSync r s).rail k) := by
  unfold meetSync
  extract_lets hz q p
  split
  · exact SameStart.rfl' _
  split
  · split
    · exact SameStart.rfl' _
    · have hdrawn : SameStart (s.rail k) ((moveFreq r 1 2 p.2).rail k) := moveFreq_sameStart r 1 2 p.2 k
      refine hdrawn.trans (raise_modRail_sameStart ?_ _ _ _ _ _ k)
      exact fun _ => ⟨rfl, rfl, rfl⟩
  split
  · exact SameStart.rfl' _
  · refine raise_modRail_sameStart ?_ _ _ _ _ _ k
    exact fun _ => ⟨rfl, rfl, rfl⟩

theorem ceilingChanged_sameStart (r old : Nat) (s : State) : SameStart (s.rail r) ((ceilingChanged r old s).rail r) := by
  rw [(ceilingChanged_rail r old s).2]
  exact ⟨rfl, rfl, rfl⟩

/-- A start begins in CHECK, before its first check, with its number in the episode. -/
theorem railBegin_rail {r : Nat} (hr : r < 12) (attempts left : Nat) (s : State) : ((railBegin r attempts left s).rail r).state = .check ∧
    ((railBegin r attempts left s).rail r).check = 0 ∧ ((railBegin r attempts left s).rail r).attempts = attempts := by
  unfold railBegin
  extract_lets old s1
  have hbegun : (s1.rail r).state = .check ∧ (s1.rail r).check = 0 ∧ (s1.rail r).attempts = attempts := by
    rw [rail_modRail_self _ _ hr]
    exact ⟨rfl, rfl, rfl⟩
  obtain ⟨bstate, bcheck, btries⟩ := hbegun
  obtain ⟨hstate, hcheck, htries⟩ := (meetSync_sameStart r (s1.life (railStat r 0x042) 1) r).trans (ceilingChanged_sameStart r old _)
  exact ⟨hstate.trans bstate, hcheck.trans bcheck, htries.trans btries⟩

theorem exec_railStart_off {rc : Nat} {s : State} (hdue : (s.rail rc).due = true) (huntested : (s.rail rc).test = 0)
    (hstate : (s.rail rc).state = .off) (hmay : railMayStart s rc = true) :
    exec (.railStart rc) s = .next (railBegin rc 1 (s.nat 0x07 rc 5) s) :=
  if_pos (by simp [hdue, huntested, hstate, hmay])

theorem exec_railRetry_waited {rc : Nat} {s : State} (hstate : (s.rail rc).state = .retryWait) (hmay : railMayStart s rc = true)
    (hwaited : (s.rail rc).cyc.stoppedAt + 1000 * (s.rail rc).cyc.retryMs ≤ s.keeper.counterUs) :
    exec (.railRetry rc) s = .next (railBegin rc ((s.rail rc).attempts + 1) ((s.rail rc).retriesLeft - 1) s) :=
  if_pos (by simp [hstate, hmay, hwaited])

theorem exec_vinEntersRange {rc : Nat} {v : Rat} {s : State} (hlow : 9 ≤ v) (hhigh : v ≤ 60) (hstate : (s.rail rc).state = .check)
    (hcheck : (s.rail rc).check = 0) : exec (.vinEntersRange rc v) s = .next (s.modRail rc fun q => { q with check := 1, ntcOn := true }) :=
  if_pos (by simp [hlow, hhigh, hstate, hcheck])

/-- A first check that finds no short goes on to the second. -/
theorem exec_railPrecheck_first {rc : Nat} {isx : Rat} (vis vos rise : Rat) {s : State} (hstate : (s.rail rc).state = .check)
    (hcheck : (s.rail rc).check = 1) (hgood : isx < 1) : exec (.railPrecheck rc isx vis vos rise) s =
      .next (s.modRail rc fun q => { q with check := 2, ntcOn := true }) := by
  have hn : (if (s.rail rc).check = 0 then 1 else (s.rail rc).check) = 1 := by rw [hcheck]; rfl
  show execRailPrecheck rc isx vis vos rise s = _
  unfold execRailPrecheck
  dsimp only
  rw [if_neg (by simp [railTested, hstate]), if_pos (by simp [hstate, hcheck]), hn, if_pos (.inl rfl), if_neg (not_le.mpr hgood)]
  rfl

/-- A soft start whose reference and rail have arrived regulates. -/
theorem exec_railRegulating_arrived {rc : Nat} {v ms : Rat} {s : State} (hrc : rc < 12) (hstate : (s.rail rc).state = .softStart)
    (hgoes : (s.rail rc).stopReq = false) (href : (s.rail rc).ref = (s.rail rc).setpoint 0) (htime : rampMs s rc + 1 ≤ ms)
    (hrail : absRat (v - (s.rail rc).setpoint 0) ≤ (s.rail rc).setpoint 0 * 3/100) :
    ∃ t, exec (.railRegulating rc v ms) s = .next t ∧ (t.rail rc).state = .regulating := by
  show ∃ t, execRailRegulating rc v ms s = .next t ∧ _
  unfold execRailRegulating
  dsimp only
  rw [if_pos (by simp [hstate, hgoes, href, htime, hrail])]
  exact ⟨_, rfl, by rw [rail_modRail_self _ _ hrc]⟩

theorem exec_startShort {rc : Nat} {v ms : Rat} {s : State} (hstate : (s.rail rc).state = .softStart) (htime : rampMs s rc + 2 ≤ ms)
    (hlow : v < (s.rail rc).setpoint 0 / 4) : exec (.startShort rc v ms) s = .next (railFault rc 0x7003 (startData (s.rail rc) v) s) :=
  if_pos (by simp [hstate, htime, hlow])

theorem exec_startTimeout {rc : Nat} {ms : Rat} (v : Rat) {s : State} (hstate : (s.rail rc).state = .softStart)
    (htime : rampMs s rc + 20 ≤ ms) : exec (.startTimeout rc v ms) s = .next (railFault rc 0x7004 (startData (s.rail rc) v) s) :=
  if_pos (by simp [hstate, htime])

theorem railFault_code {r : Nat} (hr : r < 12) (code : Nat) (data : List Word) (s : State) : ((railFault r code data s).rail r).code = code := by
  have h := railFault_rail r code data s r
  rw [if_pos ⟨rfl, hr⟩] at h
  exact congrArg (·.code) h

end Sys2Proof.Machine

open Sys2Proof Sys2Proof.Machine

/-- Settles O60: the rows of the supplies, the boot and the Keeper follow from their own statements, the others from the equation of each command.
STAGE 0x1 of a wake and the 1,000 µs of HEARTBEAT are the model's readings (notes/assumptions/22.md, 8.md), the limit of JUNCTION_SHUTDOWN is free
(notes/assumptions/65.md). -/
theorem supplyBootCommitAndStartRowsComplete : Obligations.SupplyBootCommitAndStartRowsComplete := by
  intro s
  obtain ⟨hpll, -, hlast, htimeout, hlost, hretry⟩ := supplySequence s
  obtain ⟨hrom, hbankA, -, hmedia, hdie, hconfig, hmailbox⟩ := bootRows s
  obtain ⟨hhalt, hresume, hbeat, htimer, hpattern, hwake⟩ := keeperClockAndWake s
  refine ⟨?pll, ?pgLast, ?pgTimeout, ?pgLost, ?seqRetry, ?rom, ?firmware, ?mediaPll, ?die, ?config, ?mailbox, ?pattern, htimer, ?wake, hhalt,
    ?resume, ?beat, ?refresh, ?shutdown, ?warn, ?sensors, ?arm, ?switch, ?crossfade, ?done, ?store, ?rsel, ?rails⟩
  case pll =>
    intro hisland hreset hlock
    obtain ⟨t, hstep, tpll, tstage, -⟩ := hpll hisland hreset hlock
    exact ⟨t, hstep, tpll, tstage⟩
  case pgLast =>
    intro b n hactive hfive
    obtain ⟨t, hstep, tdone, -⟩ := hlast b n hactive hfive
    exact ⟨t, hstep, tdone⟩
  case pgTimeout =>
    intro hactive
    obtain ⟨t, hstep, ten, tactive, -⟩ := htimeout hactive
    exact ⟨t, hstep, ten, tactive⟩
  case pgLost =>
    intro hdone
    obtain ⟨t, hstep, ten, tdone, -⟩ := hlost hdone
    exact ⟨t, hstep, ten, tdone⟩
  case seqRetry =>
    intro hwait
    obtain ⟨t, hstep, ten, tactive, -⟩ := hretry hwait
    exact ⟨t, hstep, ten, tactive⟩
  case rom =>
    intro hdone hstage hstrap hruns
    obtain ⟨t, hstep, -, -, tstage⟩ := hrom (some 64) hdone hstage hruns
    exact ⟨t, hstep, by rw [tstage, if_pos hstrap]⟩
  case firmware =>
    intro hstage hruns hbody
    obtain ⟨t, hstep, tstage, -, -, -, -, tbytes, -⟩ := hbankA hstage hruns hbody
    exact ⟨t, hstep, tstage, tbytes⟩
  case mediaPll =>
    intro hdone hstage hlock hruns
    obtain ⟨t, hstep, tlock, tindex, -⟩ := hmedia hdone hstage hlock hruns
    exact ⟨t, hstep, tlock, tindex⟩
  case die =>
    intro d vdrv ntc hd hlock hstage hruns hheld hgood hwindow
    obtain ⟨t, hstep, -, -, -, hpasses⟩ := hdie d vdrv ntc true true true hd hlock hstage hruns hheld hgood
    obtain ⟨treleased, -⟩ := hpasses hwindow rfl
    exact ⟨t, hstep, treleased⟩
  case config =>
    intro hstage hfirst hruns
    obtain ⟨t, hstep, tloaded, tpending, ttarget, -⟩ := hconfig hstage hfirst hruns
    exact ⟨t, hstep, tloaded, tpending, ttarget⟩
  case mailbox =>
    intro hruns hstage hloaded
    obtain ⟨t, hstep, tcfg, -, -, tdev⟩ := hmailbox hruns hstage hloaded
    exact ⟨t, hstep, tcfg, tdev⟩
  case pattern =>
    intro n frame hdev hn hbit hwaking hmatch
    obtain ⟨t, hstep, theld, -⟩ := hpattern n frame hdev hn hbit hwaking hmatch
    exact ⟨t, hstep, theld⟩
  case wake =>
    intro hdev hheld hwaking hruns
    obtain ⟨t, hstep, twaking, -, -, -, tstage, -⟩ := hwake hdev hheld hwaking hruns
    exact ⟨t, hstep, twaking, tstage⟩
  case resume =>
    intro hhalted
    obtain ⟨t, hstep, truns, -, twait, -⟩ := hresume hhalted
    exact ⟨t, hstep, truns, twait⟩
  case beat => exact fun hruns => ⟨_, hbeat hruns, rfl, rfl⟩
  case refresh => exact fun hfree => ⟨_, if_pos hfree, rfl⟩
  case shutdown => exact fun die c => exec_junctionShutdown_run
  case warn =>
    intro die c hlog hfirst hwarm
    exact ⟨_, exec_junctionWarn die hlog hfirst hwarm, by rw [raise_reports], (raise_raised _ _ _ _).of_log rfl rfl⟩
  case sensors => exact fun l m x g v => exec_keeperSensorSample_within l v m x g
  case arm => exact fun c u => exec_unitArm_stopped
  case switch =>
    intro c u hcommit hlock hgoes hdue hfirst harmed hstopped
    exact ⟨_, exec_unitSwitch_due hcommit hlock hgoes hdue hfirst harmed hstopped, switchUnit_active _ _ _⟩
  case crossfade =>
    intro c x hfade hover hc
    exact ⟨_, exec_crossfadeEnd_over hfade hover, congrArg Chan.dsp (chan_modDsp_self s (fun d => { d with xf := none }) hc)⟩
  case done => exact fun c => exec_commitDone_over
  case store => exact fun n ok => exec_cfgStore_writes ok
  case rsel => exact fun row us hus => ⟨exec_rselFilterRail_stood row hus, exec_rselFilterDsp_stood row hus⟩
  case rails =>
    intro rc hrc
    refine ⟨?terms, fun row => exec_keeperCeilingWrite_goal hrc row, ?second, ?selection, ?start, ?vin, ?precheck, fun v ms => exec_railRegulating_arrived hrc,
      ?short, ?timeout, ?retry⟩
    case terms => exact fun v hlock => ⟨_, exec_ceilingTermsRefresh v hlock, rail_modRail_self _ _ hrc⟩
    case second =>
      intro hdue hruns
      refine ⟨_, exec_cKeeperSecondWrite hdue hruns, ?_⟩
      rw [keepRail_rail hrc, rail_modRail_self _ _ hrc]
      exact ⟨rfl, rfl⟩
    case selection =>
      intro hstate hlink
      exact ⟨_, exec_railSelectionApply_linked hstate hlink, by rw [rail_modRail_self _ _ hrc]⟩
    case start =>
      intro hdue huntested hstate hmay
      obtain ⟨tstate, tcheck, -⟩ := railBegin_rail hrc 1 (s.nat 0x07 rc 5) s
      exact ⟨_, exec_railStart_off hdue huntested hstate hmay, tstate, tcheck⟩
    case vin =>
      intro v hlow hhigh hstate hcheck
      exact ⟨_, exec_vinEntersRange hlow hhigh hstate hcheck, by rw [rail_modRail_self _ _ hrc]⟩
    case precheck =>
      intro isx vis vos rise hstate hcheck hgood
      exact ⟨_, exec_railPrecheck_first vis vos rise hstate hcheck hgood, by rw [rail_modRail_self _ _ hrc]⟩
    case short => exact fun v ms hstate htime hlow => ⟨_, exec_startShort hstate htime hlow, railFault_code hrc _ _ _⟩
    case timeout => exact fun v ms hstate htime => ⟨_, exec_startTimeout v hstate htime, railFault_code hrc _ _ _⟩
    case retry =>
      intro hstate hmay hwaited
      obtain ⟨tstate, -, ttries⟩ := railBegin_rail hrc ((s.rail rc).attempts + 1) ((s.rail rc).retriesLeft - 1) s
      exact ⟨_, exec_railRetry_waited hstate hmay hwaited, tstate, ttries⟩
end

section
/-! PROOFS. What every command leaves standing, first half: the queue of waiting commands and the canonical form of both memories (R86, R87, R98, R385);
the shared operations, then the rows of the boot, the bus, the stage, the channels and the network, each by the frame laws of what it calls. -/

namespace Sys2Proof.Machine

/-- From `s` to `t` the queue of commands stands, and the memories keep their canonical form. -/
def Upholds (s t : State) : Prop := t.pending = s.pending ∧ (MemSound s → MemSound t)

/-- An outcome is a next state that upholds them. -/
def Keeps (s : State) (o : Out State) : Prop := ∃ t, o = .next t ∧ Upholds s t

theorem Upholds.refl (s : State) : Upholds s s := ⟨rfl, id⟩

theorem Upholds.trans {s t u : State} (h : Upholds s t) (k : Upholds t u) : Upholds s u := ⟨k.1.trans h.1, k.2 ∘ h.2⟩

/-- A change of neither the queue nor a memory upholds them. -/
theorem Upholds.of_frame {s t : State} (hp : t.pending = s.pending) (hm : t.spi.mem = s.spi.mem) (hr : t.sram = s.sram) : Upholds s t :=
  ⟨hp, fun h => h.of_eq hm hr⟩

/-- In terms of the fields, of which `simp` has the frame law of every operation. -/
theorem upholds_iff {s t : State} : Upholds s t ↔ t.pending = s.pending ∧
    (Memory.wf s.spi.mem = true ∧ Memory.wf s.sram = true → Memory.wf t.spi.mem = true ∧ Memory.wf t.sram = true) := Iff.rfl

theorem Upholds.ite {s t u : State} {p : Prop} [Decidable p] (ht : Upholds s t) (hu : Upholds s u) : Upholds s (if p then t else u) := by
  split
  · exact ht
  · exact hu

theorem Upholds.foldl {α : Type} {f : State → α → State} (hf : ∀ s a, Upholds s (f s a)) (l : List α) (s : State) : Upholds s (l.foldl f s) := by
  induction l generalizing s with
  | nil => exact .refl s
  | cons a l ih => exact (hf s a).trans (ih _)

theorem Upholds.forUnits {f : Nat → State → State} (hf : ∀ i s, Upholds s (f i s)) (n : Nat) (s : State) : Upholds s (forUnits n f s) := by
  rw [Machine.forUnits]
  exact .foldl (fun s i => hf i s) _ s

@[simp] theorem keeps_next {s t : State} : Keeps s (.next t) ↔ Upholds s t := by simp [Keeps]

@[simp] theorem keeps_ite {s : State} {p : Prop} [Decidable p] {a b : Out State} :
    Keeps s (if p then a else b) ↔ (p → Keeps s a) ∧ (¬ p → Keeps s b) := by
  split <;> simp [*]

theorem keeps_idle (s : State) : Keeps s (.next s) := keeps_next.mpr (.refl s)

/-- A row that idles where its condition fails. -/
theorem keeps_guard {s : State} {p : Prop} [Decidable p] {o : Out State} (h : p → Keeps s o) : Keeps s (if p then o else .next s) :=
  keeps_ite.mpr ⟨h, fun _ => keeps_idle s⟩

/-! ### The operations that write a memory -/

theorem Upholds.reply {s t : State} (h : Upholds s t) (i : Nat) (r : Req) (st : Nat) (p : List Byte) : Upholds s (reply i r st p t) :=
  h.trans ⟨by simp, fun ht => ⟨reply_wf ht.1, by simpa using ht.2⟩⟩

theorem take_upholds (i : Nat) (s : State) : Upholds s (take i s) := .of_frame rfl rfl rfl

/-- A served request keeps what its action keeps. -/
theorem serve_keeps {act : Req → State → State} (h : ∀ r t, Upholds t (act r t)) (i cmd : Nat) (s : State) : Keeps s (serve i cmd act s) := by
  unfold serve
  dsimp only
  split
  · rw [keeps_next]
    exact .ite ((take_upholds i s).trans (h _ _)) ((take_upholds i s).reply ..)
  · exact keeps_next.mpr (.refl s)

theorem resetTo_upholds (cause : Nat) (por : Bool) (s : State) : Upholds s (resetTo cause por s) := ⟨by simp, resetTo_sound⟩

theorem startSequence_upholds (s : State) : Upholds s (startSequence s) := by simp [upholds_iff]

theorem commandReset_upholds (s : State) : Upholds s (commandReset s) := ⟨by simp, commandReset_sound⟩

theorem resetAfter_upholds (i : Nat) (s : State) : Upholds s (resetAfter i s) := ⟨by simp, resetAfter_sound⟩

theorem startImage_upholds (bytes : List Byte) (bankB spi : Bool) (s : State) : Upholds s (startImage bytes bankB spi s) :=
  ⟨by simp, startImage_sound⟩

theorem goImage_upholds (s : State) : Upholds s (goImage s) := ⟨by simp, goImage_sound⟩

theorem fillRing_upholds (p : Nat) (frame : List Byte) (bad : Bool) (s : State) : Upholds s (fillRing p frame bad s) := ⟨by simp, fillRing_sound⟩

theorem hostTake_upholds (addr port dst dport : Nat) (l : List Byte) (s : State) : Upholds s (hostTake addr port dst dport l s) :=
  ⟨by simp, hostTake_sound⟩

theorem serveRing_upholds (p : Nat) (s : State) : Upholds s (serveRing p s) := ⟨by simp, serveRing_sound⟩

theorem keeperTakes_upholds (p : Nat) (f : List Byte) (bad : Bool) (s : State) : Upholds s (keeperTakes p f bad s) := ⟨by simp, keeperTakes_sound⟩

theorem pokeWords_upholds (l : List Word) (a n : Nat) (s : State) : Upholds s (pokeWords l a n s).2.2 :=
  ⟨by simp, fun h => ⟨by simpa using h.1, pokeWords_wf h.2⟩⟩

/-! ### Resets, the supply sequence and the boot (R67 to R90) -/

@[simp] theorem execPowerOnReset_keeps (strapBoot : Bool) (s : State) : Keeps s (execPowerOnReset strapBoot s) :=
  keeps_guard fun _ => keeps_next.mpr ((resetTo_upholds 0 true s).trans (.of_frame rfl rfl rfl))

@[simp] theorem execKeeperIslandReset_keeps (s : State) : Keeps s (execKeeperIslandReset s) :=
  keeps_guard fun _ => keeps_next.mpr ((resetTo_upholds 0 true s).trans (.of_frame rfl rfl rfl))

@[simp] theorem execResetNAssert_keeps (s : State) : Keeps s (execResetNAssert s) := by
  unfold execResetNAssert
  refine keeps_guard fun _ => keeps_ite.mpr ⟨fun _ => ?_, fun _ => by simp [upholds_iff]⟩
  exact keeps_next.mpr ((resetTo_upholds 1 false s).trans (.of_frame rfl rfl rfl))

@[simp] theorem execResetNRelease_keeps (strapBoot : Bool) (s : State) : Keeps s (execResetNRelease strapBoot s) := by
  simp [execResetNRelease, upholds_iff]

@[simp] theorem execWatchdogExpiry_keeps (s : State) : Keeps s (execWatchdogExpiry s) :=
  keeps_guard fun _ => keeps_next.mpr ((resetTo_upholds 2 false s).trans (startSequence_upholds _))

@[simp] theorem execKeeperPllLock_keeps (s : State) : Keeps s (execKeeperPllLock s) := by simp [execKeeperPllLock, upholds_iff]

@[simp] theorem execPwrPgHigh_keeps (strapTwin : Bool) (strapDrv : Nat) (s : State) : Keeps s (execPwrPgHigh strapTwin strapDrv s) := by
  simp [execPwrPgHigh, upholds_iff]

@[simp] theorem execPgTimeout_keeps (s : State) : Keeps s (execPgTimeout s) := by simp [execPgTimeout, upholds_iff]

@[simp] theorem execPgLost_keeps (s : State) : Keeps s (execPgLost s) := by simp [execPgLost, upholds_iff]

@[simp] theorem execSequenceRetry_keeps (s : State) : Keeps s (execSequenceRetry s) := by simp [execSequenceRetry, upholds_iff]

@[simp] theorem execRomBankSelect_keeps (sfdp : Option Nat) (s0 : State) : Keeps s0 (execRomBankSelect sfdp s0) := by
  unfold execRomBankSelect
  (repeat' split) <;> simp [upholds_iff]

theorem fallbackRecord_upholds (bankB : Bool) (s : State) : Upholds s (fallbackRecord bankB s) := by simp [upholds_iff]

@[simp] theorem execFirmwareStart_keeps (s : State) : Keeps s (execFirmwareStart s) := by
  unfold execFirmwareStart
  refine keeps_guard fun _ => keeps_ite.mpr ⟨fun _ => ?_, fun _ => by simp [upholds_iff]⟩
  exact keeps_next.mpr (Upholds.trans (Upholds.trans (by simp [upholds_iff]) (startImage_upholds ..)) (fallbackRecord_upholds ..))

@[simp] theorem execMediaPllLock_keeps (s : State) : Keeps s (execMediaPllLock s) := by simp [execMediaPllLock, upholds_iff]

@[simp] theorem execDsdBringup_keeps (d : Nat) (vdrv : Rat) (trim link sref : Bool) (ntcOhm : Rat) (s : State) :
    Keeps s (execDsdBringup d vdrv trim link sref ntcOhm s) := by
  simp [execDsdBringup, upholds_iff]

@[simp] theorem execKeeperHalt_keeps (s : State) : Keeps s (execKeeperHalt s) := by simp [execKeeperHalt, upholds_iff]

@[simp] theorem execHeartbeat_keeps (s : State) : Keeps s (execHeartbeat s) := by simp [execHeartbeat, upholds_iff]

/-! ### The input bus and the wake (R58 to R66, R78 to R82) -/

@[simp] theorem execBusWarn_keeps (v : Rat) (s : State) : Keeps s (execBusWarn v s) := by simp [execBusWarn, upholds_iff]

@[simp] theorem execBrownoutSilent_keeps (s : State) : Keeps s (execBrownoutSilent s) := by simp [execBrownoutSilent, upholds_iff]

@[simp] theorem execLastRecord_keeps (logFails lifeFails : Nat) (s : State) : Keeps s (execLastRecord logFails lifeFails s) := by
  simp [execLastRecord, upholds_iff]

@[simp] theorem execBusDip_keeps (v : Rat) (s : State) : Keeps s (execBusDip v s) := by simp [execBusDip, upholds_iff]

@[simp] theorem execBusRecovery_keeps (s : State) : Keeps s (execBusRecovery s) := by simp [execBusRecovery, upholds_iff]

@[simp] theorem execBusOv_keeps (s : State) : Keeps s (execBusOv s) := by simp [execBusOv, upholds_iff]

@[simp] theorem execOverVoltageClear_keeps (s : State) : Keeps s (execOverVoltageClear s) := by simp [execOverVoltageClear, upholds_iff]

@[simp] theorem execBusOvLong_keeps (s : State) : Keeps s (execBusOvLong s) := by simp [execBusOvLong, upholds_iff]

@[simp] theorem execBusReversed_keeps (s : State) : Keeps s (execBusReversed s) := by simp [execBusReversed, upholds_iff]

@[simp] theorem execReverseCurrentBlock_keeps (s : State) : Keeps s (execReverseCurrentBlock s) := by simp [execReverseCurrentBlock, upholds_iff]

@[simp] theorem execGateRsAboveVbus_keeps (s : State) : Keeps s (execGateRsAboveVbus s) := by simp [execGateRsAboveVbus, upholds_iff]

@[simp] theorem execStandbyWakeTimer_keeps (s : State) : Keeps s (execStandbyWakeTimer s) := by simp [execStandbyWakeTimer, upholds_iff]

@[simp] theorem execWake_keeps (s : State) : Keeps s (execWake s) := by simp [execWake, upholds_iff]

/-! ### The stage and the sensors (R312 to R323, R384) -/

@[simp] theorem execMuteNFiltered_keeps (low : Bool) (ticks : Nat) (s : State) : Keeps s (execMuteNFiltered low ticks s) := by
  simp [execMuteNFiltered, upholds_iff]

@[simp] theorem execEmuteFallStart_keeps (s : State) : Keeps s (execEmuteFallStart s) := by simp [execEmuteFallStart, upholds_iff]

@[simp] theorem execEmuteSilent_keeps (s : State) : Keeps s (execEmuteSilent s) := by simp [execEmuteSilent, upholds_iff]

@[simp] theorem execEmuteRiseStart_keeps (s : State) : Keeps s (execEmuteRiseStart s) := by simp [execEmuteRiseStart, upholds_iff]

@[simp] theorem execZoneNtcSample_keeps (d : Nat) (ohm dieC : Rat) (s : State) : Keeps s (execZoneNtcSample d ohm dieC s) := by
  simp [execZoneNtcSample, upholds_iff]

@[simp] theorem execZoneNtcOpen_keeps (d : Nat) (ohm : Rat) (s : State) : Keeps s (execZoneNtcOpen d ohm s) := by simp [execZoneNtcOpen, upholds_iff]

@[simp] theorem execZoneNtcShort_keeps (d : Nat) (ohm : Rat) (s : State) : Keeps s (execZoneNtcShort d ohm s) := by
  simp [execZoneNtcShort, upholds_iff]

@[simp] theorem execZoneNtcReturn_keeps (d : Nat) (s : State) : Keeps s (execZoneNtcReturn d s) := by simp [execZoneNtcReturn, upholds_iff]

@[simp] theorem execStageShutdown_keeps (d : Nat) (s : State) : Keeps s (execStageShutdown d s) := by simp [execStageShutdown, upholds_iff]

@[simp] theorem execJunctionShutdown_keeps (die : Nat) (tempC : Rat) (s : State) : Keeps s (execJunctionShutdown die tempC s) := by
  simp [execJunctionShutdown, upholds_iff]

@[simp] theorem execJunctionWarn_keeps (die : Nat) (tempC : Rat) (s : State) : Keeps s (execJunctionWarn die tempC s) := by
  simp [execJunctionWarn, upholds_iff]

@[simp] theorem execKeeperSensorSample_keeps (junctions : List Rat) (vbus : Rat) (supplies srefs rings : List Rat) (s : State) :
    Keeps s (execKeeperSensorSample junctions vbus supplies srefs rings s) := by
  simp [execKeeperSensorSample, upholds_iff]

/-! ### The channels (R248 to R275, R299 to R311) -/

@[simp] theorem execChannelStart_keeps (c : Nat) (s : State) : Keeps s (execChannelStart c s) := by simp [execChannelStart, upholds_iff]

@[simp] theorem execSenseOffsetCal_keeps (c : Nat) (vOff iOff : Int) (s : State) : Keeps s (execSenseOffsetCal c vOff iOff s) := by
  simp [execSenseOffsetCal, upholds_iff]

@[simp] theorem execDiagTestComplete_keeps (c : Nat) (r : TestReading) (s : State) : Keeps s (execDiagTestComplete c r s) := by
  unfold execDiagTestComplete
  refine keeps_guard fun _ => ?_
  split <;> simp [upholds_iff]

@[simp] theorem execPolarityCheck_keeps (c : Nat) (vMean iMean : Rat) (s : State) : Keeps s (execPolarityCheck c vMean iMean s) := by
  unfold execPolarityCheck
  refine keeps_guard fun _ => ?_
  split <;> simp [upholds_iff]

@[simp] theorem execPrechargeStart_keeps (c : Nat) (s : State) : Keeps s (execPrechargeStart c s) := by simp [execPrechargeStart, upholds_iff]

@[simp] theorem execPrechargeComplete_keeps (c : Nat) (a b diff : Rat) (caps : List Rat) (s : State) :
    Keeps s (execPrechargeComplete c a b diff caps s) := by
  simp [execPrechargeComplete, upholds_iff]

@[simp] theorem execPrechargeTimeout_keeps (c : Nat) (vsp vsn : Rat) (s : State) : Keeps s (execPrechargeTimeout c vsp vsn s) := by
  simp [execPrechargeTimeout, upholds_iff]

@[simp] theorem execTauMeasured_keeps (c : Nat) (tauNs : Rat) (s : State) : Keeps s (execTauMeasured c tauNs s) := by
  simp [execTauMeasured, upholds_iff]

@[simp] theorem execLoopRange_keeps (c : Nat) (s : State) : Keeps s (execLoopRange c s) := by simp [execLoopRange, upholds_iff]

@[simp] theorem execIdleComplete_keeps (c : Nat) (s : State) : Keeps s (execIdleComplete c s) := by simp [execIdleComplete, upholds_iff]

@[simp] theorem execFcImbalanceTimeout_keeps (c : Nat) (s : State) : Keeps s (execFcImbalanceTimeout c s) := by
  unfold execFcImbalanceTimeout
  (repeat' split) <;> simp [upholds_iff]

@[simp] theorem execEnterRun_keeps (c : Nat) (s : State) : Keeps s (execEnterRun c s) := by simp [execEnterRun, upholds_iff]

@[simp] theorem execMuteEnter_keeps (c : Nat) (s : State) : Keeps s (execMuteEnter c s) := by simp [execMuteEnter, upholds_iff]

@[simp] theorem execSilentStop_keeps (c : Nat) (s : State) : Keeps s (execSilentStop c s) := by
  unfold execSilentStop
  refine keeps_guard fun _ => ?_
  split <;> simp [upholds_iff]

@[simp] theorem execSilentStopGatesOff_keeps (c : Nat) (s : State) : Keeps s (execSilentStopGatesOff c s) := by
  simp [execSilentStopGatesOff, upholds_iff]

@[simp] theorem execSilentStopDischarged_keeps (c : Nat) (nodes : List Rat) (s : State) : Keeps s (execSilentStopDischarged c nodes s) := by
  simp [execSilentStopDischarged, upholds_iff]

@[simp] theorem execSilentStopTimeout_keeps (c : Nat) (vsp vsn : Rat) (s : State) : Keeps s (execSilentStopTimeout c vsp vsn s) := by
  simp [execSilentStopTimeout, upholds_iff]

@[simp] theorem execCdLinkLost_keeps (d : Nat) (s : State) : Keeps s (execCdLinkLost d s) := by simp [execCdLinkLost, upholds_iff]

@[simp] theorem execCdLinkTrained_keeps (d : Nat) (s : State) : Keeps s (execCdLinkTrained d s) := by simp [execCdLinkTrained, upholds_iff]

@[simp] theorem execRetestStart_keeps (c : Nat) (s : State) : Keeps s (execRetestStart c s) := by simp [execRetestStart, upholds_iff]

@[simp] theorem execRetestComplete_keeps (c : Nat) (s : State) : Keeps s (execRetestComplete c s) := by simp [execRetestComplete, upholds_iff]

@[simp] theorem execRelayChange_keeps (c : Nat) (i : Rat) (s : State) : Keeps s (execRelayChange c i s) := by simp [execRelayChange, upholds_iff]

@[simp] theorem execRelayCoilOpen_keeps (c : Nat) (v : Rat) (s : State) : Keeps s (execRelayCoilOpen c v s) := by
  simp [execRelayCoilOpen, upholds_iff]

@[simp] theorem execRelayDrive_keeps (c : Nat) (v : Rat) (s : State) : Keeps s (execRelayDrive c v s) := by simp [execRelayDrive, upholds_iff]

@[simp] theorem execSenseOpenRun_keeps (c : Nat) (a b : List Rat) (s : State) : Keeps s (execSenseOpenRun c a b s) := by
  simp [execSenseOpenRun, upholds_iff]

/-! ### The loop (R245 to R261) -/

@[simp] theorem execLoopComparatorEdge_keeps (c n j : Nat) (v i dtNs : Rat) (s : State) : Keeps s (execLoopComparatorEdge c n j v i dtNs s) := by
  simp [execLoopComparatorEdge, upholds_iff]

@[simp] theorem execSpreadDraw_keeps (c : Nat) (s : State) : Keeps s (execSpreadDraw c s) := by simp [execSpreadDraw, upholds_iff]

@[simp] theorem execDeadtimeAdapt_keeps (c edge early late : Nat) (s : State) : Keeps s (execDeadtimeAdapt c edge early late s) := by
  simp [execDeadtimeAdapt, upholds_iff]

@[simp] theorem execDelayLineCal_keeps (d : Nat) (s : State) : Keeps s (execDelayLineCal d s) := by simp [execDelayLineCal, upholds_iff]

@[simp] theorem execCurrentLimitTrip_keeps (c : Nat) (aToB newCycle consecutive fell dropped : Bool) (s : State) :
    Keeps s (execCurrentLimitTrip c aToB newCycle consecutive fell dropped s) := by
  simp [execCurrentLimitTrip, upholds_iff]

@[simp] theorem execDropTrip_keeps (c : Nat) (aToB newCycle consecutive : Bool) (s : State) :
    Keeps s (execDropTrip c aToB newCycle consecutive s) := by
  simp [execDropTrip, upholds_iff]

@[simp] theorem execReverseStateRelease_keeps (c : Nat) (s : State) : Keeps s (execReverseStateRelease c s) := by
  simp [execReverseStateRelease, upholds_iff]

@[simp] theorem execLoopStall_keeps (c : Nat) (s : State) : Keeps s (execLoopStall c s) := by simp [execLoopStall, upholds_iff]

/-! ### Ageing (R400 to R402) -/

@[simp] theorem execAgeingEvaluation_keeps (q inst : Nat) (median cap : Rat) (s : State) : Keeps s (execAgeingEvaluation q inst median cap s) := by
  simp [execAgeingEvaluation, upholds_iff]

@[simp] theorem execReplanSecondWrite_keeps (c : Nat) (s : State) : Keeps s (execReplanSecondWrite c s) := by
  unfold execReplanSecondWrite
  dsimp only
  split <;> simp [upholds_iff]

/-! ### Streams (R143 to R157) -/

@[simp] theorem execStreamPacket_keeps (port : Nat) (s : State) : Keeps s (execStreamPacket port s) := by
  unfold execStreamPacket
  (repeat' split) <;> simp [upholds_iff]

@[simp] theorem execStreamMissing_keeps (st : Nat) (s : State) : Keeps s (execStreamMissing st s) := by
  unfold execStreamMissing
  (repeat' split) <;> simp [upholds_iff]

@[simp] theorem execStreamReentry_keeps (st : Nat) (s : State) : Keeps s (execStreamReentry st s) := by simp [execStreamReentry, upholds_iff]

@[simp] theorem execStreamOverrun_keeps (st : Nat) (s : State) : Keeps s (execStreamOverrun st s) := by
  unfold execStreamOverrun
  dsimp only
  cases (s.stream st).overrun with
  | none => exact keeps_idle s
  | some excess => simp [upholds_iff]

@[simp] theorem execPathSkew_keeps (st : Nat) (s : State) : Keeps s (execPathSkew st s) := by simp [execPathSkew, upholds_iff]

@[simp] theorem execPathLost_keeps (st side : Nat) (recovered : Bool) (s : State) : Keeps s (execPathLost st side recovered s) := by
  simp [execPathLost, upholds_iff]

/-! ### The network (R137 to R166) -/

theorem route_upholds (port : Nat) (f : List Byte) (tick : Nat) (s : State) : Upholds s (route port f tick s) := by
  unfold route
  dsimp only
  (repeat' split) <;> simp [upholds_iff]

@[simp] theorem execNetworkFrame_keeps (port : Nat) (frame : List Byte) (fcsOk : Bool) (tick : Nat) (s : State) :
    Keeps s (execNetworkFrame port frame fcsOk tick s) := by
  unfold execNetworkFrame
  refine keeps_guard fun _ => ?_
  split
  · simp [upholds_iff]
  split
  · simp [upholds_iff]
  refine keeps_ite.mpr ⟨fun _ => by simp [upholds_iff], fun _ => ?_⟩
  split
  · simp [upholds_iff]
  · exact keeps_next.mpr (Upholds.trans (by simp [upholds_iff]) (route_upholds ..))

@[simp] theorem execLinkUp_keeps (port : Nat) (s : State) : Keeps s (execLinkUp port s) := by simp [execLinkUp, upholds_iff]

@[simp] theorem execLinkDown_keeps (port : Nat) (s : State) : Keeps s (execLinkDown port s) := by simp [execLinkDown, upholds_iff]

@[simp] theorem execModuleAbsent_keeps (port : Nat) (s : State) : Keeps s (execModuleAbsent port s) := by simp [execModuleAbsent, upholds_iff]

@[simp] theorem execModulePresent_keeps (port : Nat) (s : State) : Keeps s (execModulePresent port s) := by simp [execModulePresent, upholds_iff]

@[simp] theorem execNmLinkUp_keeps (mbps : Nat) (fullDuplex : Bool) (s : State) : Keeps s (execNmLinkUp mbps fullDuplex s) := by
  simp [execNmLinkUp, upholds_iff]

@[simp] theorem execNmLinkDown_keeps (s : State) : Keeps s (execNmLinkDown s) := by simp [execNmLinkDown, upholds_iff]

@[simp] theorem execIgmpReport_keeps (port : Nat) (s : State) : Keeps s (execIgmpReport port s) := by simp [execIgmpReport, upholds_iff]

@[simp] theorem execIgmpQuery_keeps (port version group : Nat) (s : State) : Keeps s (execIgmpQuery port version group s) := by
  simp [execIgmpQuery, upholds_iff]

@[simp] theorem execKeeperFrame_keeps (ring : Nat) (frame : List Byte) (fcsOk : Bool) (s : State) :
    Keeps s (execKeeperFrame ring frame fcsOk s) := by
  unfold execKeeperFrame
  split
  · split
    · exact keeps_idle s
    · exact keeps_next.mpr (Upholds.trans (by simp [upholds_iff]) (keeperTakes_upholds ..))
  · refine keeps_guard fun _ => ?_
    split
    · exact keeps_next.mpr (keeperTakes_upholds ..)
    · exact keeps_next.mpr (Upholds.trans (by simp [upholds_iff]) (keeperTakes_upholds ..))

theorem wakeTakes_upholds (frame : List Byte) (s : State) : Upholds s (wakeTakes frame s) :=
  (fillRing_upholds 2 frame false s).trans (by simp [wakeTakes, upholds_iff])

@[simp] theorem execNmFrame_keeps (frame : List Byte) (fcsOk : Bool) (s : State) : Keeps s (execNmFrame frame fcsOk s) := by
  unfold execNmFrame
  refine keeps_guard fun _ => ?_
  split
  · exact keeps_next.mpr (Upholds.trans (by simp [upholds_iff]) (keeperTakes_upholds ..))
  split
  · exact keeps_next.mpr (wakeTakes_upholds frame s)
  split
  · exact keeps_next.mpr (Upholds.trans (by simp [upholds_iff]) (keeperTakes_upholds ..))
  · simp [upholds_iff]

@[simp] theorem execWakePatternMatch_keeps (frame : List Byte) (fcsOk : Bool) (s : State) : Keeps s (execWakePatternMatch frame fcsOk s) :=
  keeps_guard fun _ => keeps_next.mpr (wakeTakes_upholds frame s)

@[simp] theorem execMonitorPacket_keeps (j : Nat) (s : State) : Keeps s (execMonitorPacket j s) := by
  unfold execMonitorPacket
  refine keeps_guard fun _ => ?_
  split <;> simp [upholds_iff]

@[simp] theorem execConfigLoad_keeps (s : State) : Keeps s (execConfigLoad s) := by simp [execConfigLoad, upholds_iff]

@[simp] theorem execMailboxReady_keeps (s : State) : Keeps s (execMailboxReady s) := by
  unfold execMailboxReady
  refine keeps_ite.mpr ⟨fun _ => keeps_idle s, fun _ => keeps_ite.mpr ⟨fun _ => ?_, fun _ => keeps_guard fun _ => ?_⟩⟩
  · (repeat' split) <;> simp [upholds_iff]
  · refine keeps_next.mpr (Upholds.trans ?_ (serveRing_upholds 2 _))
    (repeat' split) <;> simp [upholds_iff]

@[simp] theorem execKeeperResume_keeps (s : State) : Keeps s (execKeeperResume s) := by
  unfold execKeeperResume
  refine keeps_guard fun _ => keeps_next.mpr (Upholds.trans ?_ (.forUnits (fun p u => ?_) 3 _))
  · simp [upholds_iff]
  · exact Upholds.trans (by simp [upholds_iff]) (serveRing_upholds p _)

end Sys2Proof.Machine
end

section
/-! PROOFS. What every command leaves standing, second half: the rows of the generators, the rails, the media clock, commits, the SPI window, the
mailbox, the DSP window, the models, tests, the store, the twin and updates; then a step as a whole (R86, R87, R98, R385). -/

namespace Sys2Proof.Machine

/-! ### Generators and the feeder (R276 to R304) -/

@[simp] theorem execFaultNTrip_keeps (inp ticks : Nat) (s : State) : Keeps s (execFaultNTrip inp ticks s) := by simp [execFaultNTrip, upholds_iff]

@[simp] theorem execFaultNRelease_keeps (inp : Nat) (s : State) : Keeps s (execFaultNRelease inp s) := by simp [execFaultNRelease, upholds_iff]

@[simp] theorem execLoadAll_keeps (v : Word) (s : State) : Keeps s (execLoadAll v s) := by simp [execLoadAll, upholds_iff]

@[simp] theorem execMaskStep_keeps (k : Nat) (s : State) : Keeps s (execMaskStep k s) := by simp [execMaskStep, upholds_iff]

@[simp] theorem execPwmBoundary_keeps (s : State) : Keeps s (execPwmBoundary s) := by simp [execPwmBoundary, upholds_iff]

@[simp] theorem execFeederPeriod_keeps (k : Nat) (s : State) : Keeps s (execFeederPeriod k s) := by simp [execFeederPeriod, upholds_iff]

@[simp] theorem execTrigMatch_keeps (k j : Nat) (v1 v2 i : Rat) (s : State) : Keeps s (execTrigMatch k j v1 v2 i s) := by
  unfold execTrigMatch
  (repeat' split) <;> simp [upholds_iff]

@[simp] theorem execCellCheck_keeps (c : Nat) (drops slopes : List Rat) (s : State) : Keeps s (execCellCheck c drops slopes s) := by
  unfold execCellCheck
  refine keeps_guard fun _ => ?_
  split
  · simp [upholds_iff]
  refine keeps_ite.mpr ⟨fun _ => by simp [upholds_iff], fun _ => ?_⟩
  split <;> simp [upholds_iff]

@[simp] theorem execFeedUnderrun_keeps (c : Nat) (s : State) : Keeps s (execFeedUnderrun c s) := by simp [execFeedUnderrun, upholds_iff]

@[simp] theorem execFeedResume_keeps (c : Nat) (s : State) : Keeps s (execFeedResume c s) := by simp [execFeedResume, upholds_iff]

/-! ### The rails (R329 to R354) -/

@[simp] theorem execRselFilterRail_keeps (row us : Nat) (s : State) : Keeps s (execRselFilterRail row us s) := by
  simp [execRselFilterRail, upholds_iff]

@[simp] theorem execRselFilterDsp_keeps (row us : Nat) (s : State) : Keeps s (execRselFilterDsp row us s) := by simp [execRselFilterDsp, upholds_iff]

@[simp] theorem execCeilingTermsRefresh_keeps (rc : Nat) (vRail : Rat) (s : State) : Keeps s (execCeilingTermsRefresh rc vRail s) := by
  simp [execCeilingTermsRefresh, upholds_iff]

@[simp] theorem execKeeperCeilingWrite_keeps (rc row : Nat) (s : State) : Keeps s (execKeeperCeilingWrite rc row s) := by
  simp [execKeeperCeilingWrite, upholds_iff]

@[simp] theorem execCKeeperSecondWrite_keeps (rc : Nat) (s : State) : Keeps s (execCKeeperSecondWrite rc s) := by
  simp [execCKeeperSecondWrite, upholds_iff]

@[simp] theorem execRailSelectionApply_keeps (rc : Nat) (s : State) : Keeps s (execRailSelectionApply rc s) := by
  simp [execRailSelectionApply, upholds_iff]

@[simp] theorem execRailStart_keeps (rc : Nat) (s : State) : Keeps s (execRailStart rc s) := by simp [execRailStart, upholds_iff]

@[simp] theorem execVinEntersRange_keeps (rc : Nat) (vIn : Rat) (s : State) : Keeps s (execVinEntersRange rc vIn s) := by
  simp [execVinEntersRange, upholds_iff]

@[simp] theorem execRailPrecheck_keeps (rc : Nat) (isx vis vos rise : Rat) (s : State) : Keeps s (execRailPrecheck rc isx vis vos rise s) := by
  simp [execRailPrecheck, upholds_iff]

@[simp] theorem execRailRegulating_keeps (rc : Nat) (vOut ms : Rat) (s : State) : Keeps s (execRailRegulating rc vOut ms s) := by
  simp [execRailRegulating, upholds_iff]

@[simp] theorem execStartShort_keeps (rc : Nat) (vOut ms : Rat) (s : State) : Keeps s (execStartShort rc vOut ms s) := by
  simp [execStartShort, upholds_iff]

@[simp] theorem execStartTimeout_keeps (rc : Nat) (vOut ms : Rat) (s : State) : Keeps s (execStartTimeout rc vOut ms s) := by
  simp [execStartTimeout, upholds_iff]

@[simp] theorem execRailRetry_keeps (rc : Nat) (s : State) : Keeps s (execRailRetry rc s) := by simp [execRailRetry, upholds_iff]

@[simp] theorem execRailChargeStart_keeps (rc : Nat) (vIn vOut i offNs sinceNs : Rat) (s : State) :
    Keeps s (execRailChargeStart rc vIn vOut i offNs sinceNs s) := by
  simp [execRailChargeStart, upholds_iff]

@[simp] theorem execRailLimitTrip_keeps (rc : Nat) (phaseB : Bool) (mv ns : Rat) (s : State) : Keeps s (execRailLimitTrip rc phaseB mv ns s) := by
  simp [execRailLimitTrip, upholds_iff]

@[simp] theorem execRailSag_keeps (rc : Nat) (vOut : Rat) (s : State) : Keeps s (execRailSag rc vOut s) := by simp [execRailSag, upholds_iff]

@[simp] theorem execRailOv_keeps (rc : Nat) (vOut : Rat) (s : State) : Keeps s (execRailOv rc vOut s) := by simp [execRailOv, upholds_iff]

@[simp] theorem execRailStop_keeps (rc : Nat) (s : State) : Keeps s (execRailStop rc s) := by simp [execRailStop, upholds_iff]

@[simp] theorem execPhaseOpen_keeps (rc : Nat) (phaseB : Bool) (iA iB : Rat) (s : State) : Keeps s (execPhaseOpen rc phaseB iA iB s) := by
  simp [execPhaseOpen, upholds_iff]

@[simp] theorem execPhaseSenseFailed_keeps (rc : Nat) (phaseB : Bool) (sensed : Rat) (s : State) :
    Keeps s (execPhaseSenseFailed rc phaseB sensed s) := by
  simp [execPhaseSenseFailed, upholds_iff]

@[simp] theorem execRcNtcSample_keeps (rc : Nat) (ohm : Rat) (s : State) : Keeps s (execRcNtcSample rc ohm s) := by
  simp [execRcNtcSample, upholds_iff]

@[simp] theorem execRcOvertemp_keeps (rc : Nat) (s : State) : Keeps s (execRcOvertemp rc s) := by simp [execRcOvertemp, upholds_iff]

@[simp] theorem execRcOvertempRestart_keeps (rc : Nat) (s : State) : Keeps s (execRcOvertempRestart rc s) := by
  simp [execRcOvertempRestart, upholds_iff]

@[simp] theorem execSyncAcquired_keeps (us : List Rat) (s : State) : Keeps s (execSyncAcquired us s) := by simp [execSyncAcquired, upholds_iff]

@[simp] theorem execSyncLost_keeps (last gap : Rat) (edge : Bool) (s : State) : Keeps s (execSyncLost last gap edge s) := by
  simp [execSyncLost, upholds_iff]

@[simp] theorem execRailSpreadDraw_keeps (rc : Nat) (s : State) : Keeps s (execRailSpreadDraw rc s) := by simp [execRailSpreadDraw, upholds_iff]

@[simp] theorem execTelemetryRefresh_keeps (rc : Nat) (vIn vOut iA iB fA fB pOut : Rat) (held : List Rat) (oneSecond : Bool) (s : State) :
    Keeps s (execTelemetryRefresh rc vIn vOut iA iB fA fB pOut held oneSecond s) := by
  simp [execTelemetryRefresh, upholds_iff]

/-! ### PTP (R160 to R168) -/

@[simp] theorem execPtpAnnounce_keeps (port : Nat) (a : Announce) (at_ : Nat) (s : State) : Keeps s (execPtpAnnounce port a at_ s) := by
  simp [execPtpAnnounce, upholds_iff]

@[simp] theorem execPtpSync_keeps (port : Nat) (deltaNs : Rat) (logInterval : Int) (at_ : Nat) (s : State) :
    Keeps s (execPtpSync port deltaNs logInterval at_ s) := by
  simp [execPtpSync, upholds_iff]

@[simp] theorem execPtpDelayResponse_keeps (port : Nat) (delayNs : Rat) (s : State) : Keeps s (execPtpDelayResponse port delayNs s) := by
  simp [execPtpDelayResponse, upholds_iff]

@[simp] theorem execPtpDelayReqSend_keeps (port : Nat) (s : State) : Keeps s (execPtpDelayReqSend port s) := by
  simp [execPtpDelayReqSend, upholds_iff]

@[simp] theorem execPtpHoldover_keeps (at_ : Nat) (s : State) : Keeps s (execPtpHoldover at_ s) := by
  unfold execPtpHoldover
  refine keeps_guard fun _ => ?_
  dsimp only
  split <;> simp [upholds_iff]

@[simp] theorem execPtpNoMaster_keeps (s : State) : Keeps s (execPtpNoMaster s) := by simp [execPtpNoMaster, upholds_iff]

@[simp] theorem execPtpLocked_keeps (at_ : Nat) (s : State) : Keeps s (execPtpLocked at_ s) := by simp [execPtpLocked, upholds_iff]

/-! ### The media clock and TDM (R172 to R193) -/

@[simp] theorem execTimeMediaPair_keeps (ptpNs tick : Nat) (s : State) : Keeps s (execTimeMediaPair ptpNs tick s) := by
  simp [execTimeMediaPair, upholds_iff]

@[simp] theorem execMclkUpdate_keeps (s : State) : Keeps s (execMclkUpdate s) := by
  unfold execMclkUpdate
  refine keeps_guard fun _ => ?_
  split
  · simp [upholds_iff]
  · simp [upholds_iff]
  · simp [upholds_iff]
  · split <;> simp [upholds_iff]

@[simp] theorem execMclkHoldoverAlarm_keeps (s : State) : Keeps s (execMclkHoldoverAlarm s) := by simp [execMclkHoldoverAlarm, upholds_iff]

@[simp] theorem execMclkSteerLimit_keeps (s : State) : Keeps s (execMclkSteerLimit s) := by simp [execMclkSteerLimit, upholds_iff]

@[simp] theorem execMediaStepStart_keeps (s : State) : Keeps s (execMediaStepStart s) := by simp [execMediaStepStart, upholds_iff]

@[simp] theorem execMediaStepHalt_keeps (s : State) : Keeps s (execMediaStepHalt s) := by
  unfold execMediaStepHalt
  (repeat' split) <;> simp [upholds_iff]

@[simp] theorem execMediaStepResume_keeps (ptpNs : Nat) (s : State) : Keeps s (execMediaStepResume ptpNs s) := by
  simp [execMediaStepResume, upholds_iff]

@[simp] theorem execTdmFrame_keeps (x : Nat) (wave : List TdmBit) (period tick : Nat) (s : State) : Keeps s (execTdmFrame x wave period tick s) := by
  unfold execTdmFrame
  dsimp only
  split <;> simp [upholds_iff]

@[simp] theorem execTdmClockLost_keeps (x : Nat) (s : State) : Keeps s (execTdmClockLost x s) := by simp [execTdmClockLost, upholds_iff]

@[simp] theorem execTdmRateCheck_keeps (x : Nat) (rateHz : Rat) (s : State) : Keeps s (execTdmRateCheck x rateHz s) := by
  simp [execTdmRateCheck, upholds_iff]

/-! ### Commits (R126 to R136) -/

@[simp] theorem execUnitArm_keeps (s : State) : Keeps s (execUnitArm s) := by
  unfold execUnitArm
  (repeat' split) <;> simp [upholds_iff]

@[simp] theorem execUnitSwitch_keeps (s : State) : Keeps s (execUnitSwitch s) := by
  unfold execUnitSwitch
  (repeat' split) <;> simp [upholds_iff]

@[simp] theorem execCrossfadeEnd_keeps (c : Nat) (s : State) : Keeps s (execCrossfadeEnd c s) := by
  unfold execCrossfadeEnd
  (repeat' split) <;> simp [upholds_iff]

@[simp] theorem execCommitDone_keeps (s : State) : Keeps s (execCommitDone s) := by
  unfold execCommitDone
  (repeat' split) <;> simp [upholds_iff]

@[simp] theorem execCfgStore_keeps (verifyOk : Bool) (s : State) : Keeps s (execCfgStore verifyOk s) := by
  unfold execCfgStore
  (repeat' split) <;> simp [upholds_iff]

/-! ### The SPI window (R84 to R103) -/

@[simp] theorem execSpiUnknownInstruction_keeps (_op : Byte) (s : State) : Keeps s (execSpiUnknownInstruction _op s) := by
  simp [execSpiUnknownInstruction, upholds_iff]

@[simp] theorem execSpiWriteUnmapped_keeps (_addr : Nat) (_b : Byte) (s : State) : Keeps s (execSpiWriteUnmapped _addr _b s) := by
  simp [execSpiWriteUnmapped, upholds_iff]

@[simp] theorem execDoorbell_keeps (v : Word) (s : State) : Keeps s (execDoorbell v s) := by simp [execDoorbell, upholds_iff]

@[simp] theorem execRspReadyRelease_keeps (v : Word) (s : State) : Keeps s (execRspReadyRelease v s) := by simp [execRspReadyRelease, upholds_iff]

theorem deliverSpi_upholds (i : Nat) (f : List Byte) (s : State) : Upholds s (deliverSpi i f s) :=
  ⟨by simp, fun h => ⟨deliverSpi_wf h.1, by simpa using h.2⟩⟩

@[simp] theorem execHeldResponseWrite_keeps (i : Nat) (s : State) : Keeps s (execHeldResponseWrite i s) := by
  unfold execHeldResponseWrite
  split
  case h_1 h _ =>
    have hout : Upholds s (deliverSpi i h.2 { s with spi := { s.spi with held := s.spi.held.erase h } }) :=
      Upholds.trans (.of_frame rfl rfl rfl) (deliverSpi_upholds i h.2 _)
    exact keeps_guard fun _ => keeps_next.mpr (.ite (hout.trans (commandReset_upholds _)) hout)
  case h_2 => exact keeps_idle s

@[simp] theorem execIrqStatusClear_keeps (v : Word) (s : State) : Keeps s (execIrqStatusClear v s) := by simp [execIrqStatusClear, upholds_iff]

@[simp] theorem execEmuteRegisterWrite_keeps (v : Word) (s : State) : Keeps s (execEmuteRegisterWrite v s) := by
  simp [execEmuteRegisterWrite, upholds_iff]

@[simp] theorem execImagePortWrite_keeps (b : Byte) (s : State) : Keeps s (execImagePortWrite b s) := by simp [execImagePortWrite, upholds_iff]

@[simp] theorem execImgClear_keeps (s : State) : Keeps s (execImgClear s) := by simp [execImgClear, upholds_iff]

@[simp] theorem execImgGo_keeps (s : State) : Keeps s (execImgGo s) := keeps_guard fun _ => keeps_next.mpr (goImage_upholds s)

theorem clearImage_upholds (s : State) : Upholds s (clearImage s) := by simp [upholds_iff]

@[simp] theorem execRegisterWrite_keeps (off n : Nat) (v : Word) (s : State) : Keeps s (execRegisterWrite off n v s) := by
  unfold execRegisterWrite
  refine keeps_ite.mpr ⟨fun _ => keeps_idle s, fun _ => keeps_ite.mpr ⟨fun _ => by simp [upholds_iff], fun _ => ?_⟩⟩
  split
  case h_6 =>
    have hclear : Upholds s (if v.getLsbD 1 then clearImage s else s) := .ite (clearImage_upholds s) (.refl s)
    exact keeps_next.mpr (.ite (hclear.trans (goImage_upholds _)) hclear)
  all_goals simp [upholds_iff]

@[simp] theorem execMailboxByteWrite_keeps (addr : Nat) (b : Byte) (s : State) : Keeps s (execMailboxByteWrite addr b s) :=
  keeps_guard fun _ => keeps_next.mpr ⟨rfl, fun h => ⟨SMap.put_wf h.1, h.2⟩⟩

@[simp] theorem execSpiErrRead_keeps (n : Nat) (s : State) : Keeps s (execSpiErrRead n s) := by simp [execSpiErrRead, upholds_iff]

@[simp] theorem execHostDatagram_keeps (addr port dst dport : Nat) (payload : List Byte) (s : State) :
    Keeps s (execHostDatagram addr port dst dport payload s) :=
  keeps_next.mpr (hostTake_upholds ..)

/-! ### Mailbox commands (R93 to R112) -/

@[simp] theorem execNop_keeps (i : Nat) (s : State) : Keeps s (execNop i s) := serve_keeps (fun _ t => (Upholds.refl t).reply ..) i _ s

@[simp] theorem execGetInfo_keeps (i : Nat) (s : State) : Keeps s (execGetInfo i s) := serve_keeps (fun _ t => (Upholds.refl t).reply ..) i _ s

@[simp] theorem execRun_keeps (i : Nat) (s : State) : Keeps s (execRun i s) :=
  serve_keeps (fun _ t => Upholds.reply (by simp [upholds_iff]) ..) i _ s

@[simp] theorem execStop_keeps (i : Nat) (s : State) : Keeps s (execStop i s) :=
  serve_keeps (fun _ t => Upholds.reply (by simp [upholds_iff]) ..) i _ s

theorem askStandby_upholds (s : State) : Upholds s (askStandby s) := by simp [upholds_iff]

@[simp] theorem execStandby_keeps (i : Nat) (s : State) : Keeps s (execStandby i s) :=
  serve_keeps (fun _ t => ((Upholds.refl t).reply ..).trans (askStandby_upholds _)) i _ s

@[simp] theorem execReset_keeps (i : Nat) (s : State) : Keeps s (execReset i s) :=
  serve_keeps (fun _ t => ((Upholds.refl t).reply ..).trans (resetAfter_upholds i _)) i _ s

@[simp] theorem execClearFault_keeps (i : Nat) (s : State) : Keeps s (execClearFault i s) :=
  serve_keeps (fun _ t => .ite ((Upholds.refl t).reply ..) (Upholds.reply (by simp [upholds_iff]) ..)) i _ s

@[simp] theorem execEmute_keeps (i : Nat) (s : State) : Keeps s (execEmute i s) :=
  serve_keeps (fun _ t => .ite ((Upholds.refl t).reply ..) (Upholds.reply (by simp [upholds_iff]) ..)) i _ s

@[simp] theorem execSetParam_keeps (i : Nat) (s : State) : Keeps s (execSetParam i s) :=
  serve_keeps (fun _ t => .ite ((Upholds.refl t).reply ..) (Upholds.reply (by simp [upholds_iff]) ..)) i _ s

@[simp] theorem execGetParam_keeps (i : Nat) (s : State) : Keeps s (execGetParam i s) :=
  serve_keeps (fun _ t => .ite ((Upholds.refl t).reply ..) (Upholds.reply (by simp [upholds_iff]) ..)) i _ s

@[simp] theorem execWriteBlock_keeps (i : Nat) (s : State) : Keeps s (execWriteBlock i s) := by
  refine serve_keeps (fun _ t => ?_) i _ s
  dsimp only
  split
  · exact (Upholds.refl t).reply ..
  · exact .ite ((Upholds.refl t).reply ..) (.ite ((Upholds.refl t).reply ..) (Upholds.reply (by simp [upholds_iff]) ..))

@[simp] theorem execReadBlock_keeps (i : Nat) (s : State) : Keeps s (execReadBlock i s) := by
  refine serve_keeps (fun _ t => .ite ((Upholds.refl t).reply ..) ?_) i _ s
  split
  · exact (Upholds.refl t).reply ..
  · exact .ite ((Upholds.refl t).reply ..) (.ite ((Upholds.refl t).reply ..) ((Upholds.refl t).reply ..))

@[simp] theorem execCommit_keeps (i : Nat) (s : State) : Keeps s (execCommit i s) := by
  refine serve_keeps (fun _ t => .ite ((Upholds.refl t).reply ..) (.ite ((Upholds.refl t).reply ..) ?_)) i _ s
  split <;> exact Upholds.reply (by simp [upholds_iff]) ..

@[simp] theorem execDiscard_keeps (i : Nat) (s : State) : Keeps s (execDiscard i s) :=
  serve_keeps (fun _ t => Upholds.reply (by simp [upholds_iff]) ..) i _ s

@[simp] theorem execGetEvents_keeps (i : Nat) (s : State) : Keeps s (execGetEvents i s) :=
  serve_keeps (fun _ t => .ite ((Upholds.refl t).reply ..) (Upholds.reply (by simp [upholds_iff]) ..)) i _ s

@[simp] theorem execPeek_keeps (i : Nat) (s : State) : Keeps s (execPeek i s) :=
  serve_keeps (fun _ t => .ite ((Upholds.refl t).reply ..) (.ite ((Upholds.refl t).reply ..) (Upholds.reply (by simp [upholds_iff]) ..))) i _ s

theorem xbarError_upholds (ok : Bool) (s : State) : Upholds s (xbarError ok s) := by simp [upholds_iff]

@[simp] theorem execPoke_keeps (i : Nat) (s : State) : Keeps s (execPoke i s) :=
  serve_keeps (fun _ t => .ite ((Upholds.refl t).reply ..) (.ite ((Upholds.refl t).reply ..)
    (((pokeWords_upholds ..).trans (xbarError_upholds ..)).reply ..))) i _ s

/-! ### The DSP window (R208) -/

@[simp] theorem execDspWindow_keeps (pairs : List SensePair) (s0 : State) : Keeps s0 (execDspWindow pairs s0) := by simp [execDspWindow, upholds_iff]

/-! ### The loudspeaker models (R217 to R237) -/

@[simp] theorem execPilotWindow_keeps (c : Nat) (p : PilotReading) (s : State) : Keeps s (execPilotWindow c p s) := by
  simp [execPilotWindow, upholds_iff]

@[simp] theorem execReStale_keeps (c : Nat) (s : State) : Keeps s (execReStale c s) := by simp [execReStale, upholds_iff]

@[simp] theorem execModelRecordStore_keeps (s : State) : Keeps s (execModelRecordStore s) := by simp [execModelRecordStore, upholds_iff]

@[simp] theorem execLateReseed_keeps (c : Nat) (s : State) : Keeps s (execLateReseed c s) := by
  unfold execLateReseed
  dsimp only
  split
  · refine keeps_guard fun _ => ?_
    split <;> simp [upholds_iff]
  · exact keeps_idle s

@[simp] theorem execFoldbackEpisodeEnd_keeps (c : Nat) (magnet : Bool) (s : State) : Keeps s (execFoldbackEpisodeEnd c magnet s) := by
  simp [execFoldbackEpisodeEnd, upholds_iff]

/-! ### Requested tests (R406 to R408) -/

@[simp] theorem execSelfTest_keeps (i : Nat) (s : State) : Keeps s (execSelfTest i s) :=
  serve_keeps (fun _ t => .ite (Upholds.reply (by simp [upholds_iff]) ..) ((Upholds.refl t).reply ..)) i _ s

@[simp] theorem execGetTestResult_keeps (i : Nat) (s : State) : Keeps s (execGetTestResult i s) := by
  refine serve_keeps (fun _ t => ?_) i _ s
  dsimp only
  split <;> exact (Upholds.refl t).reply ..

@[simp] theorem execSelfTestDone_keeps (ticket _state code : Nat) (values : List Byte) (s : State) : Keeps s (execSelfTestDone ticket _state code values s) := by
  unfold execSelfTestDone
  (repeat' split) <;> simp [upholds_iff]

/-! ### Status -/

@[simp] theorem execStatusRefresh_keeps (s : State) : Keeps s (execStatusRefresh s) := by simp [execStatusRefresh, upholds_iff]

/-! ### The store (R394 to R399) -/

@[simp] theorem execLogFlush_keeps (s : State) : Keeps s (execLogFlush s) := by simp [execLogFlush, upholds_iff]

@[simp] theorem execRecordWrite_keeps (lifetime : Bool) (readBack : Nat) (s : State) : Keeps s (execRecordWrite lifetime readBack s) := by
  unfold execRecordWrite
  (repeat' split) <;> simp [upholds_iff]

@[simp] theorem execSectorErase_keeps (lifetime ok : Bool) (s : State) : Keeps s (execSectorErase lifetime ok s) := by
  simp [execSectorErase, upholds_iff]

@[simp] theorem execSnapshot_keeps (s : State) : Keeps s (execSnapshot s) := by simp [execSnapshot, upholds_iff]

@[simp] theorem execInjectReorderRelease_keeps (inj : Nat) (s : State) : Keeps s (execInjectReorderRelease inj s) := by
  unfold execInjectReorderRelease
  (repeat' split) <;> simp [upholds_iff]

/-! ### The twin (R357 to R380) -/

@[simp] theorem execPeerLinkUp_keeps (s : State) : Keeps s (execPeerLinkUp s) := by simp [execPeerLinkUp, upholds_iff]

@[simp] theorem execPeerLinkDown_keeps (s : State) : Keeps s (execPeerLinkDown s) := by simp [execPeerLinkDown, upholds_iff]

@[simp] theorem execSampleFrame_keeps (frame : List Byte) (s : State) : Keeps s (execSampleFrame frame s) := by simp [execSampleFrame, upholds_iff]

@[simp] theorem execBlockFrame_keeps (frame : List Byte) (s : State) : Keeps s (execBlockFrame frame s) := by simp [execBlockFrame, upholds_iff]

@[simp] theorem execModelFrame_keeps (frame : List Byte) (s : State) : Keeps s (execModelFrame frame s) := by simp [execModelFrame, upholds_iff]

@[simp] theorem execPeerBeacon_keeps (frame : List Byte) (s : State) : Keeps s (execPeerBeacon frame s) := by simp [execPeerBeacon, upholds_iff]

@[simp] theorem execEpochFrame_keeps (frame : List Byte) (s : State) : Keeps s (execEpochFrame frame s) := by simp [execEpochFrame, upholds_iff]

@[simp] theorem execTimeFrame_keeps (frame : List Byte) (t2 : Nat) (s : State) : Keeps s (execTimeFrame frame t2 s) := by
  simp [execTimeFrame, upholds_iff]

@[simp] theorem execPeerFrameSend_keeps (ty : Nat) (pairs : List SensePair) (s : State) : Keeps s (execPeerFrameSend ty pairs s) := by
  unfold execPeerFrameSend
  (repeat' split) <;> simp [upholds_iff]

@[simp] theorem execNetworkBeaconSend_keeps (s : State) : Keeps s (execNetworkBeaconSend s) := by
  unfold execNetworkBeaconSend
  (repeat' split) <;> simp [upholds_iff]

@[simp] theorem execNetworkBeacon_keeps (port : Nat) (beacon : List Byte) (s : State) : Keeps s (execNetworkBeacon port beacon s) := by
  simp [execNetworkBeacon, upholds_iff]

@[simp] theorem execPartnerAbsent_keeps (s : State) : Keeps s (execPartnerAbsent s) := by simp [execPartnerAbsent, upholds_iff]

@[simp] theorem execTakeLeadAlone_keeps (s : State) : Keeps s (execTakeLeadAlone s) := by simp [execTakeLeadAlone, upholds_iff]

@[simp] theorem execCommitAbandoned_keeps (s : State) : Keeps s (execCommitAbandoned s) := by
  unfold execCommitAbandoned
  (repeat' split) <;> simp [upholds_iff]

@[simp] theorem execJoinCheck_keeps (c : Nat) (s : State) : Keeps s (execJoinCheck c s) := by simp [execJoinCheck, upholds_iff]

@[simp] theorem execRunBlockReached_keeps (s : State) : Keeps s (execRunBlockReached s) := by simp [execRunBlockReached, upholds_iff]

@[simp] theorem execShareImbalance_keeps (c : Nat) (s : State) : Keeps s (execShareImbalance c s) := by simp [execShareImbalance, upholds_iff]

@[simp] theorem execSharingResumed_keeps (s : State) : Keeps s (execSharingResumed s) := by simp [execSharingResumed, upholds_iff]

/-! ### Firmware updates and injection (R390, R391, R409 to R411) -/

@[simp] theorem execFwUpdateBegin_keeps (i : Nat) (s : State) : Keeps s (execFwUpdateBegin i s) :=
  serve_keeps (fun _ t => .ite ((Upholds.refl t).reply ..) (Upholds.reply (by simp [upholds_iff]) ..)) i _ s

@[simp] theorem execFwUpdateData_keeps (i : Nat) (s : State) : Keeps s (execFwUpdateData i s) :=
  serve_keeps (fun _ t => .ite (Upholds.reply (by simp [upholds_iff]) ..) ((Upholds.refl t).reply ..)) i _ s

@[simp] theorem execFwUpdateEnd_keeps (i : Nat) (imageOk commitOk : Bool) (s : State) : Keeps s (execFwUpdateEnd i imageOk commitOk s) :=
  serve_keeps (fun _ t => .ite ((Upholds.refl t).reply ..) (.ite
    (.ite ((Upholds.reply (by simp [upholds_iff]) ..).trans (resetAfter_upholds i _)) (Upholds.reply (by simp [upholds_iff]) ..))
    ((Upholds.refl t).reply ..))) i _ s

@[simp] theorem execInject_keeps (i : Nat) (s : State) : Keeps s (execInject i s) := by
  refine serve_keeps (fun _ t => .ite ((Upholds.refl t).reply ..) ?_) i _ s
  split
  · exact (Upholds.refl t).reply ..
  · exact .ite ((Upholds.refl t).reply ..) (Upholds.reply (by simp [upholds_iff]) ..)

/-! ### A step -/

/-- Every row, by its own lemma. -/
theorem exec_keeps (c : Instr) (s : State) : Keeps s (exec c s) := by
  cases c <;> simp [exec]

/-- A step takes the front of the queue, which touches no memory, and runs that row. -/
theorem step_memSound {s t : State} (hsound : MemSound s) (hstep : step s = .next t) : MemSound t := by
  unfold step at hstep
  split at hstep
  case h_1 =>
    cases hstep
    exact hsound
  case h_2 c q _ =>
    obtain ⟨u, hnext, -, hkeeps⟩ := exec_keeps c { s with pending := q }
    rw [hnext] at hstep
    cases hstep
    exact hkeeps hsound

end Sys2Proof.Machine

open Sys2Proof Sys2Proof.Machine

/-- Settles O3: the front is taken off the queue, and every row keeps the form of both memories. -/
theorem stepKeepsMemoriesSound : Obligations.StepKeepsMemoriesSound := fun _ _ => step_memSound

end

section
/-! PROOFS. A Fikezo frame as it is sent, read back (R94, R360, Tables 14.2 and 14.3). -/

namespace Sys2Proof.Machine

/-- What the CRC of a frame covers: header and payload (Table 14.2). -/
def fzCovered (ty flags index seq : Nat) (body : List Byte) : List Byte :=
  le 1 ty ++ le 1 flags ++ le 2 body.length ++ le 8 index ++ le 4 seq ++ body

theorem fzBytes_eq (ty flags index seq : Nat) (body : List Byte) : fzBytes ty flags index seq body =
    fzCovered ty flags index seq body ++ le 4 (crc32 (fzCovered ty flags index seq body)).toNat := rfl

theorem fzCovered_length (ty flags index seq : Nat) (body : List Byte) : (fzCovered ty flags index seq body).length = 16 + body.length := by
  simp [fzCovered, le_length]
  omega

theorem fzBytes_length (ty flags index seq : Nat) (body : List Byte) : (fzBytes ty flags index seq body).length = 20 + body.length := by
  rw [fzBytes_eq, List.length_append, fzCovered_length, le_length]
  omega

theorem fzBytes_take_covered (ty flags index seq : Nat) (body : List Byte) :
    (fzBytes ty flags index seq body).take (16 + body.length) = fzCovered ty flags index seq body := by
  rw [fzBytes_eq, List.take_left' (fzCovered_length ..)]

/-- A number that stands behind `a` in a frame reads back at offset `a.length`. -/
theorem leAt_of_eq {l a b : List Byte} {o n v : Nat} (hl : l = a ++ (le n v ++ b)) (ho : a.length = o) (hv : v < 256 ^ n) : leAt l o n = v := by
  rw [hl, leAt_append n v b ho hv]

theorem fzBytes_crc (ty flags index seq : Nat) (body : List Byte) :
    leAt (fzBytes ty flags index seq body) (16 + body.length) 4 = (crc32 (fzCovered ty flags index seq body)).toNat :=
  leAt_of_eq (b := []) (by rw [List.append_nil, fzBytes_eq]) (fzCovered_length ..) (BitVec.isLt _)

/-- The fields of a frame's header, each at its place of Table 14.2. -/
theorem fzBytes_header {ty flags index seq : Nat} {body : List Byte} (hty : ty < 256) (hflags : flags < 0x100) (hlen : body.length < 0x10000)
    (hindex : index < 0x10000000000000000) (hseq : seq < 0x100000000) :
    leAt (fzBytes ty flags index seq body) 0 1 = ty ∧ leAt (fzBytes ty flags index seq body) 1 1 = flags ∧
    leAt (fzBytes ty flags index seq body) 2 2 = body.length ∧ leAt (fzBytes ty flags index seq body) 4 8 = index ∧
    leAt (fzBytes ty flags index seq body) 12 4 = seq := by
  rw [fzBytes_eq]
  generalize le 4 (crc32 (fzCovered ty flags index seq body)).toNat = crc
  unfold fzCovered
  refine ⟨?tyAt, ?flagsAt, ?lenAt, ?indexAt, ?seqAt⟩
  case tyAt => exact leAt_of_eq (a := []) (by simp only [List.append_assoc, List.nil_append]; rfl) rfl (by omega)
  case flagsAt => exact leAt_of_eq (a := le 1 ty) (by simp only [List.append_assoc]; rfl) rfl (by omega)
  case lenAt => exact leAt_of_eq (a := le 1 ty ++ le 1 flags) (by simp only [List.append_assoc]; rfl) rfl (by omega)
  case indexAt => exact leAt_of_eq (a := le 1 ty ++ le 1 flags ++ le 2 body.length) (by simp only [List.append_assoc]; rfl) rfl (by omega)
  case seqAt => exact leAt_of_eq (a := le 1 ty ++ le 1 flags ++ le 2 body.length ++ le 8 index) (by simp only [List.append_assoc]; rfl) rfl (by omega)

theorem fzBytes_payload (ty flags index seq : Nat) (body : List Byte) : sub (fzBytes ty flags index seq body) 16 body.length = body := by
  have hhead : (le 1 ty ++ le 1 flags ++ le 2 body.length ++ le 8 index ++ le 4 seq).length = 16 := by simp [le_length]
  rw [fzBytes_eq, fzCovered, sub, List.append_assoc _ body, List.drop_left' hhead, List.take_left]

/-- The payload of every type has a length that its field of 2 bytes holds (Table 14.3). -/
theorem fzLength_lt (ty : Nat) : fzLength ty < 0x10000 := by
  unfold fzLength
  rcases ty with _ | _ | _ | _ | _ | _ | _ | ty <;> simp

end Sys2Proof.Machine

open Sys2Proof Sys2Proof.Machine

/-- Settles O48: each check of the receiver by what stands at its place of the frame; a frame of another length fails the length check. -/
theorem fikezoFramesAreReadAsSent : Obligations.FikezoFramesAreReadAsSent := by
  intro ty flags index seq body h1 h6 hflags hindex hseq
  refine ⟨fun hlen => ?read, fun hlen => ?discarded⟩
  case read =>
    obtain ⟨htype, hflag, hcount, hidx, hnum⟩ :=
      fzBytes_header (body := body) (show ty < 256 by omega) hflags (hlen ▸ fzLength_lt ty) hindex hseq
    unfold fzParse
    dsimp only
    rw [← hlen, if_pos ⟨h1, h6, fzBytes_length .., htype, hcount, by rw [fzBytes_take_covered, fzBytes_crc]⟩, hflag, hidx, hnum, fzBytes_payload]
  case discarded =>
    unfold fzParse
    refine if_neg fun ⟨_, _, hall, _⟩ => hlen ?_
    rw [fzBytes_length] at hall
    omega

end

section
/-! PROOFS. The mailbox commands that read, and those that write the pending bank (R93, R106, R107, R110, R114, R115, R122, R123, R406). -/

namespace Sys2Proof.Machine

/-! ### SET_PARAM and WRITE_BLOCK (R107, R114, R115, R122, R123) -/

/-- Entries of SET_PARAM in order into a bank. -/
def writeEntries (l : List (Nat × Word)) (b : Bank) : Bank := l.foldl (fun b e => b.setParam e.1 e.2) b

/-- Entries that pass are written in order, and what follows them goes on from there. -/
theorem setEntries_append {before : List (Nat × Word)} (h : ∀ e ∈ before, entryStatus e.1 e.2 = stOk) (l : List (Nat × Word)) (n : Nat) (b : Bank) :
    setEntries (before ++ l) n b = setEntries l (n + before.length) (writeEntries before b) := by
  induction before generalizing n b with
  | nil => rfl
  | cons e before ih =>
    have htail : ∀ x ∈ before, entryStatus x.1 x.2 = stOk := fun x hx => h x (List.mem_cons_of_mem _ hx)
    rw [List.cons_append, setEntries, if_pos (h e List.mem_cons_self), ih htail, List.length_cons]
    simp only [writeEntries, List.foldl_cons, Nat.add_assoc, Nat.add_comm 1]

theorem setEntries_passed {l : List (Nat × Word)} (h : ∀ e ∈ l, entryStatus e.1 e.2 = stOk) (b : Bank) :
    setEntries l 0 b = (stOk, l.length, writeEntries l b) := by
  have hall := setEntries_append h [] 0 b
  rwa [List.append_nil, Nat.zero_add, setEntries] at hall

theorem setEntries_failed {before after : List (Nat × Word)} {id : Nat} {w : Word} (h : ∀ e ∈ before, entryStatus e.1 e.2 = stOk)
    (hfail : entryStatus id w ≠ stOk) (b : Bank) :
    setEntries (before ++ (id, w) :: after) 0 b = (entryStatus id w, before.length, writeEntries before b) := by
  rw [setEntries_append h, setEntries, if_neg hfail, Nat.zero_add]

theorem paramEntries_length (p : List Byte) : (paramEntries p).length = leAt p 0 2 := by simp [paramEntries]

/-- SET_PARAM of 1 to 29 entries answers what its entries come to. -/
theorem exec_setParam_served {i : Nat} {s : State} (h : Served i 0x20 s) (h1 : 1 ≤ leAt (reqOf s i).payload 0 2)
    (h29 : leAt (reqOf s i).payload 0 2 ≤ 29) {st n : Nat} {b : Bank} (hset : setEntries (paramEntries (reqOf s i).payload) 0 s.cfg.pending = (st, n, b)) :
    exec (.setParam i) s = .next (reply i (reqOf s i) st (le 2 n ++ [0, 0]) { take i s with cfg := { s.cfg with pending := b } }) := by
  show execSetParam i s = _
  rw [execSetParam, serve_served h]
  dsimp only
  rw [if_neg (by omega), show (take i s).cfg = s.cfg from rfl, hset]

theorem entryStatus_unknown {id : Nat} (w : Word) (h : cfgField id = none) : entryStatus id w = if isStat id then errReadonly else errParamId := by
  rw [entryStatus, h]

theorem entryStatus_range {id : Nat} {w : Word} {f : Field} (h : cfgField id = some f) (hw : f.kind.admits w = false) : entryStatus id w = errRange := by
  rw [entryStatus, h]
  exact if_neg (by simp [hw])

theorem exec_writeBlock_served {i id o size : Nat} {s : State} (h : Served i 0x22 s) (hid : leAt (reqOf s i).payload 0 4 = id)
    (hsize : blockSize id = some size) (ho : leAt (reqOf s i).payload 4 4 = o) (halign : o % 4 = 0)
    (hlen : ((reqOf s i).payload.drop 8).length % 4 = 0) (hend : o + ((reqOf s i).payload.drop 8).length ≤ size) :
    exec (.writeBlock i) s = .next (reply i (reqOf s i) stOk [] { take i s with
      cfg := { s.cfg with pending := s.cfg.pending.setBlock id (overlay (s.cfg.pending.block id) o ((reqOf s i).payload.drop 8)) } }) := by
  show execWriteBlock i s = _
  rw [execWriteBlock, serve_served h]
  dsimp only
  rw [hid, ho, hsize]
  dsimp only
  rw [if_neg (by omega), if_neg (by omega)]
  rfl

/-! ### The commands that read (R93, R106, R107, R110, R406) -/

theorem exec_nop_served {i : Nat} {s : State} (h : Served i 0x01 s) : exec (.nop i) s = .next (reply i (reqOf s i) stOk
    (le 4 s.keeper.heartbeat.toNat ++ [BitVec.ofNat 8 s.keeper.dev.code, 0, 0, 0]) (take i s)) := by
  show execNop i s = _
  rw [execNop, serve_served h, take_keeper]

theorem exec_getInfo_served {i : Nat} {s : State} (h : Served i 0x02 s) :
    exec (.getInfo i) s = .next (reply i (reqOf s i) stOk (infoBytes s) (take i s)) := by
  show execGetInfo i s = _
  rw [execGetInfo, serve_served h]
  rfl

/-- Where the queue holds a record from the number asked on, the answer begins with it, and nothing is drawn. -/
theorem eventsFrom_cons {first n : Nat} {s : State} {r : Record} {l : List Record} (h1 : 1 ≤ n)
    (hlater : s.log.queue.filter (fun q => decide (first ≤ q.seq)) = r :: l) :
    eventsFrom first n s = ((if first < s.log.nextSeq ∧ ∀ q ∈ s.log.queue, q.seq ≠ first then 1 else 0) + (if n < (r :: l).length then 2 else 0),
      (r :: l).take n, r.seq, s) := by
  obtain ⟨m, rfl⟩ : ∃ m, n = m + 1 := ⟨n - 1, by omega⟩
  unfold eventsFrom
  dsimp only
  rw [hlater]
  simp only [List.take_succ_cons, List.head?_cons, bit, Bool.and_eq_true, decide_eq_true_eq, Bool.not_eq_true', List.any_eq_false, beq_iff_eq]
  rfl

theorem exec_getEvents_served {i n first : Nat} {s : State} {r : Record} {l : List Record} (h : Served i 0x30 s)
    (hn : leAt (reqOf s i).payload 4 1 = n) (h1 : 1 ≤ n) (h3 : n ≤ 3) (hfirst : leAt (reqOf s i).payload 0 4 = first)
    (hlater : s.log.queue.filter (fun q => decide (first ≤ q.seq)) = r :: l) :
    exec (.getEvents i) s = .next (reply i (reqOf s i) stOk
      ([BitVec.ofNat 8 ((r :: l).take n).length,
        BitVec.ofNat 8 ((if first < s.log.nextSeq ∧ ∀ q ∈ s.log.queue, q.seq ≠ first then 1 else 0) + (if n < (r :: l).length then 2 else 0)), 0, 0]
        ++ le 4 r.seq ++ ((r :: l).take n).flatMap recordBytes) (take i s)) := by
  show execGetEvents i s = _
  rw [execGetEvents, serve_served h]
  dsimp only
  rw [hn, hfirst, if_neg (by omega), eventsFrom_cons h1 (s := take i s) hlater]
  rfl

theorem exec_readBlock_served {i bank id o n size : Nat} {s : State} (h : Served i 0x23 s) (hbank : leAt (reqOf s i).payload 0 1 = bank)
    (hbank1 : bank ≤ 1) (hid : leAt (reqOf s i).payload 4 4 = id) (hsize : blockSize id = some size) (ho : leAt (reqOf s i).payload 8 4 = o)
    (hn : leAt (reqOf s i).payload 12 2 = n) (halign : o % 4 = 0) (hlen : n % 4 = 0) (h4 : 4 ≤ n) (h232 : n ≤ 232) (hend : o + n ≤ size) :
    exec (.readBlock i) s = .next (reply i (reqOf s i) stOk
      (le 4 id ++ le 4 o ++ sub ((if bank = 1 then s.cfg.pending else s.cfg.active).block id) o n) (take i s)) := by
  show execReadBlock i s = _
  rw [execReadBlock, serve_served h]
  dsimp only
  rw [hbank, hid, ho, hn, if_neg (by omega), hsize]
  dsimp only
  rw [if_neg (by omega), if_neg (by omega)]
  rfl

theorem exec_getTestResult_served {i n : Nat} {s : State} {u : Test} (h : Served i 0x51 s) (hn : leAt (reqOf s i).payload 0 4 = n)
    (hkept : keptTest n s = some u) :
    exec (.getTestResult i) s = .next (reply i (reqOf s i) stOk
      (le 4 n ++ [BitVec.ofNat 8 u.state, 0] ++ le 2 u.code ++ (if u.state = 0 then [] else u.values.take 232)) (take i s)) := by
  show execGetTestResult i s = _
  rw [execGetTestResult, serve_served h]
  dsimp only
  rw [hn, show keptTest n (take i s) = some u from hkept]

end Sys2Proof.Machine

open Sys2Proof Sys2Proof.Machine

/-- Settles O6: every read runs on the state with its mailbox free again, whose other fields are those of the state before. -/
theorem queryCommandsAnswer : Obligations.QueryCommandsAnswer := by
  intro i s
  refine ⟨exec_nop_served, exec_getInfo_served, ?events, ?block, ?result⟩
  case events => exact fun n first r l hserved hn h1 h3 hfirst => exec_getEvents_served hserved hn h1 h3 hfirst
  case block =>
    exact fun bank id o n size hserved hbank hbank1 hid hsize ho hn halign hlen h4 h232 =>
      exec_readBlock_served hserved hbank hbank1 hid hsize ho hn halign hlen h4 h232
  case result => exact fun n u hserved hn => exec_getTestResult_served hserved hn

/-- Settles O8: entries that all pass are written to the last; a block by its checks, none of which fails. -/
theorem pendingBankCommands : Obligations.PendingBankCommands := by
  intro i s
  refine ⟨fun n hserved hn h1 h29 hpass => ?_, fun id o size hserved hid hsize ho => exec_writeBlock_served hserved hid hsize ho⟩
  have hset := setEntries_passed hpass s.cfg.pending
  rw [paramEntries_length, hn] at hset
  exact exec_setParam_served hserved (by omega) (by omega) hset

/-- Settles O9: the entries before the one that fails are written, and its status is the answer. -/
theorem setParamStopsAtFirstFailure : Obligations.SetParamStopsAtFirstFailure := by
  refine ⟨fun i s before after id w hserved h1 h29 hentries hpass hfail => ?_, fun id w => entryStatus_unknown w, fun id w f => entryStatus_range⟩
  have hset := setEntries_failed (after := after) hpass hfail s.cfg.pending
  exact exec_setParam_served hserved h1 h29 (hentries ▸ hset)

end

section
/-! PROOFS. COMMIT of a valid pending bank (R108, R123, R126, R129, R367, R368). -/

namespace Sys2Proof.Machine

/-- The next ticket is given, and the active and the pending bank, the units and the Keeper stand. -/
def Ticketed (s t : State) : Prop := t.cfg.ticket = s.cfg.ticket + 1 ∧ t.cfg.active = s.cfg.active ∧ t.cfg.pending = s.cfg.pending ∧
  t.chans = s.chans ∧ t.rails = s.rails ∧ t.keeper = s.keeper

theorem commitRecord_fields (ticket k0 span flags : Nat) (s : State) : (commitRecord ticket k0 span flags s).chans = s.chans ∧
    (commitRecord ticket k0 span flags s).rails = s.rails ∧ (commitRecord ticket k0 span flags s).keeper = s.keeper := by
  simp [commitRecord]

/-- An abandoned commit is gone, its target is the active bank again, and the rest stands (R368). -/
theorem abandonCommit_ends (cause : Nat) {s t : State} {c : Commit} (h : Ticketed s t) (hcommit : t.cfg.commit = some c) :
    Ticketed s (abandonCommit cause t) ∧ (abandonCommit cause t).cfg.commit = none ∧ (abandonCommit cause t).cfg.target = s.cfg.active := by
  obtain ⟨hticket, hactive, hpending, hchans, hrails, hkeeper⟩ := h
  unfold abandonCommit Ticketed
  rw [hcommit]
  dsimp only
  split <;> simp [commitRecord_fields, commitGone, State.draw, hticket, hactive, hpending, hchans, hrails, hkeeper]

/-- The commit and the proposal that COMMIT begins, before the proposals are compared. -/
def proposed (named : Option Nat) (c : Commit) (x : Nat) (s : State) : State :=
  { s with
    cfg := { s.cfg with commit := some c, target := s.cfg.pending, ticket := s.cfg.ticket + 1, xfadeMax := x }
    twin := if twinned s && s.twin.paired then { s.twin with own := some ⟨s.twin.common + 1, digest s.cfg.pending, named, 0, 0⟩ } else s.twin }

theorem acceptCommit_proposes (named : Option Nat) (xfade : Bool) (s : State) : ∃ (c : Commit) (x : Nat), c.ticket = s.cfg.ticket + 1 ∧
    acceptCommit named xfade s = if twinned s && s.twin.paired then judgeProposals (proposed named c x s) else proposed named c x s :=
  ⟨_, _, rfl, rfl⟩

/-- A proposal that is not armed yet agrees with none. -/
theorem agreeCommit_unarmed {s : State} {p : Proposal} (hown : s.twin.own = some p) (hstate : p.state = 0) : agreeCommit s = s := by
  have hnone : agreed? s.twin = none := by
    unfold agreed?
    rw [hown]
    cases s.twin.theirs with
    | none => rfl
    | some b => exact if_neg (by simp [hstate])
  unfold agreeCommit
  rw [hnone]
  cases s.cfg.commit <;> rfl

/-- A fresh proposal stands, or is abandoned at once where the partner's clashes. -/
theorem judgeProposals_unarmed {s : State} {p : Proposal} (hown : s.twin.own = some p) (hstate : p.state = 0) :
    (clash? s.twin = none ∧ judgeProposals s = s) ∨ ∃ cause, clash? s.twin = some cause ∧ judgeProposals s = abandonCommit cause s := by
  unfold judgeProposals
  cases hclash : clash? s.twin with
  | none => exact .inl ⟨rfl, agreeCommit_unarmed hown hstate⟩
  | some cause => exact .inr ⟨cause, rfl, rfl⟩

theorem clash?_alone {t : Twin} (h : t.theirs = none) : clash? t = none := by
  unfold clash?
  rw [h]
  cases t.own <;> rfl

/-- Two digests for one epoch clash (R368). -/
theorem clash?_digests {t : Twin} {a b : Proposal} (hown : t.own = some a) (htheirs : t.theirs = some b) (hstate : a.state = 0)
    (hepoch : a.epoch = b.epoch) (hdigest : a.digest ≠ b.digest) : clash? t ≠ none := by
  unfold clash?
  rw [hown, htheirs]
  dsimp only
  rw [if_neg (by simp [hepoch, hstate]), if_pos hdigest]
  split <;> exact Option.some_ne_none _

theorem proposed_ticketed (named : Option Nat) (c : Commit) (x : Nat) (s : State) : Ticketed s (proposed named c x s) :=
  ⟨rfl, rfl, rfl, rfl, rfl, rfl⟩

theorem proposed_own (named : Option Nat) (c : Commit) (x : Nat) {s : State} (h : (twinned s && s.twin.paired) = true) :
    (proposed named c x s).twin = { s.twin with own := some ⟨s.twin.common + 1, digest s.cfg.pending, named, 0, 0⟩ } := if_pos h

/-- An accepted commit is in progress unless the device is paired and the proposals clash. -/
theorem acceptCommit_cases (named : Option Nat) (xfade : Bool) (s : State) : ∃ (c : Commit) (x : Nat), c.ticket = s.cfg.ticket + 1 ∧
    ((acceptCommit named xfade s = proposed named c x s ∧ ((twinned s && s.twin.paired) = true → clash? (proposed named c x s).twin = none)) ∨
      ((twinned s && s.twin.paired) = true ∧ ∃ cause, clash? (proposed named c x s).twin = some cause ∧
        acceptCommit named xfade s = abandonCommit cause (proposed named c x s))) := by
  obtain ⟨c, x, hticket, haccept⟩ := acceptCommit_proposes named xfade s
  refine ⟨c, x, hticket, ?_⟩
  rw [haccept]
  by_cases hpaired : (twinned s && s.twin.paired) = true
  · have hown := congrArg Twin.own (proposed_own named c x hpaired)
    rw [if_pos hpaired]
    rcases judgeProposals_unarmed hown rfl with ⟨hclash, hstands⟩ | hcause
    · exact .inl ⟨hstands, fun _ => hclash⟩
    · exact .inr ⟨hpaired, hcause⟩
  · rw [if_neg hpaired]
    exact .inl ⟨rfl, fun h => absurd h hpaired⟩

/-- COMMIT with no commit in progress, its mode and block in order and no refusal accepts. -/
theorem exec_commit_served {i mode k : Nat} {s : State} (h : Served i 0x24 s) (hnone : s.cfg.commit = none) (hmode : leAt (reqOf s i).payload 0 1 = mode)
    (hk : leAt (reqOf s i).payload 4 8 = k) (hblock : mode = 0 ∨ (mode = 1 ∧ namedOk s k = true))
    (hvalid : commitRefusal s.keeper.strapTwin s.cfg.active s.cfg.pending = none) {u : State}
    (hu : acceptCommit (if mode = 1 then some k else none) (leAt (reqOf s i).payload 1 1 % 2 == 1) (take i s) = u) :
    exec (.commit i) s = .next (reply i (reqOf s i) stAccepted (le 4 u.cfg.ticket) u) := by
  have hargs : ¬ (1 < mode ∨ (mode = 1 ∧ (!namedOk (take i s) k) = true)) := by
    rcases hblock with rfl | ⟨rfl, hok⟩
    · omega
    · rw [show namedOk (take i s) k = true from hok]
      simp
  show execCommit i s = _
  rw [execCommit, serve_served h]
  dsimp only
  rw [hmode, hk, show (take i s).cfg = s.cfg from rfl, hnone, if_neg (show ¬ (none : Option Commit).isSome = true by simp), if_neg hargs, take_keeper, hvalid, hu]

end Sys2Proof.Machine

open Sys2Proof Sys2Proof.Machine

/-- Settles O12: the commit and its proposal stand as they begin, but where the partner's proposal clashes, which abandons them. -/
theorem commitIsAccepted : Obligations.CommitIsAccepted := by
  intro i mode k s hserved hnone hmode hk hblock hvalid
  have hexec := exec_commit_served hserved hnone hmode hk hblock hvalid rfl
  obtain ⟨c, x, hticket, hcases⟩ := acceptCommit_cases (if mode = 1 then some k else none) (leAt (reqOf s i).payload 1 1 % 2 == 1) (take i s)
  generalize acceptCommit (if mode = 1 then some k else none) (leAt (reqOf s i).payload 1 1 % 2 == 1) (take i s) = u at hexec hcases
  have hbegun := proposed_ticketed (if mode = 1 then some k else none) c x (take i s)
  have htwin := proposed_own (if mode = 1 then some k else none) c x (s := take i s)
  rcases hcases with ⟨rfl, hclash⟩ | ⟨hpaired, cause, hclash, rfl⟩
  case inl =>
    obtain ⟨kticket, kactive, kpending, kchans, krails, kkeeper⟩ := hbegun
    refine ⟨_, hexec, kticket, kactive, kpending, kchans, krails, kkeeper,
      fun _ => ⟨rfl, c, rfl, hticket⟩, fun hpaired _ => congrArg Twin.own (htwin hpaired), fun b hpaired htheirs hepoch hdigest => ?_⟩
    exact absurd (hclash hpaired) (clash?_digests (by rw [htwin hpaired]) (by rw [htwin hpaired]; exact htheirs) rfl hepoch.symm (Ne.symm hdigest))
  case inr =>
    have htheirs : s.twin.theirs ≠ none := fun h => by
      rw [clash?_alone (by rw [htwin hpaired]; exact h)] at hclash
      cases hclash
    obtain ⟨⟨kticket, kactive, kpending, kchans, krails, kkeeper⟩, kcommit, ktarget⟩ := abandonCommit_ends cause hbegun rfl
    rw [kticket] at hexec
    refine ⟨_, hexec, kticket, kactive, kpending, kchans, krails, kkeeper, fun h => ?_, fun _ h => absurd h htheirs, fun _ _ _ _ _ => ⟨kcommit, ktarget⟩⟩
    exact h.elim (fun hun => absurd (hpaired.symm.trans hun) (by decide)) (fun h => absurd h htheirs)

end

section
/-! PROOFS. POKE of words in the Keeper SRAM (R98, R109, R165, R385). -/

namespace Sys2Proof.Machine

/-! ### The window outside a response mailbox (R98) -/

theorem frameBytes_length (flags cmd seq status : Nat) (payload : List Byte) : (frameBytes flags cmd seq status payload).length = 16 + payload.length := by
  simp [frameBytes, le_length]
  omega

theorem putResponse_mem_outside {i k : Nat} {f : List Byte} {s : State} (h : Memory.wf s.spi.mem = true) (hf : f.length ≤ 256)
    (hk : k < 0x800 + 0x100 * i ∨ 0x900 + 0x100 * i ≤ k) : SMap.get 0 k (putResponse i f s).spi.mem = SMap.get 0 k s.spi.mem :=
  get_putBytes_other _ _ _ h (by omega)

/-- A frame that fits its mailbox leaves every byte of the window outside it, delivered or held. -/
theorem answer_mem_outside {i k : Nat} {f : List Byte} {s : State} (h : Memory.wf s.spi.mem = true) (hf : f.length ≤ 256)
    (hk : k < 0x800 + 0x100 * i ∨ 0x900 + 0x100 * i ≤ k) : SMap.get 0 k (answer i f s).spi.mem = SMap.get 0 k s.spi.mem := by
  have hput := putResponse_mem_outside h hf hk
  unfold answer
  split
  · unfold deliver
    split
    · simpa using hput
    · simpa [deliverSpi] using hput
  · rfl

theorem reply_mem_outside {i k st : Nat} {r : Req} {p : List Byte} {s : State} (h : Memory.wf s.spi.mem = true) (hp : p.length ≤ 240)
    (hk : k < 0x800 + 0x100 * i ∨ 0x900 + 0x100 * i ≤ k) : SMap.get 0 k (reply i r st p s).spi.mem = SMap.get 0 k s.spi.mem :=
  answer_mem_outside h (by rw [frameBytes_length]; omega) hk

/-! ### Words into the SRAM (R109, R385) -/

theorem putBytes_append (a : Nat) (l l' : List Byte) (m : Memory) : putBytes a (l ++ l') m = putBytes (a + l.length) l' (putBytes a l m) := by
  induction l generalizing a m with
  | nil => rfl
  | cons b l ih => rw [List.cons_append, putBytes_cons, ih, putBytes_cons, List.length_cons, Nat.add_assoc, Nat.add_comm 1]

theorem descWrite_ports (a : Nat) (v : Word) (s : State) : descWrite a v s = { s with ports := (descWrite a v s).ports } := by
  unfold descWrite
  split <;> rfl

theorem descWrite_none {a : Nat} (h : descOf? a = none) (v : Word) (s : State) : descWrite a v s = s := by
  rw [descWrite, h]

theorem xbarWrite_sram {a : Nat} (h : a < 0xC00000) (v : Word) (s : State) :
    xbarWrite a v s = some (descWrite a v { s with sram := putBytes a (le 4 v.toNat) s.sram }) := by
  have ht : target? s a true = some (.sram a) := if_pos h
  simp only [xbarWrite, ht]

/-- Words that all lie in the SRAM are all stored there, and outside the receive descriptors nothing else changes. -/
theorem pokeWords_sram {l : List Word} {a : Nat} (h : a + 4 * l.length ≤ 0xC00000) (n : Nat) (s : State) :
    ∃ t, pokeWords l a n s = (true, n + l.length, t) ∧ t.sram = putBytes a (wordBytes l) s.sram ∧
      t = { s with sram := t.sram, ports := t.ports } ∧ ((∀ j < l.length, descOf? (a + 4 * j) = none) → t.ports = s.ports) := by
  induction l generalizing a n s with
  | nil => exact ⟨s, rfl, rfl, rfl, fun _ => rfl⟩
  | cons v l ih =>
    rw [List.length_cons] at h
    have hwrite := xbarWrite_sram (a := a) (by omega) v s
    generalize hu : descWrite a v { s with sram := putBytes a (le 4 v.toNat) s.sram } = u at hwrite
    have hports := descWrite_ports a v { s with sram := putBytes a (le 4 v.toNat) s.sram }
    rw [hu] at hports
    obtain ⟨t, hpoke, hsram, hrest, hfree⟩ := ih (a := a + 4) (by omega) (n + 1) u
    refine ⟨t, ?_, ?_, ?_, fun hnone => ?_⟩
    · rw [pokeWords, Nat.mod_eq_of_lt (by omega), hwrite]
      dsimp only
      rw [hpoke, List.length_cons, Nat.add_assoc, Nat.add_comm 1]
    · rw [hsram, hports]
      show _ = putBytes a (le 4 v.toNat ++ wordBytes l) s.sram
      rw [putBytes_append, le_length]
    · rw [hrest, hports]
    · have htail : ∀ j < l.length, descOf? (a + 4 + 4 * j) = none := fun j hj => by
        have hj' := hnone (j + 1) (by simpa using hj)
        rwa [show a + 4 * (j + 1) = a + 4 + 4 * j by omega] at hj'
      have hhead : descOf? a = none := by simpa using hnone 0 (by simp)
      rw [hfree htail, ← hu, descWrite_none hhead]

theorem wordList_length (p : List Byte) : (wordList p).length = leAt p 4 1 := by simp [wordList]

/-- POKE of an aligned range of the SRAM answers OK with the number of its words. -/
theorem exec_poke_served {i a n : Nat} {s t : State} (h : Served i 0x41 s) (ha : leAt (reqOf s i).payload 0 4 = a)
    (hn : leAt (reqOf s i).payload 4 1 = n) (h1 : 1 ≤ n) (h58 : n ≤ 58) (halign : a % 4 = 0)
    (hpoke : pokeWords (wordList (reqOf s i).payload) a 0 (take i s) = (true, n, t)) :
    exec (.poke i) s = .next (reply i (reqOf s i) stOk [BitVec.ofNat 8 n, 0, 0, 0] t) := by
  show execPoke i s = _
  rw [execPoke, serve_served h]
  dsimp only
  rw [ha, hn, if_neg (by omega), if_neg (not_not.mpr halign), hpoke]
  rfl

end Sys2Proof.Machine

open Sys2Proof Sys2Proof.Machine

/-- Settles O13: the words are stored one behind the other, and the answer writes its own mailbox alone. -/
theorem pokeWritesKeeperSram : Obligations.PokeWritesKeeperSram := by
  intro i a n s hserved ha hn h1 h58 halign hend ⟨hmem, hsramWf⟩
  have hlen : (wordList (reqOf s i).payload).length = n := by rw [wordList_length, hn]
  obtain ⟨u, hpoke, hsram, hrest, hfree⟩ := pokeWords_sram (l := wordList (reqOf s i).payload) (a := a) (by omega) 0 (take i s)
  rw [hlen, Nat.zero_add] at hpoke
  have hanswer := reply_answers i (reqOf s i) stOk [BitVec.ofNat 8 n, 0, 0, 0] u
  obtain ⟨-, -, hcfg, -, hsramT⟩ := hanswer.fields
  refine ⟨u, _, exec_poke_served hserved ha hn h1 h58 halign hpoke, rfl, hcfg.trans (by rw [hrest]; rfl), ?chans, ?rails, ?stored, ?sram, ?window, ?rest⟩
  case chans => rw [hanswer, hrest]; rfl
  case rails => rw [hanswer, hrest]; rfl
  case stored =>
    rw [hsramT, hsram]
    exact getBytes_putBytes a _ hsramWf
  case sram =>
    intro k hk
    rw [hsramT, hsram]
    exact get_putBytes_other a k _ hsramWf hk
  case window =>
    intro k hk
    have hu : u.spi.mem = s.spi.mem := by rw [hrest]; rfl
    rw [reply_mem_outside (hu ▸ hmem) (by simp) hk, hu]
  case rest =>
    intro hnone
    have hports := hfree fun j hj => hnone j (hlen ▸ hj)
    rw [hports] at hrest
    exact hrest

end

section
/-! PROOFS. The SPI window, the doorbells, the image port and the host datagrams (R85 to R102, R438). -/

namespace Sys2Proof.Machine

/-! ### Doorbells (R97, R99) -/

theorem ring_free {i : Nat} {s : State} (h : (s.spi.reqBusy &&& bit4 i) = 0) :
    ring i s = { s with spi := { s.spi with reqBusy := s.spi.reqBusy ||| bit4 i, posted := s.spi.posted ++ [i] } } := if_pos h

theorem ring_busy {i : Nat} {s : State} (h : (s.spi.reqBusy &&& bit4 i) ≠ 0) : ring i s = s.irq irqOverrun := if_neg h

/-- DB_OVERRUN is not one of the Keeper's bits: it is set also while the Keeper is halted (R90). -/
theorem irqSpi_overrun (halted : Bool) (p : Spi) : (irqSpi halted irqOverrun p).posted = p.posted ∧
    (irqSpi halted irqOverrun p).reqBusy = p.reqBusy ∧ (irqSpi halted irqOverrun p).irqStatus = p.irqStatus ||| irqOverrun := by
  have hwaits : irqOverrun &&& ~~~irqKeeper = irqOverrun := by decide
  cases halted
  · exact ⟨rfl, rfl, rfl⟩
  · refine ⟨rfl, rfl, ?_⟩
    simp only [irqSpi, if_true, hwaits]

/-- Outside STANDBY a doorbell rings and nothing more: it wakes no device. -/
theorem ringAll_awake {s : State} (v : Word) (h : s.keeper.dev ≠ .standby) :
    ringAll v s = forUnits 4 (fun i s => if v.getLsbD i then ring i s else s) s := by
  rw [ringAll]
  exact if_neg fun hstandby => h hstandby.1

/-! ### Register writes (R86, R87, R438) -/

/-- A partial write of a register counts, whatever the register. -/
theorem exec_registerWrite_partial {s : State} (hlive : windowLive s = true) (off : Nat) {n : Nat} (v : Word) (h1 : 1 ≤ n) (h4 : n < 4) :
    exec (.registerWrite off n v) s = .next (spiErr 1 s) := by
  have hanswers : ¬ ((!windowLive s) = true ∨ n = 0) := by simp [hlive]; omega
  exact (if_neg hanswers).trans (if_pos h4)

theorem exec_irqMaskWrite {s : State} (hlive : windowLive s = true) {n : Nat} (v : Word) (h4 : 4 ≤ n) :
    exec (.registerWrite 0x1C n v) s = .next { s with spi := { s.spi with irqMask := v &&& 0xFFF } } := by
  have hanswers : ¬ ((!windowLive s) = true ∨ n = 0) := by simp [hlive]; omega
  exact (if_neg hanswers).trans (if_neg (Nat.not_lt.mpr h4))

theorem exec_mailboxByteWrite_live {s : State} (hlive : windowLive s = true) {a : Nat} (b : Byte) (hlow : 0x400 ≤ a) (hhigh : a < 0x800) :
    exec (.mailboxByteWrite a b) s = .next { s with spi := { s.spi with mem := SMap.put 0 a b s.spi.mem } } :=
  if_pos (by simp [hlive, hlow, hhigh])

/-- Before the window answers a byte for a mailbox is discarded (R87). -/
theorem exec_mailboxByteWrite_dead {s : State} (hdead : windowLive s = false) (a : Nat) (b : Byte) : exec (.mailboxByteWrite a b) s = .next s :=
  if_neg (by simp [hdead])

/-! ### The image port (R92) -/

/-- The header of an image passes, and the ROM starts it at stage 0x6; the flash and the configuration stand. -/
theorem goImage_starts {s : State} (hstage : imageStage s = true) (hsize : s.keeper.imgCount ≤ bankSize) (hhead : fwHeadOk s.keeper.img = true) :
    (goImage s).keeper.stage = 6 ∧ (goImage s).keeper.imgState = 3 ∧ (goImage s).keeper.fwSpi = true ∧ (goImage s).keeper.fwBytes = s.keeper.img ∧
    (goImage s).store = s.store ∧ (goImage s).cfg = s.cfg := by
  rw [goImage, if_pos hstage, if_pos ⟨hsize, hhead⟩]
  simp [startImage]

theorem goImage_refused {s : State} (hstage : imageStage s = true) (hhead : fwHeadOk s.keeper.img = false) :
    goImage s = { s with keeper := { s.keeper with imgState := 2 } } := by
  rw [goImage, if_pos hstage, if_neg (by simp [hhead])]

theorem imageByte_taken {s : State} (b : Byte) (hstage : imageStage s = true) (hroom : s.keeper.imgCount < bankSize) :
    imageByte b s = { s with keeper := { s.keeper with imgState := 1, imgCount := s.keeper.imgCount + 1, img := s.keeper.img ++ [b] } } := by
  rw [imageByte, if_pos hstage, if_pos hroom]

/-! ### Host datagrams and held responses (R98, R101, R102) -/

theorem hostPort_eq_true {s : State} {dst dport : Nat} (hruns : firmwareRuns s = true) (hloaded : s.keeper.cfgLoaded = true)
    (hdst : dst = s.cfg.active.nmAddr) (hport : dport = s.nat 0x01 0 3) : hostPort s dst dport = true := by
  simp [hostPort, hruns, hloaded, hdst, hport]

/-- A good datagram for a free mailbox stands in it, with its source, and is posted. -/
theorem hostTake_posted {addr port dst dport i : Nat} {p : List Byte} {s : State} (hopen : hostPort s dst dport = true) (hheld : heldFor s i = false)
    (hlong : 20 ≤ p.length) (hi : leAt p 0 1 = i) (h4 : i < 4) (hmark : leAt p 1 1 = 1) (hbusy : (s.spi.reqBusy &&& bit4 i) = 0)
    (hready : (s.spi.rspReady &&& bit4 i) = 0) (hmax : leAt (p.drop 4) 6 2 ≤ 240) (hlen : (p.drop 4).length = 16 + leAt (p.drop 4) 6 2) :
    hostTake addr port dst dport p s = { s with spi := { s.spi with
      mem := putBytes (0x400 + 0x100 * i) (p.drop 4) s.spi.mem, udpFrom := (i, addr, port) :: s.spi.udpFrom.filter (·.1 != i)
      lastUdp := some (addr, port), reqBusy := s.spi.reqBusy ||| bit4 i, posted := s.spi.posted ++ [i] } } := by
  rw [hostTake, if_pos hopen]
  dsimp only
  rw [hi, hheld, hmark, hbusy, hready, if_pos (by simp [hlong, h4, hmax, hlen])]
  exact ring_free hbusy

/-- Any of the faults of R102 discards a datagram, which counts. -/
theorem hostTake_dropped {addr port dst dport : Nat} {p : List Byte} {s : State} (hopen : hostPort s dst dport = true)
    (hbad : p.length < 20 ∨ 4 ≤ leAt p 0 1 ∨ leAt p 1 1 ≠ 1 ∨ (s.spi.reqBusy &&& bit4 (leAt p 0 1)) ≠ 0 ∨
      (s.spi.rspReady &&& bit4 (leAt p 0 1)) ≠ 0 ∨ heldFor s (leAt p 0 1) = true ∨ 240 < leAt (p.drop 4) 6 2 ∨
      (p.drop 4).length ≠ 16 + leAt (p.drop 4) 6 2) :
    hostTake addr port dst dport p s = s.count (netStat 0x026) 1 := by
  rw [hostTake, if_pos hopen]
  refine if_neg fun hgood => ?_
  simp only [Bool.and_eq_true, decide_eq_true_eq, beq_iff_eq, Bool.not_eq_true'] at hgood
  obtain ⟨⟨⟨⟨⟨⟨⟨hlong, h4⟩, hmark⟩, hbusy⟩, hready⟩, hheld⟩, hmax⟩, hlen⟩ := hgood
  rcases hbad with h | h | h | h | h | h | h | h
  · omega
  · omega
  · exact h hmark
  · exact h hbusy
  · exact h hready
  · exact Bool.false_ne_true (hheld.symm.trans h)
  · omega
  · exact h hlen

theorem hostTake_closed {addr port dst dport : Nat} {p : List Byte} {s : State} (h : dst ≠ s.cfg.active.nmAddr ∨ dport ≠ s.nat 0x01 0 3) :
    hostTake addr port dst dport p s = s := by
  refine if_neg fun hopen => ?_
  simp only [hostPort, Bool.and_eq_true, beq_iff_eq] at hopen
  obtain ⟨⟨-, hdst⟩, hport⟩ := hopen
  exact h.elim (· hdst) (· hport)

theorem exec_heldResponseWrite_delivers {i : Nat} {e : Nat × List Byte} {s : State} (hheld : s.spi.held.find? (·.1 == i) = some e)
    (hruns : s.keeper.halted = false) (hready : (s.spi.rspReady &&& bit4 i) = 0) (hreset : s.keeper.resetWait ≠ some i) :
    exec (.heldResponseWrite i) s = .next (deliverSpi i e.2 { s with spi := { s.spi with held := s.spi.held.erase e } }) := by
  show execHeldResponseWrite i s = _
  rw [execHeldResponseWrite, hheld]
  dsimp only
  rw [if_pos (by simp [hruns, hready]), if_neg hreset]

end Sys2Proof.Machine

open Sys2Proof Sys2Proof.Machine

/-- Settles O16: each row by its test for the window, decided each way. -/
theorem spiWindowWrites : Obligations.SpiWindowWrites := by
  refine fun s => ⟨fun hlive => ⟨fun op => exec_spiUnknownInstruction op hlive, fun a b => if_pos hlive, fun off n v => exec_registerWrite_partial hlive off v,
    fun n v => exec_irqMaskWrite hlive v, fun a b => exec_mailboxByteWrite_live hlive b, fun v => if_pos hlive, fun v => if_pos hlive,
    fun v => if_pos hlive, fun v hdev => ?doorbell⟩, fun hdead => ?dead⟩
  case doorbell =>
    show execDoorbell v s = _
    rw [execDoorbell, if_pos hlive, ringAll_awake v hdev]
  case dead =>
    have hoff : ¬ windowLive s = true := by simp [hdead]
    exact ⟨fun a b => ⟨if_neg hoff, exec_mailboxByteWrite_dead hdead a b⟩, fun off n v => if_pos (.inl (by simp [hdead])),
      fun v => ⟨if_neg hoff, if_neg hoff, if_neg hoff, if_neg hoff⟩⟩

/-- Settles O17: a free mailbox by the row itself, a busy one by what the interrupt bit leaves of the window. -/
theorem doorbellPostsOrOverruns : Obligations.DoorbellPostsOrOverruns := by
  refine fun i s _ => ⟨ring_free, fun hbusy => ?_⟩
  rw [ring_busy hbusy, irq_spi]
  exact irqSpi_overrun _ _

/-- Settles O19: both stages take an image, and the header check decides what IMG_GO does. -/
theorem imagePortCommands : Obligations.ImagePortCommands := by
  intro s hlive hstage
  have himage : imageStage s = true := by rcases hstage with h | h <;> simp [imageStage, h]
  refine ⟨fun b hroom => ?byte, ?clear, fun hsize hhead => ?starts, fun _ hhead => ?refused⟩
  case byte =>
    show execImagePortWrite b s = _
    rw [execImagePortWrite, if_pos hlive, imageByte_taken b himage hroom]
  case clear =>
    show execImgClear s = _
    rw [execImgClear, if_pos hlive, clearImage, if_pos himage]
  case starts => exact ⟨_, if_pos hlive, goImage_starts himage hsize hhead⟩
  case refused =>
    show execImgGo s = _
    rw [execImgGo, if_pos hlive, goImage_refused himage hhead]

/-- Settles O20: a datagram by whether its port is open and whether it is good, a held response by the test for its mailbox. -/
theorem datagramAndHeldResponse : Obligations.DatagramAndHeldResponse := by
  refine fun s => ⟨fun addr port dst dport i p hruns hloaded hdst hport hheld hlong hi h4 hmark hbusy hready hmax hlen => ?posted,
    fun addr port dst dport p hruns hloaded hdst hport hbad => ?dropped, fun addr port dst dport p h => ?closed,
    fun i e => exec_heldResponseWrite_delivers⟩
  case posted => exact congrArg _ (hostTake_posted (hostPort_eq_true hruns hloaded hdst hport) hheld hlong hi h4 hmark hbusy hready hmax hlen)
  case dropped => exact congrArg _ (hostTake_dropped (hostPort_eq_true hruns hloaded hdst hport) hbad)
  case closed => exact congrArg _ (hostTake_closed h)

end

section
/-! PROOFS. The firmware update of the mailbox: begin, data and end (R111, R390, R391). -/

namespace Sys2Proof.Machine

/-! ### The bank under update -/

/-- From `a` to `b` the firmware bank that is not under update stands. -/
def KeepsOtherBank (a b : Store) : Prop := (a.updBankB = true → b.fwA = a.fwA) ∧ (a.updBankB = false → b.fwB = a.fwB)

theorem setUpdBank_updBank (b : FwBank) (st : Store) : (st.setUpdBank b).updBank = b := by
  unfold Store.setUpdBank
  split <;> rename_i h <;> simp [Store.updBank, h]

theorem setUpdBank_fields (b : FwBank) (st : Store) :
    (st.setUpdBank b).updBankB = st.updBankB ∧ (st.setUpdBank b).updLen = st.updLen ∧ (st.setUpdBank b).updGot = st.updGot := by
  unfold Store.setUpdBank
  split <;> exact ⟨rfl, rfl, rfl⟩

theorem setUpdBank_keepsOther (b : FwBank) (st : Store) : KeepsOtherBank st (st.setUpdBank b) := by
  unfold Store.setUpdBank
  split
  · exact ⟨fun _ => rfl, fun h => by simp_all⟩
  · exact ⟨fun h => absurd h ‹_›, fun _ => rfl⟩

theorem Archives.updBankB {s t : State} (h : Archives s t) : t.store.updBankB = s.store.updBankB := by rw [h.1]

theorem Archives.updBank {s t : State} (h : Archives s t) : t.store.updBank = s.store.updBank := by
  obtain ⟨hA, hB, -⟩ := h.sameBanks
  rw [Store.updBank, h.updBankB, hA, hB, Store.updBank]

/-! ### The three commands -/

theorem exec_fwUpdateBegin_served {i len seq : Nat} {s : State} (h : Served i 0x60 s) (hlen : leAt (reqOf s i).payload 0 4 = len)
    (hseq : leAt (reqOf s i).payload 4 4 = seq) (hargs : updateArgsBad len seq s = false) :
    exec (.fwUpdateBegin i) s = .next (reply i (reqOf s i) stOk [] (beginUpdate len seq (take i s))) := by
  have hargs' : updateArgsBad len seq (take i s) = false := hargs
  show execFwUpdateBegin i s = _
  rw [execFwUpdateBegin, serve_served h]
  dsimp only
  rw [hlen, hseq, hargs', if_neg Bool.false_ne_true]

/-- The flash after bytes of an image that follow on the `o` bytes received. -/
def appendUpdate (o : Nat) (data : List Byte) (st : Store) : Store :=
  Store.setUpdBank { st.updBank with bytes := st.updBank.bytes ++ data } { st with updGot := o + data.length }

theorem exec_fwUpdateData_served {i o : Nat} {s : State} (h : Served i 0x61 s) (ho : leAt (reqOf s i).payload 0 4 = o)
    (hdata : updateData o ((reqOf s i).payload.drop 4) s = true) :
    exec (.fwUpdateData i) s =
      .next (reply i (reqOf s i) stOk [] { take i s with store := appendUpdate o ((reqOf s i).payload.drop 4) s.store }) := by
  have hdata' : updateData o ((reqOf s i).payload.drop 4) (take i s) = true := hdata
  show execFwUpdateData i s = _
  rw [execFwUpdateData, serve_served h]
  dsimp only
  rw [ho, if_pos hdata']
  rfl

theorem appendUpdate_effect (o : Nat) (data : List Byte) (st : Store) : (appendUpdate o data st).updGot = o + data.length ∧
    (appendUpdate o data st).updBank.bytes = st.updBank.bytes ++ data ∧ KeepsOtherBank st (appendUpdate o data st) := by
  obtain ⟨-, -, hgot⟩ := setUpdBank_fields { st.updBank with bytes := st.updBank.bytes ++ data } { st with updGot := o + data.length }
  exact ⟨hgot, congrArg FwBank.bytes (setUpdBank_updBank _ _), setUpdBank_keepsOther _ { st with updGot := o + data.length }⟩

/-- FW_UPDATE_END of a whole image answers by its read-back and its checks. -/
theorem exec_fwUpdateEnd_served {i : Nat} {s : State} (imageOk commitOk : Bool) (h : Served i 0x62 s) (hlen : s.store.updLen ≠ 0)
    (hgot : s.store.updLen ≤ s.store.updGot) : exec (.fwUpdateEnd i imageOk commitOk) s = .next
      (if imageOk && imageGood (leAt (reqOf s i).payload 0 4) s.store then
        if commitOk then resetAfter i (reply i (reqOf s i) stOk [] (commitUpdate (take i s)))
        else reply i (reqOf s i) errFlash [] (drainStore (snapshot (take i s)))
      else reply i (reqOf s i) errFlash [] (take i s)) := by
  have hwhole : ¬ ((take i s).store.updLen = 0 ∨ (take i s).store.updGot < (take i s).store.updLen) := not_or.mpr ⟨hlen, Nat.not_lt.mpr hgot⟩
  show execFwUpdateEnd i imageOk commitOk s = _
  rw [execFwUpdateEnd, serve_served h, if_neg hwhole]
  rfl

/-! ### Begin and end -/

/-- The flash as an update of the target bank begins. -/
def erasedStore (len seq : Nat) (s : State) : Store :=
  (Store.setUpdBank {} { s.store with updLen := len, updSeq := word seq, updGot := 0, updBankB := targetB s }).countErase (bit (targetB s) 0)

theorem erasedStore_effect (len seq : Nat) (s : State) : (erasedStore len seq s).updLen = len ∧ (erasedStore len seq s).updGot = 0 ∧
    (erasedStore len seq s).updBankB = targetB s ∧ (erasedStore len seq s).updBank = {} ∧
    (targetB s = true → (erasedStore len seq s).fwA = s.store.fwA) ∧ (targetB s = false → (erasedStore len seq s).fwB = s.store.fwB) := by
  generalize hst : { s.store with updLen := len, updSeq := word seq, updGot := 0, updBankB := targetB s } = st
  have herased : erasedStore len seq s = (st.setUpdBank {}).countErase (bit (targetB s) 0) := by rw [erasedStore, hst]
  obtain ⟨hbank, hlen, hgot⟩ := setUpdBank_fields {} st
  have hempty := setUpdBank_updBank {} st
  obtain ⟨hA, hB⟩ := setUpdBank_keepsOther {} st
  rw [herased]
  subst hst
  exact ⟨hlen, hgot, hbank, hempty, hA, hB⟩

/-- From READY an update erases its bank and enters UPDATE; of the flash only the counts move besides. -/
theorem beginUpdate_ready (len seq : Nat) {s : State} (h : s.keeper.dev = .ready) :
    Touches { s with keeper := { s.keeper with dev := .update }, store := erasedStore len seq s } (beginUpdate len seq s) := by
  have hnot : ¬ s.keeper.dev = .update := by rw [h]; exact DevState.noConfusion
  have hbegin : beginUpdate len seq s =
      abortTests (fun _ => true) 0xA011 (State.setDev .update 1 { s with store := erasedStore len seq s }) := by
    simp only [beginUpdate, if_neg hnot]
    rfl
  have hdev : State.setDev .update 1 { s with store := erasedStore len seq s } =
      devChanged .update 1 { s with store := erasedStore len seq s } := by
    rw [setDev_changed (s := { s with store := erasedStore len seq s }) 1 hnot DevState.noConfusion, if_neg DevState.noConfusion, if_neg DevState.noConfusion]
  rw [hbegin, hdev]
  exact (devChanged_reports .update 1 { s with store := erasedStore len seq s }).touches.trans (abortTests_touches _ _ _)

/-- A commit writes the commit byte of the bank under update and ends the update. -/
theorem commitUpdate_effect (s : State) : (commitUpdate s).store.updBank = { s.store.updBank with commit := 0xA5 } ∧
    (commitUpdate s).store.updLen = 0 ∧ KeepsOtherBank s.store (commitUpdate s).store := by
  have harchives := (snapshot_archives (s.life (devStat 0x808) 1)).trans (drainStore_archives _)
  generalize hu : drainStore (snapshot (s.life (devStat 0x808) 1)) = u at harchives
  have hcommit : (commitUpdate s).store = { u.store.setUpdBank { u.store.updBank with commit := 0xA5 } with updLen := 0, updGot := 0 } := by
    rw [← hu]
    rfl
  have hbank : u.store.updBank = s.store.updBank := harchives.updBank
  have hbankB : u.store.updBankB = s.store.updBankB := harchives.updBankB
  obtain ⟨hA, hB, -⟩ := harchives.sameBanks
  obtain ⟨hotherA, hotherB⟩ := setUpdBank_keepsOther { u.store.updBank with commit := 0xA5 } u.store
  rw [hcommit]
  refine ⟨?_, rfl, fun h => (hotherA (hbankB.trans h)).trans hA, fun h => (hotherB (hbankB.trans h)).trans hB⟩
  exact (setUpdBank_updBank { u.store.updBank with commit := 0xA5 } u.store).trans (by rw [hbank])

/-- With no response held for its mailbox a command resets the device at once. -/
theorem resetAfter_released {i : Nat} {s : State} (h : ∀ e ∈ s.spi.held, e.1 ≠ i) : resetAfter i s = commandReset s := by
  have hnone : s.spi.held.any (·.1 == i) = false := List.any_eq_false.mpr fun e he => by simpa using h e he
  rw [resetAfter, hnone, if_neg Bool.false_ne_true]

end Sys2Proof.Machine

open Sys2Proof Sys2Proof.Machine

/-- Settles O15: the effect of each command on the bank under update, and what the records and the reset at its end leave of the banks. -/
theorem firmwareUpdateCommands : Obligations.FirmwareUpdateCommands := by
  unfold Obligations.FirmwareUpdateCommands
  intro i s
  refine ⟨fun len seq h hlen hseq hargs => exec_fwUpdateBegin_served h hlen hseq hargs, ?data, ?good, ?bad, ?begins, ?commits, ?resets⟩
  case data =>
    intro o h ho hdata
    have hanswers := reply_answers i (reqOf s i) stOk [] { take i s with store := appendUpdate o ((reqOf s i).payload.drop 4) s.store }
    obtain ⟨-, -, hcfg, hstore, -⟩ := hanswers.fields
    obtain ⟨hgot, hbytes, hA, hB⟩ := appendUpdate_effect o ((reqOf s i).payload.drop 4) s.store
    refine ⟨_, exec_fwUpdateData_served h ho hdata, ?_⟩
    rw [hstore]
    exact ⟨hgot, hbytes, hA, hB, hcfg, by rw [hanswers]; rfl⟩
  case good =>
    intro h hlen hgot hgood
    have hend (commitOk : Bool) := exec_fwUpdateEnd_served true commitOk h hlen hgot
    simp only [hgood, Bool.and_self, if_true] at hend
    refine ⟨hend true, _, hend false, ?_⟩
    obtain ⟨hA, hB, -⟩ := ((snapshot_archives (take i s)).trans (drainStore_archives _)).sameBanks
    exact ⟨hA, hB, by simp⟩
  case bad =>
    intro imageOk commitOk h hlen hgot hbad
    have hchecks : (imageOk && imageGood (leAt (reqOf s i).payload 0 4) s.store) = false := by
      rcases hbad with himage | himage <;> simp [himage]
    rw [exec_fwUpdateEnd_served imageOk commitOk h hlen hgot, hchecks, if_neg Bool.false_ne_true]
  case begins =>
    intro len seq hready
    obtain ⟨hlen, hgot, hbank, hempty, hA, hB⟩ := erasedStore_effect len seq s
    rw [beginUpdate_ready len seq hready]
    exact ⟨rfl, hlen, hgot, hbank, hempty, hA, hB, by simp⟩
  case commits =>
    exact commitUpdate_effect s
  case resets =>
    intro u hheld
    obtain ⟨v, hreset, hbanks, -⟩ := commandReset_resets u
    obtain ⟨hdev, hcause, hA, hB, -⟩ := (resetTo_rebooted 3 false v).startSequence.from_banks hbanks
    rw [resetAfter_released hheld, hreset]
    exact ⟨hcause, hdev, startSequence_stage _, hA, hB⟩
end

section
/-! PROOFS. DISCARD, and the rows of a commit: arming, switching, crossfades, completion and the store (R124, R126, R129 to R136). -/

namespace Sys2Proof.Machine

/-! ### DISCARD (R124) -/

theorem exec_discard_served {i : Nat} {s : State} (h : Served i 0x25 s) : exec (.discard i) s = .next (reply i (reqOf s i) stOk []
    { take i s with cfg := { s.cfg with pending := if s.cfg.commit.isSome then s.cfg.target else s.cfg.active } }) := by
  show execDiscard i s = _
  rw [execDiscard, serve_served h]
  rfl

/-! ### UNIT_ARM (R129, R131) -/

/-- The end of the unit's tests leaves the state of every channel. -/
theorem endForUnit_state (u : CUnit) (s : State) (d : Nat) : ((endForUnit u s).chan d).fsm.state = (s.chan d).fsm.state := by
  unfold endForUnit
  rw [abortTests_sameFsm]

/-- A channel of a unit that is armed keeps its state; in OFF it does not start before the unit has switched. -/
theorem holdForUnit_chan (u : CUnit) (s : State) {d : Nat} (hd : d < 208) :
    ((holdForUnit u s).chan d).fsm.state = (s.chan d).fsm.state ∧
    (restartsChan s.cfg.active s.cfg.target u d = true → (s.chan d).fsm.state = .off → ((holdForUnit u s).chan d).fsm.restart = true) := by
  rw [← endForUnit_state u s d]
  refine forUnits_units (get := State.chan) (P := fun _ => True)
    (R := fun c a b => b.fsm.state = a.fsm.state ∧ (restartsChan s.cfg.active s.cfg.target u c = true → a.fsm.state = .off → b.fsm.restart = true))
    (fun _ _ _ => trivial) (fun c k t hk => ?_) (fun c t hc _ => ?_) trivial hd
  · split
    · exact chan_modChan_other _ _ hk
    · rfl
  · split
    · rw [chan_modFsm_self _ _ hc]
      exact ⟨rfl, fun _ _ => rfl⟩
    · rename_i hskip
      exact ⟨rfl, fun hrestarts hoff => absurd (by simp [hrestarts, hoff]) hskip⟩

/-- A commit with unit `u` armed: in mode 0 block `k` is its first block where every unit of that block is now armed. -/
def armedCommit (k : Nat) (u : CUnit) (c : Commit) : Commit :=
  let units := c.units.map fun v => if v.unit = u then { v with armed := true } else v
  { c with units := units, k0 := if c.k0.isNone && units.all (fun v => v.armed || v.block != 0) then some k else c.k0 }

theorem armedCommit_k0 (k : Nat) (u : CUnit) {c : Commit} (h : c.k0 ≠ none) : (armedCommit k u c).k0 = c.k0 := by
  simp [armedCommit, h]

/-- A commit with the stop for unit `u` asked for. -/
def askedCommit (u : CUnit) (c : Commit) : Commit :=
  { c with units := c.units.map fun v => if v.unit = u then { v with asked := true } else v }

/-- Outside an agreement UNIT_ARM arms the next unit, or asks for its stop. -/
theorem exec_unitArm_next {s : State} {c : Commit} {u : UnitPlan} (hcommit : s.cfg.commit = some c) (halone : c.epoch = none)
    (hruns : s.keeper.halted = false) (hnext : c.units.find? (fun v => !v.armed) = some u) :
    exec .unitArm s = .next (if stoppedForUnit s u.unit then holdForUnit u.unit (modCommit (armedCommit (winK s) u.unit) s)
      else stopForUnit u.unit (modCommit (askedCommit u.unit) s)) := by
  show execUnitArm s = _
  unfold execUnitArm
  rw [hcommit]
  dsimp only
  rw [if_neg (by simp [hruns]), if_neg (by simp [halone]), hnext]
  dsimp only
  simp only [modCommit_some hcommit]
  split <;> rfl

/-! ### UNIT_SWITCH (R130, R131, R209) -/

/-- A unit of the commit's first block is not armed (R130). -/
def Commit.unready (c : Commit) : Prop := c.first = none ∧ ∃ v ∈ c.units, v.block = 0 ∧ v.armed = false

theorem Commit.unready_iff (c : Commit) : (c.first.isNone && c.units.any fun v => v.block == 0 && !v.armed) = true ↔ c.unready := by
  simp [unready]

theorem Commit.not_unready_iff (c : Commit) : ¬ c.unready ↔ (c.first = none → ∀ v ∈ c.units, v.block = 0 → v.armed = true) := by
  simp [unready]

/-- A commit whose units that have not switched are moved past block `k`, the next of them standing in block `b` (R130). -/
def movedCommit (k b : Nat) (c : Commit) : Commit := { c with shift := c.shift + ((k + 1 : Nat) : Int) - b, late := true }

section
variable {s : State} {c : Commit} {u : UnitPlan} (hcommit : s.cfg.commit = some c) (hlock : s.media.locked = true)
  (hgoes : s.media.halted = false) (hdue : c.units.find? (c.due (winK s)) = some u)
include hcommit hlock hgoes hdue

theorem exec_unitSwitch_unready (h : c.unready) : exec .unitSwitch s =
    .next { s with cfg := { s.cfg with commit := some { c with k0 := some (winK s + 1), late := true } } } := by
  show execUnitSwitch s = _
  unfold execUnitSwitch
  rw [hcommit]
  dsimp only
  rw [hdue]
  dsimp only
  rw [if_neg (by simp [hlock, hgoes]), if_pos (c.unready_iff.mpr h), modCommit_some hcommit]

theorem exec_unitSwitch_ready (h : ¬ c.unready) : exec .unitSwitch s =
    .next (if u.armed && stoppedForUnit s u.unit then switchUnit u ((c.blockOf u).getD 0) s
      else
        let t := modCommit (movedCommit (winK s) ((c.blockOf u).getD 0)) s
        if u.armed && !s.keeper.halted then stopForUnit u.unit t else t) := by
  show execUnitSwitch s = _
  unfold execUnitSwitch
  rw [hcommit]
  dsimp only
  rw [hdue]
  dsimp only
  rw [if_neg (by simp [hlock, hgoes]), if_neg (mt c.unready_iff.mp h)]
  split <;> rfl

end

/-- A switch changes the active bank and the commit of the configuration, and of the commit only this unit switches. -/
theorem switchUnit_cfg (u : UnitPlan) (b : Nat) {s : State} {c : Commit} (hcommit : s.cfg.commit = some c) :
    ∃ c', (switchUnit u b s).cfg = { s.cfg with active := copyUnit s.cfg.target u.unit s.cfg.active, commit := some c' } ∧
      c'.units = c.units.map fun v => if v.unit = u.unit then { v with switched := true } else v := by
  simp [switchUnit, modCommit, hcommit]

/-! ### CROSSFADE_END, COMMIT_DONE and CFG_STORE (R132, R134, R136) -/

/-- The end of a commit changes the configuration alone of what must stand, and asks for its store where it is wanted and not in flash already (R136). -/
theorem exec_commitDone_quiet {s : State} {c : Commit} (hcommit : s.cfg.commit = some c) (hruns : s.keeper.halted = false)
    (hover : commitOver s c = true) : ∃ t, exec .commitDone s = .next t ∧ Quiet { s with cfg := { s.cfg with
      active := s.cfg.target, whole := s.cfg.target, commit := none
      storePending := if s.cfg.target.flag 0x01 0 9 && !inFlash s.store s.cfg.target then some c.ticket else none } } t := by
  show ∃ t, execCommitDone s = .next t ∧ _
  unfold execCommitDone
  rw [hcommit]
  dsimp only
  rw [if_neg (by simp [hruns, hover])]
  exact ⟨_, rfl, by simp, by simp, by simp, by simp⟩

theorem storeBank_le_one (st : Store) : storeBank st ≤ 1 := by
  unfold storeBank
  split <;> omega

theorem cfgBankOf_setCfgBank_other {i : Nat} (h : i ≤ 1) (b : CfgBank) (st : Store) : cfgBankOf (setCfgBank i b st) (1 - i) = cfgBankOf st (1 - i) := by
  obtain rfl | rfl : i = 0 ∨ i = 1 := by omega
  · rfl
  · rfl

theorem cfgBankOf_countErase (n : Nat) (st : Store) (i : Nat) : cfgBankOf (st.countErase n) i = cfgBankOf st i := rfl

/-- The state after the write of the configuration, but for its record. -/
def cfgStored (ok : Bool) (s : State) : State :=
  { s with
    store := (setCfgBank (storeBank s.store) ⟨if ok then 0xA5 else 0xFF, storeSeq s.store, word s.twin.epoch, s.cfg.whole⟩ s.store).countErase
      (2 + storeBank s.store)
    cfg := { s.cfg with storePending := none } }

theorem exec_cfgStore_reports {s : State} {n : Nat} (ok : Bool) (hdue : s.cfg.storePending = some n) (hfree : keeperFree s = true)
    (hlog : canLog s = true) (hflash : flashOn s = true) (hdev : s.keeper.dev ≠ .standby) (hlast : s.store.lastPending = false) :
    exec (.cfgStore ok) s = .next ((cfgStored ok s).raise (if ok then 0x9002 else 0x9003) 0
      (if ok then [word n, word (storeBank s.store), storeSeq s.store] else [word n, word (storeBank s.store)])) := by
  show execCfgStore ok s = _
  unfold execCfgStore
  rw [hdue]
  dsimp only
  rw [if_pos (by simp [hfree, hlog, hflash, hdev, hlast])]
  cases ok <;> rfl

end Sys2Proof.Machine

open Sys2Proof Sys2Proof.Machine

/-- Settles O10: the two cases are the test of the one equation for a commit in progress, decided each way. -/
theorem discardSetsThePendingBank : Obligations.DiscardSetsThePendingBank := by
  intro i s hserved
  refine ⟨fun k hcommit => ?_, fun hnone => ?_⟩
  · rw [exec_discard_served hserved, hcommit]
    rfl
  · rw [exec_discard_served hserved, hnone]
    rfl

/-- Settles O28: each row by the equation of its command, and what the operations that it calls leave. That UNIT_ARM asks for the stop, arms only
where it has ended and asks again is the model's reading of R129 and R131 (notes/assumptions/46.md). -/
theorem commitRows : Obligations.CommitRows := by
  intro s
  refine ⟨?arm, ?switch, ?crossfade, ?done, ?store⟩
  case arm =>
    intro c u hcommit halone hruns hnext
    rw [exec_unitArm_next hcommit halone hruns hnext, modCommit_some hcommit, modCommit_some hcommit]
    refine ⟨fun hstopped => ?_, fun hgoing => ?_⟩
    · rw [if_pos hstopped]
      exact ⟨armedCommit (winK s) u.unit c, _, rfl, holdForUnit_frame _ _, rfl, armedCommit_k0 _ _, fun d hd => holdForUnit_chan u.unit _ hd⟩
    · rw [if_neg (by simp [hgoing])]
      exact ⟨_, rfl, stopForUnit_frame _ _⟩
  case switch =>
    intro c u hcommit hlock hgoes hdue
    by_cases hunready : c.unready
    · refine ⟨_, exec_unitSwitch_unready hcommit hlock hgoes hdue hunready, rfl, rfl, rfl, rfl, rfl, fun _ _ => rfl, ?_, ?_, ?_⟩
      all_goals exact fun hready => absurd hunready (c.not_unready_iff.mpr hready)
    have hvacuous {P : Prop} (hfirst : c.first = none) (hv : ∃ v ∈ c.units, v.block = 0 ∧ v.armed = false) : P := absurd ⟨hfirst, hv⟩ hunready
    rw [exec_unitSwitch_ready hcommit hlock hgoes hdue hunready]
    by_cases hswitch : u.armed = true ∧ stoppedForUnit s u.unit = true
    · obtain ⟨harmed, hstopped⟩ := hswitch
      obtain ⟨c', hcfg, hunits⟩ := switchUnit_cfg u ((c.blockOf u).getD 0) hcommit
      obtain ⟨hpending, hmem, hsram⟩ := switchUnit_frame u ((c.blockOf u).getD 0) s
      rw [if_pos (by simp [harmed, hstopped])]
      refine ⟨_, rfl, by rw [hcfg], by rw [hcfg], hpending, hmem, hsram, hvacuous,
        fun _ _ _ => ⟨by rw [hcfg], c', by rw [hcfg], hunits⟩, ?_, ?_⟩
      · simp [harmed, hstopped]
      · simp [hstopped]
    rw [if_neg (by simpa using hswitch), modCommit_some hcommit]
    dsimp only
    by_cases hasks : u.armed = true ∧ s.keeper.halted = false
    · obtain ⟨harmed, hruns⟩ := hasks
      obtain ⟨hpending, hmem, hsram, hcfg⟩ := stopForUnit_frame u.unit
        { s with cfg := { s.cfg with commit := some (movedCommit (winK s) ((c.blockOf u).getD 0) c) } }
      rw [if_pos (by simp [harmed, hruns])]
      refine ⟨_, rfl, by rw [hcfg], by rw [hcfg], hpending, hmem, hsram, hvacuous, ?_, ?_, ?_⟩
      · exact fun _ _ hstopped => absurd ⟨harmed, hstopped⟩ hswitch
      · simp [harmed, hruns]
      · exact fun _ _ _ _ => ⟨hpending, hmem, hsram, hcfg⟩
    · rw [if_neg (by simpa using hasks)]
      refine ⟨_, rfl, rfl, rfl, rfl, rfl, rfl, hvacuous, ?_, fun _ _ => rfl, ?_⟩
      · exact fun _ harmed hstopped => absurd ⟨harmed, hstopped⟩ hswitch
      · exact fun _ harmed _ hruns => absurd ⟨harmed, hruns⟩ hasks
  case crossfade =>
    intro c x hfade hover hc
    refine ⟨_, exec_crossfadeEnd_over hfade hover, ?_, rfl, rfl, rfl, rfl⟩
    exact congrArg Chan.dsp (chan_modDsp_self s (fun d => { d with xf := none }) hc)
  case done =>
    intro c hcommit hruns hover
    obtain ⟨t, hstep, hpending, hmem, hsram, hcfg⟩ := exec_commitDone_quiet hcommit hruns hover
    exact ⟨t, hstep, by rw [hcfg], by rw [hcfg], by rw [hcfg], by rw [hcfg], hpending, hmem, hsram⟩
  case store =>
    intro n ok hdue hfree hlog hflash hdev hlast
    refine ⟨_, exec_cfgStore_reports ok hdue hfree hlog hflash hdev hlast, ?_, ?_, by rw [raise_reports]; rfl, (raise_raised _ _ _ _).of_log rfl rfl⟩
    · rw [raise_reports]
      exact (cfgBankOf_countErase _ _ _).trans (cfgBankOf_setCfgBank _ _ _)
    · rw [raise_reports]
      exact (cfgBankOf_countErase _ _ _).trans (cfgBankOf_setCfgBank_other (storeBank_le_one _) _ _)

end

section
/-! PROOFS. The stream engine: the packets of the merge, fades and re-entries, overruns, skews and lost paths (R143 to R157, R168). -/

namespace Sys2Proof.Machine

/-! ### What the stream engine may change -/

/-- From `s` to `t` only streams, the log with its notices and interrupt bits, and counters may differ. -/
def StreamsOnly (s t : State) : Prop := Reports { s with streams := t.streams } t

theorem StreamsOnly.rfl' (s : State) : StreamsOnly s s := rfl

theorem StreamsOnly.trans {s t u : State} (h : StreamsOnly s t) (k : StreamsOnly t u) : StreamsOnly s u := by
  unfold StreamsOnly Reports at *
  rw [k, h]

theorem Reports.streamsOnly {s t : State} (h : Reports s t) : StreamsOnly s t := by
  unfold StreamsOnly Reports at *
  rw [h]

theorem modStream_streamsOnly (s : State) (st : Nat) (f : Stream → Stream) : StreamsOnly s (s.modStream st f) := rfl

theorem StreamsOnly.fields {s t : State} (h : StreamsOnly s t) : Quiet s t ∧ t.chans = s.chans ∧ t.ports = s.ports ∧ t.media = s.media := by
  rw [h]
  exact ⟨⟨rfl, rfl, rfl, rfl⟩, rfl, rfl, rfl⟩

theorem Reports.stream {s t : State} (h : Reports s t) (st : Nat) : t.stream st = s.stream st := by rw [h]; rfl

theorem streamCode_reports (code st : Nat) (s : State) : Reports s (streamCode code st s) := raiseHeld_reports _ _ _ _ _ s

@[simp] theorem streamCode_stream (code st k : Nat) (s : State) : (streamCode code st s).stream k = s.stream k :=
  (streamCode_reports code st s).stream k

/-! ### Counters of the sparse map (R11, Table 6.13) -/

/-- The counters stay in canonical form and `id` stands. -/
def KeepsCount (id : Nat) (s t : State) : Prop :=
  SMap.wf 0 s.counters = true → SMap.wf 0 t.counters = true ∧ SMap.get 0 id t.counters = SMap.get 0 id s.counters

/-- The counters stay in canonical form and `id` has counted one event. -/
def CountsOne (id : Nat) (s t : State) : Prop :=
  SMap.wf 0 s.counters = true →
    SMap.wf 0 t.counters = true ∧ SMap.get 0 id t.counters = word (satAdd 32 (SMap.get 0 id s.counters).toNat 1)

theorem KeepsCount.of_eq {id : Nat} {s t : State} (h : t.counters = s.counters) : KeepsCount id s t := by
  intro hwf
  rw [h]
  exact ⟨hwf, rfl⟩

theorem KeepsCount.trans {id : Nat} {s t u : State} (h : KeepsCount id s t) (k : KeepsCount id t u) : KeepsCount id s u := fun hwf =>
  ⟨(k (h hwf).1).1, (k (h hwf).1).2.trans (h hwf).2⟩

theorem KeepsCount.from_eq {id : Nat} {s t u : State} (k : KeepsCount id t u) (h : t.counters = s.counters) : KeepsCount id s u :=
  (KeepsCount.of_eq h).trans k

theorem CountsOne.keeps {id : Nat} {s t u : State} (h : CountsOne id s t) (k : KeepsCount id t u) : CountsOne id s u := fun hwf =>
  ⟨(k (h hwf).1).1, (k (h hwf).1).2.trans (h hwf).2⟩

theorem KeepsCount.counts {id : Nat} {s t u : State} (h : KeepsCount id s t) (k : CountsOne id t u) : CountsOne id s u := fun hwf =>
  ⟨(k (h hwf).1).1, by rw [(k (h hwf).1).2, (h hwf).2]⟩

theorem count_countsOne (id : Nat) (s : State) : CountsOne id s (s.count id 1) := fun hwf => ⟨SMap.put_wf hwf, SMap.get_put_same hwf⟩

theorem count_keepsCount {id k : Nat} (h : id ≠ k) (n : Nat) (s : State) : KeepsCount id s (s.count k n) := fun hwf =>
  ⟨SMap.put_wf hwf, SMap.get_put_other hwf h⟩

/-- The counters of the streams lie beyond those of the log and of the ports. -/
theorem send_keepsCount {id : Nat} (h : netStat 0x100 ≤ id) (f : Sent) (s : State) : KeepsCount id s (s.send f) := by
  unfold State.send
  dsimp only
  split
  · refine (count_keepsCount ?_ 1 _).from_eq rfl
    unfold netStat pid at *
    omega
  · exact KeepsCount.of_eq rfl

theorem irq_keepsCount {id : Nat} (h : netStat 0x100 ≤ id) (m : Word) (s : State) : KeepsCount id s (s.irq m) := by
  unfold State.irq
  exact foldl_invariant (P := KeepsCount id s) (fun t f ht => ht.trans (send_keepsCount h f t)) _
    (s := { s with spi := irqSpi s.keeper.halted m s.spi }) (KeepsCount.of_eq rfl)

theorem raise_keepsCount {id : Nat} (h : netStat 0x100 ≤ id) (code inst : Nat) (data : List Word) (s : State) :
    KeepsCount id s (s.raise code inst data) := by
  have hlost : id ≠ devStat 0x704 := by
    unfold netStat devStat pid at *
    omega
  unfold State.raise State.enter
  dsimp only
  split
  · refine KeepsCount.trans ?_ (irq_keepsCount h _ _)
    split
    · exact KeepsCount.of_eq rfl
    · exact (count_keepsCount hlost _ _).from_eq rfl
  · exact KeepsCount.of_eq rfl

theorem le_streamStat (st k : Nat) : netStat 0x100 ≤ streamStat st k := by
  unfold streamStat netStat pid
  omega

theorem streamStat_ne {j k : Nat} (st : Nat) (h : j ≠ k) : streamStat st j ≠ streamStat st k := by
  unfold streamStat netStat pid
  omega

theorem streamCode_keepsCount {id : Nat} (h : netStat 0x100 ≤ id) (code st : Nat) (s : State) : KeepsCount id s (streamCode code st s) := by
  unfold streamCode State.raiseHeld
  dsimp only
  split
  · exact KeepsCount.of_eq rfl
  split
  · exact KeepsCount.of_eq rfl
  · exact (raise_keepsCount h _ _ _ _).from_eq rfl

/-! ### A packet meets the merge (R149 to R151) -/

/-- Of a stream only the numbers received on each side and the skews may differ. -/
def MetOnly (v w : Stream) : Prop := w = { v with sides := w.sides, skews := w.skews, skewRaised := w.skewRaised }

theorem MetOnly.rfl' (v : Stream) : MetOnly v v := rfl

theorem MetOnly.trans {u v w : Stream} (h : MetOnly u v) (k : MetOnly v w) : MetOnly u w := by
  unfold MetOnly at *
  rw [k, h]

/-- A step towards the merge: of stream `st` only sides and skews differ, and of its counters only the gaps of each side. -/
def Met (st : Nat) (s t : State) : Prop :=
  StreamsOnly s t ∧ MetOnly (s.stream st) (t.stream st) ∧ ∀ k, k ≠ 3 → k ≠ 4 → KeepsCount (streamStat st k) s t

theorem Met.rfl' (st : Nat) (s : State) : Met st s s := ⟨rfl, rfl, fun _ _ _ => KeepsCount.of_eq rfl⟩

theorem Met.trans {st : Nat} {s t u : State} (h : Met st s t) (k : Met st t u) : Met st s u :=
  ⟨h.1.trans k.1, h.2.1.trans k.2.1, fun j h3 h4 => (h.2.2 j h3 h4).trans (k.2.2 j h3 h4)⟩

theorem modStream_met {st : Nat} (hst : st < 32) (s : State) {f : Stream → Stream} (h : ∀ v, MetOnly v (f v)) : Met st s (s.modStream st f) :=
  ⟨modStream_streamsOnly s st f, by rw [stream_modStream_self s f hst]; exact h _, fun _ _ _ => KeepsCount.of_eq rfl⟩

theorem sideTake_met {st side : Nat} (hst : st < 32) (hside : side < 2) (seq : Nat) (s : State) : Met st s (sideTake st side seq s) := by
  have hput : ∀ q, Met st s (s.modStream st fun t => { t with sides := t.sides.set side q }) := fun _ => modStream_met hst s fun _ => rfl
  unfold sideTake
  dsimp only
  split
  · exact hput _
  split
  · exact hput _
  split
  · exact hput _
  · refine (hput _).trans ⟨(count_reports _ _ _).streamsOnly, MetOnly.rfl' _, fun k h3 h4 => count_keepsCount (streamStat_ne st ?_) _ _⟩
    omega

theorem skewTake_met {st : Nat} (hst : st < 32) (side tick : Nat) (c : Copy) (s : State) : Met st s (skewTake st side tick c s) := by
  unfold skewTake
  split
  · exact Met.rfl' st s
  · exact modStream_met hst s fun _ => rfl

/-- The extended sequence number of a packet. -/
def extOf (v : Stream) (seq : Nat) : Nat := match v.lastSeq with | some l => nearMod 65536 seq l | none => seq + 65536

/-- The remembered packet with an extended sequence number (R149). -/
def copyOf? (v : Stream) (ext : Nat) : Option Copy := v.seen.find? (·.ext == ext)

/-- The state in which a packet is judged: its number is taken on its side, and the skew to its copy. -/
def packetMet (st side : Nat) (u : List Byte) (tick : Nat) (s : State) : State :=
  let s0 := sideTake st side (beAt u 2 2) s
  match copyOf? (s0.stream st) (extOf (s0.stream st) (beAt u 2 2)) with
  | some c => skewTake st side tick c s0
  | none => s0

theorem packetMet_met {st side : Nat} (hst : st < 32) (hside : side < 2) (u : List Byte) (tick : Nat) (s : State) :
    Met st s (packetMet st side u tick s) := by
  have hside := sideTake_met hst hside (beAt u 2 2) s
  unfold packetMet
  dsimp only
  split
  · exact hside.trans (skewTake_met hst side tick _ _)
  · exact hside

/-! ### How a packet is judged (R147 to R153) -/

/-- The SSRC is another one than that of the stream (R147). -/
def otherSsrc (v : Stream) (u : List Byte) : Bool := match v.ssrc with | some l => l != beAt u 8 4 | none => false

/-- A placed index lies in the fade of received data, which a later packet may cover again. -/
def inFade (v : Stream) (i : Nat) : Bool := 
  v.fadeReal && match v.fadeFrom with | some f => decide (f ≤ i) && decide (i < f + 32) | none => false

/-- One of the `n` indices from `p` on is taken. -/
def placeTaken (v : Stream) (p n : Nat) : Bool := (List.range n).any fun i => covered v.placed (p + i) && !inFade v (p + i)

/-- A packet that contradicts the stream counts as a mismatch. -/
def countMismatch (st : Nat) (s : State) : State := streamCode 0x2004 st (s.count (streamStat st 9) 1)

/-- A late packet counts on its side with a margin of 0. -/
def packetLate (st side tick : Nat) (s : State) : State :=
  (s.count (streamStat st (5 + side)) 1).modStream st fun t => { t with margins := slide secondTicks (tick, 0) t.margins }

/-- A packet in time counts on its side with its margin `m`. -/
def packetOnTime (st side tick m : Nat) (s : State) : State :=
  (s.count (streamStat st (1 + side)) 1).modStream st fun t =>
    sideOnTime side tick { t with margins := slide secondTicks (tick, -(m : Rat)) t.margins }

/-- A packet whose number is remembered: a duplicate, or one that contradicts its copy. -/
def packetAgain (st : Nat) (u : List Byte) (c : Copy) (s : State) : State :=
  if c.ssrc = beAt u 8 4 ∧ c.ts = beAt u 4 4 ∧ c.len = u.length then s.count (streamStat st 8) 1 else countMismatch st s

/-- A packet is placed at `pl` and remembered (R145, R149, R157). -/
def packetPlaced (st side tick m : Nat) (u : List Byte) (b : Bank) (pl : Nat × Option Int) (v : Stream) (s : State) : State :=
  s.modStream st fun t => { t with
    ssrc := some (beAt u 8 4), lastSeq := some (extOf v (beAt u 2 2)), arrivalBase := pl.2
    seen := (⟨extOf v (beAt u 2 2), beAt u 8 4, beAt u 4 4, u.length, side, tick⟩ :: t.seen).take 64
    placed := t.placed ++ [⟨pl.1, if b.streamHi st then 1 else 2, rtpFrames b st u⟩]
    overrun := if t.arrival ∧ b.streamM0 st + 128 < m then some (m - b.streamM0 st) else t.overrun }

/-- A packet in time with a new number: its place is taken, too far ahead, or free. -/
def packetNew (st side tick m : Nat) (u : List Byte) (b : Bank) (read : Nat) (pl : Nat × Option Int) (v : Stream) (s : State) : State :=
  if placeTaken v pl.1 (b.streamN st) then countMismatch st s
  else if read + 512 ≤ pl.1 + b.streamN st - (if b.streamHi st then 1 else 2) then s.count (streamStat st 7) 1
  else packetPlaced st side tick m u b pl v s

/-- The margin of a packet that is placed at `p`. -/
def marginOf (p tick : Nat) : Nat := ((p - 24) * 512 - tick) / 512

theorem streamMerge_eq (st side : Nat) (u : List Byte) (tick : Nat) (s : State) : streamMerge st side u tick s =
    let v := (sideTake st side (beAt u 2 2) s).stream st
    let s1 := packetMet st side u tick s
    let pl := placeOf s1 st (beAt u 4 4) tick
    let s2 := packetOnTime st side tick (marginOf pl.1 tick) s1
    if otherSsrc v u then countMismatch st s1
    else if (pl.1 - 24) * 512 < tick then packetLate st side tick s1
    else match copyOf? v (extOf v (beAt u 2 2)) with
      | some c => packetAgain st u c s2
      | none => packetNew st side tick (marginOf pl.1 tick) u s.cfg.active (readPoint s) pl v s2 := by
  rfl

theorem otherSsrc_iff (v : Stream) (u : List Byte) : otherSsrc v u = true ↔ ∃ l, v.ssrc = some l ∧ l ≠ beAt u 8 4 := by
  unfold otherSsrc
  cases v.ssrc <;> simp

theorem copyOf?_eq_none (v : Stream) (ext : Nat) : copyOf? v ext = none ↔ ∀ c ∈ v.seen, c.ext ≠ ext := by
  simp [copyOf?]

theorem inFade_iff (v : Stream) (i : Nat) : inFade v i = true ↔ v.fadeReal = true ∧ ∃ f, v.fadeFrom = some f ∧ f ≤ i ∧ i < f + 32 := by
  unfold inFade
  cases v.fadeFrom <;> simp

theorem placeTaken_eq_false {v : Stream} {p n : Nat} : placeTaken v p n = false ↔ ∀ i, i < n → covered v.placed (p + i) = true →
    v.fadeReal = true ∧ ∃ f, v.fadeFrom = some f ∧ f ≤ p + i ∧ p + i < f + 32 := by
  simp only [placeTaken, List.any_eq_false, List.mem_range, Bool.and_eq_true, Bool.not_eq_true', not_and, Bool.not_eq_false, inFade_iff]

/-- A place is taken where an index of it is covered outside a fade of received data. -/
theorem placeTaken_of_covered {v : Stream} {p n i : Nat} (hi : i < n) (hcovered : covered v.placed (p + i) = true)
    (hfade : v.fadeReal = false ∨ ∀ f, v.fadeFrom = some f → p + i < f ∨ f + 32 ≤ p + i) : placeTaken v p n = true := by
  by_contra h
  obtain ⟨hreal, f, hf, hfrom, hto⟩ := placeTaken_eq_false.mp (Bool.eq_false_iff.mpr h) i hi hcovered
  rcases hfade with hno | hout
  · exact nomatch hno.symm.trans hreal
  · have hf := hout f hf
    omega

/-- Where a packet goes does not depend on what it met. -/
theorem placeOf_met {st : Nat} {s t : State} (h : Met st s t) (ts tick : Nat) : placeOf t st ts tick = placeOf s st ts tick := by
  obtain ⟨⟨-, -, -, hcfg⟩, -, -, hmedia⟩ := h.1.fields
  unfold placeOf
  rw [h.2.1, hcfg, hmedia]

/-- The judgement of a packet in terms of the stream as it stands before it (R147 to R153). -/
theorem streamMerge_judged {st side : Nat} (hst : st < 32) (hside : side < 2) (u : List Byte) (tick : Nat) (s : State) :
    streamMerge st side u tick s =
      let s1 := packetMet st side u tick s
      let pl := placeOf s st (beAt u 4 4) tick
      let s2 := packetOnTime st side tick (marginOf pl.1 tick) s1
      if otherSsrc (s.stream st) u then countMismatch st s1
      else if (pl.1 - 24) * 512 < tick then packetLate st side tick s1
      else match copyOf? (s.stream st) (extOf (s.stream st) (beAt u 2 2)) with
        | some c => packetAgain st u c s2
        | none => packetNew st side tick (marginOf pl.1 tick) u s.cfg.active (readPoint s) pl (s.stream st) s2 := by
  have hv := (sideTake_met hst hside (beAt u 2 2) s).2.1
  rw [streamMerge_eq]
  dsimp only
  rw [placeOf_met (packetMet_met hst hside u tick s), hv]
  rfl

/-! ### What each judgement leaves -/

/-- Of a stream only what a packet in time enters may differ: its margin, its side's number and delivery, and the skews. -/
def TimedOnly (tick m : Nat) (v w : Stream) : Prop :=
  w = { v with sides := w.sides, skews := w.skews, skewRaised := w.skewRaised, since := w.since, lastOn := w.lastOn
               margins := slide secondTicks (tick, -(m : Rat)) v.margins }

/-- A packet of `side` has counted as on time with margin `m`, and nothing beyond the counts of on-time packets and gaps. -/
def Timed (st side tick m : Nat) (s t : State) : Prop :=
  StreamsOnly s t ∧ TimedOnly tick m (s.stream st) (t.stream st) ∧ CountsOne (streamStat st (1 + side)) s t ∧
    ∀ k, 5 ≤ k → KeepsCount (streamStat st k) s t

theorem packetOnTime_timed {st side tick m : Nat} (hst : st < 32) (hside : side < 2) {s t : State} (h : Met st s t) :
    Timed st side tick m s (packetOnTime st side tick m t) := by
  obtain ⟨honly, hmet, hkeeps⟩ := h
  unfold packetOnTime
  refine ⟨honly.trans rfl, ?_, ?_, fun k hk => ?_⟩
  · rw [stream_modStream_self _ _ hst]
    have hcount : (t.count (streamStat st (1 + side)) 1).stream st = t.stream st := rfl
    rw [hcount, hmet]
    rfl
  · exact ((hkeeps _ (by omega) (by omega)).counts (count_countsOne _ t)).keeps (KeepsCount.of_eq rfl)
  · exact ((hkeeps k (by omega) (by omega)).trans (count_keepsCount (streamStat_ne st (by omega)) 1 t)).trans (KeepsCount.of_eq rfl)

theorem countMismatch_streamsOnly (st : Nat) (s : State) : StreamsOnly s (countMismatch st s) :=
  (count_reports _ _ s).streamsOnly.trans (streamCode_reports _ _ _).streamsOnly

theorem countMismatch_stream (st k : Nat) (s : State) : (countMismatch st s).stream k = s.stream k := streamCode_stream _ _ _ _

theorem countMismatch_countsOne (st : Nat) (s : State) : CountsOne (streamStat st 9) s (countMismatch st s) :=
  (count_countsOne _ s).keeps (streamCode_keepsCount (le_streamStat st 9) _ _ _)

theorem countMismatch_keepsCount {k : Nat} (st : Nat) (hk : k ≠ 9) (s : State) : KeepsCount (streamStat st k) s (countMismatch st s) :=
  (count_keepsCount (streamStat_ne st hk) 1 s).trans (streamCode_keepsCount (le_streamStat st k) _ _ _)

/-- A late packet leaves what is placed. -/
theorem packetLate_spec {st side tick : Nat} (hst : st < 32) {s t : State} (h : Met st s t) :
    StreamsOnly s (packetLate st side tick t) ∧ ((packetLate st side tick t).stream st).placed = (s.stream st).placed ∧
    ((packetLate st side tick t).stream st).margins = slide secondTicks (tick, 0) (s.stream st).margins ∧
    CountsOne (streamStat st (5 + side)) s (packetLate st side tick t) := by
  obtain ⟨honly, hmet, hkeeps⟩ := h
  have hcount : (t.count (streamStat st (5 + side)) 1).stream st = t.stream st := rfl
  unfold packetLate
  rw [stream_modStream_self _ _ hst, hcount, hmet]
  exact ⟨honly.trans rfl, rfl, rfl, ((hkeeps _ (by omega) (by omega)).counts (count_countsOne _ t)).keeps (KeepsCount.of_eq rfl)⟩

/-- A packet of `side` has counted as on time and its margin `m` has entered the margins (R152, Table 6.13). -/
def Timely (st side tick m : Nat) (s t : State) : Prop := StreamsOnly s t ∧ CountsOne (streamStat st (1 + side)) s t ∧
  (t.stream st).margins = slide secondTicks (tick, -(m : Rat)) (s.stream st).margins

/-- A packet in time is not placed and counts under `k`. -/
def NotPlaced (st k : Nat) (s t : State) : Prop :=
  (t.stream st).placed = (s.stream st).placed ∧ (t.stream st).seen = (s.stream st).seen ∧ CountsOne (streamStat st k) s t

section
variable {st side tick m : Nat} {s t : State}

theorem Timed.count (h : Timed st side tick m s t) {k : Nat} (hside : side < 2) (hk : 5 ≤ k) :
    Timely st side tick m s (t.count (streamStat st k) 1) ∧ NotPlaced st k s (t.count (streamStat st k) 1) := by
  obtain ⟨honly, htimed, hone, hkeeps⟩ := h
  have hstream : (t.count (streamStat st k) 1).stream st = t.stream st := rfl
  rw [Timely, NotPlaced, hstream, htimed]
  exact ⟨⟨honly.trans rfl, hone.keeps (count_keepsCount (streamStat_ne st (by omega)) 1 t), rfl⟩,
    rfl, rfl, (hkeeps k hk).counts (count_countsOne _ t)⟩

theorem Timed.mismatch (h : Timed st side tick m s t) (hside : side < 2) :
    Timely st side tick m s (countMismatch st t) ∧ NotPlaced st 9 s (countMismatch st t) := by
  obtain ⟨honly, htimed, hone, hkeeps⟩ := h
  rw [Timely, NotPlaced, countMismatch_stream, htimed]
  exact ⟨⟨honly.trans (countMismatch_streamsOnly st t), hone.keeps (countMismatch_keepsCount st (by omega) t), rfl⟩,
    rfl, rfl, (hkeeps 9 (by omega)).counts (countMismatch_countsOne st t)⟩

theorem Timed.again (h : Timed st side tick m s t) (hside : side < 2) (u : List Byte) (c : Copy) :
    Timely st side tick m s (packetAgain st u c t) ∧
    NotPlaced st (if c.ssrc = beAt u 8 4 ∧ c.ts = beAt u 4 4 ∧ c.len = u.length then 8 else 9) s (packetAgain st u c t) := by
  unfold packetAgain
  split
  · exact h.count hside (by omega)
  · exact h.mismatch hside

/-- A packet in time with a free place within the window is appended and remembered. -/
def PlacedIn (b : Bank) (st side tick m p : Nat) (u : List Byte) (v w : Stream) : Prop :=
  w.placed = v.placed ++ [⟨p, if b.streamHi st then 1 else 2, rtpFrames b st u⟩] ∧ w.ssrc = some (beAt u 8 4) ∧ w.state = v.state ∧
  w.lastSeq = some (extOf v (beAt u 2 2)) ∧
  w.seen = (⟨extOf v (beAt u 2 2), beAt u 8 4, beAt u 4 4, u.length, side, tick⟩ :: v.seen).take 64 ∧
  w.overrun = if v.arrival = true ∧ b.streamM0 st + 128 < m then some (m - b.streamM0 st) else v.overrun

theorem Timed.placed (h : Timed st side tick m s t) (hst : st < 32) (u : List Byte) (b : Bank) (pl : Nat × Option Int) :
    Timely st side tick m s (packetPlaced st side tick m u b pl (s.stream st) t) ∧
    PlacedIn b st side tick m pl.1 u (s.stream st) ((packetPlaced st side tick m u b pl (s.stream st) t).stream st) := by
  obtain ⟨honly, htimed, hone, -⟩ := h
  have hone' := hone.keeps (KeepsCount.of_eq (t := packetPlaced st side tick m u b pl (s.stream st) t) rfl)
  rw [Timely, packetPlaced, stream_modStream_self _ _ hst, htimed]
  exact ⟨⟨honly.trans rfl, hone', rfl⟩, rfl, rfl, rfl, rfl, rfl, rfl⟩

end

/-! ### The rows -/

theorem streamOf_lt {s : State} {p dst port st : Nat} (h : streamOf s p dst port = some st) : st < 32 :=
  List.mem_range.mp (List.mem_of_find?_eq_some h)

/-- The head of a port's audio FIFO has left it. -/
def audioTaken (port : Nat) (rest : List (List Byte × Nat)) (s : State) : State := s.modPort port fun q => { q with audio := rest }

theorem audioTaken_audio {port : Nat} (hport : port < 2) (rest : List (List Byte × Nat)) (s : State) :
    ((audioTaken port rest s).port port).audio = rest := by
  rw [audioTaken, port_modPort_self s _ (by omega)]

section
variable {port tick : Nat} {e : List Byte} {rest : List (List Byte × Nat)} {s : State}

theorem exec_streamPacket_unknown (h : (s.port port).audio = (e, tick) :: rest) (hnone : streamOf s port (beAt e 0 4) (beAt e 4 2) = none) :
    exec (.streamPacket port) s = .next ((audioTaken port rest s).count (netStat (0x10 * port + 3)) 1) := by
  show execStreamPacket port s = _
  simp only [execStreamPacket, h, entryStream, hnone]
  rfl

theorem exec_streamPacket_known (h : (s.port port).audio = (e, tick) :: rest) {st : Nat}
    (hsome : streamOf s port (beAt e 0 4) (beAt e 4 2) = some st) : exec (.streamPacket port) s =
      if otherFirst s port st tick then .next s else .next (streamTake st port (e.drop 6) tick (audioTaken port rest s)) := by
  show execStreamPacket port s = _
  simp only [execStreamPacket, h, entryStream, hsome]
  rfl

end

theorem streamTake_outside {st : Nat} {u : List Byte} {s : State} (h : rtpOk s.cfg.active st u = false) (side tick : Nat) :
    streamTake st side u tick s = s.count (netStat (0x10 * side + 3)) 1 := if_neg (by simp [h])

theorem streamTake_inside {st : Nat} {u : List Byte} {s : State} (h : rtpOk s.cfg.active st u = true) (side tick : Nat) :
    streamTake st side u tick s = streamMerge st side u tick s := if_pos h

section
variable {st side tick p : Nat} {u : List Byte} {s : State}

theorem streamMerge_otherSsrc (hst : st < 32) (hside : side < 2) (hother : otherSsrc (s.stream st) u = true) :
    StreamsOnly s (streamMerge st side u tick s) ∧ ((streamMerge st side u tick s).stream st).placed = (s.stream st).placed ∧
    CountsOne (streamStat st 9) s (streamMerge st side u tick s) := by
  obtain ⟨honly, hmet, hkeeps⟩ := packetMet_met hst hside u tick s
  rw [streamMerge_judged hst hside]
  dsimp only
  rw [if_pos hother, countMismatch_stream, hmet]
  exact ⟨honly.trans (countMismatch_streamsOnly st _), rfl, (hkeeps 9 (by omega) (by omega)).counts (countMismatch_countsOne st _)⟩

variable (hown : otherSsrc (s.stream st) u = false)
include hown

theorem streamMerge_late (hst : st < 32) (hside : side < 2) (hp : (placeOf s st (beAt u 4 4) tick).1 = p) (hlate : (p - 24) * 512 < tick) :
    StreamsOnly s (streamMerge st side u tick s) ∧ ((streamMerge st side u tick s).stream st).placed = (s.stream st).placed ∧
    ((streamMerge st side u tick s).stream st).margins = slide secondTicks (tick, 0) (s.stream st).margins ∧
    CountsOne (streamStat st (5 + side)) s (streamMerge st side u tick s) := by
  rw [streamMerge_judged hst hside]
  dsimp only
  rw [hp, if_neg (by simp [hown]), if_pos hlate]
  exact packetLate_spec hst (packetMet_met hst hside u tick s)

variable (hst : st < 32) (hside : side < 2) (hp : (placeOf s st (beAt u 4 4) tick).1 = p) (htime : tick ≤ (p - 24) * 512)
include hst hside hp htime

theorem streamMerge_again {c : Copy} (hcopy : copyOf? (s.stream st) (extOf (s.stream st) (beAt u 2 2)) = some c) :
    Timely st side tick (marginOf p tick) s (streamMerge st side u tick s) ∧
    NotPlaced st (if c.ssrc = beAt u 8 4 ∧ c.ts = beAt u 4 4 ∧ c.len = u.length then 8 else 9) s (streamMerge st side u tick s) := by
  rw [streamMerge_judged hst hside]
  dsimp only
  rw [hp, if_neg (by simp [hown]), if_neg (by omega), hcopy]
  exact (packetOnTime_timed hst hside (packetMet_met hst hside u tick s)).again hside u c

theorem streamMerge_new (hnew : copyOf? (s.stream st) (extOf (s.stream st) (beAt u 2 2)) = none) : ∃ t pl, pl.1 = p ∧
    Timed st side tick (marginOf p tick) s t ∧ streamMerge st side u tick s =
      packetNew st side tick (marginOf p tick) u s.cfg.active (readPoint s) pl (s.stream st) t := by
  rw [streamMerge_judged hst hside]
  dsimp only
  rw [hp, if_neg (by simp [hown]), if_neg (by omega), hnew]
  exact ⟨_, _, hp, packetOnTime_timed hst hside (packetMet_met hst hside u tick s), rfl⟩

theorem streamMerge_taken (hnew : copyOf? (s.stream st) (extOf (s.stream st) (beAt u 2 2)) = none)
    (htaken : placeTaken (s.stream st) p (s.cfg.active.streamN st) = true) :
    Timely st side tick (marginOf p tick) s (streamMerge st side u tick s) ∧ NotPlaced st 9 s (streamMerge st side u tick s) := by
  obtain ⟨t, pl, rfl, htimed, heq⟩ := streamMerge_new hown hst hside hp htime hnew
  rw [heq, packetNew, if_pos htaken]
  exact htimed.mismatch hside

variable (hnew : copyOf? (s.stream st) (extOf (s.stream st) (beAt u 2 2)) = none)
  (hfree : placeTaken (s.stream st) p (s.cfg.active.streamN st) = false)
include hnew hfree

theorem streamMerge_early (hearly : readPoint s + 512 ≤ p + s.cfg.active.streamN st - if s.cfg.active.streamHi st then 1 else 2) :
    Timely st side tick (marginOf p tick) s (streamMerge st side u tick s) ∧ NotPlaced st 7 s (streamMerge st side u tick s) := by
  obtain ⟨t, pl, rfl, htimed, heq⟩ := streamMerge_new hown hst hside hp htime hnew
  rw [heq, packetNew, if_neg (by simp [hfree]), if_pos hearly]
  exact htimed.count hside (by omega)

theorem streamMerge_placed (hin : (p + s.cfg.active.streamN st - if s.cfg.active.streamHi st then 1 else 2) < readPoint s + 512) :
    Timely st side tick (marginOf p tick) s (streamMerge st side u tick s) ∧
    PlacedIn s.cfg.active st side tick (marginOf p tick) p u (s.stream st) ((streamMerge st side u tick s).stream st) := by
  obtain ⟨t, pl, rfl, htimed, heq⟩ := streamMerge_new hown hst hside hp htime hnew
  rw [heq, packetNew, if_neg (by simp [hfree]), if_neg (Nat.not_le.mpr hin)]
  exact htimed.placed hst u _ pl

omit hnew hfree

/-- Every packet in time counts as on time and enters the margins, placed or not. -/
theorem streamMerge_timely : Timely st side tick (marginOf p tick) s (streamMerge st side u tick s) := by
  cases hcopy : copyOf? (s.stream st) (extOf (s.stream st) (beAt u 2 2)) with
  | some c => exact (streamMerge_again hown hst hside hp htime hcopy).1
  | none =>
    cases htaken : placeTaken (s.stream st) p (s.cfg.active.streamN st) with
    | true => exact (streamMerge_taken hown hst hside hp htime hcopy htaken).1
    | false =>
      by_cases hearly : readPoint s + 512 ≤ p + s.cfg.active.streamN st - if s.cfg.active.streamHi st then 1 else 2
      · exact (streamMerge_early hown hst hside hp htime hcopy htaken hearly).1
      · exact (streamMerge_placed hown hst hside hp htime hcopy htaken (Nat.not_le.mp hearly)).1

end

theorem streamMerge_streamsOnly {st side : Nat} (hst : st < 32) (hside : side < 2) (u : List Byte) (tick : Nat) (s : State) :
    StreamsOnly s (streamMerge st side u tick s) := by
  cases hown : otherSsrc (s.stream st) u with
  | true => exact (streamMerge_otherSsrc hst hside hown).1
  | false =>
    by_cases hlate : ((placeOf s st (beAt u 4 4) tick).1 - 24) * 512 < tick
    · exact (streamMerge_late hown hst hside rfl hlate).1
    · exact (streamMerge_timely hown hst hside rfl (Nat.not_lt.mp hlate)).1

theorem streamTake_streamsOnly {st side : Nat} (hst : st < 32) (hside : side < 2) (u : List Byte) (tick : Nat) (s : State) :
    StreamsOnly s (streamTake st side u tick s) := by
  unfold streamTake
  split
  · exact streamMerge_streamsOnly hst hside u tick s
  · exact (count_reports _ _ s).streamsOnly

/-! ### Fades, re-entries, overruns and paths (R151 to R157) -/

theorem exec_streamMissing_fades {st n : Nat} {s : State} (hlock : s.media.locked = true) (hon : s.cfg.active.streamOn st = true)
    (hplays : (s.stream st).state.plays = true) (hmiss : firstMissing s st = some n) : exec (.streamMissing st) s =
      .next (streamCode 0x2001 st ((streamFade st n false s).count (streamStat st 0xA) 1)) := by
  show execStreamMissing st s = _
  simp only [execStreamMissing, hlock, hon, hplays, hmiss, Bool.and_self, if_true]

theorem exec_streamReentry_ramps {st : Nat} {s : State} (hon : s.cfg.active.streamOn st = true)
    (hstate : (s.stream st).state = .waiting ∨ (s.stream st).state = .faded) (hgood : 8 ≤ (s.stream st).good) : exec (.streamReentry st) s =
      .next (streamCode 0x2003 st (s.modStream st fun t => { t with
        state := .ramping, rampFrom := some (winBase s + 8), fadeFrom := none, fadeReal := false, fadeRamp := none, good := 0 })) := by
  show execStreamReentry st s = _
  rw [execStreamReentry, if_pos]
  rcases hstate with h | h <;> simp [hon, h, hgood]

/-- The excess that an overrun discards, in whole samples of the stream's own rate (R157). -/
def cutOf (b : Bank) (st excess : Nat) : Nat := if b.streamHi st then excess else excess - excess % 2

/-- A stream that has overrun fades, loses the excess behind the fade and ramps 32 samples later (R157). -/
def streamCut (st x : Nat) (s : State) : State := (streamFade st (winBase s) true s).modStream st fun u => { u with
  state := .ramping, rampFrom := some (winBase s + 32), ssrc := (s.stream st).ssrc
  arrivalBase := (s.stream st).arrivalBase.map (· - (cutOf s.cfg.active st x : Int))
  placed := (s.stream st).placed.flatMap (cutPacket (winBase s + 32) (cutOf s.cfg.active st x)) }

theorem exec_streamOverrun_cuts {st x : Nat} {s : State} (hon : s.cfg.active.streamOn st = true) (hplays : (s.stream st).state.plays = true)
    (harrival : (s.stream st).arrival = true) (hover : (s.stream st).overrun = some x) : exec (.streamOverrun st) s =
      .next (streamCode 0x2002 st ((streamCut st x s).count (streamStat st 0xB) 1)) := by
  show execStreamOverrun st s = _
  simp only [execStreamOverrun, hover, hon, hplays, harrival, Bool.and_self, if_true]
  rfl

theorem streamCut_stream {st : Nat} (hst : st < 32) (x : Nat) (s : State) : (streamCut st x s).stream st = { s.stream st with
    state := .ramping, fadeFrom := some (winBase s), fadeReal := true, fadeRamp := (s.stream st).rampFrom, rampFrom := some (winBase s + 32)
    good := 0, last := ((streamCut st x s).stream st).last, overrun := none
    arrivalBase := (s.stream st).arrivalBase.map (· - (cutOf s.cfg.active st x : Int))
    placed := (s.stream st).placed.flatMap (cutPacket (winBase s + 32) (cutOf s.cfg.active st x)) } := by
  rw [streamCut, stream_modStream_self _ _ hst, streamFade, stream_modStream_self _ _ hst]

theorem exec_pathSkew_marks {st : Nat} {s : State} (hon : s.cfg.active.streamOn st = true) (hskew : 1000 < skewNow s (s.stream st))
    (hfirst : (s.stream st).skewRaised = false) :
    exec (.pathSkew st) s = .next (streamCode 0x2005 st (s.modStream st fun t => { t with skewRaised := true })) := by
  show execPathSkew st s = _
  rw [execPathSkew, if_pos]
  simp [hon, hskew, hfirst]

/-- The side `side` is marked as lost, or as found again. -/
def markPath (side : Nat) (lost : Bool) (t : Stream) : Stream := if side = 0 then { t with lostA := lost } else { t with lostB := lost }

theorem exec_pathLost_marks {st side : Nat} {recovered : Bool} {s : State} (hon : s.cfg.active.streamOn st = true)
    (hsides : s.cfg.active.streamSides st = 3) (hmark : (if side = 0 then (s.stream st).lostA else (s.stream st).lostB) = recovered)
    (hlost : recovered = false → (s.stream st).lastOn.getD side 0 + secondTicks ≤ nowTick s ∧
      nowTick s < (s.stream st).lastOn.getD (1 - side) 0 + secondTicks)
    (hfound : recovered = true → nowTick s < (s.stream st).lastOn.getD side 0 + secondTicks ∧
      (s.stream st).since.getD side 0 + secondTicks ≤ nowTick s) :
    exec (.pathLost st side recovered) s =
      .next ((s.modStream st (markPath side !recovered)).raiseHeld second 0x2006 (st + 256 * side) 1 []) := by
  show execPathLost st side recovered s = _
  unfold execPathLost
  dsimp only
  rw [if_pos]
  · rfl
  · rw [hon, hsides, hmark]
    cases recovered with
    | false => simpa using hlost rfl
    | true => simpa using hfound rfl

end Sys2Proof.Machine

open Sys2Proof Sys2Proof.Machine

/-- Settles O42: a packet is judged by one equation of the merge, and each of its judgements has its own effect on the stream and on the
counters; the other rows are one equation each. -/
theorem streamRows : Obligations.StreamRows := by
  intro s
  refine ⟨?packet, ?missing, ?reentry, ?overrun, ?skew, ?lost⟩
  case packet =>
    intro port e u tick rest hport haudio hu
    subst hu
    cases hof : streamOf s port (beAt e 0 4) (beAt e 4 2) with
    | none =>
      refine ⟨_, exec_streamPacket_unknown haudio hof, ⟨rfl, rfl, rfl, rfl⟩, rfl, fun _ => ⟨?_, rfl, rfl⟩, ?_, ?_⟩
      · exact audioTaken_audio hport rest s
      · exact fun _ _ h => nomatch h
      · exact fun _ _ h => nomatch h
    | some k =>
      have hk := streamOf_lt hof
      rw [exec_streamPacket_known haudio hof]
      cases hwaits : otherFirst s port k tick with
      | true =>
        refine ⟨s, rfl, Quiet.rfl' s, rfl, nofun, fun _ _ _ _ => rfl, fun st _ h hfirst => ?_⟩
        cases h
        exact nomatch hfirst.symm.trans hwaits
      | false =>
        have honly := streamTake_streamsOnly hk hport (e.drop 6) tick (audioTaken port rest s)
        obtain ⟨hquiet, hchans, hports, -⟩ := honly.fields
        refine ⟨_, rfl, hquiet, hchans, nofun, fun st _ h hfirst => ?_, fun st hst h _ => ?_⟩
        · cases h
          exact nomatch hfirst.symm.trans hwaits
        cases h
        refine ⟨?_, fun hbad => ?_, fun hgood hwf => ?_⟩
        · rw [State.port, hports]
          exact audioTaken_audio hport rest s
        · rw [streamTake_outside (s := audioTaken port rest s) hbad]
          exact ⟨rfl, rfl⟩
        · rw [streamTake_inside (s := audioTaken port rest s) hgood]
          intro v w ext p n step m Counts
          have hcounts : ∀ {j : Nat}, CountsOne (streamStat k j) (audioTaken port rest s)
              (streamMerge k port (e.drop 6) tick (audioTaken port rest s)) → Counts j := fun h => (h hwf).2
          refine ⟨fun l hl hne => ?_, fun hown => ?_⟩
          · have h := streamMerge_otherSsrc (tick := tick) (s := audioTaken port rest s) hk hport ((otherSsrc_iff v _).mpr ⟨l, hl, hne⟩)
            exact ⟨h.2.1, hcounts h.2.2⟩
          have hssrc : otherSsrc ((audioTaken port rest s).stream k) (e.drop 6) = false :=
            Bool.eq_false_iff.mpr fun h => by
              obtain ⟨l, hl, hne⟩ := (otherSsrc_iff v _).mp h
              exact hne (hown l hl)
          refine ⟨fun hlate => ?_, fun htime => ?_⟩
          · obtain ⟨-, hplaced, hmargins, hone⟩ := streamMerge_late hssrc hk hport rfl hlate
            exact ⟨hplaced, hmargins, hcounts hone⟩
          have htimely := streamMerge_timely hssrc hk hport rfl htime
          refine ⟨hcounts htimely.2.1, htimely.2.2, fun c hc => ?_, fun hnew => ⟨fun ⟨i, hi, hcovered, hfade⟩ => ?_, fun hfree => ?_⟩⟩
          · obtain ⟨-, hplaced, hseen, hone⟩ := streamMerge_again hssrc hk hport rfl htime (c := c) hc
            exact ⟨hplaced, hseen, hcounts hone⟩
          · obtain ⟨-, hplaced, hseen, hone⟩ := streamMerge_taken hssrc hk hport rfl htime ((copyOf?_eq_none _ _).mpr hnew)
              (placeTaken_of_covered hi hcovered hfade)
            exact ⟨hplaced, hseen, hcounts hone⟩
          have hunseen := (copyOf?_eq_none _ _).mpr hnew
          have huntaken : placeTaken v p n = false := placeTaken_eq_false.mpr hfree
          refine ⟨fun hearly => ?_, fun hin => ?_⟩
          · obtain ⟨-, hplaced, hseen, hone⟩ := streamMerge_early hssrc hk hport rfl htime hunseen huntaken hearly
            exact ⟨hplaced, hseen, hcounts hone⟩
          · exact (streamMerge_placed hssrc hk hport rfl htime hunseen huntaken hin).2
  case missing =>
    intro st n hst hlock hon hplays hmiss
    have hfields := (streamCode_reports 0x2001 st ((streamFade st n false s).count (streamStat st 0xA) 1)).streamsOnly.fields
    have hstream : ((streamFade st n false s).count (streamStat st 0xA) 1).stream st = (streamFade st n false s).stream st := rfl
    refine ⟨_, exec_streamMissing_fades hlock hon hplays hmiss, ?_⟩
    rw [streamCode_stream, hstream, streamFade, stream_modStream_self _ _ hst]
    exact ⟨rfl, rfl, rfl, rfl, rfl, hfields.2.1, hfields.1⟩
  case reentry =>
    intro st hst hon hstate hgood
    refine ⟨_, exec_streamReentry_ramps hon hstate hgood, ?_, (streamCode_reports _ _ _).streamsOnly.fields.1⟩
    rw [streamCode_stream, stream_modStream_self _ _ hst]
  case overrun =>
    intro st x hst hon hplays harrival hover
    refine ⟨_, exec_streamOverrun_cuts hon hplays harrival hover, ?_⟩
    have hcut : StreamsOnly s ((streamCut st x s).count (streamStat st 0xB) 1) := rfl
    have hquiet := (hcut.trans (streamCode_reports 0x2002 st _).streamsOnly).fields.1
    have hcount : ((streamCut st x s).count (streamStat st 0xB) 1).stream st = (streamCut st x s).stream st := rfl
    rw [streamCode_stream, hcount, streamCut_stream hst]
    exact ⟨rfl, rfl, rfl, rfl, rfl, rfl, rfl, hquiet⟩
  case skew =>
    intro st hst hon hskew hfirst
    refine ⟨_, exec_pathSkew_marks hon hskew hfirst, ?_, (streamCode_reports _ _ _).streamsOnly.fields.1⟩
    rw [streamCode_stream, stream_modStream_self _ _ hst]
  case lost =>
    intro st side recovered hst hon hsides hmark hlost hfound
    refine ⟨_, exec_pathLost_marks hon hsides hmark hlost hfound, (raiseHeld_reports _ _ _ _ _ _).streamsOnly.fields.1, ?_⟩
    rw [(raiseHeld_reports _ _ _ _ _ _).stream, stream_modStream_self _ _ hst]
    rfl

end

section
/-! PROOFS. The PTP slave: Announces, measurements, servo states, holdover and delay requests (R160 to R162, R168, Tables 6.9 and 6.10). -/

namespace Sys2Proof.Machine

/-! ### What the slave may change -/

/-- From `s` to `t` only the ports, the servo, the media clock, the count of free values, and what a report changes may differ. -/
def ServoOnly (s t : State) : Prop := Reports { s with ports := t.ports, ptp := t.ptp, media := t.media, free := t.free } t

theorem ServoOnly.rfl' (s : State) : ServoOnly s s := rfl

theorem ServoOnly.trans {s t u : State} (h : ServoOnly s t) (k : ServoOnly t u) : ServoOnly s u := by
  unfold ServoOnly Reports at *
  rw [k, h]

theorem ServoOnly.after {s t u : State} (k : ServoOnly t u) (h : ServoOnly s t) : ServoOnly s u := h.trans k

theorem Reports.servoOnly {s t : State} (h : Reports s t) : ServoOnly s t := by
  unfold ServoOnly Reports at *
  rw [h]

theorem ServoOnly.fields {s t : State} (h : ServoOnly s t) : Quiet s t ∧ t.chans = s.chans := by
  rw [h]
  exact ⟨⟨rfl, rfl, rfl, rfl⟩, rfl⟩

theorem Reports.ptp {s t : State} (h : Reports s t) : t.ptp = s.ptp := by rw [h]

/-! ### The media clock looks at its source -/

theorem sourceCheck_servoOnly (s : State) : ServoOnly s (sourceCheck s) :=
  (sourceCheck_reports s).servoOnly.after rfl

@[simp] theorem sourceCheck_ptp (s : State) : (sourceCheck s).ptp = s.ptp := (sourceCheck_reports s).ptp

theorem sourceCheck_cases (s : State) : (sourceCheck s).log = s.log ∨ sourceCheck s = holdoverEnter s := by
  unfold sourceCheck
  split
  · exact .inl rfl
  cases s.media.state with
  | free | holdover =>
    dsimp only
    split
    · exact .inl rfl
    · exact .inl rfl
  | acquire | track =>
    dsimp only
    split
    · exact .inl rfl
    · exact .inr rfl
  | step => exact .inl rfl

/-- A code that has just been raised stands while the media clock looks at its source. -/
theorem raised_sourceCheck {code inst : Nat} {data : List Word} {s t : State} (hlog : t.log = (s.raise code inst data).log)
    (hcan : canLog t = canLog s) (hne : (code, inst) ≠ (0x300C, 0)) : Raised code inst data s (sourceCheck t) := by
  rcases sourceCheck_cases t with h | h
  · exact (raise_raised code inst data s).to_log (h.trans hlog)
  · rw [h, holdoverEnter]
    exact raised_raise [] hlog hcan hne

/-! ### Announces (R160) -/

/-- The servo stands as `p`, with the masters as they are; a change of grandmaster is reported. -/
def FollowsAs (p : Ptp) (s t : State) : Prop :=
  p.masters = s.ptp.masters ∧ (t = { s with ptp := p } ∨ t = ({ s with ptp := p } : State).raise 0x3006 0 [])

theorem FollowsAs.spec {p : Ptp} {s t : State} (h : FollowsAs p s t) : ServoOnly s t ∧ t.ptp = p := by
  obtain ⟨-, rfl | rfl⟩ := h
  · exact ⟨rfl, rfl⟩
  · exact ⟨(raise_reports _ _ _ _).servoOnly.after rfl, (raise_reports _ _ _ _).ptp⟩

/-- The best master becomes the one that is followed, in every state of the servo but DISABLED (Table 6.10). -/
theorem followBest_some {s : State} {m : Master} (hbest : bestMaster s = some m) (hstate : s.ptp.state ≠ .disabled) :
    ∃ p, FollowsAs p s (followBest s) ∧ p.port = m.port ∧ p.gm = gmOf m.announce := by
  unfold followBest
  rw [hbest]
  dsimp only
  cases h : s.ptp.state with
  | disabled => exact absurd h hstate
  | listening =>
    refine ⟨_, ⟨?_, .inl rfl⟩, ?_, ?_⟩
    all_goals rfl
  | acquiring | locking | locked | holdover =>
    dsimp only
    split
    · refine ⟨_, ⟨?_, .inl rfl⟩, ?_, ?_⟩
      all_goals rfl
    · refine ⟨_, ⟨?_, .inr rfl⟩, ?_, ?_⟩
      all_goals rfl

theorem followBest_disabled {s : State} (h : s.ptp.state = .disabled) : followBest s = s := by
  unfold followBest
  dsimp only
  rw [h]
  split
  · rfl
  · rfl

/-- Following the best master keeps every master heard. -/
theorem followBest_spec (s : State) : ServoOnly s (followBest s) ∧ (followBest s).ptp.masters = s.ptp.masters := by
  by_cases hstate : s.ptp.state = .disabled
  · rw [followBest_disabled hstate]
    exact ⟨rfl, rfl⟩
  cases hbest : bestMaster s with
  | none =>
    rw [followBest, hbest]
    exact ⟨rfl, rfl⟩
  | some m =>
    obtain ⟨p, hfollows, -, -⟩ := followBest_some hbest hstate
    obtain ⟨honly, hptp⟩ := hfollows.spec
    exact ⟨honly, hptp ▸ hfollows.1⟩

/-- The Announces of one master: from one port, of one grandmaster. -/
def sameMaster (port : Nat) (a : Announce) (m : Master) : Bool := m.port == port && gmOf m.announce == gmOf a

/-- The masters heard, with the Announce `a` at time `at_` as the newest word of its own (R160). -/
def announced (port : Nat) (a : Announce) (at_ : Nat) (l : List Master) : List Master :=
  ⟨port, a, at_ :: (((l.find? (sameMaster port a)).map (·.heard)).getD []).take 1⟩ :: l.filter fun m => !sameMaster port a m

theorem exec_ptpAnnounce_ignored {port : Nat} {s : State} {a : Announce} (at_ : Nat) (hon : s.cfg.active.ptpOn port = true)
    (h : ¬ (a.domain = s.nat 0x02 0 5 ∧ -3 ≤ a.logInterval ∧ a.logInterval ≤ 3)) :
    exec (.ptpAnnounce port a at_) s = .next (timeTaken port s) := by
  show execPtpAnnounce port a at_ s = _
  rw [execPtpAnnounce, if_pos hon, if_neg h]

theorem exec_ptpAnnounce_heard {port : Nat} {s : State} {a : Announce} (at_ : Nat) (hon : s.cfg.active.ptpOn port = true)
    (h : a.domain = s.nat 0x02 0 5 ∧ -3 ≤ a.logInterval ∧ a.logInterval ≤ 3) :
    exec (.ptpAnnounce port a at_) s = .next (sourceCheck (followBest
      { timeTaken port s with ptp := { s.ptp.come at_ with masters := announced port a at_ s.ptp.masters } })) := by
  show execPtpAnnounce port a at_ s = _
  rw [execPtpAnnounce, if_pos hon, if_pos h]
  rfl

/-! ### Measurements (R161, R162, Table 6.10) -/

/-- The servo with one measurement taken: its offset, and the runs that it goes on or ends. -/
def measured (off : Rat) (at_ : Nat) (p : Ptp) : Ptp := { p with
  offset := off, since := if absRat off < 250 then some (p.since.getD at_) else none
  far := runOf (decide (100000 < absRat off)) p.far, above := runOf (decide (1000 < absRat off)) p.above
  below := runOf (decide (absRat off < 1000)) p.below }

/-- The first offset above 10 µs steps the time (R162). -/
def timeStepped (off : Rat) (at_ : Nat) (s : State) : State :=
  ({ s with ptp := { measured off at_ s.ptp with
      first := false, below := 0, timeNs := ((s.ptp.timeNs : Int) - roundOpen 20 off).toNat } } : State).count (netStat 0x037) 1

/-- The state in which an acquiring servo goes on. -/
def acquiringNext (p : Ptp) : Ptp := if 16 ≤ p.below then { p with state := .locking, far := 0, above := 0 } else p

/-- The state in which a locking servo goes on. -/
def lockingNext (p : Ptp) : Ptp := if 4 ≤ p.far then acquire p else p

/-- The state in which a locked servo goes on: locked, or as the lock was lost. -/
def lockedNext (p : Ptp) : Ptp := if 4 ≤ p.far then acquire p else if 4 ≤ p.above then { p with state := .locking, above := 0 } else p

theorem measure_eq (off : Rat) (at_ : Nat) (s : State) : measure off at_ s =
    let q := measured off at_ s.ptp
    match s.ptp.state with
    | .acquiring =>
      if s.ptp.first ∧ 10000 < absRat off then (timeStepped off at_ s).raise 0x3004 0 []
      else if 16 ≤ q.below then { s with ptp := { q with state := .locking, far := 0, above := 0 } } else { s with ptp := q }
    | .locking => if 4 ≤ q.far then { s with ptp := acquire q } else { s with ptp := q }
    | .locked =>
      if 4 ≤ q.far then ({ s with ptp := acquire q } : State).raise 0x3003 0 []
      else if 4 ≤ q.above then ({ s with ptp := { q with state := .locking, above := 0 } } : State).raise 0x3003 0 []
      else { s with ptp := q }
    | _ => s := rfl

section
variable {off : Rat} {at_ : Nat} {s : State}

theorem measure_steps (hstate : s.ptp.state = .acquiring) (hfirst : s.ptp.first = true) (hfar : 10000 < absRat off) :
    measure off at_ s = (timeStepped off at_ s).raise 0x3004 0 [] := by
  rw [measure_eq, hstate]
  dsimp only
  rw [if_pos ⟨hfirst, hfar⟩]

theorem measure_acquiring (hstate : s.ptp.state = .acquiring) (hlater : ¬ (s.ptp.first = true ∧ 10000 < absRat off)) :
    measure off at_ s = { s with ptp := acquiringNext (measured off at_ s.ptp) } := by
  rw [measure_eq, hstate, acquiringNext]
  dsimp only
  rw [if_neg hlater]
  by_cases hbelow : 16 ≤ (measured off at_ s.ptp).below
  · rw [if_pos hbelow, if_pos hbelow]
  · rw [if_neg hbelow, if_neg hbelow]

theorem measure_locking (hstate : s.ptp.state = .locking) : measure off at_ s = { s with ptp := lockingNext (measured off at_ s.ptp) } := by
  rw [measure_eq, hstate, lockingNext]
  dsimp only
  by_cases hfar : 4 ≤ (measured off at_ s.ptp).far
  · rw [if_pos hfar, if_pos hfar]
  · rw [if_neg hfar, if_neg hfar]

theorem measure_locked (hstate : s.ptp.state = .locked) :
    measure off at_ s = { s with ptp := lockedNext (measured off at_ s.ptp) } ∨
    measure off at_ s = ({ s with ptp := lockedNext (measured off at_ s.ptp) } : State).raise 0x3003 0 [] := by
  rw [measure_eq, hstate, lockedNext]
  dsimp only
  by_cases hfar : 4 ≤ (measured off at_ s.ptp).far
  · rw [if_pos hfar, if_pos hfar]
    exact .inr rfl
  rw [if_neg hfar, if_neg hfar]
  by_cases habove : 4 ≤ (measured off at_ s.ptp).above
  · rw [if_pos habove, if_pos habove]
    exact .inr rfl
  · rw [if_neg habove, if_neg habove]
    exact .inl rfl

end

theorem acquiringNext_offset (p : Ptp) : (acquiringNext p).offset = p.offset := by
  unfold acquiringNext
  split
  · rfl
  · rfl

theorem lockingNext_offset (p : Ptp) : (lockingNext p).offset = p.offset := by
  unfold lockingNext
  split
  · rfl
  · rfl

theorem lockedNext_offset (p : Ptp) : (lockedNext p).offset = p.offset := by
  unfold lockedNext
  split
  · rfl
  split
  · rfl
  · rfl

theorem raise_servo (code inst : Nat) (data : List Word) (s : State) : ServoOnly s (s.raise code inst data) ∧ (s.raise code inst data).ptp = s.ptp :=
  ⟨(raise_reports _ _ _ _).servoOnly, (raise_reports _ _ _ _).ptp⟩

/-- Every measurement of a servo that follows a master keeps its offset. -/
theorem measure_spec {off : Rat} {at_ : Nat} {s : State} (h : s.ptp.state.follows = true) : ServoOnly s (measure off at_ s) ∧
    (measure off at_ s).ptp.offset = off := by
  cases hstate : s.ptp.state with
  | disabled | listening | holdover => exact nomatch hstate ▸ h
  | acquiring =>
    by_cases hsteps : s.ptp.first = true ∧ 10000 < absRat off
    · rw [measure_steps hstate hsteps.1 hsteps.2, (raise_servo _ _ _ _).2]
      exact ⟨(raise_servo _ _ _ _).1.after rfl, rfl⟩
    · rw [measure_acquiring hstate hsteps]
      exact ⟨rfl, acquiringNext_offset _⟩
  | locking =>
    rw [measure_locking hstate]
    exact ⟨rfl, lockingNext_offset _⟩
  | locked =>
    rcases measure_locked (off := off) (at_ := at_) hstate with heq | heq
    · rw [heq]
      exact ⟨rfl, lockedNext_offset _⟩
    · rw [heq, (raise_servo _ _ _ _).2]
      exact ⟨(raise_servo _ _ _ _).1.after rfl, lockedNext_offset _⟩

/-! ### Syncs (R161, R162) -/

/-- A Sync has left its FIFO and counts. -/
def syncTaken (port : Nat) (s : State) : State := (timeTaken port s).count (netStat 0x038) 1

/-- After a change of grandmaster the first offset leads to LOCKING or to ACQUIRING (R162). -/
def regained (off : Rat) (p : Ptp) : Ptp :=
  if p.gmChanged then
    if absRat off ≤ 100000 then { p with gmChanged := false, state := .locking, below := 0, above := 0, far := 0 }
    else { acquire p with gmChanged := false }
  else p

/-- The frequency correction after a measurement, free within 500 ppm, and the time of the Sync. -/
def corrected (at_ : Nat) (log : Int) (s : State) : State := { s.drawRat.2 with ptp := { s.ptp.come at_ with
  freq := clampRat (-500) 500 s.drawRat.1, last := clampRat (-500) 500 s.drawRat.1, syncAt := at_, syncLog := log } }

/-- The measurement of a Sync on port `port`. -/
def syncMeasured (port : Nat) (off : Rat) (at_ : Nat) (s : State) : State :=
  measure off at_ { syncTaken port s with ptp := regained off s.ptp }

theorem exec_ptpSync_ignored (port at_ : Nat) (d : Rat) {log : Int} (h : log < -7 ∨ 1 < log) (s : State) :
    exec (.ptpSync port d log at_) s = .next s := by
  show execPtpSync port d log at_ s = _
  refine if_neg ?_
  simp only [Bool.and_eq_true, decide_eq_true_eq]
  omega

theorem exec_ptpSync_measures {port : Nat} {s : State} (at_ : Nat) (d : Rat) {log : Int} (hon : s.cfg.active.ptpOn port = true)
    (hfollows : s.ptp.state.follows = true) (hport : s.ptp.port = port) (hlow : -7 ≤ log) (hhigh : log ≤ 1) : exec (.ptpSync port d log at_) s =
      .next (sourceCheck (corrected at_ log (syncMeasured port (d - (s.port port).pathDelay) at_ s))) := by
  show execPtpSync port d log at_ s = _
  unfold execPtpSync
  dsimp only
  rw [if_pos (by simp [hon, hfollows, hport, hlow, hhigh])]
  unfold syncMeasured regained
  split
  · split
    · rfl
    · rfl
  · rfl

theorem corrected_servoOnly (at_ : Nat) (log : Int) (s : State) : ServoOnly s (corrected at_ log s) := rfl

theorem absRat_corrected_freq (at_ : Nat) (log : Int) (s : State) : absRat (corrected at_ log s).ptp.freq ≤ 500 :=
  absRat_clampRat_le (by norm_num) _

theorem regained_follows {off : Rat} {p : Ptp} (h : p.state.follows = true) : (regained off p).state.follows = true := by
  unfold regained
  split
  · split
    · rfl
    · rfl
  · exact h

/-- What every Sync of the followed master leaves. -/
theorem syncMeasured_spec {port : Nat} {off : Rat} {at_ : Nat} {s : State} (h : s.ptp.state.follows = true) :
    ServoOnly s (syncMeasured port off at_ s) ∧ (syncMeasured port off at_ s).ptp.offset = off := by
  obtain ⟨honly, hoffset⟩ := measure_spec (off := off) (at_ := at_) (s := { syncTaken port s with ptp := regained off s.ptp }) (regained_follows h)
  exact ⟨honly.after rfl, hoffset⟩

theorem syncMeasured_same {port : Nat} {off : Rat} {at_ : Nat} {s : State} (h : s.ptp.gmChanged = false) :
    syncMeasured port off at_ s = measure off at_ (syncTaken port s) := by
  rw [syncMeasured, regained, if_neg (by simp [h])]
  rfl

theorem runOf_of_not {p : Prop} [Decidable p] (h : ¬ p) (n : Nat) : runOf (decide p) n = 0 := by
  rw [runOf, decide_eq_false h, if_neg Bool.false_ne_true]

theorem runOf_of {p : Prop} [Decidable p] (h : p) (n : Nat) : runOf (decide p) n = n + 1 := by
  rw [runOf, decide_eq_true h, if_pos rfl]

theorem measured_far {off : Rat} (at_ : Nat) (p : Ptp) (h : absRat off ≤ 100000) : (measured off at_ p).far = 0 := runOf_of_not (not_lt.mpr h) _

/-- An offset within 1 µs leaves a locked servo locked. -/
theorem lockedNext_measured {off : Rat} (at_ : Nat) {p : Ptp} (h : absRat off ≤ 1000) : lockedNext (measured off at_ p) = measured off at_ p := by
  have hfar := measured_far at_ p (h.trans (by norm_num))
  have habove : (measured off at_ p).above = 0 := runOf_of_not (not_lt.mpr h) _
  rw [lockedNext, if_neg (by omega), if_neg (by omega)]

/-- The state that a Sync of the followed master leads to (R161, R162). -/
def synced (port at_ : Nat) (log : Int) (off : Rat) (s : State) : State := sourceCheck (corrected at_ log (syncMeasured port off at_ s))

theorem synced_spec {port at_ : Nat} {log : Int} {off : Rat} {s : State} (h : s.ptp.state.follows = true) :
    ServoOnly s (synced port at_ log off s) ∧ (synced port at_ log off s).ptp.offset = off ∧
    absRat (synced port at_ log off s).ptp.freq ≤ 500 ∧
    (synced port at_ log off s).ptp.last = (synced port at_ log off s).ptp.freq ∧ (synced port at_ log off s).ptp.syncAt = at_ := by
  obtain ⟨honly, hoffset⟩ := syncMeasured_spec (port := port) (off := off) (at_ := at_) h
  refine ⟨(honly.trans (corrected_servoOnly _ _ _)).trans (sourceCheck_servoOnly _), ?_⟩
  rw [synced, sourceCheck_ptp]
  exact ⟨hoffset, absRat_corrected_freq _ _ _, rfl, rfl⟩

/-- The measurement decides the state of the servo and the time; the correction leaves both. -/
theorem synced_ptp (port at_ : Nat) (log : Int) (off : Rat) (s : State) :
    (synced port at_ log off s).ptp.state = (syncMeasured port off at_ s).ptp.state ∧
    (synced port at_ log off s).ptp.first = (syncMeasured port off at_ s).ptp.first ∧
    (synced port at_ log off s).ptp.timeNs = (syncMeasured port off at_ s).ptp.timeNs ∧
    (synced port at_ log off s).ptp.gmChanged = (syncMeasured port off at_ s).ptp.gmChanged := by
  rw [synced, sourceCheck_ptp]
  exact ⟨rfl, rfl, rfl, rfl⟩

section
variable {port at_ : Nat} {log : Int} {off : Rat} {s : State}

theorem synced_steps (hsame : s.ptp.gmChanged = false) (hstate : s.ptp.state = .acquiring) (hfirst : s.ptp.first = true)
    (hfar : 10000 < absRat off) : (synced port at_ log off s).ptp.state = .acquiring ∧ (synced port at_ log off s).ptp.first = false ∧
      (synced port at_ log off s).ptp.timeNs = ((s.ptp.timeNs : Int) - roundOpen 20 off).toNat ∧
      Raised 0x3004 0 [] s (synced port at_ log off s) := by
  have heq : syncMeasured port off at_ s = (timeStepped off at_ (syncTaken port s)).raise 0x3004 0 [] :=
    (syncMeasured_same hsame).trans (measure_steps hstate hfirst hfar)
  obtain ⟨hst, hfi, hns, -⟩ := synced_ptp port at_ log off s
  rw [hst, hfi, hns, heq, (raise_servo _ _ _ _).2]
  refine ⟨hstate, rfl, rfl, ?_⟩
  rw [synced, heq]
  refine Raised.of_log (raised_sourceCheck (s := timeStepped off at_ (syncTaken port s)) rfl ?_ (by decide)) rfl rfl
  simp only [canLog, corrected, State.drawRat, raise_fields]

theorem synced_locks (hsame : s.ptp.gmChanged = false) (hstate : s.ptp.state = .acquiring) (hlater : s.ptp.first = false)
    (hbelow : 15 ≤ s.ptp.below) (hnear : absRat off < 1000) : (synced port at_ log off s).ptp.state = .locking := by
  have hrun : (measured off at_ s.ptp).below = s.ptp.below + 1 := runOf_of hnear _
  have heq : syncMeasured port off at_ s = _ :=
    (syncMeasured_same hsame).trans (measure_acquiring (s := syncTaken port s) hstate fun h => nomatch hlater.symm.trans h.1)
  rw [(synced_ptp port at_ log off s).1, heq]
  exact congrArg Ptp.state (if_pos (show 16 ≤ (measured off at_ s.ptp).below by omega))

theorem synced_staysLocked (hsame : s.ptp.gmChanged = false) (hstate : s.ptp.state = .locked) (hnear : absRat off ≤ 1000) :
    (synced port at_ log off s).ptp.state = .locked := by
  rw [(synced_ptp port at_ log off s).1, syncMeasured_same hsame]
  rcases measure_locked (off := off) (at_ := at_) (s := syncTaken port s) hstate with heq | heq
  · rw [heq, lockedNext_measured at_ hnear]
    exact hstate
  · rw [heq, (raise_servo _ _ _ _).2, lockedNext_measured at_ hnear]
    exact hstate

/-- After a change of grandmaster the first offset decides between LOCKING and ACQUIRING, and the change is over. -/
theorem synced_regains (hchanged : s.ptp.gmChanged = true) : (synced port at_ log off s).ptp.gmChanged = false ∧
    (synced port at_ log off s).ptp.state = if absRat off ≤ 100000 then .locking else .acquiring := by
  obtain ⟨hst, -, -, hgm⟩ := synced_ptp port at_ log off s
  rw [hst, hgm, syncMeasured, regained, if_pos hchanged]
  by_cases hnear : absRat off ≤ 100000
  · rw [if_pos hnear, if_pos hnear, measure_locking rfl, lockingNext, if_neg]
    · exact ⟨rfl, rfl⟩
    · rw [measured_far at_ _ hnear]
      decide
  · have hfar : 10000 < absRat off := lt_trans (by norm_num) (not_le.mp hnear)
    rw [if_neg hnear, if_neg hnear, measure_steps rfl rfl hfar, (raise_servo _ _ _ _).2]
    exact ⟨rfl, rfl⟩

end

/-! ### Path delay and delay requests (R160, Table 6.9) -/

theorem exec_ptpDelayResponse_kept {port : Nat} {s : State} (d : Rat) (hon : s.cfg.active.ptpOn port = true) :
    exec (.ptpDelayResponse port d) s = .next ((timeTaken port s).modPort port fun q => { q with pathDelay := d }) := by
  show execPtpDelayResponse port d s = _
  rw [execPtpDelayResponse, if_pos hon]

theorem exec_ptpDelayReqSend_sends {port : Nat} {s : State} (hon : s.cfg.active.ptpOn port = true) (hup : (s.port port).up = true) :
    exec (.ptpDelayReqSend port) s = .next ((s.send ⟨port, ptpGroup, 319, delayReq s port⟩).modPort port fun q =>
      { q with delaySeq := q.delaySeq + 1 }) := by
  show execPtpDelayReqSend port s = _
  rw [execPtpDelayReqSend, if_pos (by rw [hon, hup]; rfl)]

theorem send_sent (f : Sent) (s : State) : (s.send f).misc.sent = s.misc.sent ++ [f] := by
  unfold State.send
  dsimp only
  split
  · rfl
  · rfl

theorem Reports.port {s t : State} (h : Reports s t) (p : Nat) : t.port p = s.port p := by rw [h]; rfl

/-! ### Holdover, the lock and the wait for a master (R161) -/

/-- The master in use has been struck from those heard, at time `at_`. -/
def withoutMaster (at_ : Nat) (s : State) : State := { s with ptp := { s.ptp with
  clock := max s.ptp.clock at_, masters := s.ptp.masters.filter fun m => !(m.port == s.ptp.port && gmOf m.announce == s.ptp.gm) } }

/-- The master in use is gone, and counts where its Announces have timed out. -/
def masterGone (at_ : Nat) (s : State) : State :=
  if announceOut s.ptp at_ then (withoutMaster at_ s).count (netStat 0x039) 1 else withoutMaster at_ s

theorem masterGone_spec (at_ : Nat) (s : State) : ServoOnly s (masterGone at_ s) ∧ (masterGone at_ s).ptp = (withoutMaster at_ s).ptp ∧
    (masterGone at_ s).cfg = s.cfg ∧ (masterGone at_ s).log = s.log := by
  unfold masterGone
  split
  · exact ⟨rfl, rfl, rfl, rfl⟩
  · exact ⟨rfl, rfl, rfl, rfl⟩

theorem bestMaster_congr {s t : State} (hptp : t.ptp = s.ptp) (hcfg : t.cfg = s.cfg) : bestMaster t = bestMaster s := by
  rw [bestMaster, hptp, hcfg]
  rfl

/-- The servo without a master: the correction is frozen. -/
def frozen (s : State) : State := ({ s with ptp := { s.ptp with state := .holdover } } : State).raise 0x3005 0 []

theorem exec_ptpHoldover_present {at_ : Nat} {s : State} (hannounce : announceOut s.ptp at_ = false) (hsync : syncOut s.ptp at_ = false) :
    exec (.ptpHoldover at_) s = .next s := by
  show execPtpHoldover at_ s = _
  refine if_neg ?_
  simp [hannounce, hsync]

theorem exec_ptpHoldover_absent {at_ : Nat} {s : State} (hfollows : s.ptp.state.follows = true)
    (hout : announceOut s.ptp at_ = true ∨ syncOut s.ptp at_ = true) : exec (.ptpHoldover at_) s =
      .next (sourceCheck (if (bestMaster (masterGone at_ s)).isSome then followBest (masterGone at_ s) else frozen (masterGone at_ s))) := by
  show execPtpHoldover at_ s = _
  unfold execPtpHoldover
  dsimp only
  rw [if_pos (by rcases hout with h | h <;> simp [hfollows, h])]
  change (match bestMaster (masterGone at_ s) with | some _ => _ | none => _) = _
  cases hbest : bestMaster (masterGone at_ s) with
  | none => rfl
  | some m => rfl

theorem exec_ptpNoMaster_raises {s : State} (hstate : s.ptp.state = .listening) (hfirst : s.ptp.noMaster = false)
    (htime : s.ptp.listenAt + 960000 ≤ s.media.samples) :
    exec .ptpNoMaster s = .next (({ s with ptp := { s.ptp with noMaster := true } } : State).raise 0x3001 0 []) := by
  show execPtpNoMaster s = _
  rw [execPtpNoMaster, if_pos]
  rw [hstate, hfirst, decide_eq_true htime]
  rfl

theorem frozen_spec (s : State) : ServoOnly s (frozen s) ∧ (frozen s).ptp = { s.ptp with state := .holdover } ∧
    Raised 0x3005 0 [] s (sourceCheck (frozen s)) := by
  refine ⟨(raise_servo _ _ _ _).1.after rfl, (raise_servo _ _ _ _).2, ?_⟩
  refine Raised.of_log (raised_sourceCheck (s := { s with ptp := { s.ptp with state := .holdover } }) rfl ?_ (by decide)) rfl rfl
  simp only [canLog, frozen, raise_fields]

/-- The servo enters LOCKED. -/
def lockEntered (s : State) : State :=
  ({ s with ptp := { s.ptp with state := .locked, lockedOnce := true, above := 0, far := 0 } } : State).raise 0x3002 0 []

theorem exec_ptpLocked_enters {at_ since : Nat} {s : State} (hstate : s.ptp.state = .locking) (hsince : s.ptp.since = some since)
    (htime : since + 2000000000 ≤ at_) (hsame : s.ptp.gmChanged = false) : exec (.ptpLocked at_) s = .next (sourceCheck (lockEntered s)) := by
  show execPtpLocked at_ s = _
  have hlong : since + 2 * 1000000000 ≤ at_ := htime
  rw [execPtpLocked, hstate, hsince, hsame, Option.any_some, decide_eq_true hlong]
  rfl

end Sys2Proof.Machine

open Sys2Proof Sys2Proof.Machine

/-- Settles O45: an Announce is kept before the best master is followed; a Sync is one measurement, whose effect in each state of the servo is
one equation; and a look of the media clock at its source leaves the servo and the code just raised. -/
theorem ptpRows : Obligations.PtpRows := by
  intro s
  refine ⟨?announce, ?ignored, ?sync, ?regained, ?delay, ?request, ?present, ?holdover, ?noMaster, ?locked⟩
  case announce =>
    intro port at_ a hon
    by_cases hown : a.domain = s.nat 0x02 0 5 ∧ -3 ≤ a.logInterval ∧ a.logInterval ≤ 3
    · have hfollow := followBest_spec { timeTaken port s with ptp := { s.ptp.come at_ with masters := announced port a at_ s.ptp.masters } }
      have honly : ServoOnly s _ := (hfollow.1.trans (sourceCheck_servoOnly _)).after rfl
      refine ⟨_, exec_ptpAnnounce_heard at_ hon hown, honly.fields.1, honly.fields.2, ?_, ?_⟩
      · obtain ⟨hdomain, hlow, hhigh⟩ := hown
        rintro (h | h | h)
        · exact absurd hdomain h
        · omega
        · omega
      · rw [sourceCheck_ptp, hfollow.2]
        exact fun _ _ _ => rfl
    · refine ⟨_, exec_ptpAnnounce_ignored at_ hon hown, ⟨rfl, rfl, rfl, rfl⟩, rfl, fun _ => rfl, fun h1 h2 h3 => absurd ⟨h1, h2, h3⟩ hown⟩
  case ignored => exact fun port at_ d log h => exec_ptpSync_ignored port at_ d h s
  case sync =>
    intro port at_ d log hport hon hfollows hmine hsame hlow hhigh
    obtain ⟨honly, hoffset, hfreq, hlast, hat⟩ := synced_spec (port := port) (at_ := at_) (log := log) (off := d - (s.port port).pathDelay) hfollows
    exact ⟨_, exec_ptpSync_measures at_ d hon hfollows hmine hlow hhigh, hoffset, hfreq, hlast, hat, honly.fields.1, honly.fields.2,
      synced_steps hsame, synced_locks hsame, synced_staysLocked hsame⟩
  case regained =>
    intro port at_ d log hport hon hfollows hmine hchanged hlow hhigh
    obtain ⟨honly, hoffset, hfreq, -, -⟩ := synced_spec (port := port) (at_ := at_) (log := log) (off := d - (s.port port).pathDelay) hfollows
    obtain ⟨hover, hstate⟩ := synced_regains (port := port) (at_ := at_) (log := log) (off := d - (s.port port).pathDelay) hchanged
    exact ⟨_, exec_ptpSync_measures at_ d hon hfollows hmine hlow hhigh, hover, hoffset, hfreq, hstate, honly.fields⟩
  case delay =>
    intro port d hport hon
    refine ⟨_, exec_ptpDelayResponse_kept d hon, rfl, ?_⟩
    rw [timeTaken, port_modPort_self _ _ hport, port_modPort_self _ _ hport]
  case request =>
    intro port hport hon hup
    have hsend := send_reports ⟨port, ptpGroup, 319, delayReq s port⟩ s
    refine ⟨_, exec_ptpDelayReqSend_sends hon hup, send_sent _ _, ?_, hsend.ptp, hsend.quiet.trans ⟨rfl, rfl, rfl, rfl⟩⟩
    rw [port_modPort_self _ _ hport, hsend.port]
  case present => exact fun at_ hannounce hsync => exec_ptpHoldover_present hannounce hsync
  case holdover =>
    intro at_ hfollows hout
    obtain ⟨hgone, hptp, hcfg, hlog⟩ := masterGone_spec at_ s
    have hsame : bestMaster (masterGone at_ s) = bestMaster (withoutMaster at_ s) := bestMaster_congr hptp hcfg
    have hfollows' : (masterGone at_ s).ptp.state.follows = true := hptp ▸ hfollows
    rw [exec_ptpHoldover_absent hfollows hout]
    cases hbest : bestMaster (masterGone at_ s) with
    | none =>
      have hnone : bestMaster (withoutMaster at_ s) = none := hsame.symm.trans hbest
      obtain ⟨honly, hfrozen, hraised⟩ := frozen_spec (masterGone at_ s)
      obtain ⟨hquiet, hchans⟩ := ((hgone.trans honly).trans (sourceCheck_servoOnly _)).fields
      rw [Option.isSome_none, if_neg Bool.false_ne_true]
      refine ⟨_, rfl, hquiet, hchans, fun _ => ?_, fun m hm => absurd (hnone.symm.trans hm) (Option.some_ne_none m).symm⟩
      rw [sourceCheck_ptp, hfrozen, hptp]
      exact ⟨rfl, rfl, hraised.of_log (by rw [hlog]) (by rw [hlog])⟩
    | some m =>
      have hsome : bestMaster (withoutMaster at_ s) = some m := hsame.symm.trans hbest
      obtain ⟨p, hto, hport, hgm⟩ := followBest_some hbest fun h => nomatch (congrArg PtpState.follows h).symm.trans hfollows'
      obtain ⟨honly, hservo⟩ := hto.spec
      obtain ⟨hquiet, hchans⟩ := ((hgone.trans honly).trans (sourceCheck_servoOnly _)).fields
      rw [Option.isSome_some, if_pos rfl]
      refine ⟨_, rfl, hquiet, hchans, fun hnone => absurd (hsome.symm.trans hnone) (Option.some_ne_none m), fun m' hm => ?_⟩
      rw [← Option.some.inj (hsome.symm.trans hm), sourceCheck_ptp, hservo]
      exact ⟨hport, hgm⟩
  case noMaster =>
    intro hstate hfirst htime
    exact ⟨_, exec_ptpNoMaster_raises hstate hfirst htime, raise_reports _ _ _ _, (raise_raised _ _ _ _).of_log rfl rfl⟩
  case locked =>
    intro at_ since hstate hsince htime hsame
    have honly : ServoOnly s (sourceCheck (lockEntered s)) := ((raise_servo _ _ _ _).1.trans (sourceCheck_servoOnly _)).after rfl
    refine ⟨_, exec_ptpLocked_enters hstate hsince htime hsame, ?_, honly.fields⟩
    rw [sourceCheck_ptp, lockEntered, (raise_servo _ _ _ _).2]

end

section
/-! PROOFS. The filter of NA and NB against the statement of its rows: a VLAN tag with an ID other than 0 (R139). -/

namespace Sys2Proof.Machine

/-- A frame with a VLAN ID other than 0 counts as filtered, whatever it carries (R139). -/
theorem exec_networkFrame_tagged {p v : Nat} {f : List Byte} {s : State} (tick : Nat) (hp : p < 2) (hon : s.cfg.active.portOn p = true)
    (hup : (s.port p).up = true) (hmin : 64 ≤ f.length) (hmax : f.length ≤ 2500) (hvlan : vlanOf f = some v) (hv : v ≠ 0) :
    exec (.networkFrame p f true tick) s = .next (portCount p 3 1 s) := by
  show execNetworkFrame p f true tick s = _
  rw [execNetworkFrame, if_pos (by rw [decide_eq_true hp, hon, hup]; rfl), if_neg (by decide), if_neg (by omega), hvlan]
  exact if_pos (by simp [hv])

/-- NA is enabled with its link up, and stream 0 comes in on it from 239.1.2.3, port 5004. -/
def stream0OnNA : State := {
  cfg := { active := { params := [(pid 0x02 0 0, 1), (pid 0x03 0 0, 0xA301), (pid 0x03 0 1, 0xEF010203)] } }
  ports := #v[{ up := true }, {}, {}] }

/-- A packet of stream 0 with 18 bytes of data, tagged with VLAN ID 5. -/
def taggedPacket : List Byte :=
  List.replicate 6 0xFF ++ zeros 6 ++ [0x81, 0, 0, 5] ++
    [8, 0, 0x45, 0, 0, 46, 0, 0, 0, 0, 0, 17, 0xC9, 0xBB, 0, 0, 0, 0, 239, 1, 2, 3, 0, 0, 0x13, 0x8C, 0, 26] ++ zeros 24

/-- What the audio FIFO takes of a packet of stream 0: group, UDP port and data. -/
def packetEntry : List Byte := [239, 1, 2, 3, 0x13, 0x8C] ++ zeros 18

theorem taggedPacket_vlan : vlanOf taggedPacket = some 5 := by decide

theorem taggedPacket_addressed : addressed stream0OnNA 0 taggedPacket = true := by decide

theorem taggedPacket_entry : streamEntry? stream0OnNA 0 taggedPacket = some (0, packetEntry) := by decide

end Sys2Proof.Machine

open Sys2Proof Sys2Proof.Machine

/-- Refutes O43: the clause on the packet of a stream has no premise on the VLAN tag. The packet of stream 0 below carries VLAN ID 5, so R139
filters it and the audio FIFO stays empty. -/
theorem not_portRows : ¬ Obligations.PortRows := by
  intro h
  obtain ⟨-, -, -, -, hpacket⟩ := (h stream0OnNA 0).1 taggedPacket true 0 (by decide) (by decide) rfl
  obtain ⟨t, hexec, -, hport⟩ := hpacket 0 packetEntry rfl (by decide) (by decide) taggedPacket_addressed taggedPacket_entry (by decide)
    (by decide) (by decide)
  rw [exec_networkFrame_tagged 0 (by decide) (by decide) rfl (by decide) (by decide) taggedPacket_vlan (by decide)] at hexec
  cases hexec
  exact absurd (congrArg (fun q => q.audio.length) hport) (by decide)

end

section
/-! PROOFS. The receive rings of the Keeper: what a frame fills, what it reads back as, and what its service leaves (R139, R140, R165, R166). -/

namespace Sys2Proof.Machine

/-! ### The bytes of a ring (R165) -/

/-- From `s` to `t` the Keeper SRAM changes at most within the descriptors and buffers of ring `p`. -/
def WritesRing (p : Nat) (s t : State) : Prop := Memory.wf s.sram = true →
  Memory.wf t.sram = true ∧ ∀ a, a < descAddr p 0 ∨ descAddr p 0 + 67584 ≤ a → SMap.get 0 a t.sram = SMap.get 0 a s.sram

theorem WritesRing.of_eq {p : Nat} {s t : State} (h : t.sram = s.sram) : WritesRing p s t := by
  intro hwf
  rw [h]
  exact ⟨hwf, fun _ _ => rfl⟩

theorem WritesRing.trans {p : Nat} {s t u : State} (h : WritesRing p s t) (k : WritesRing p t u) : WritesRing p s u := fun hwf =>
  ⟨(k (h hwf).1).1, fun a ha => ((k (h hwf).1).2 a ha).trans ((h hwf).2 a ha)⟩

theorem putBytes_writesRing {p a : Nat} {l : List Byte} (hlow : descAddr p 0 ≤ a) (hhigh : a + l.length ≤ descAddr p 0 + 67584) (s : State) :
    WritesRing p s { s with sram := putBytes a l s.sram } := fun hwf =>
  ⟨putBytes_wf a l hwf, fun k hk => get_putBytes_other a k l hwf (by omega)⟩

theorem descBytes_length (p i : Nat) (w : Word) (ns : Nat) : (descBytes p i w ns).length = 16 := by
  simp only [descBytes, List.length_append, le_length]
  rfl

theorem descAddr_within {p i : Nat} (hi : i < 128) : descAddr p 0 ≤ descAddr p i ∧ descAddr p i + 16 ≤ descAddr p 0 + 2048 := by
  unfold descAddr
  omega

theorem bufAddr_within {p i : Nat} (hi : i < 128) : descAddr p 0 ≤ bufAddr p i ∧ bufAddr p i + 512 ≤ descAddr p 0 + 67584 := by
  unfold bufAddr descAddr
  omega

theorem ringPut_writesRing {p i : Nat} {buf : List Byte} (hi : i < 128) (hbuf : buf.length ≤ 512) (w : Word) (s : State) :
    WritesRing p s (ringPut p i w buf s) := by
  have hdesc := descAddr_within (p := p) hi
  have hadr := bufAddr_within (p := p) hi
  have hlen := descBytes_length p i w s.ptp.timeNs
  exact (putBytes_writesRing (l := descBytes p i w s.ptp.timeNs) hdesc.1 (by omega) s).trans (putBytes_writesRing (l := buf) hadr.1 (by omega) _)

theorem ringGive_writesRing {p i : Nat} (hi : i < 128) (s : State) : WritesRing p s (ringGive p i s) := by
  have hdesc := descAddr_within (p := p) hi
  exact putBytes_writesRing (by omega) (by rw [le_length]; omega) s

/-! ### What the rings may change -/

/-- From `s` to `t` only the Keeper SRAM may differ. -/
def SramOnly (s t : State) : Prop := t = { s with sram := t.sram }

theorem SramOnly.trans {s t u : State} (h : SramOnly s t) (k : SramOnly t u) : SramOnly s u := by
  unfold SramOnly at *
  rw [k, h]

/-- From `s` to `t` only the ports, the Keeper SRAM, counters, the window and sent frames may differ. -/
def TakesOnly (s t : State) : Prop := Answers { s with ports := t.ports, sram := t.sram } t

theorem TakesOnly.trans {s t u : State} (h : TakesOnly s t) (k : TakesOnly t u) : TakesOnly s u := by
  unfold TakesOnly Answers at *
  rw [k, h]

theorem Answers.takesOnly {s t : State} (h : Answers s t) : TakesOnly s t := by
  unfold TakesOnly Answers at *
  rw [h]

theorem TakesOnly.fields {s t : State} (h : TakesOnly s t) : t.chans = s.chans ∧ t.pending = s.pending ∧ t.cfg = s.cfg ∧ t.keeper = s.keeper := by
  rw [h]
  exact ⟨rfl, rfl, rfl, rfl⟩

theorem Answers.port {s t : State} (h : Answers s t) (p : Nat) : t.port p = s.port p := by rw [h]; rfl

/-! ### A frame fills descriptors (R165, R166) -/

/-- The descriptors that a frame needs. -/
def ringNeed (f : List Byte) : Nat := max 1 ((f.length + 511) / 512)

/-- The descriptors from the next one on that belong to the MAC. -/
def ringFree (q : Port) : Nat := ((List.range 128).takeWhile fun j => !(q.ring.any (·.1 == (q.ringNext + j) % 128))).length

/-- Descriptor and buffer `i` of a frame. -/
def ringDesc (q : Port) (f : List Byte) (bad : Bool) (i : Nat) : Nat × Word := ((q.ringNext + i) % 128,
  descWord (i == 0) (!decide (ringFree q < ringNeed f) && i + 1 == ringNeed f) (bad || decide (ringFree q < ringNeed f)) bad
    (min 512 (f.length - 512 * i)))
def ringBuf (q : Port) (f : List Byte) (i : Nat) : Nat × List Byte := ((q.ringNext + i) % 128, sub f (512 * i) 512)

/-- A port whose ring has taken a frame as far as it is free. -/
def ringFilled (f : List Byte) (bad : Bool) (q : Port) : Port := { q with
  ring := q.ring ++ (List.range (min (ringNeed f) (ringFree q))).map (ringDesc q f bad)
  ringBytes := q.ringBytes ++ (List.range (min (ringNeed f) (ringFree q))).map (ringBuf q f)
  ringNext := (q.ringNext + min (ringNeed f) (ringFree q)) % 128 }

/-- The descriptors and buffers of a frame are written. -/
def ringWritten (p : Nat) (f : List Byte) (bad : Bool) (s : State) : State :=
  (List.range (min (ringNeed f) (ringFree (s.port p)))).foldl
    (fun t i => ringPut p (ringDesc (s.port p) f bad i).1 (ringDesc (s.port p) f bad i).2 (ringBuf (s.port p) f i).2 t) (s.modPort p (ringFilled f bad))

theorem fillRing_eq (p : Nat) (f : List Byte) (bad : Bool) (s : State) : fillRing p f bad s =
    if decide (ringFree (s.port p) < ringNeed f) then (ringWritten p f bad s).count (netStat (0x10 * p + 5)) 1 else ringWritten p f bad s := by
  unfold fillRing ringWritten ringFilled ringDesc ringBuf ringFree ringNeed
  rfl

theorem ringWritten_sramOnly (p : Nat) (f : List Byte) (bad : Bool) (s : State) :
    SramOnly (s.modPort p (ringFilled f bad)) (ringWritten p f bad s) :=
  foldl_invariant (P := SramOnly (s.modPort p (ringFilled f bad))) (fun t _ h => h.trans (u := ringPut p _ _ _ t) rfl) _ rfl

theorem ringWritten_writesRing (p : Nat) (f : List Byte) (bad : Bool) (s : State) : WritesRing p s (ringWritten p f bad s) :=
  foldl_invariant (P := WritesRing p s)
    (fun t i h => h.trans (ringPut_writesRing (Nat.mod_lt _ (by omega)) (List.length_take_le _ _) _ t)) _ (WritesRing.of_eq rfl)

theorem fillRing_takesOnly (p : Nat) (f : List Byte) (bad : Bool) (s : State) :
    TakesOnly s (fillRing p f bad s) ∧ (fillRing p f bad s).misc = s.misc ∧ WritesRing p s (fillRing p f bad s) := by
  have hwritten := ringWritten_sramOnly p f bad s
  have hring := ringWritten_writesRing p f bad s
  rw [fillRing_eq]
  split
  · refine ⟨?_, ?_, hring.trans (WritesRing.of_eq rfl)⟩
    · rw [hwritten]
      rfl
    · rw [hwritten]
      rfl
  · refine ⟨?_, ?_, hring⟩
    · rw [hwritten]
      rfl
    · rw [hwritten]
      rfl

theorem fillRing_port {p : Nat} (hp : p < 3) (f : List Byte) (bad : Bool) (s : State) :
    (fillRing p f bad s).port p = ringFilled f bad (s.port p) := by
  have hwritten : (ringWritten p f bad s).port p = ringFilled f bad (s.port p) := by
    rw [ringWritten_sramOnly p f bad s]
    exact port_modPort_self s _ hp
  rw [fillRing_eq]
  split
  · exact hwritten
  · exact hwritten

/-- A frame that finds room counts nowhere. -/
theorem fillRing_counters {p : Nat} {f : List Byte} {s : State} (h : ringNeed f ≤ ringFree (s.port p)) (bad : Bool) :
    (fillRing p f bad s).counters = s.counters := by
  rw [fillRing_eq, if_neg (by simpa using h), ringWritten_sramOnly p f bad s]
  rfl

/-! ### A ring read back (R166) -/

/-- The flags that a descriptor word carries (Table 6.12). -/
theorem descWord_flags (sof eof discard err : Bool) {len : Nat} (hlen : len ≤ 512) :
    (descWord sof eof discard err len).getLsbD 30 = sof ∧ (descWord sof eof discard err len).getLsbD 29 = eof ∧
      (descWord sof eof discard err len).getLsbD 28 = discard := by
  have hbit (b : Bool) (i : Nat) : bit b i = b.toNat * 2 ^ i := by cases b <;> simp [bit]
  have hone (b : Bool) : b.toNat ≤ 1 := by cases b <;> decide
  have hdec (b : Bool) : decide (b.toNat = 1) = b := by cases b <;> decide
  have h30 := hone sof
  have h29 := hone eof
  have h28 := hone discard
  have h27 := hone err
  simp only [descWord, word, BitVec.getLsbD_ofNat, hbit, Nat.testBit_eq_decide_div_mod_eq, Nat.reduceLT, decide_true, Bool.true_and]
  refine ⟨(decide_eq_decide.mpr ?_).trans (hdec sof), (decide_eq_decide.mpr ?_).trans (hdec eof), (decide_eq_decide.mpr ?_).trans (hdec discard)⟩
  all_goals omega

/-- One descriptor read by the Keeper: the frames so far, and the bytes of the frame at hand. -/
def readDesc (bytes : List (Nat × List Byte)) (a : List (List Byte) × List Byte) (d : Nat × Word) : List (List Byte) × List Byte :=
  if d.2.getLsbD 28 then (a.1, [])
  else if d.2.getLsbD 29 then (a.1 ++ [(if d.2.getLsbD 30 then [] else a.2) ++ ((bytes.find? (·.1 == d.1)).map (·.2)).getD []], [])
  else (a.1, (if d.2.getLsbD 30 then [] else a.2) ++ ((bytes.find? (·.1 == d.1)).map (·.2)).getD [])

theorem ringFrames_eq (q : Port) : ringFrames q = (q.ring.foldl (readDesc q.ringBytes) ([], [])).1 := rfl

theorem ringFree_empty {q : Port} (h : q.ring = []) : ringFree q = 128 := by
  rw [ringFree, h]
  exact (congrArg List.length (List.takeWhile_eq_self_iff.mpr fun _ _ => rfl)).trans List.length_range

/-- The buffer of a descriptor is found by its number, for no two of a frame have the same. -/
theorem find_ringBuf (q : Port) (f : List Byte) {n i : Nat} (hi : i < n) (hn : n ≤ 128) :
    ((List.range n).map (ringBuf q f)).find? (·.1 == (q.ringNext + i) % 128) = some (ringBuf q f i) := by
  rw [List.find?_map, List.find?_range_eq_some.mpr]
  · rfl
  · refine ⟨?_, ?_, ?_⟩
    · simp [ringBuf]
    · exact List.mem_range.mpr hi
    · intro j hj
      simp [ringBuf]
      omega

theorem ringFilled_ring (f : List Byte) (bad : Bool) {q : Port} (h : q.ring = []) :
    (ringFilled f bad q).ring = (List.range (min (ringNeed f) (ringFree q))).map (ringDesc q f bad) := by
  simp only [ringFilled, h, List.nil_append]

/-- A descriptor of a bad frame is discarded, with what stood before it. -/
theorem readDesc_bad (bytes : List (Nat × List Byte)) (a : List (List Byte) × List Byte) (q : Port) (f : List Byte) (i : Nat) :
    readDesc bytes a (ringDesc q f true i) = (a.1, []) := by
  obtain ⟨-, -, hflag⟩ := descWord_flags (i == 0) (!decide (ringFree q < ringNeed f) && i + 1 == ringNeed f) true true
    (Nat.min_le_left 512 (f.length - 512 * i))
  simp only [readDesc, ringDesc, Bool.true_or, hflag, if_true]

theorem readDescs_bad (bytes : List (Nat × List Byte)) (q : Port) (f : List Byte) (l : List Nat) (a : List (List Byte) × List Byte) :
    (l.foldl (fun a i => readDesc bytes a (ringDesc q f true i)) a).1 = a.1 := by
  induction l generalizing a with
  | nil => rfl
  | cons i l ih => rw [List.foldl_cons, readDesc_bad, ih]

/-- A bad frame, read back, is no frame. -/
theorem ringFrames_bad (f : List Byte) {q : Port} (h : q.ring = []) : ringFrames (ringFilled f true q) = [] := by
  rw [ringFrames_eq, ringFilled_ring f true h, List.foldl_map, readDescs_bad]

/-- One descriptor of a good frame for which there is room: its bytes are added, and the last one completes it. -/
theorem readDesc_ringDesc {f : List Byte} {q : Port} {i : Nat} (hi : i < ringNeed f) (hroom : ringNeed f ≤ ringFree q) (hsmall : ringNeed f ≤ 128)
    (out : List (List Byte)) :
    readDesc ((List.range (ringNeed f)).map (ringBuf q f)) (out, f.take (512 * i)) (ringDesc q f false i) =
      if i + 1 = ringNeed f then (out ++ [f.take (512 * (i + 1))], []) else (out, f.take (512 * (i + 1))) := by
  have hfits : decide (ringFree q < ringNeed f) = false := decide_eq_false (by omega)
  obtain ⟨hsof, heof, hdiscard⟩ := descWord_flags (i == 0) (i + 1 == ringNeed f) false false (Nat.min_le_left 512 (f.length - 512 * i))
  have hstart : (if i = 0 then [] else f.take (512 * i)) = f.take (512 * i) := by
    split
    · next h => rw [h]; rfl
    · rfl
  simp only [readDesc, ringDesc, hfits, Bool.not_false, Bool.true_and, Bool.or_false, hsof, heof, hdiscard, find_ringBuf q f hi hsmall, ringBuf, sub,
    Option.map_some, Option.getD_some, beq_iff_eq, Bool.false_eq_true, if_false, hstart, ← List.take_add, Nat.mul_add, Nat.mul_one]

/-- The first descriptors of a good frame for which there is room hold its first bytes. -/
theorem readDescs_part {f : List Byte} {q : Port} (hroom : ringNeed f ≤ ringFree q) (hsmall : ringNeed f ≤ 128) {k : Nat} (hk : k < ringNeed f) :
    (List.range k).foldl (fun a i => readDesc ((List.range (ringNeed f)).map (ringBuf q f)) a (ringDesc q f false i)) ([], []) =
      ([], f.take (512 * k)) := by
  induction k with
  | zero => rfl
  | succ k ih =>
    rw [List.range_succ, List.foldl_append, ih (by omega), List.foldl_cons, readDesc_ringDesc (by omega) hroom hsmall, if_neg (by omega), List.foldl_nil]

/-- All of its descriptors hold all of it. -/
theorem readDescs_whole {f : List Byte} {q : Port} (hroom : ringNeed f ≤ ringFree q) (hsmall : ringNeed f ≤ 128) :
    (List.range (ringNeed f)).foldl (fun a i => readDesc ((List.range (ringNeed f)).map (ringBuf q f)) a (ringDesc q f false i)) ([], []) =
      ([f], []) := by
  obtain ⟨k, hk⟩ : ∃ k, ringNeed f = k + 1 := ⟨ringNeed f - 1, by unfold ringNeed; omega⟩
  have hall : f.take (512 * (k + 1)) = f := List.take_of_length_le (by unfold ringNeed at hk; omega)
  have hpart := readDescs_part hroom hsmall (k := k) (by omega)
  have hlast := readDesc_ringDesc (i := k) (by omega) hroom hsmall []
  rw [if_pos hk.symm, hall] at hlast
  generalize (List.range (ringNeed f)).map (ringBuf q f) = bytes at hpart hlast ⊢
  rw [hk, List.range_succ, List.foldl_append, hpart, List.foldl_cons, hlast, List.foldl_nil, List.nil_append]

/-- A good frame, read back from an empty ring, is that frame. -/
theorem ringFrames_good {f : List Byte} {q : Port} (hring : q.ring = []) (hbytes : q.ringBytes = []) (hsmall : ringNeed f ≤ 128) :
    ringFrames (ringFilled f false q) = [f] := by
  have hroom : ringNeed f ≤ ringFree q := (ringFree_empty hring).symm ▸ hsmall
  have hheld : (ringFilled f false q).ringBytes = (List.range (ringNeed f)).map (ringBuf q f) := by
    simp only [ringFilled, hbytes, List.nil_append, Nat.min_eq_left hroom]
  rw [ringFrames_eq, ringFilled_ring f false hring, hheld, List.foldl_map, Nat.min_eq_left hroom, readDescs_whole hroom hsmall]

/-! ### The Keeper serves a ring (R140, R165) -/

theorem sendAll_answers (l : List Sent) (s : State) : Answers s (sendAll l s) :=
  foldl_invariant (P := Answers s) (fun t f h => h.trans (send_answers f t)) l rfl

theorem sendAll_sent (l : List Sent) (s : State) : (sendAll l s).misc.sent = s.misc.sent ++ l := by
  induction l generalizing s with
  | nil => exact (List.append_nil _).symm
  | cons f l ih => rw [show sendAll (f :: l) s = sendAll l (s.send f) from rfl, ih, send_sent, List.append_assoc, List.singleton_append]

theorem ring_answers (i : Nat) (s : State) : Answers s (ring i s) := by
  unfold ring
  split
  · rfl
  · exact irq_answers _ s

theorem hostTake_answers (addr port dst dport : Nat) (payload : List Byte) (s : State) : Answers s (hostTake addr port dst dport payload s) := by
  unfold hostTake
  dsimp only
  split
  · split
    · exact Answers.trans (t := { s with spi := _ }) rfl (ring_answers _ _)
    · rfl
  · rfl

theorem keeperServes_answers (p : Nat) (f : List Byte) (s : State) : Answers s (keeperServes p f s) := by
  unfold keeperServes
  dsimp only
  split
  · exact hostTake_answers _ _ _ _ _ s
  · exact sendAll_answers _ s

/-- What is no UDP datagram of NM is answered. -/
theorem keeperServes_replies {p : Nat} {f : List Byte} (h : p ≠ 2 ∨ ipProto (etherBody f) ≠ 17 ∨ etherType f ≠ 0x0800) (s : State) :
    keeperServes p f s = sendAll (keeperReply s p f) s := by
  refine if_neg fun ⟨hport, htype, _, hproto, _⟩ => ?_
  rcases h with h | h | h
  · exact h hport
  · exact h hproto
  · exact h htype

/-- A reply depends on the configuration alone. -/
theorem keeperReply_congr {s t : State} (h : t.cfg = s.cfg) (p : Nat) (f : List Byte) : keeperReply t p f = keeperReply s p f := by
  unfold keeperReply portAddr State.nat
  rw [h]

/-- The frames of a ring are served, which leaves its descriptors. -/
theorem keeperServesAll_answers (p : Nat) (l : List (List Byte)) (s : State) : Answers s (l.foldl (fun s f => keeperServes p f s) s) :=
  foldl_invariant (P := Answers s) (fun t f h => h.trans (keeperServes_answers p f t)) l rfl

theorem ringGives_sramOnly (p : Nat) (l : List (Nat × Word)) (s : State) : SramOnly s (l.foldl (fun s d => ringGive p d.1 s) s) :=
  foldl_invariant (P := SramOnly s) (fun t d h => h.trans (u := ringGive p d.1 t) rfl) l rfl

theorem returnRing_eq (p : Nat) (s : State) : returnRing p s = { s with ports := (returnRing p s).ports, sram := (returnRing p s).sram } := by
  unfold returnRing
  rw [ringGives_sramOnly p (s.port p).ring s]
  rfl

theorem returnRing_port {p : Nat} (hp : p < 3) (s : State) : (returnRing p s).port p = { s.port p with ring := [], ringBytes := [] } := by
  rw [returnRing, port_modPort_self _ _ hp, ringGives_sramOnly p (s.port p).ring s]
  rfl

theorem returnRing_writesRing {p : Nat} {s : State} (h : ∀ d ∈ (s.port p).ring, d.1 < 128) : WritesRing p s (returnRing p s) :=
  (List.foldlRecOn (s.port p).ring _ (motive := WritesRing p s) (WritesRing.of_eq rfl)
    fun t ht d hd => ht.trans (ringGive_writesRing (h d hd) t)).trans (WritesRing.of_eq rfl)

theorem serveRing_served {p : Nat} {s : State} (h : ringServed p s = true) :
    serveRing p s = returnRing p ((ringFrames (s.port p)).foldl (fun s f => keeperServes p f s) s) := if_pos h

theorem serveRing_waits {p : Nat} {s : State} (h : ringServed p s = false) : serveRing p s = s := if_neg (by simp [h])

theorem serveRing_takesOnly (p : Nat) (s : State) : TakesOnly s (serveRing p s) := by
  cases h : ringServed p s with
  | false =>
    rw [serveRing_waits h]
    rfl
  | true =>
    rw [serveRing_served h]
    refine TakesOnly.trans (keeperServesAll_answers p (ringFrames (s.port p)) s).takesOnly ?_
    rw [returnRing_eq]
    rfl

theorem serveRing_port {p : Nat} (hp : p < 3) {s : State} (h : ringServed p s = true) :
    (serveRing p s).port p = { s.port p with ring := [], ringBytes := [] } := by
  rw [serveRing_served h, returnRing_port hp, (keeperServesAll_answers p _ s).port]

theorem serveRing_writesRing {p : Nat} {s : State} (h : ∀ d ∈ (s.port p).ring, d.1 < 128) : WritesRing p s (serveRing p s) := by
  cases hs : ringServed p s with
  | false =>
    rw [serveRing_waits hs]
    exact WritesRing.of_eq rfl
  | true =>
    have hall := keeperServesAll_answers p (ringFrames (s.port p)) s
    rw [serveRing_served hs]
    exact (WritesRing.of_eq hall.fields.2.2.2.2).trans (returnRing_writesRing (by rw [hall.port]; exact h))

/-- The frames of NA and NB leave the window. -/
theorem serveRing_mem {p : Nat} (hp : p ≠ 2) (s : State) : (serveRing p s).spi.mem = s.spi.mem := by
  cases h : ringServed p s with
  | false => rw [serveRing_waits h]
  | true =>
    rw [serveRing_served h, (returnRing_frame p _).2.1]
    refine foldl_invariant (P := fun t : State => t.spi.mem = s.spi.mem) (fun t f ht => ?_) _ rfl
    rw [keeperServes_replies (.inl hp), (sendAll_frame _ t).2.1, ht]

/-! ### A frame reaches the Keeper -/

theorem ringFilled_next (f : List Byte) (bad : Bool) (q : Port) : (ringFilled f bad q).ringNext < 128 := Nat.mod_lt _ (by omega)

theorem ringFilled_entries {f : List Byte} {bad : Bool} {q : Port} (h : ∀ d ∈ q.ring, d.1 < 128) : ∀ d ∈ (ringFilled f bad q).ring, d.1 < 128 := by
  intro d hd
  rcases List.mem_append.mp hd with hd | hd
  · exact h d hd
  · obtain ⟨i, -, rfl⟩ := List.mem_map.mp hd
    exact Nat.mod_lt _ (by omega)

theorem keeperTakes_takesOnly (p : Nat) (f : List Byte) (bad : Bool) (s : State) : TakesOnly s (keeperTakes p f bad s) :=
  (fillRing_takesOnly p f bad s).1.trans (serveRing_takesOnly p _)

theorem keeperTakes_writesRing {p : Nat} (hp : p < 3) {f : List Byte} {bad : Bool} {s : State} (h : ∀ d ∈ (s.port p).ring, d.1 < 128) :
    WritesRing p s (keeperTakes p f bad s) :=
  (fillRing_takesOnly p f bad s).2.2.trans (serveRing_writesRing (by rw [fillRing_port hp]; exact ringFilled_entries h))

theorem ringServed_fillRing (p : Nat) (f : List Byte) (bad : Bool) (s : State) : ringServed p (fillRing p f bad s) = ringServed p s := by
  unfold ringServed
  rw [fillRing_keeper]

theorem keeperTakes_port {p : Nat} (hp : p < 3) (f : List Byte) (bad : Bool) (s : State) :
    (keeperTakes p f bad s).port p = if ringServed p s then { ringFilled f bad (s.port p) with ring := [], ringBytes := [] }
      else ringFilled f bad (s.port p) := by
  rw [keeperTakes, ← ringServed_fillRing p f bad s, ← fillRing_port hp f bad s]
  cases h : ringServed p (fillRing p f bad s) with
  | false => rw [serveRing_waits h, if_neg Bool.false_ne_true]
  | true => rw [serveRing_port hp h, if_pos rfl]

theorem keeperTakes_next {p : Nat} (hp : p < 3) (f : List Byte) (bad : Bool) (s : State) : ((keeperTakes p f bad s).port p).ringNext < 128 := by
  rw [keeperTakes_port hp]
  split
  · exact ringFilled_next f bad _
  · exact ringFilled_next f bad _

/-- A ring in service is empty after a frame. -/
theorem keeperTakes_ring {p : Nat} (hp : p < 3) (f : List Byte) (bad : Bool) {s : State} (h : ringServed p s = true) :
    ((keeperTakes p f bad s).port p).ring = [] ∧ ((keeperTakes p f bad s).port p).ringBytes = [] := by
  rw [keeperTakes_port hp, if_pos h]
  exact ⟨rfl, rfl⟩

theorem keeperTakes_keep {p : Nat} (hp : p < 3) (f : List Byte) (bad : Bool) (s : State) : ((keeperTakes p f bad s).port p).keep = (s.port p).keep := by
  rw [keeperTakes_port hp]
  split
  · rfl
  · rfl

/-- A good frame into an empty ring in service is served at once. -/
theorem keeperTakes_good {p : Nat} (hp : p < 3) {f : List Byte} {s : State} (hring : (s.port p).ring = []) (hbytes : (s.port p).ringBytes = [])
    (hsmall : ringNeed f ≤ 128) (h : ringServed p s = true) :
    keeperTakes p f false s = returnRing p (keeperServes p f (fillRing p f false s)) := by
  rw [keeperTakes, serveRing_served ((ringServed_fillRing p f false s).trans h), fillRing_port hp, ringFrames_good hring hbytes hsmall]
  rfl

/-- A good frame that is no UDP datagram of NM is answered. -/
theorem keeperTakes_replies {p : Nat} (hp : p < 3) {f : List Byte} {s : State} (hring : (s.port p).ring = []) (hbytes : (s.port p).ringBytes = [])
    (hsmall : ringNeed f ≤ 128) (h : ringServed p s = true) (hother : p ≠ 2 ∨ ipProto (etherBody f) ≠ 17 ∨ etherType f ≠ 0x0800) :
    (keeperTakes p f false s).misc.sent = s.misc.sent ++ keeperReply s p f ∧ (keeperTakes p f false s).spi.mem = s.spi.mem := by
  obtain ⟨-, hmisc, -⟩ := fillRing_takesOnly p f false s
  obtain ⟨-, hmem, hcfg⟩ := fillRing_frame p f false s
  have hsent := sendAll_sent (keeperReply s p f) (fillRing p f false s)
  obtain ⟨-, hmem', -⟩ := sendAll_frame (keeperReply s p f) (fillRing p f false s)
  rw [keeperTakes_good hp hring hbytes hsmall h, keeperServes_replies hother, returnRing_eq, keeperReply_congr hcfg]
  exact ⟨hsent.trans (by rw [hmisc]), hmem'.trans hmem⟩

/-- A bad frame into an empty ring in service only takes its descriptors, which return to the MAC. -/
theorem keeperTakes_bad {p : Nat} (hp : p < 3) {f : List Byte} {s : State} (hring : (s.port p).ring = []) (hsmall : ringNeed f ≤ 128)
    (h : ringServed p s = true) :
    (keeperTakes p f true s).misc = s.misc ∧ (keeperTakes p f true s).counters = s.counters ∧ (keeperTakes p f true s).spi.mem = s.spi.mem := by
  have hroom : ringNeed f ≤ ringFree (s.port p) := (ringFree_empty hring).symm ▸ hsmall
  obtain ⟨-, hmisc, -⟩ := fillRing_takesOnly p f true s
  rw [keeperTakes, serveRing_served ((ringServed_fillRing p f true s).trans h), fillRing_port hp, ringFrames_bad f hring, List.foldl_nil, returnRing_eq]
  exact ⟨hmisc, fillRing_counters hroom true, (fillRing_frame p f true s).2.1⟩

/-- A frame that takes at most 128 buffers. -/
theorem ringNeed_le {f : List Byte} (h : f.length ≤ 65536) : ringNeed f ≤ 128 := by
  unfold ringNeed
  omega

theorem ringServed_of_awake {p : Nat} {s : State} (h : s.keeper.halted = false) (hport : p ≠ 2 ∨ s.keeper.dev ≠ .standby) : ringServed p s = true := by
  unfold ringServed
  rcases hport with hport | hdev
  · simp [h, hport]
  · simp [h, hdev]

/-! ### The rows of the rings (R139, R140, R166) -/

/-- The oldest Keeper-bound frame has left its FIFO. -/
def keepTaken (p : Nat) (rest : List (List Byte)) (s : State) : State := s.modPort p fun q => { q with keep := rest }

theorem exec_keeperFrame_network {p : Nat} {f : List Byte} {rest : List (List Byte)} {s : State} (g : List Byte) (b : Bool) (hp : p < 2)
    (hkeep : (s.port p).keep = f :: rest) : exec (.keeperFrame p g b) s = .next (keeperTakes p f false (keepTaken p rest s)) := by
  show execKeeperFrame p g b s = _
  rw [execKeeperFrame, if_pos hp, hkeep]
  rfl

theorem exec_keeperFrame_bad {f : List Byte} {ok : Bool} {s : State} (hup : (s.port 2).up = true) (hruns : firmwareRuns s = true)
    (hbad : ok = false ∨ f.length < 64 ∨ 1522 < f.length) : exec (.keeperFrame 2 f ok) s = .next (keeperTakes 2 f true (badCount 2 ok s)) := by
  show execKeeperFrame 2 f ok s = _
  rw [execKeeperFrame, if_neg (by decide), hruns, hup, if_pos (by rfl), if_neg]
  rintro ⟨hok, hmin, hmax⟩
  rcases hbad with h | h | h
  · exact Bool.false_ne_true (h.symm.trans hok)
  · omega
  · omega

/-- NM takes frames while its link is up and firmware runs. -/
theorem nmTakes {s : State} (hup : (s.port 2).up = true) (hruns : firmwareRuns s = true) (hhalted : s.keeper.halted = false) :
    ((s.port 2).up && firmwareRuns { s with keeper := { s.keeper with halted := false } }) = true := by
  rw [hup, show ({ s.keeper with halted := false } : Keeper) = s.keeper by rw [← hhalted], hruns]
  rfl

theorem exec_nmFrame_bad {f : List Byte} {ok : Bool} {s : State} (hup : (s.port 2).up = true) (hruns : firmwareRuns s = true)
    (hhalted : s.keeper.halted = false) (hbad : ok = false ∨ f.length < 64 ∨ 1522 < f.length) :
    exec (.nmFrame f ok) s = .next (keeperTakes 2 f true (badCount 2 ok s)) := by
  show execNmFrame f ok s = _
  rw [execNmFrame, if_pos (nmTakes hup hruns hhalted), if_pos (by simpa using hbad)]

theorem exec_nmFrame_good {f : List Byte} {s : State} (hup : (s.port 2).up = true) (hruns : firmwareRuns s = true)
    (hhalted : s.keeper.halted = false) (hdev : s.keeper.dev ≠ .standby) (hmin : 64 ≤ f.length) (hmax : f.length ≤ 1522) :
    exec (.nmFrame f true) s = .next (if nmPasses f then keeperTakes 2 f false (portCount 2 0 1 s) else portCount 2 3 1 s) := by
  have hstays : ¬ ((s.keeper.dev == .standby && wakes s f) = true) := by simp [hdev]
  have hfits : ¬ (!true ∨ f.length < 64 ∨ 1522 < f.length) := by
    simp only [Bool.not_true, Bool.false_eq_true, false_or]
    omega
  show execNmFrame f true s = _
  rw [execNmFrame, if_pos (nmTakes hup hruns hhalted), if_neg hfits, if_neg hstays]
  split
  · rfl
  · rfl

/-! ### Monitor packets (R158, R159) -/

/-- A stream sends on a side in use whose link is up. -/
def monGoes (s : State) (j p : Nat) : Bool := s.cfg.active.monSides j / 2 ^ p % 2 == 1 && (s.port p).up

theorem monSend_spec (p j : Nat) (payload : List Byte) (s : State) : Reports s (monSend p j payload s) ∧
    (monSend p j payload s).misc.sent = s.misc.sent ++ ([p].filter (monGoes s j)).map fun p => ⟨p, s.nat 0x04 j 1, 5004, payload⟩ := by
  unfold monSend
  split
  · next h =>
    have hgoes : monGoes s j p = false := by simp [monGoes, h]
    exact ⟨rfl, by simp [hgoes]⟩
  next h =>
  have hside : s.cfg.active.monSides j / 2 ^ p % 2 = 1 := by omega
  split
  · next hup =>
    have hgoes : monGoes s j p = true := by simp [monGoes, hside, hup]
    exact ⟨send_reports _ s, by simp [hgoes, send_sent]⟩
  · next hup =>
    have hgoes : monGoes s j p = false := by simp [monGoes, hup]
    exact ⟨rfl, by simp [hgoes, portCount, State.count]⟩

/-- A packet goes out on each side in use whose link is up. -/
theorem monSend_both (j : Nat) (payload : List Byte) (s : State) : Reports s (monSend 1 j payload (monSend 0 j payload s)) ∧
    (monSend 1 j payload (monSend 0 j payload s)).misc.sent =
      s.misc.sent ++ ([0, 1].filter (monGoes s j)).map fun p => ⟨p, s.nat 0x04 j 1, 5004, payload⟩ := by
  obtain ⟨hreports, hsent⟩ := monSend_spec 0 j payload s
  obtain ⟨hreports', hsent'⟩ := monSend_spec 1 j payload (monSend 0 j payload s)
  have hgoes : monGoes (monSend 0 j payload s) j = monGoes s j := by rw [hreports]; rfl
  have hnat : (monSend 0 j payload s).nat 0x04 j 1 = s.nat 0x04 j 1 := by rw [hreports]; rfl
  refine ⟨hreports.trans hreports', ?_⟩
  rw [hsent', hsent, hgoes, hnat, List.append_assoc, ← List.map_append, ← List.filter_append]
  rfl

/-- A stream has formed the packet that begins at media index `n`. -/
def monFormed (j n : Nat) (s : State) : State := s.modMon j fun m => { m with seq := m.seq + 1, next := some (n + 12) }

/-- The RTP packet from media index `n` (R159). -/
def monPacket (s : State) (j n : Nat) : List Byte :=
  [0x80, 97] ++ be 2 ((s.mon j).seq % 65536) ++ be 4 (n / 2 % 2 ^ 32) ++ be 4 (Config.serial.toNat % 2 ^ 24 * 256 + j) ++ monSamples s j n

theorem exec_monitorPacket {j n : Nat} {s : State} (hlocked : s.media.locked = true) (hon : s.cfg.active.monOn j = true)
    (hnext : (s.mon j).next = some n) (hready : n + 48 ≤ s.media.index) :
    exec (.monitorPacket j) s = .next (monSend 1 j (monPacket s j n) (monSend 0 j (monPacket s j n) (monFormed j n s))) := by
  show execMonitorPacket j s = _
  rw [execMonitorPacket]
  dsimp only
  rw [if_pos (by rw [hlocked, hon]; rfl), hnext, if_neg (by simp; omega)]
  rfl

theorem monFormed_mon {j : Nat} (hj : j < 8) (n : Nat) (s : State) :
    (monFormed j n s).mon j = { s.mon j with seq := (s.mon j).seq + 1, next := some (n + 12) } ∧ ∀ i, i ≠ j → (monFormed j n s).mon i = s.mon i := by
  refine ⟨?_, fun i hi => ?_⟩
  · simp [monFormed, State.modMon, State.mon, hj]
  · simp [monFormed, State.modMon, State.mon, Vector.getElem?_setIfInBounds_ne hi.symm]

theorem Reports.mon {s t : State} (h : Reports s t) (j : Nat) : t.mon j = s.mon j := by rw [h]; rfl

end Sys2Proof.Machine

open Sys2Proof Sys2Proof.Machine

/-- Settles O44: a frame through a ring by what fills it, what reads back and what its service leaves; a monitor packet by its two sides. -/
theorem ringAndMonitorRows : Obligations.RingAndMonitorRows := by
  intro s
  refine ⟨?network, ?nm, ?monitor⟩
  case network =>
    intro p f rest g b hp hkeep
    have hport : (keepTaken p rest s).port p = { s.port p with keep := rest } := port_modPort_self s _ (by omega)
    obtain ⟨hchans, hpending, hcfg, -⟩ := (keeperTakes_takesOnly p f false (keepTaken p rest s)).fields
    refine ⟨_, exec_keeperFrame_network g b hp hkeep, ?_, keeperTakes_next (by omega) f false _, fun hhalted => ?_, hchans, hpending, ?_, hcfg,
      fun hwf hring a ha => ?_⟩
    · rw [keeperTakes_keep (by omega), hport]
    · exact keeperTakes_ring (by omega) f false (ringServed_of_awake hhalted (.inl (by omega)))
    · rw [keeperTakes, serveRing_mem (by omega), (fillRing_frame p f false _).2.1]
      rfl
    · have hwrites : WritesRing p (keepTaken p rest s) (keeperTakes p f false (keepTaken p rest s)) :=
        keeperTakes_writesRing (by omega) (by rw [hport]; exact hring)
      exact (hwrites hwf).2 a ha
  case nm =>
    intro f ok hup hruns hhalted hdev
    have hserved {t : State} (h : t.keeper = s.keeper) : ringServed 2 t = true :=
      ringServed_of_awake (by rw [h]; exact hhalted) (.inr (by rw [h]; exact hdev))
    refine ⟨?filtered, ?passes, ?rejected⟩
    case filtered =>
      rintro rfl hmin hmax hpass
      rw [exec_nmFrame_good hup hruns hhalted hdev hmin hmax, hpass]
      rfl
    case passes =>
      rintro rfl hmin hmax hpass hring hbytes
      have honly := keeperTakes_takesOnly 2 f false (portCount 2 0 1 s)
      have hempty := keeperTakes_ring (s := portCount 2 0 1 s) (p := 2) (by omega) f false (hserved rfl)
      have hwrites : WritesRing 2 (portCount 2 0 1 s) (keeperTakes 2 f false (portCount 2 0 1 s)) :=
        keeperTakes_writesRing (by omega) (by rw [show (portCount 2 0 1 s).port 2 = s.port 2 from rfl, hring]; simp)
      obtain ⟨hchans, hpending, hcfg, -⟩ := honly.fields
      rw [exec_nmFrame_good hup hruns hhalted hdev hmin hmax, if_pos hpass]
      exact ⟨_, rfl, keeperTakes_next (by omega) f false _, hempty.1, hchans, hpending, hcfg,
        keeperTakes_replies (s := portCount 2 0 1 s) (by omega) hring hbytes (ringNeed_le (by omega)) (hserved rfl) ∘ .inr,
        fun hwf => (hwrites hwf).2⟩
    case rejected =>
      intro hbad hlen hring
      have hempty := keeperTakes_ring (s := badCount 2 ok s) (p := 2) (by omega) f true (hserved rfl)
      obtain ⟨hchans, hpending, hcfg, -⟩ := (keeperTakes_takesOnly 2 f true (badCount 2 ok s)).fields
      obtain ⟨hmisc, hcounters, hmem⟩ := keeperTakes_bad (s := badCount 2 ok s) (p := 2) (by omega) hring (ringNeed_le hlen) (hserved rfl)
      refine ⟨_, exec_nmFrame_bad hup hruns hhalted hbad, exec_keeperFrame_bad hup hruns hbad, congrArg (·.sent) hmisc, hcounters.trans ?_,
        keeperTakes_next (by omega) f true _, hempty.1, hchans, hpending, hmem, hcfg⟩
      cases ok with
      | false => rfl
      | true => rfl
  case monitor =>
    intro j n hj hlocked hon hnext hready
    obtain ⟨hreports, hsent⟩ := monSend_both j (monPacket s j n) (monFormed j n s)
    obtain ⟨hself, hothers⟩ := monFormed_mon hj n s
    refine ⟨_, exec_monitorPacket hlocked hon hnext hready, ?_, ?_, ?_, ?_, ?_, fun i hi => ?_, ?_⟩
    · rw [hreports.mon, hself]
    · rw [hreports.mon, hself]
    · rw [hreports]; rfl
    · rw [hreports]; rfl
    · exact Quiet.trans (t := monFormed j n s) ⟨rfl, rfl, rfl, rfl⟩ hreports.quiet
    · rw [hreports.mon, hothers i hi]
    · exact hsent

end

section
/-! PROOFS. The TDM ports: frames in and out of time, admission and placement, a lost clock, and the judgement of a rate window (R172 to R174,
R183 to R188, R32). -/

namespace Sys2Proof.Machine

/-! ### What a port's rows may change -/

/-- From `s` to `t` only TDM ports, the media clock, and what a report changes may differ. -/
def PortsOnly (s t : State) : Prop := Reports { s with tdms := t.tdms, media := t.media } t

theorem PortsOnly.trans {s t u : State} (h : PortsOnly s t) (k : PortsOnly t u) : PortsOnly s u := by
  unfold PortsOnly Reports at *
  rw [k, h]

theorem PortsOnly.rfl' (s : State) : PortsOnly s s := rfl

theorem Reports.portsOnly {s t : State} (h : Reports s t) : PortsOnly s t := by
  unfold PortsOnly Reports at *
  rw [h]

theorem PortsOnly.fields {s t : State} (h : PortsOnly s t) : t.chans = s.chans ∧ Quiet s t := by
  rw [h]
  exact ⟨rfl, rfl, rfl, rfl, rfl⟩

theorem modTdm_portsOnly (s : State) (x : Nat) (f : Tdm → Tdm) : PortsOnly s (s.modTdm x f) := rfl

theorem sourceCheck_portsOnly (s : State) : PortsOnly s (sourceCheck s) :=
  (show PortsOnly s { s with media := (sourceCheck s).media } from rfl).trans (sourceCheck_reports s).portsOnly

theorem Reports.tdm {s t : State} (h : Reports s t) (x : Nat) : t.tdm x = s.tdm x := by rw [h]; rfl

@[simp] theorem sourceCheck_tdm (s : State) (x : Nat) : (sourceCheck s).tdm x = s.tdm x := (sourceCheck_reports s).tdm x

theorem tdmCode_reports (code x : Nat) (s : State) : Reports s (tdmCode code x s) := raiseHeld_reports _ _ _ _ _ s

theorem raiseHeldAs_reports (len code inst : Nat) (data : List Word) (s : State) : Reports s (s.raiseHeldAs len code inst data) := by
  unfold State.raiseHeldAs
  split
  · rfl
  · exact Reports.trans (t := { s with log := _ }) rfl (raise_reports _ _ _ _)

/-! ### A cause ends the placement (R187) -/

/-- A port whose placement has ended: one that played fades, and its counts of frames stand. -/
def PlacementEnded (t u : Tdm) : Prop :=
  u = { t with
    base := none, errs := 0, state := if t.state = .playing ∨ t.state = .ramping then .faded else t.state
    fadeFrom := u.fadeFrom, fadeLast := u.fadeLast, fadeRamp := u.fadeRamp, rampFrom := u.rampFrom, samples := u.samples, cause := u.cause }

theorem PlacementEnded.base {t u : Tdm} (h : PlacementEnded t u) : u.base = none := by rw [h]

theorem PlacementEnded.errs {t u : Tdm} (h : PlacementEnded t u) : u.errs = 0 := by rw [h]

theorem PlacementEnded.faded {t u : Tdm} (h : PlacementEnded t u) (hplays : t.state = .playing ∨ t.state = .ramping) : u.state = .faded := by
  rw [h]
  exact if_pos hplays

theorem PlacementEnded.rateMismatch {t u : Tdm} (h : PlacementEnded t u) (hstate : t.state = .rateMismatch) : u.state = .rateMismatch := by
  rw [h]
  simp [hstate]

theorem tdmFade_ends {x : Nat} (hx : x < 4) (held : Bool) (n : Nat) (s : State) :
    PlacementEnded (s.tdm x) ((tdmFade held x n s).tdm x) := by
  unfold tdmFade PlacementEnded
  dsimp only
  rw [tdm_modTdm_self _ _ hx]
  split
  · split <;> simp
  · simp

theorem tdmCause_ends {x : Nat} (hx : x < 4) (rank n : Nat) {raise : State → State} (hraise : ∀ u, Reports u (raise u)) (s : State) :
    PlacementEnded (s.tdm x) ((tdmCause x rank n raise s).tdm x) ∧ PortsOnly s (tdmCause x rank n raise s) := by
  have hended : PlacementEnded (s.tdm x) (((tdmFade false x n s).modTdm x fun t => { t with cause := max t.cause rank }).tdm x) := by
    rw [tdm_modTdm_self _ _ hx]
    have h := tdmFade_ends hx false n s
    unfold PlacementEnded at *
    rw [h]
  have honly : PortsOnly s ((tdmFade false x n s).modTdm x fun t => { t with cause := max t.cause rank }) :=
    (modTdm_portsOnly s x _).trans (modTdm_portsOnly _ x _)
  unfold tdmCause
  dsimp only
  split
  · rw [(hraise _).tdm]
    exact ⟨hended, honly.trans (hraise _).portsOnly⟩
  · exact ⟨hended, honly⟩

/-! ### A frame enters the counts and the placement (R172, R173, R184) -/

theorem tdmNote_onTime {x : Nat} (hx : x < 4) (use : List Int) (tick : Nat) (s : State) : (tdmNote x true use tick s).tdm x =
    { s.tdm x with prev := use, errs := 0, run := (s.tdm x).run + 1, winLen := (s.tdm x).winLen + 1, alive := true, lastTick := tick } := by
  simp [tdmNote, hx]

theorem tdmNote_late {x : Nat} (hx : x < 4) (use : List Int) (tick : Nat) (s : State) : (tdmNote x false use tick s).tdm x =
    { s.tdm x with
      prev := use, errs := (s.tdm x).errs + 1, run := 0, broken := true, winLen := (s.tdm x).winLen + 1, alive := true, lastTick := tick } := by
  unfold tdmNote
  rw [if_neg Bool.false_ne_true, (count_reports _ _ _).tdm, tdm_modTdm_self _ _ hx]
  simp

theorem tdmNote_portsOnly (x : Nat) (onTime : Bool) (use : List Int) (tick : Nat) (s : State) :
    PortsOnly s (tdmNote x onTime use tick s) ∧ (tdmNote x onTime use tick s).media = s.media := by
  cases onTime with
  | false => exact ⟨(modTdm_portsOnly s x _).trans (count_reports _ _ _).portsOnly, rfl⟩
  | true => exact ⟨rfl, rfl⟩

theorem tdmPlace_portsOnly (x : Nat) (samples : List Int) (tick : Nat) (s : State) : PortsOnly s (tdmPlace x samples tick s) := by
  unfold tdmPlace
  dsimp only
  split
  · rfl
  · rfl

theorem ite_media_tdm {p : Prop} [Decidable p] (u : State) (m : Media) (x : Nat) :
    (if p then { u with media := m } else u).tdm x = u.tdm x := by
  split
  · rfl
  · rfl

/-- The first frame of a placement: it takes the index its completion rounds up to, and the port ramps from a block at or behind its sample. -/
theorem tdmPlace_first {x : Nat} (hx : x < 4) (samples : List Int) (tick : Nat) {s : State} (hbase : (s.tdm x).base = none) :
    (tdmPlace x samples tick s).tdm x = { s.tdm x with
      base := some ((tick + 511) / 512), frame := 1, err := ((tick + 511) / 512 * 512 : Nat) - (tick : Rat), cause := 0, state := .ramping
      rampFrom := some (8 * (((tick + 511) / 512 + 62 + (if s.cfg.active.tdmStep x = 2 then 16 else 0) + 7) / 8))
      samples := if tdmFull s (s.tdm x) tick then (s.tdm x).samples else
        (s.tdm x).samples ++ [⟨(tick + 511) / 512 + 62, s.cfg.active.tdmStep x, [samples]⟩]
      drops := if tdmFull s (s.tdm x) tick then (s.tdm x).drops + 1 else (s.tdm x).drops } := by
  unfold tdmPlace
  dsimp only
  rw [ite_media_tdm, tdm_modTdm_self _ _ hx]
  simp [hbase]

/-- A later frame of a placement, where the FIFO has room: it takes the next place. -/
theorem tdmPlace_next {x a : Nat} (hx : x < 4) (samples : List Int) {tick : Nat} {s : State} (hbase : (s.tdm x).base = some a)
    (hroom : tdmFull s (s.tdm x) tick = false) :
    (tdmPlace x samples tick s).tdm x = { s.tdm x with
      frame := (s.tdm x).frame + 1, err := ((a + s.cfg.active.tdmStep x * (s.tdm x).frame) * 512 : Nat) - (tick : Rat)
      samples := (s.tdm x).samples ++ [⟨a + 62 + s.cfg.active.tdmStep x * (s.tdm x).frame, s.cfg.active.tdmStep x, [samples]⟩] } := by
  unfold tdmPlace
  dsimp only
  rw [ite_media_tdm, tdm_modTdm_self _ _ hx]
  simp [hbase, hroom]

theorem tdmTakes_unstable {s : State} {t : Tdm} (hbase : t.base = none) (hstable : t.stable < 64) : tdmTakes s t = false := by
  simp [tdmTakes, hbase, hstable]

theorem tdmTakes_waiting {s : State} {t : Tdm} (hstep : s.media.state ≠ .step) (hstable : 64 ≤ t.stable) (hwaits : t.state = .waiting) :
    tdmTakes s t = true := by
  simp [tdmTakes, hstep, hstable, hwaits]

theorem tdmTakes_placed {s : State} {t : Tdm} {a : Nat} (hstep : s.media.state ≠ .step) (hbase : t.base = some a) : tdmTakes s t = true := by
  simp [tdmTakes, hstep, hbase]

theorem tdmFull_congr {s u : State} {t v : Tdm} (hmedia : u.media = s.media) (hsamples : v.samples = t.samples) (tick : Nat) :
    tdmFull u v tick = tdmFull s t tick := by
  rw [tdmFull, tdmFull, readAt, readAt, winBase, winBase, winK, winK, hmedia, hsamples]

/-- A completion lies less than a sample period, 512 ticks, before the index it rounds up to, and so within the bound of a slip (R186). -/
theorem absRat_roundUp_le (tick : Nat) : absRat (((tick + 511) / 512 * 512 : Nat) - (tick : Rat)) ≤ 2048 := by
  have hlow : (tick : Rat) ≤ ((tick + 511) / 512 * 512 : Nat) := by exact_mod_cast (by omega : tick ≤ (tick + 511) / 512 * 512)
  have hhigh : (((tick + 511) / 512 * 512 : Nat) : Rat) ≤ tick + 511 := by exact_mod_cast (by omega : (tick + 511) / 512 * 512 ≤ tick + 511)
  rw [absRat, if_neg (by linarith)]
  linarith

/-! ### A frame is judged (R184, R186, R187) -/

theorem tdmJudge_passes {x tick : Nat} {placed : Bool} {s : State} (herrs : (s.tdm x).errs < 3)
    (herr : placed = true → absRat (s.tdm x).err ≤ 2048) : tdmJudge x tick placed s = s := by
  unfold tdmJudge
  dsimp only
  rw [if_neg (by omega), if_neg]
  rintro ⟨hplaced, hslips⟩
  exact absurd (herr hplaced) (not_le.mpr hslips)

/-- The third error in a row ends the placement and the stable frames. -/
theorem tdmJudge_resyncs {x : Nat} (hx : x < 4) {tick : Nat} {placed : Bool} {s : State} (herrs : 3 ≤ (s.tdm x).errs) :
    PlacementEnded { s.tdm x with stable := 0 } ((tdmJudge x tick placed s).tdm x) ∧ PortsOnly s (tdmJudge x tick placed s) := by
  obtain ⟨hended, honly⟩ := tdmCause_ends hx 2 (max (tick / 512 + 19) (winBase s)) (tdmCode_reports 0x3008 x) (s.count (tdmStat x 3) 1)
  unfold tdmJudge
  dsimp only
  rw [if_pos herrs, tdm_modTdm_self _ _ hx]
  refine ⟨?_, ((count_reports _ _ s).portsOnly.trans honly).trans (modTdm_portsOnly _ x _)⟩
  rw [(count_reports _ _ s).tdm] at hended
  unfold PlacementEnded at *
  rw [hended]

theorem tdmJudgeDue_none {x : Nat} {s : State} (hjudge : (s.tdm x).judge = none) : tdmJudgeDue x s = s := by
  rw [tdmJudgeDue, hjudge]

theorem tdmJudgeDue_some {x tick : Nat} {placed : Bool} {s : State} (hjudge : (s.tdm x).judge = some (tick, placed)) :
    tdmJudgeDue x s = (tdmJudge x tick placed s).modTdm x fun t => { t with judge := none } := by
  rw [tdmJudgeDue, hjudge]

/-! ### TDM_FRAME -/

/-- A frame has entered the counts and, where the port takes it, the placement. -/
def frameEntered (x : Nat) (onTime : Bool) (use : List Int) (tick : Nat) (s : State) : State :=
  if tdmTakes s (s.tdm x) then tdmPlace x use tick (tdmNote x onTime use tick s) else tdmNote x onTime use tick s

theorem frameEntered_portsOnly (x : Nat) (onTime : Bool) (use : List Int) (tick : Nat) (s : State) :
    PortsOnly s (frameEntered x onTime use tick s) := by
  have hnote := (tdmNote_portsOnly x onTime use tick s).1
  unfold frameEntered
  split
  · exact hnote.trans (tdmPlace_portsOnly _ _ _ _)
  · exact hnote

theorem frameEntered_untaken {x : Nat} {s : State} (htakes : tdmTakes s (s.tdm x) = false) (onTime : Bool) (use : List Int) (tick : Nat) :
    (frameEntered x onTime use tick s).tdm x = (tdmNote x onTime use tick s).tdm x := by
  rw [frameEntered, if_neg (by simp [htakes])]

theorem frameEntered_taken {x : Nat} {s : State} (htakes : tdmTakes s (s.tdm x) = true) (onTime : Bool) (use : List Int) (tick : Nat) :
    (frameEntered x onTime use tick s).tdm x = (tdmPlace x use tick (tdmNote x onTime use tick s)).tdm x := by
  rw [frameEntered, if_pos htakes]

/-- A frame has completed: one that ends a window waits for the window, any other is judged. -/
def frameDone (x : Nat) (onTime : Bool) (use : List Int) (tick : Nat) (s : State) : State :=
  if (s.tdm x).winLen = 63 then (frameEntered x onTime use tick s).modTdm x fun t => { t with judge := some (tick, tdmTakes s t) }
  else tdmJudge x tick (tdmTakes s (s.tdm x)) (frameEntered x onTime use tick s)

theorem exec_tdmFrame {s : State} {x p tick : Nat} {w : List TdmBit} {mine : List Int} {onTime : Bool} (hlocked : s.media.locked = true)
    (hon : s.cfg.active.tdmOn x = true) (hmine : s.cfg.active.tdmSamples? x w = some mine)
    (htime : s.cfg.active.tdmOnTime x p (s.tdm x) = onTime) (hjudge : (s.tdm x).judge = none) :
    exec (.tdmFrame x w p tick) s = .next (sourceCheck (frameDone x onTime (if onTime then mine else (s.tdm x).prev) tick s)) := by
  subst htime
  show execTdmFrame x w p tick s = _
  rw [execTdmFrame]
  dsimp only
  rw [hlocked, hon, Bool.and_self, if_pos rfl, hmine, tdmJudgeDue_none hjudge]
  rfl

/-- A frame that neither is the third error in a row nor slips leaves the port as it entered it. -/
theorem frameDone_passes {x tick : Nat} (hx : x < 4) {onTime : Bool} {use : List Int} {placed : Bool} {s : State} {t : Tdm}
    (hentered : (frameEntered x onTime use tick s).tdm x = t) (hplaced : tdmTakes s t = placed) (hjudge : t.judge = none) (herrs : t.errs < 3)
    (herr : tdmTakes s (s.tdm x) = true → absRat t.err ≤ 2048) :
    (frameDone x onTime use tick s).tdm x = { t with judge := if (s.tdm x).winLen = 63 then some (tick, placed) else none } ∧
      PortsOnly s (frameDone x onTime use tick s) := by
  subst hentered hplaced
  have honly := frameEntered_portsOnly x onTime use tick s
  unfold frameDone
  split
  · exact ⟨tdm_modTdm_self _ _ hx, honly.trans (modTdm_portsOnly _ x _)⟩
  · rw [tdmJudge_passes herrs herr, ← hjudge]
    exact ⟨rfl, honly⟩

/-- TDM_FRAME in the numbers of its port: `t` is the port with the frame entered, where no judgement acts on it. -/
theorem tdmFrame_passes {s : State} {x p tick : Nat} {w : List TdmBit} {mine use : List Int} {onTime placed : Bool} {t : Tdm} (hx : x < 4)
    (hlocked : s.media.locked = true) (hon : s.cfg.active.tdmOn x = true) (hmine : s.cfg.active.tdmSamples? x w = some mine)
    (htime : s.cfg.active.tdmOnTime x p (s.tdm x) = onTime) (huse : (if onTime then mine else (s.tdm x).prev) = use)
    (hdue : (s.tdm x).judge = none) (hentered : (frameEntered x onTime use tick s).tdm x = t) (hplaced : tdmTakes s t = placed)
    (hjudge : t.judge = none) (herrs : t.errs < 3) (herr : tdmTakes s (s.tdm x) = true → absRat t.err ≤ 2048) :
    ∃ u, exec (.tdmFrame x w p tick) s = .next u ∧
      u.tdm x = { t with judge := if (s.tdm x).winLen = 63 then some (tick, placed) else none } ∧ PortsOnly s u := by
  subst huse
  obtain ⟨htdm, honly⟩ := frameDone_passes hx hentered hplaced hjudge herrs herr
  exact ⟨_, exec_tdmFrame hlocked hon hmine htime hdue, (sourceCheck_tdm _ _).trans htdm, honly.trans (sourceCheck_portsOnly _)⟩

/-! ### TDM_CLOCK_LOST (R183) -/

/-- A port whose clock is lost has no frame counted. -/
def Tdm.clockless (t : Tdm) : Tdm :=
  { t with
    stable := 0, run := 0, broken := false, winLen := 0, alive := false, prev := [], judge := none
    state := if t.state = .rateMismatch then .waiting else t.state }

/-- The lost clock has ended the placement of the port. -/
def clockMissed (x : Nat) (s : State) : State :=
  tdmCause x 4 (tdmNext s (s.tdm x) (4 * s.cfg.active.tdmStep x)) (tdmCode 0x3007 x) (s.count (tdmStat x 4) 1)

theorem clockMissed_ends {x : Nat} (hx : x < 4) (s : State) :
    PlacementEnded (s.tdm x) ((clockMissed x s).tdm x) ∧ PortsOnly s (clockMissed x s) := by
  obtain ⟨hended, honly⟩ := tdmCause_ends hx 4 (tdmNext s (s.tdm x) (4 * s.cfg.active.tdmStep x)) (tdmCode_reports 0x3007 x)
    (s.count (tdmStat x 4) 1)
  exact ⟨hended, (count_reports _ _ s).portsOnly.trans honly⟩

theorem exec_tdmClockLost {s : State} {x : Nat} (hlocked : s.media.locked = true) (hon : s.cfg.active.tdmOn x = true)
    (halive : (s.tdm x).alive = true) (hlate : (s.tdm x).lastTick + 512 * (4 * s.cfg.active.tdmStep x) ≤ 512 * (s.media.index + 8)) :
    exec (.tdmClockLost x) s = .next (sourceCheck ((clockMissed x s).modTdm x Tdm.clockless)) := by
  show execTdmClockLost x s = _
  rw [execTdmClockLost]
  dsimp only
  rw [if_pos (by simp [hlocked, hon, halive, hlate])]
  rfl

/-! ### TDM_RATE_CHECK (R185, R187) -/

/-- The due frame, if one is due, leaves the port where it neither is the third error in a row nor slips. -/
theorem tdmJudgeDue_passes {x : Nat} (hx : x < 4) {s : State}
    (hpasses : (s.tdm x).judge = none ∨ (s.tdm x).errs < 3 ∧ absRat (s.tdm x).err ≤ 2048) :
    (tdmJudgeDue x s).tdm x = { s.tdm x with judge := none } ∧ PortsOnly s (tdmJudgeDue x s) := by
  cases hjudge : (s.tdm x).judge with
  | none =>
    rw [tdmJudgeDue_none hjudge, ← hjudge]
    exact ⟨rfl, PortsOnly.rfl' s⟩
  | some due =>
    obtain ⟨herrs, herr⟩ := hpasses.resolve_left (by simp [hjudge])
    rw [tdmJudgeDue_some hjudge, tdmJudge_passes herrs fun _ => herr]
    exact ⟨tdm_modTdm_self s _ hx, modTdm_portsOnly s x _⟩

theorem tdmJudgeDue_resyncs {x : Nat} (hx : x < 4) {tick : Nat} {placed : Bool} {s : State} (hjudge : (s.tdm x).judge = some (tick, placed))
    (herrs : 3 ≤ (s.tdm x).errs) :
    PlacementEnded { s.tdm x with stable := 0, judge := none } ((tdmJudgeDue x s).tdm x) ∧ PortsOnly s (tdmJudgeDue x s) := by
  obtain ⟨hended, honly⟩ := tdmJudge_resyncs hx (tick := tick) (placed := placed) herrs
  rw [tdmJudgeDue_some hjudge, tdm_modTdm_self _ _ hx]
  refine ⟨?_, honly.trans (modTdm_portsOnly _ x _)⟩
  unfold PlacementEnded at *
  rw [hended]

/-- The stable frames behind a window that passes. -/
def Tdm.stableAfter (t : Tdm) : Nat := if 64 ≤ t.stable then t.stable else if t.broken then t.run else t.stable + t.run

/-- The window has ended in which the port's frames came at `hz`. -/
def Tdm.windowEnds (hz : Rat) (t : Tdm) : Tdm := { t with rate := hz, run := 0, broken := false, winLen := 0, judge := none }

/-- The window brings the port to its 64th stable frame. -/
def Tdm.becomesStable (t : Tdm) : Bool := decide (t.stable < 64) && decide (64 ≤ t.stableAfter)

/-- A window has passed, and the frames of the port's run count as stable. -/
def windowPassed (x : Nat) (hz : Rat) (s : State) : State :=
  (s.modTdm x (Tdm.windowEnds hz)).modTdm x fun t => { t with
    stable := (s.tdm x).stableAfter, cause := if (s.tdm x).becomesStable then 0 else t.cause
    state := if t.state = .rateMismatch then .waiting else t.state }

theorem windowPassed_tdm {x : Nat} (hx : x < 4) (hz : Rat) (s : State) : (windowPassed x hz s).tdm x = { (s.tdm x).windowEnds hz with
    stable := (s.tdm x).stableAfter, cause := if (s.tdm x).becomesStable then 0 else (s.tdm x).cause
    state := if (s.tdm x).state = .rateMismatch then .waiting else (s.tdm x).state } := by
  rw [windowPassed, tdm_modTdm_self _ _ hx, tdm_modTdm_self _ _ hx]
  rfl

theorem windowPassed_portsOnly (x : Nat) (hz : Rat) (s : State) : PortsOnly s (windowPassed x hz s) :=
  (modTdm_portsOnly s x _).trans (modTdm_portsOnly _ x _)

theorem exec_tdmRateCheck_passes {s : State} {x : Nat} {hz : Rat} (hlocked : s.media.locked = true) (hon : s.cfg.active.tdmOn x = true)
    (hwindow : 64 ≤ (s.tdm x).winLen) (hgood : absRat (hz - (s.nat 0x05 x 1 : Rat)) ≤ (s.nat 0x05 x 1 : Rat) / 1000) :
    exec (.tdmRateCheck x hz) s = .next (sourceCheck (if ((tdmJudgeDue x s).tdm x).becomesStable then
      tdmCode 0x300B x (windowPassed x hz (tdmJudgeDue x s)) else windowPassed x hz (tdmJudgeDue x s))) := by
  show execTdmRateCheck x hz s = _
  rw [execTdmRateCheck]
  dsimp only
  rw [if_pos (by simp [hlocked, hon, hwindow]), decide_eq_true hgood, if_pos rfl, if_pos rfl]
  rfl

/-- A window within 0.1 percent: its due frame is judged, then its run counts as stable. -/
theorem tdmRateCheck_passes {s : State} {x : Nat} {hz : Rat} (hlocked : s.media.locked = true)
    (hon : s.cfg.active.tdmOn x = true) (hwindow : 64 ≤ (s.tdm x).winLen)
    (hgood : absRat (hz - (s.nat 0x05 x 1 : Rat)) ≤ (s.nat 0x05 x 1 : Rat) / 1000) (hdue : PortsOnly s (tdmJudgeDue x s)) :
    ∃ u, exec (.tdmRateCheck x hz) s = .next u ∧ u.tdm x = (windowPassed x hz (tdmJudgeDue x s)).tdm x ∧ PortsOnly s u := by
  have hcode : Reports (windowPassed x hz (tdmJudgeDue x s)) (if ((tdmJudgeDue x s).tdm x).becomesStable then
      tdmCode 0x300B x (windowPassed x hz (tdmJudgeDue x s)) else windowPassed x hz (tdmJudgeDue x s)) :=
    ite_reports (tdmCode_reports _ _ _) (Reports.rfl' _)
  refine ⟨_, exec_tdmRateCheck_passes hlocked hon hwindow hgood, ?_, ?_⟩
  · rw [sourceCheck_tdm, hcode.tdm]
  · exact ((hdue.trans (windowPassed_portsOnly _ _ _)).trans hcode.portsOnly).trans (sourceCheck_portsOnly _)

/-- The mismatch of a window has ended the placement of the port; its due frame is not judged. -/
def rateMissed (x : Nat) (hz : Rat) (s : State) : State :=
  tdmCause x 3 (tdmNext s (s.tdm x) 0) (fun u => u.raiseHeldAs second 0x3009 x [wordU hz]) (s.modTdm x (Tdm.windowEnds hz))

theorem rateMissed_ends {x : Nat} (hx : x < 4) (hz : Rat) (s : State) :
    PlacementEnded ((s.tdm x).windowEnds hz) ((rateMissed x hz s).tdm x) ∧ PortsOnly s (rateMissed x hz s) := by
  obtain ⟨hended, honly⟩ := tdmCause_ends hx 3 (tdmNext s (s.tdm x) 0) (raiseHeldAs_reports second 0x3009 x [wordU hz])
    (s.modTdm x (Tdm.windowEnds hz))
  rw [tdm_modTdm_self _ _ hx] at hended
  exact ⟨hended, (modTdm_portsOnly s x _).trans honly⟩

theorem exec_tdmRateCheck_mismatch {s : State} {x : Nat} {hz : Rat} (hlocked : s.media.locked = true) (hon : s.cfg.active.tdmOn x = true)
    (hwindow : 64 ≤ (s.tdm x).winLen) (hbad : (s.nat 0x05 x 1 : Rat) / 1000 < absRat (hz - (s.nat 0x05 x 1 : Rat))) :
    exec (.tdmRateCheck x hz) s =
      .next (sourceCheck ((rateMissed x hz s).modTdm x fun t => { t with stable := 0, state := .rateMismatch })) := by
  show execTdmRateCheck x hz s = _
  rw [execTdmRateCheck]
  dsimp only
  rw [if_pos (by simp [hlocked, hon, hwindow]), decide_eq_false (not_le.mpr hbad), if_neg Bool.false_ne_true, if_neg Bool.false_ne_true]
  rfl

end Sys2Proof.Machine

open Sys2Proof Sys2Proof.Machine

/-- Settles O41: a frame by how it enters the port and is judged, a lost clock and a mismatch by the placement they end, and a window that
passes by its due frame. -/
theorem tdmRows : Obligations.TdmRows := by
  intro s x hx hlocked hon
  refine ⟨?inTime, ?late, ?admitted, ?placed, ?clockLost, ?passes, ?resyncs, ?mismatch⟩
  case inTime =>
    intro w p tick mine hmine htime hjudge hbase hstable
    have hentered := (frameEntered_untaken (tdmTakes_unstable hbase hstable) true mine tick).trans (tdmNote_onTime hx mine tick s)
    obtain ⟨u, hexec, htdm, honly⟩ := tdmFrame_passes hx hlocked hon hmine htime rfl hjudge hentered (tdmTakes_unstable hbase hstable)
      hjudge (show 0 < 3 by decide) (by simp [tdmTakes_unstable hbase hstable])
    exact ⟨u, hexec, htdm, honly.fields⟩
  case late =>
    intro w p tick mine hmine htime hjudge hbase hstable herrs
    have hentered := (frameEntered_untaken (tdmTakes_unstable hbase hstable) false (s.tdm x).prev tick).trans (tdmNote_late hx _ tick s)
    obtain ⟨u, hexec, htdm, honly⟩ := tdmFrame_passes hx hlocked hon hmine htime rfl hjudge hentered (tdmTakes_unstable hbase hstable)
      hjudge (Nat.succ_lt_succ herrs) (by simp [tdmTakes_unstable hbase hstable])
    exact ⟨u, hexec, htdm, honly.fields⟩
  case admitted =>
    intro w p tick mine hmine htime hstep hjudge hbase hstable hwaits
    have hentered := (frameEntered_taken (tdmTakes_waiting hstep hstable hwaits) true mine tick).trans
      (tdmPlace_first hx mine tick (by rw [tdmNote_onTime hx]; exact hbase))
    rw [tdmNote_onTime hx] at hentered
    obtain ⟨u, hexec, htdm, honly⟩ := tdmFrame_passes hx hlocked hon hmine htime rfl hjudge hentered rfl hjudge
      (show 0 < 3 by decide) fun _ => absRat_roundUp_le tick
    refine ⟨u, hexec, ?_⟩
    rw [htdm]
    exact ⟨rfl, rfl, rfl, rfl, honly.fields⟩
  case placed =>
    intro w p tick a mine hmine htime hstep hjudge hbase hroom herr
    have hfull : tdmFull (tdmNote x true mine tick s) ((tdmNote x true mine tick s).tdm x) tick = false :=
      (tdmFull_congr (tdmNote_portsOnly x true mine tick s).2 (by rw [tdmNote_onTime hx]) tick).trans hroom
    have hentered := (frameEntered_taken (tdmTakes_placed hstep hbase) true mine tick).trans
      (tdmPlace_next hx mine (by rw [tdmNote_onTime hx]; exact hbase) hfull)
    rw [tdmNote_onTime hx] at hentered
    obtain ⟨u, hexec, htdm, honly⟩ := tdmFrame_passes hx hlocked hon hmine htime rfl hjudge hentered rfl hjudge
      (show 0 < 3 by decide) fun _ => herr
    refine ⟨u, hexec, ?_⟩
    rw [htdm]
    exact ⟨hbase, rfl, rfl, rfl, honly.fields⟩
  case clockLost =>
    intro halive hlate
    obtain ⟨hended, honly⟩ := clockMissed_ends hx s
    refine ⟨_, exec_tdmClockLost hlocked hon halive hlate, ?_⟩
    rw [sourceCheck_tdm, tdm_modTdm_self _ _ hx]
    refine ⟨hended.base, rfl, rfl, rfl, rfl, rfl, fun hplays => ?_, fun hmismatch => ?_,
      ((honly.trans (modTdm_portsOnly _ x _)).trans (sourceCheck_portsOnly _)).fields⟩
    · simp [Tdm.clockless, hended.faded hplays]
    · simp [Tdm.clockless, hended.rateMismatch hmismatch]
  case passes =>
    intro hz hwindow hgood hpasses
    obtain ⟨hdue, honly⟩ := tdmJudgeDue_passes hx hpasses
    obtain ⟨u, hexec, htdm, hports⟩ := tdmRateCheck_passes hlocked hon hwindow hgood honly
    rw [windowPassed_tdm hx, hdue] at htdm
    refine ⟨u, hexec, ?_⟩
    rw [htdm]
    exact ⟨rfl, rfl, rfl, rfl, rfl, rfl, hports.fields⟩
  case resyncs =>
    intro hz tick placed hwindow hgood hjudge herrs
    obtain ⟨hended, honly⟩ := tdmJudgeDue_resyncs hx hjudge herrs
    obtain ⟨u, hexec, htdm, hports⟩ := tdmRateCheck_passes hlocked hon hwindow hgood honly
    rw [windowPassed_tdm hx] at htdm
    refine ⟨u, hexec, ?_⟩
    rw [htdm]
    refine ⟨hended.base, hended.errs, rfl, fun hplays => ?_, hports.fields⟩
    simp [hended.faded hplays]
  case mismatch =>
    intro hz hwindow hbad
    obtain ⟨hended, honly⟩ := rateMissed_ends hx hz s
    refine ⟨_, exec_tdmRateCheck_mismatch hlocked hon hwindow hbad, ?_⟩
    rw [sourceCheck_tdm, tdm_modTdm_self _ _ hx, hended]
    exact ⟨rfl, rfl, rfl, rfl, rfl, ((honly.trans (modTdm_portsOnly _ x _)).trans (sourceCheck_portsOnly _)).fields⟩

end

section
/-! PROOFS. The rows of the loudspeaker models (R226, R228 to R231, R234, R237, R318). -/

namespace Sys2Proof.Machine

/-! ### A change of one channel, as a relation of its two values allows -/

/-- Of the units only channel `c` differs, and as `R` allows. -/
def TouchesAs (R : Chan → Chan → Prop) (c : Nat) (s t : State) : Prop := TouchesChan c s t ∧ R (s.chan c) (t.chan c)

theorem TouchesAs.mono {R Q : Chan → Chan → Prop} {c : Nat} {s t : State} (h : TouchesAs R c s t) (hq : ∀ a b, R a b → Q a b) : TouchesAs Q c s t :=
  ⟨h.1, hq _ _ h.2⟩

theorem TouchesAs.rfl' {R : Chan → Chan → Prop} (hrefl : ∀ a, R a a) (c : Nat) (s : State) : TouchesAs R c s s := ⟨TouchesChan.rfl' c s, hrefl _⟩

theorem TouchesAs.trans {R : Chan → Chan → Prop} {c : Nat} {s t u : State} (h : TouchesAs R c s t) (htrans : ∀ {a b d}, R a b → R b d → R a d)
    (k : TouchesAs R c t u) : TouchesAs R c s u :=
  ⟨h.1.trans k.1, htrans h.2 k.2⟩

theorem ite_touchesAs {R : Chan → Chan → Prop} {c : Nat} {p : Prop} [Decidable p] {s t u : State} (ht : TouchesAs R c s t) (hu : TouchesAs R c s u) :
    TouchesAs R c s (if p then t else u) := by
  split
  · exact ht
  · exact hu

theorem Reports.touchesAs {R : Chan → Chan → Prop} (hrefl : ∀ a, R a a) {s t : State} (c : Nat) (h : Reports s t) : TouchesAs R c s t :=
  ⟨h.touchesChan c, by rw [h.chan]; exact hrefl _⟩

theorem modChan_touchesAs {R : Chan → Chan → Prop} (hrefl : ∀ a, R a a) (s : State) (c : Nat) {f : Chan → Chan} (h : R (s.chan c) (f (s.chan c))) :
    TouchesAs R c s (s.modChan c f) :=
  ⟨modChan_touchesChan s c f, modChan_related hrefl h c⟩

/-- What the measurements of a pilot window leave of a channel: its state machine but for voltage-only protection, its loop, its signals, and the
row of windows with an open load. -/
def Measured (a b : Chan) : Prop :=
  b.fsm = { a.fsm with voltageOnly := b.fsm.voltageOnly } ∧ b.loop = a.loop ∧ b.dsp = a.dsp ∧ b.model.openWin = a.model.openWin

theorem Measured.rfl' (a : Chan) : Measured a a := ⟨rfl, rfl, rfl, rfl⟩

theorem Measured.trans {a b c : Chan} (h : Measured a b) (k : Measured b c) : Measured a c := by
  obtain ⟨hfsm, hloop, hdsp, hopen⟩ := h
  obtain ⟨kfsm, kloop, kdsp, kopen⟩ := k
  exact ⟨by rw [kfsm, hfsm], kloop.trans hloop, kdsp.trans hdsp, kopen.trans hopen⟩

/-- What an identification changes of a channel: the identified values and the windows behind them. -/
def Identified (a b : Chan) : Prop :=
  b = { a with model := { a.model with
    idWin := b.model.idWin, idConv := b.model.idConv, identOk := b.model.identOk, bl0 := b.model.bl0, fs := b.model.fs, qms := b.model.qms
    kms0 := b.model.kms0, rms := b.model.rms, clampSet := b.model.clampSet, clamped := b.model.clamped } }

theorem Identified.rfl' (a : Chan) : Identified a a := rfl

theorem Identified.trans {a b c : Chan} (h : Identified a b) (k : Identified b c) : Identified a c := by
  unfold Identified at *
  rw [k, h]

theorem Identified.measured {a b : Chan} (h : Identified a b) : Measured a b := by
  rw [h]
  exact ⟨rfl, rfl, rfl, rfl⟩

/-! ### The open load (R318) -/

/-- The windows in a row with an open load, with the one that ends. -/
def openWindows (s : State) (c : Nat) (p : PilotReading) : Nat :=
  if (openLoad s c p).isSome then (s.chan c).model.openWin + 1 else 0

/-- The open-load state after the window that ends: it stands from the fourth window in a row to one that finds none. -/
def openAfter (s : State) (c : Nat) (p : PilotReading) : Bool :=
  (openLoad s c p).isSome && ((s.chan c).fsm.openLoad || decide (3 ≤ (s.chan c).model.openWin))

theorem judgeOpen_touchesChan (c : Nat) (p : PilotReading) (s : State) : TouchesChan c s (judgeOpen c p s) := by
  unfold judgeOpen
  split
  · exact modChan_touchesChan s c _
  · extract_lets n s1
    have h1 : TouchesChan c s s1 := modModel_touchesChan s c _
    split
    · exact (h1.trans (modFsm_touchesChan s1 c _)).trans (raise_touchesChan c _ _ _ _)
    · exact h1

theorem judgeOpen_chan {c : Nat} (hc : c < 208) (p : PilotReading) (s : State) : (judgeOpen c p s).chan c = { s.chan c with
    fsm := { (s.chan c).fsm with openLoad := openAfter s c p }, model := { (s.chan c).model with openWin := openWindows s c p } } := by
  unfold judgeOpen openAfter openWindows
  split
  · rename_i hnone
    rw [chan_modChan_self _ _ hc, hnone]
    rfl
  · rename_i test hsome
    rw [hsome]
    extract_lets n s1
    have h1 : s1.chan c = { s.chan c with model := { (s.chan c).model with openWin := n } } := chan_modModel_self s _ hc
    split
    · rename_i hstarts
      rw [(raise_reports _ _ _ _).chan, chan_modFsm_self _ _ hc, h1]
      have hopens : ((some test).isSome && ((s.chan c).fsm.openLoad || decide (3 ≤ (s.chan c).model.openWin))) = true := by
        simp [show 3 ≤ (s.chan c).model.openWin by omega]
      rw [hopens]
      rfl
    · rename_i hstands
      have hstays : ((some test).isSome && ((s.chan c).fsm.openLoad || decide (3 ≤ (s.chan c).model.openWin))) = (s.chan c).fsm.openLoad := by
        cases hwas : (s.chan c).fsm.openLoad with
        | true => rfl
        | false =>
          rw [hwas] at hstands
          simpa [n] using hstands
      rw [h1, hstays]
      rfl

/-! ### The measured resistance (R229 to R231) -/

theorem modModel_measures (s : State) (c : Nat) {f : Model → Model} (h : ∀ m, (f m).openWin = m.openWin) : TouchesAs Measured c s (s.modModel c f) :=
  modChan_touchesAs Measured.rfl' s c ⟨rfl, rfl, rfl, h _⟩

theorem Reports.measures {s t : State} (h : Reports s t) (c : Nat) : TouchesAs Measured c s t := h.touchesAs Measured.rfl' c

theorem coldReference_measures (c : Nat) (re : Rat) (s : State) : TouchesAs Measured c s (coldReference c re s) := by
  unfold coldReference
  extract_lets m nom w v h s1
  have h1 : TouchesAs Measured c s s1 := modModel_measures s c fun _ => rfl
  refine ite_touchesAs (TouchesAs.rfl' Measured.rfl' c s) (ite_touchesAs (modModel_measures s c fun _ => rfl) (ite_touchesAs h1 ?_))
  exact h1.trans Measured.trans ((raise_reports _ _ _ _).measures c)

theorem correctCoil_measures (c : Nat) (first : Bool) (s : State) : TouchesAs Measured c s (correctCoil c first s) := by
  unfold correctCoil
  refine modModel_measures s c fun m => ?_
  dsimp only
  repeat' split
  all_goals rfl

theorem takeRe_measures (c : Nat) (re : Rat) (s : State) : TouchesAs Measured c s (takeRe c re s) := by
  unfold takeRe
  extract_lets m win s1 s2
  have h1 : TouchesAs Measured c s s1 :=
    ((count_reports (chanStat c 0x04D) 1 s).measures c).trans Measured.trans (modModel_measures _ c fun _ => rfl)
  refine ite_touchesAs ?_ (ite_touchesAs ?_ h1)
  · refine (h1.trans Measured.trans ?_).trans Measured.trans (correctCoil_measures c false _)
    exact modModel_measures s1 c fun _ => rfl
  · have h2 : TouchesAs Measured c s s2 := by
      refine (h1.trans Measured.trans ?_).trans Measured.trans ((raise_reports _ _ _ _).measures c)
      exact modModel_measures s1 c fun _ => rfl
    exact (h2.trans Measured.trans (coldReference_measures c _ s2)).trans Measured.trans (correctCoil_measures c true _)

/-- Where a measurement moves the coil node: at once where it warms it, half way where it cools it (R230). -/
def coilToward (tv target : Rat) : Rat := if tv ≤ target then target else tv - (tv - target) / 2

theorem correctCoil_again {c : Nat} (hc : c < 208) (s : State) : (correctCoil c false s).chan c = { s.chan c with model := { (s.chan c).model with
    tv := coilToward (s.chan c).model.tv (25 + ((s.chan c).model.reMeas / (s.chan c).model.re25 - 1) / s.entry c 14) } } := by
  unfold correctCoil coilToward
  rw [chan_modModel_self _ _ hc]
  simp only [Bool.false_eq_true, false_and, if_false]
  split <;> rfl

/-- Once converged, a valid window enters the last four, whose mean is the resistance, and the coil node follows it. -/
theorem takeRe_converged {c : Nat} (hc : c < 208) (re : Rat) {s : State} (hconv : (s.chan c).model.reConv = true) :
    (takeRe c re s).chan c = { s.chan c with model := { (s.chan c).model with
      reWin := ((s.chan c).model.reWin ++ [re]).drop ((s.chan c).model.reWin.length - 3), reAt := s.media.samples
      reMeas := mean (((s.chan c).model.reWin ++ [re]).drop ((s.chan c).model.reWin.length - 3))
      tv := coilToward (s.chan c).model.tv
        (25 + (mean (((s.chan c).model.reWin ++ [re]).drop ((s.chan c).model.reWin.length - 3)) / (s.chan c).model.re25 - 1) / s.entry c 14) } } := by
  unfold takeRe
  extract_lets m win s1 s2
  have h1 : s1.chan c = { s.chan c with model := { (s.chan c).model with reWin := win, reAt := s.media.samples } } := chan_modModel_self _ _ hc
  have hmean : (s1.modModel c fun m => { m with reMeas := mean win }).chan c =
      { s1.chan c with model := { (s1.chan c).model with reMeas := mean win } } := chan_modModel_self _ _ hc
  rw [if_pos hconv, correctCoil_again hc, hmean, h1]
  rfl

/-! ### The window as a whole -/

/-- The resistance of a window is taken, or the windows toward a convergence start again. -/
def resistanceTaken (c : Nat) (p : PilotReading) (s : State) : State :=
  if windowOk s c p && tempOk s c (tempOf s c (pilotRe s c p)) then takeRe c (pilotRe s c p) s
  else
    let t := s.modModel c fun m => { m with reWin := if m.reConv then m.reWin else [] }
    if windowOk s c p then t.raiseHeld (60 * second) 0x400E c 1 [] else t

theorem resistanceTaken_measures (c : Nat) (p : PilotReading) (s : State) : TouchesAs Measured c s (resistanceTaken c p s) := by
  unfold resistanceTaken
  extract_lets t
  have ht : TouchesAs Measured c s t := modModel_measures s c fun _ => rfl
  exact ite_touchesAs (takeRe_measures c _ s) (ite_touchesAs (ht.trans Measured.trans ((raiseHeld_reports _ _ _ _ _ _).measures c)) ht)

theorem modModel_identifies (s : State) (c : Nat) {f : Model → Model}
    (h : Identified (s.chan c) { s.chan c with model := f (s.chan c).model }) : TouchesAs Identified c s (s.modModel c f) :=
  modChan_touchesAs Identified.rfl' s c h

theorem raise_identifies (c code inst : Nat) (data : List Word) (s : State) : TouchesAs Identified c s (s.raise code inst data) :=
  (raise_reports _ _ _ _).touchesAs Identified.rfl' c

theorem takeIdent_identifies (c : Nat) (v : Rat × Rat × Rat) (s : State) : TouchesAs Identified c s (takeIdent c v s) := by
  unfold takeIdent
  extract_lets m b win s1 ok pct raw nom use edges told fresh s2 s3
  have h1 : TouchesAs Identified c s s1 := modModel_identifies s c rfl
  have h2 : TouchesAs Identified c s s2 := h1.trans Identified.trans (modModel_identifies s1 c rfl)
  have h3 : TouchesAs Identified c s s3 := ite_touchesAs h2 (h2.trans Identified.trans (raise_identifies _ _ _ _ _))
  refine ite_touchesAs ?_ h1
  exact forList_invariant (P := TouchesAs Identified c s) (fun i u h => h.trans Identified.trans (raise_identifies _ _ _ _ _)) fresh h3

/-- Beyond the resistance, the measurements of a window change the identification alone. -/
theorem takeWindow_identifies (c : Nat) (p : PilotReading) (s : State) : TouchesAs Identified c (resistanceTaken c p s) (takeWindow c p s) := by
  unfold takeWindow
  extract_lets m w ok re t s1 idOk
  have hs1 : s1 = resistanceTaken c p s := rfl
  rw [← hs1]
  split
  · exact takeIdent_identifies c _ s1
  · exact ite_touchesAs (TouchesAs.rfl' Identified.rfl' c s1) (modModel_identifies s1 c rfl)

theorem takeWindow_measures (c : Nat) (p : PilotReading) (s : State) : TouchesAs Measured c s (takeWindow c p s) :=
  (resistanceTaken_measures c p s).trans Measured.trans ((takeWindow_identifies c p s).mono fun _ _ => Identified.measured)

theorem enterVoltageOnly_measures (c case : Nat) (s : State) : TouchesAs Measured c s (enterVoltageOnly c case s) := by
  unfold enterVoltageOnly
  extract_lets s1
  have h1 : TouchesAs Measured c s s1 := modChan_touchesAs Measured.rfl' s c ⟨rfl, rfl, rfl, rfl⟩
  have hraised : TouchesAs Measured c s (s1.raise (chanCode c 0x13) c [word case]) := h1.trans Measured.trans ((raise_reports _ _ _ _).measures c)
  exact ite_touchesAs (TouchesAs.rfl' Measured.rfl' c s) (hraised.trans Measured.trans ((raise_reports _ _ _ _).measures c))

theorem judgeSense_measures (c : Nat) (s : State) : TouchesAs Measured c s (judgeSense c s) := by
  unfold judgeSense
  extract_lets w bad n s1
  have h1 : TouchesAs Measured c s s1 := modModel_measures s c fun _ => rfl
  exact ite_touchesAs (h1.trans Measured.trans (enterVoltageOnly_measures c 3 s1)) h1

/-- A window whose measured and predicted currents agree ends the row of windows that differ, and changes nothing else (R319). -/
theorem judgeSense_agrees {c : Nat} {s : State} (h : (s.chan c).win.d2 ≤ (s.chan c).win.p2 / 4) :
    judgeSense c s = s.modModel c fun m => { m with diffWin := 0 } := by
  unfold judgeSense
  simp [not_lt.mpr h]

theorem nextWindow_measures (c : Nat) (s : State) : TouchesAs Measured c s (nextWindow c s) :=
  modChan_touchesAs Measured.rfl' s c ⟨rfl, rfl, rfl, rfl⟩

theorem nextWindow_model {c : Nat} (hc : c < 208) (s : State) : ((nextWindow c s).chan c).model = (s.chan c).model := by
  unfold nextWindow
  rw [chan_modChan_self _ _ hc]

/-- The end of a window after its open-load test, on a channel whose model was `m` before the test. -/
def windowTaken (c : Nat) (p : PilotReading) (m : Model) (s : State) : State :=
  nextWindow c (if m.runs && m.seed != 0 then judgeSense c (takeWindow c p s) else s)

theorem exec_pilotWindow_gathered {c : Nat} (p : PilotReading) {s : State} (hen : s.enabled c = true) (hrun : (s.chan c).fsm.state = .run)
    (hfull : 96000 ≤ (s.chan c).win.n) : exec (.pilotWindow c p) s = .next (windowTaken c p (s.chan c).model (judgeOpen c p s)) := by
  show execPilotWindow c p s = _
  rw [execPilotWindow]
  exact if_pos (by simp [hen, hrun, hfull])

theorem windowTaken_measures (c : Nat) (p : PilotReading) (m : Model) (s : State) : TouchesAs Measured c s (windowTaken c p m s) := by
  have hmeasured := (takeWindow_measures c p s).trans Measured.trans (judgeSense_measures c _)
  exact (ite_touchesAs hmeasured (TouchesAs.rfl' Measured.rfl' c s)).trans Measured.trans (nextWindow_measures c _)

/-- The values of a measured resistance that what follows it in a window leaves. -/
def SameResistance (a b : Model) : Prop := b.reWin = a.reWin ∧ b.reMeas = a.reMeas ∧ b.reConv = a.reConv ∧ b.tv = a.tv

/-- A valid window of a converged model, whose measured and predicted currents agree, leaves the resistance and the coil node that it took. -/
theorem windowTaken_converged {c : Nat} (hc : c < 208) (p : PilotReading) {m : Model} {s : State} (hruns : m.runs = true) (hseed : m.seed ≠ 0)
    (hok : windowOk s c p = true) (htemp : tempOk s c (tempOf s c (pilotRe s c p)) = true) (hconv : (s.chan c).model.reConv = true)
    (hsense : (s.chan c).win.d2 ≤ (s.chan c).win.p2 / 4) :
    SameResistance ((takeRe c (pilotRe s c p) s).chan c).model ((windowTaken c p m s).chan c).model := by
  have htaken : resistanceTaken c p s = takeRe c (pilotRe s c p) s := if_pos (by simp [hok, htemp])
  have hident : Identified _ _ := (takeWindow_identifies c p s).2
  rw [htaken] at hident
  have hwin : ((takeWindow c p s).chan c).win = (s.chan c).win := by rw [hident, takeRe_converged hc _ hconv]
  unfold windowTaken
  rw [nextWindow_model hc, if_pos (by simp [hruns, hseed]), judgeSense_agrees (by rw [hwin]; exact hsense), chan_modModel_self _ _ hc, hident]
  exact ⟨rfl, rfl, rfl, rfl⟩

/-! ### Model records (R234) -/

/-- What storing leaves of a channel in state `s`: one whose models run and are seeded has a record of its model and its last adapted dead times,
another stands. -/
def ModelKept (s : State) (c : Nat) (a b : Chan) : Prop :=
  (s.cfg.active.modelled c = false ∨ a.model.runs = false ∨ a.model.seed = 0 → b = a) ∧
  (s.cfg.active.modelled c = true → a.model.runs = true → a.model.seed ≠ 0 → ∃ r : ModelRec,
    b = { a with model := { a.model with record := some r }
                 loop := { a.loop with stored := if a.loop.adapted.isEmpty then a.loop.stored else a.loop.adapted } } ∧
    r.tv = a.model.tv ∧ r.tm = a.model.tm ∧ r.re25 = a.model.re25 ∧ r.bl0 = a.model.bl0 ∧ r.fs = a.model.fs ∧ r.qms = a.model.qms ∧
    r.identOk = a.model.identOk ∧ r.timeUs = s.keeper.counterUs ∧ r.dts = b.loop.stored ∧ r.por = false)

theorem chan_lifeModel (c k : Nat) (r : ModelRec) (s : State) : (lifeModel c r s).chan k = s.chan k := rfl

theorem storeModel_eq (c : Nat) (s : State) : storeModel c s = { s with chans := (storeModel c s).chans, store := (storeModel c s).store } := by
  unfold storeModel
  extract_lets h dts r
  split <;> rfl

theorem storeModel_other {c k : Nat} (hk : k ≠ c) (s : State) : (storeModel c s).chan k = s.chan k := by
  unfold storeModel
  extract_lets h dts r
  split
  · exact (chan_lifeModel c k r _).trans (chan_modChan_other s _ hk)
  · rfl

theorem storeModel_self {c : Nat} (hc : c < 208) (s : State) : ModelKept s c (s.chan c) ((storeModel c s).chan c) := by
  unfold storeModel
  extract_lets h dts r
  split
  · rename_i hkept
    simp only [Bool.and_eq_true, decide_eq_true_eq] at hkept
    obtain ⟨⟨hmodelled, hruns⟩, hseed⟩ := hkept
    rw [chan_lifeModel, chan_modChan_self _ _ hc]
    refine ⟨fun hnot => ?_, fun _ _ _ => ⟨r, rfl, rfl, rfl, rfl, rfl, rfl, rfl, rfl, rfl, rfl, rfl⟩⟩
    rcases hnot with hnot | hnot | hnot
    · exact absurd (hmodelled.symm.trans hnot) (by decide)
    · exact absurd (hruns.symm.trans hnot) (by decide)
    · exact absurd hnot (Nat.pos_iff_ne_zero.mp hseed)
  · rename_i hnot
    refine ⟨fun _ => rfl, fun hmodelled hruns hseed => absurd ?_ hnot⟩
    simp only [Bool.and_eq_true, decide_eq_true_eq]
    exact ⟨⟨hmodelled, hruns⟩, Nat.pos_iff_ne_zero.mpr hseed⟩

theorem storeModels_eq (s : State) : storeModels s = { s with chans := (storeModels s).chans, store := (storeModels s).store } :=
  forUnits_invariant (P := fun t => t = { s with chans := t.chans, store := t.store }) (fun c u h => by rw [storeModel_eq, h]) 208 rfl

theorem storeModels_chan {c : Nat} (hc : c < 208) (s : State) : ModelKept s c (s.chan c) ((storeModels s).chan c) := by
  refine forUnits_units (get := State.chan) (R := ModelKept s) (P := fun u => u.cfg = s.cfg ∧ u.keeper = s.keeper) (fun k u hu => ?_)
    (fun k j u hj => storeModel_other hj u) (fun k u hk hu => ?_) ⟨rfl, rfl⟩ hc
  · rw [storeModel_eq]
    exact hu
  · obtain ⟨hcfg, hkeeper⟩ := hu
    have h := storeModel_self hk u
    unfold ModelKept at h ⊢
    rwa [hcfg, hkeeper] at h

/-! ### The single rows -/

theorem exec_modelRecordStore_stores {s : State} (hfree : keeperFree s = true) (hnone : storeWaits s = false) (hdev : s.keeper.dev = .run) :
    exec .modelRecordStore s = .next (storeModels s) := by
  show execModelRecordStore s = _
  rw [execModelRecordStore]
  exact if_pos (by simp [hfree, hnone, hdev])

theorem exec_reStale_due {c : Nat} {s : State} (hconv : (s.chan c).model.reConv = true)
    (hdue : (s.chan c).model.reAt + 30 * 96000 ≤ s.media.samples + 8) :
    exec (.reStale c) s = .next (s.modModel c fun m => { m with reConv := false, reStale := true, reWin := [], reMeas := 0 }) := by
  show execReStale c s = _
  rw [execReStale]
  exact if_pos (by simp only [hconv, hdue, decide_true, Bool.and_self])

theorem exec_lateReseed_decayed {c : Nat} {r : ModelRec} {x : Rat} {s : State} (hrecord : (s.chan c).model.record = some r)
    (hruns : (s.chan c).model.runs = true) (hhot : (s.chan c).model.hotSeed = true) (hconv : (s.chan c).model.reConv = false)
    (hseed : (s.chan c).model.seed = 3) (hlocked : s.ptp.state = .locked) (hdue : s.keeper.counterUs ≤ (s.chan c).model.reseedUntil)
    (hptp : r.ptpNs.isSome = true) (helapsed : elapsed? s r = some x) (hlower : (decayed s c r x).1 < (s.chan c).model.tv) :
    exec (.lateReseed c) s = .next (s.modModel c fun m => { m with
      tv := (decayed s c r x).1, tm := (decayed s c r x).2, seed := 2, seedTv := (decayed s c r x).1, coldDue := coldSeed s c (decayed s c r x).1 }) := by
  show execLateReseed c s = _
  rw [execLateReseed]
  simp only [hrecord]
  rw [if_pos (by simp [hruns, hhot, hconv, hseed, hlocked, hdue, hptp]), helapsed]
  exact if_pos hlower

theorem exec_foldbackEpisodeEnd_magnet {c : Nat} {s : State} (hep : (s.chan c).model.magEp = true) (hcurve : magnetCurve s c = 0) :
    exec (.foldbackEpisodeEnd c true) s = .next (s.modModel c fun m => { m with magEp := false }) := by
  show execFoldbackEpisodeEnd c true s = _
  rw [execFoldbackEpisodeEnd, if_pos rfl]
  exact if_pos (by simp [hep, hcurve])

theorem exec_foldbackEpisodeEnd_coil {c : Nat} {s : State} (hep : (s.chan c).model.coilEp = true) (hcurve : coilCurve s c = 0) :
    exec (.foldbackEpisodeEnd c false) s = .next (s.modModel c fun m => { m with coilEp := false, overEp := false }) := by
  show execFoldbackEpisodeEnd c false s = _
  rw [execFoldbackEpisodeEnd, if_neg Bool.false_ne_true]
  exact if_pos (by simp [hep, hcurve])

end Sys2Proof.Machine

open Sys2Proof Sys2Proof.Machine

/-- Settles O47: a pilot window by its open-load test and what the measurements after it leave, the records by what storing makes of each channel,
the other rows by their equations. -/
theorem modelRows : Obligations.ModelRows := by
  intro s
  refine ⟨?window, ?stale, ?records, ?reseed, ?episodes⟩
  case window =>
    intro c p hc hen hrun hfull
    have hopen := judgeOpen_chan hc p s
    have htouched := judgeOpen_touchesChan c p s
    obtain ⟨hafter, hfsm, hloop, hdsp, hwin⟩ := windowTaken_measures c p (s.chan c).model (judgeOpen c p s)
    rw [hopen] at hfsm hloop hdsp hwin
    refine ⟨_, exec_pilotWindow_gathered p hen hrun hfull, htouched.trans hafter, ?_, hloop, hdsp, fun hnone => ⟨?_, ?_⟩, fun n hsome => ⟨?_, ?_⟩,
      fun hruns hseed hok htemp hconv hsense _ => ?_⟩
    · rw [hfsm]; exact hrun
    · rw [hwin]; simp [openWindows, hnone]
    · rw [hfsm]; simp [openAfter, hnone]
    · rw [hwin]; simp [openWindows, hsome]
    · rw [hfsm]; simp [openAfter, hsome]
    · have hcfg : (judgeOpen c p s).cfg = s.cfg := htouched.1.quiet.2.2.2
      have hre : pilotRe (judgeOpen c p s) c p = pilotRe s c p := by unfold pilotRe State.entry; rw [hcfg]
      have hentry : (judgeOpen c p s).entry c 14 = s.entry c 14 := by unfold State.entry; rw [hcfg]
      have htempOf : tempOf (judgeOpen c p s) c (pilotRe s c p) = tempOf s c (pilotRe s c p) := by unfold tempOf; rw [hopen, hentry]
      have hok' : windowOk (judgeOpen c p s) c p = true := by unfold windowOk at hok ⊢; rw [hopen]; exact hok
      have htemp' : tempOk (judgeOpen c p s) c (tempOf (judgeOpen c p s) c (pilotRe (judgeOpen c p s) c p)) = true := by
        rw [hre, htempOf]; unfold tempOk State.ratv at htemp ⊢; rw [hcfg]; exact htemp
      have hconv' : ((judgeOpen c p s).chan c).model.reConv = true := by rw [hopen]; exact hconv
      obtain ⟨hwindows, hmeas, hstands, hcoil⟩ := windowTaken_converged hc p hruns hseed hok' htemp' hconv' (by rw [hopen]; exact hsense)
      rw [hwindows, hmeas, hstands, hcoil, takeRe_converged hc _ hconv', hre, hentry, hopen]
      exact ⟨rfl, rfl, hconv, rfl⟩
  case stale =>
    intro c hc hconv hdue
    exact ⟨_, exec_reStale_due hconv hdue, rfl, modModel_touchesChan s c _, chan_modModel_self s _ hc⟩
  case records =>
    intro hfree hnone hdev
    exact ⟨_, exec_modelRecordStore_stores hfree hnone hdev, storeModels_eq s, fun c hc => storeModels_chan hc s⟩
  case reseed =>
    intro c r x hc hrecord hruns hhot hconv hseed hlocked hdue hptp helapsed hlower
    exact ⟨_, exec_lateReseed_decayed hrecord hruns hhot hconv hseed hlocked hdue hptp helapsed hlower, modModel_touchesChan s c _,
      chan_modModel_self s _ hc⟩
  case episodes =>
    intro c hc
    exact ⟨fun hep hcurve => ⟨_, exec_foldbackEpisodeEnd_magnet hep hcurve, modModel_touchesChan s c _, chan_modModel_self s _ hc⟩,
      fun hep hcurve => ⟨_, exec_foldbackEpisodeEnd_coil hep hcurve, modModel_touchesChan s c _, chan_modModel_self s _ hc⟩⟩

end

section
/-! PROOFS. Received Fikezo frames: how one passes to its meaning, and the SAMPLE frame (R359, R360, R371 to R373, Tables 14.4 and 14.8). -/

namespace Sys2Proof.Machine

/-! ### From the receive FIFO to its meaning -/

/-- Without an injection every frame passes as it comes. -/
theorem fzReceive_passes {s : State} (hheld : (s.inj 64).heldPkt = none) (haction : (s.inj 64).action = 0) (ty : Nat) (l : List Byte) (t2 : Nat) :
    fzReceive ty l t2 s = fzPass ty l t2 s := by
  have hselect : injSelect 64 s = (0, s) := by
    unfold injSelect
    exact if_pos haction
  unfold fzReceive
  rw [hheld, hselect]
  rfl

/-- While the lanes carry data and no injection acts, each frame row is the meaning of its frame. -/
theorem exec_frames {s : State} (hlive : fzLive s = true) (hheld : (s.inj 64).heldPkt = none) (haction : (s.inj 64).action = 0) (l : List Byte)
    (t2 : Nat) :
    exec (.sampleFrame l) s = .next (fzPass 1 l 0 s) ∧ exec (.blockFrame l) s = .next (fzPass 2 l 0 s) ∧
    exec (.modelFrame l) s = .next (fzPass 3 l 0 s) ∧ exec (.peerBeacon l) s = .next (fzPass 4 l 0 s) ∧
    exec (.epochFrame l) s = .next (fzPass 5 l 0 s) ∧ exec (.timeFrame l t2) s = .next (fzPass 6 l t2 s) := by
  have key : ∀ ty at_, (if fzLive s then (.next (fzReceive ty l at_ s) : Out State) else .next s) = .next (fzPass ty l at_ s) := fun ty at_ => by
    rw [if_pos hlive, fzReceive_passes hheld haction]
  exact ⟨key 1 0, key 2 0, key 3 0, key 4 0, key 5 0, key 6 t2⟩

theorem fzPass_wrong {ty : Nat} {l : List Byte} (h : fzParse ty l = none) (t2 : Nat) (s : State) : fzPass ty l t2 s = badFrame ty s := by
  unfold fzPass
  rw [h]

theorem badFrame_counts {ty : Nat} (h : ty ≠ 4) (s : State) : badFrame ty s = s.count (devStat 0x60B) 1 := by
  unfold badFrame frameError
  rw [if_neg h]

/-- A correct frame is taken by its type. -/
theorem fzPass_taken (l : List Byte) (f : Fz) (t2 : Nat) (s : State) :
    (fzParse 1 l = some f → fzPass 1 l t2 s = takeSample f s) ∧ (fzParse 2 l = some f → fzPass 2 l t2 s = takeBlock f s) ∧
    (fzParse 3 l = some f → fzPass 3 l t2 s = takeModel f s) ∧ (fzParse 4 l = some f → fzPass 4 l t2 s = takeFzBeacon f s) ∧
    (fzParse 5 l = some f → fzPass 5 l t2 s = takeEpoch f s) ∧ (fzParse 6 l = some f → fzPass 6 l t2 s = takeTime f t2 s) := by
  unfold fzPass
  refine ⟨?_, ?_, ?_, ?_, ?_, ?_⟩ <;> (intro h; simp only [h])

/-- A beacon with a bad daymark counts and breaks the row of valid ones (R359, R364). -/
theorem takeFzBeacon_bad {f : Fz} (h : leAt f.body 60 4 ≠ (crc32 (f.body.take 60)).toNat) (s : State) :
    takeFzBeacon f s = { s.count (devStat 0x60B) 1 with twin := { s.twin with beaconsOk := 0 } } := by
  unfold takeFzBeacon takeBeacon
  rw [if_pos h, beq_eq_false_iff_ne.mpr h]
  rfl

/-! ### The share correction (Table 14.8) -/

/-- What a SAMPLE frame notes of one channel before its correction (Table 14.4). -/
def Share.sampled (f : Fz) (c : Nat) (h : Share) : Share :=
  { h with
    partnerDrives := leAt f.body (8 * c + 6) 1 / 2 % 2 == 1
    partnerI := if leAt f.body (8 * c + 6) 1 % 2 = 1 then lastOf h.partnerI (f.index, signed 24 (leAt f.body (8 * c + 3) 3)) else h.partnerI
  }.partnerV f.index (leAt f.body (8 * c + 6) 1 % 2 == 1) (signed 24 (leAt f.body (8 * c) 3))

/-- The partner's sensed voltage enters the sums of the join mark alone. -/
theorem partnerV_eq (m : Nat) (valid : Bool) (v : Int) (h : Share) :
    h.partnerV m valid v = { h with vStSum := (h.partnerV m valid v).vStSum, nSt := (h.partnerV m valid v).nSt } := by
  unfold Share.partnerV
  split <;> rfl

/-- A correction that finds room in the PEER-to-MOD FIFO is the channel's correction. -/
theorem queueCorr_corr {h : Share} (hroom : h.corrs.length < 8) (running : Bool) (n : Nat) (x : Rat) : (h.queueCorr running n x).corr = x := by
  have hleft : (if running then h.corrs.filter fun p => decide (n ≤ p.1 + 4) else h.corrs).length < 8 := by
    split
    · exact Nat.lt_of_le_of_lt (List.length_filter_le _ _) hroom
    · exact hroom
  unfold Share.queueCorr
  exact congrArg Share.corr (if_neg (Nat.not_le.mpr hleft))

/-- The FIFO and the correction alone change. -/
theorem queueCorr_fields (running : Bool) (n : Nat) (x : Rat) (h : Share) : (h.queueCorr running n x).delta = h.delta ∧
    (h.queueCorr running n x).integral = h.integral ∧ (h.queueCorr running n x).partnerDrives = h.partnerDrives := by
  unfold Share.queueCorr
  extract_lets left
  split <;> exact ⟨rfl, rfl, rfl⟩

/-- A correction changes the share state of its channel alone, and not whether the partner drives. -/
def Corrects (c : Nat) (s t : State) : Prop :=
  t = { s with chans := t.chans } ∧ (∀ k, k ≠ c → t.chan k = s.chan k) ∧
  t.chan c = { s.chan c with share := (t.chan c).share } ∧ (t.chan c).share.partnerDrives = (s.chan c).share.partnerDrives

theorem Corrects.rfl' (c : Nat) (s : State) : Corrects c s s := ⟨rfl, fun _ _ => rfl, rfl, rfl⟩

theorem modShare_corrects (s : State) (c : Nat) {g : Share → Share} (h : ∀ v, (g v).partnerDrives = v.partnerDrives) : Corrects c s (s.modShare c g) := by
  have hown := modChan_related (R := fun a b => b = { a with share := b.share } ∧ b.share.partnerDrives = a.share.partnerDrives) (fun _ => ⟨rfl, rfl⟩)
    (s := s) (c := c) (f := fun v => { v with share := g v.share }) ⟨rfl, h _⟩ c
  exact ⟨rfl, fun _ hk => chan_modChan_other s _ hk, hown.1, hown.2⟩

theorem correct_corrects (c m : Nat) (s : State) : Corrects c s (correct c m s) := by
  unfold correct
  extract_lets h running
  split
  · split
    · exact modShare_corrects s c fun v => (queueCorr_fields _ _ _ _).2.2
    · exact Corrects.rfl' c s
  · exact modShare_corrects s c fun _ => rfl

/-- A channel that one side alone drives, or that joins, has no correction. -/
theorem correct_alone {c : Nat} (hc : c < 208) (m : Nat) {s : State} (h : bothDrive s c = false) :
    ((correct c m s).chan c).share.delta = 0 ∧ ((correct c m s).chan c).share.integral = 0 ∧ ((correct c m s).chan c).share.corr = 0 := by
  unfold correct
  dsimp only
  rw [h, Bool.false_and, if_neg Bool.false_ne_true, chan_modShare_self _ _ hc]
  exact ⟨rfl, rfl, rfl⟩

/-- With both currents of a sample, half their difference enters the integral, and the correction is that of Table 14.8. -/
theorem correct_both {c m : Nat} (hc : c < 208) {s : State} {i p : Rat} (hboth : bothDrive s c = true) (hjoin : (s.chan c).share.joinReq = false)
    (hcurrents : bothCurrents (s.chan c).share c m = some (i, p)) (hroom : (s.chan c).share.corrs.length < 8) :
    ((correct c m s).chan c).share.delta = (i - p) / 2 ∧
    ((correct c m s).chan c).share.integral =
      clampRat (-(2/100 * vTop s c)) (2/100 * vTop s c) ((s.chan c).share.integral + 6545/10000000 * (5/100) * ((i - p) / 2)) ∧
    ((correct c m s).chan c).share.corr =
      (if isL c then -(5/100 * ((i - p) / 2)) else 5/100 * (i + p) / 2) - ((correct c m s).chan c).share.integral := by
  unfold correct
  dsimp only
  rw [hboth, hjoin, hcurrents, if_pos (by decide), chan_modShare_self _ _ hc, show shareOhm = 5/100 by norm_num [shareOhm]]
  dsimp only
  rw [(queueCorr_fields _ _ _ _).1, (queueCorr_fields _ _ _ _).2.1, queueCorr_corr (by exact hroom)]
  exact ⟨rfl, rfl, by split <;> rfl⟩

/-! ### The SAMPLE frame -/

theorem sampled_eq (f : Fz) (c : Nat) (h : Share) : h.sampled f c = { h with
    partnerDrives := leAt f.body (8 * c + 6) 1 / 2 % 2 == 1
    partnerI := if leAt f.body (8 * c + 6) 1 % 2 = 1 then lastOf h.partnerI (f.index, signed 24 (leAt f.body (8 * c + 3) 3)) else h.partnerI
    vStSum := (h.sampled f c).vStSum, nSt := (h.sampled f c).nSt } := partnerV_eq _ _ _ _

/-- Where a frame carries the partner's valid current of a sample whose own current has come, both currents of that sample are there. -/
theorem bothCurrents_sampled {f : Fz} {c : Nat} {h : Share} {own : Int} (hflags : leAt f.body (8 * c + 6) 1 = 3) (hown : h.ownI = [(f.index, own)])
    (hpartner : h.partnerI = []) :
    bothCurrents (h.sampled f c) c f.index = some (senseI c own, senseI c (signed 24 (leAt f.body (8 * c + 3) 3))) := by
  rw [sampled_eq]
  simp [bothCurrents, hflags, hown, hpartner, lastOf]

/-- One channel's part of a SAMPLE frame: its entries are noted, and the correction follows. -/
def sampleChan (f : Fz) (c : Nat) (s : State) : State := correct c f.index (s.modShare c (Share.sampled f c))

/-- What a SAMPLE frame makes of a channel in state `s`: its share state alone changes, by the partner's flag and Table 14.8. -/
def SampleTaken (s : State) (f : Fz) (c : Nat) (a b : Chan) : Prop :=
  b = { a with share := b.share } ∧ b.share.partnerDrives = (leAt f.body (8 * c + 6) 1 / 2 % 2 == 1) ∧
  (sharing s = false → b.share.delta = 0 ∧ b.share.integral = 0 ∧ b.share.corr = 0) ∧
  ∀ own : Int, sharing s = true → a.fsm.bridge = .switching → a.share.joinReq = false → leAt f.body (8 * c + 6) 1 = 3 →
    a.share.ownI = [(f.index, own)] → a.share.partnerI = [] → a.share.corrs.length < 8 →
    ∀ i p : Rat, i = senseI c own → p = senseI c (signed 24 (leAt f.body (8 * c + 3) 3)) →
    b.share.delta = (i - p) / 2 ∧
    b.share.integral = clampRat (-(2/100 * vTop s c)) (2/100 * vTop s c) (a.share.integral + 6545/10000000 * (5/100) * ((i - p) / 2)) ∧
    b.share.corr = (if isL c then -(5/100 * ((i - p) / 2)) else 5/100 * (i + p) / 2) - b.share.integral

theorem sampleChan_corrects (f : Fz) (c : Nat) (s : State) :
    sampleChan f c s = { s with chans := (sampleChan f c s).chans } ∧ ∀ k, k ≠ c → (sampleChan f c s).chan k = s.chan k := by
  obtain ⟨hstate, hother, -, -⟩ := correct_corrects c f.index (s.modShare c (Share.sampled f c))
  exact ⟨hstate, fun k hk => (hother k hk).trans (chan_modChan_other s _ hk)⟩

theorem sampleChan_self {s u : State} (f : Fz) {c : Nat} (hc : c < 208) (hshares : sharing u = sharing s) (hcfg : u.cfg = s.cfg) :
    SampleTaken s f c (u.chan c) ((sampleChan f c u).chan c) := by
  have hnoted : (u.modShare c (Share.sampled f c)).chan c = { u.chan c with share := (u.chan c).share.sampled f c } := chan_modShare_self u _ hc
  obtain ⟨-, -, hshare, hdrives⟩ := correct_corrects c f.index (u.modShare c (Share.sampled f c))
  refine ⟨hshare.trans (by rw [hnoted]; rfl), hdrives.trans (by rw [hnoted, sampled_eq]), fun hsingle => ?_,
    fun own hboth hbridge hjoin hflags hown hpartner hroom i p hi hp => ?_⟩
  · refine correct_alone hc f.index ?_
    have hnone : sharing (u.modShare c (Share.sampled f c)) = false := hshares.trans hsingle
    rw [bothDrive, hnone, Bool.false_and, Bool.false_and]
  · have hdrive : bothDrive (u.modShare c (Share.sampled f c)) c = true := by
      have hall : sharing (u.modShare c (Share.sampled f c)) = true := hshares.trans hboth
      rw [bothDrive, armed, hall, hnoted, sampled_eq]
      simp [hflags, hbridge]
    have hcurrents := bothCurrents_sampled hflags hown hpartner
    rw [← hi, ← hp] at hcurrents
    have htop : vTop (u.modShare c (Share.sampled f c)) c = vTop s c := by
      show u.cfg.active.vTop c = s.cfg.active.vTop c
      rw [hcfg]
    have h := correct_both (m := f.index) hc hdrive (by rw [hnoted, sampled_eq]; exact hjoin) (by rw [hnoted]; exact hcurrents)
      (by rw [hnoted, sampled_eq]; exact hroom)
    rwa [htop, hnoted, sampled_eq] at h

/-- The streams and ports whose signal the partner has lost fade here too, where the pair shares. -/
def partnerFades (f : Fz) (s : State) : State :=
  if !sharing s then s
  else
    forUnits 4 (fun x u => if leAt f.body 1668 1 / 2 ^ x % 2 = 1 ∧ u.cfg.active.tdmOn x then tdmFade false x (f.index + 27) u else u)
      (forUnits 32 (fun st u =>
        if leAt f.body 1664 4 / 2 ^ st % 2 = 1 ∧ u.cfg.active.streamOn st then
          if (u.stream st).state.plays then streamFade st (f.index + 27) false u else u.modStream st fun t => { t with good := 0 }
        else u) s)

theorem partnerFades_alone {s : State} (f : Fz) (h : sharing s = false) : partnerFades f s = s := if_pos (by rw [h]; rfl)

theorem partnerFades_eq (f : Fz) (s : State) :
    partnerFades f s = { s with streams := (partnerFades f s).streams, tdms := (partnerFades f s).tdms } := by
  unfold partnerFades
  split
  · rfl
  · refine forUnits_invariant (P := fun t => t = { s with streams := t.streams, tdms := t.tdms }) (fun x u h => ?_) 4 ?_
    · split
      · rw [tdmFade, State.modTdm, h]
      · exact h
    · refine forUnits_invariant (P := fun t => t = { s with streams := t.streams, tdms := t.tdms }) (fun st u h => ?_) 32 rfl
      split
      · split
        · rw [streamFade, State.modStream, h]
        · rw [State.modStream, h]
      · exact h

/-- From `s` to `t` the mute line of the partner is noted, and the last sequence number and counters may differ. -/
def SampleNoted (f : Fz) (s t : State) : Prop := t = { s with
  counters := t.counters
  twin := { s.twin with lastSample := t.twin.lastSample, muted := s.twin.effShared && leAt f.body 1669 1 % 2 == 1 } }

/-- A SAMPLE frame while the link is up: it is noted, then each channel's entries act, then the lost signals fade. -/
theorem takeSample_linked (f : Fz) {s : State} (h : s.twin.link = true) :
    ∃ v, SampleNoted f s v ∧ takeSample f s = partnerFades f (forUnits 208 (sampleChan f) v) := by
  unfold takeSample
  rw [if_neg (by simp [h])]
  extract_lets m gap back s0 noted s1 s2
  have h0 : s0 = { s with counters := s0.counters } := by
    unfold s0
    split <;> rfl
  refine ⟨s1, ?_, rfl⟩
  unfold SampleNoted s1 noted
  rw [h0]

/-- The channels' parts of a SAMPLE frame change channels alone. -/
theorem sampleChans_eq (f : Fz) (s : State) : forUnits 208 (sampleChan f) s = { s with chans := (forUnits 208 (sampleChan f) s).chans } :=
  forUnits_chans s fun c u => (sampleChan_corrects f c u).1

theorem sampleChans_chan (f : Fz) {s v : State} (hv : SampleNoted f s v) {c : Nat} (hc : c < 208) :
    SampleTaken s f c (s.chan c) ((forUnits 208 (sampleChan f) v).chan c) := by
  have hchan : v.chan c = s.chan c := by rw [hv]; rfl
  rw [← hchan]
  refine forUnits_units (get := State.chan) (R := SampleTaken s f) (P := fun u => sharing u = sharing s ∧ u.cfg = s.cfg) (fun k u hu => ?_)
    (fun k j u hj => (sampleChan_corrects f k u).2 j hj) (fun k u hk hu => sampleChan_self f hk hu.1 hu.2) ?_ hc
  · rw [(sampleChan_corrects f k u).1]
    exact hu
  · rw [hv]
    exact ⟨rfl, rfl⟩

theorem takeSample_chan {f : Fz} {s : State} (h : s.twin.link = true) {c : Nat} (hc : c < 208) :
    SampleTaken s f c (s.chan c) ((takeSample f s).chan c) := by
  obtain ⟨v, hnoted, htake⟩ := takeSample_linked f h
  have hkept : (takeSample f s).chan c = (forUnits 208 (sampleChan f) v).chan c := by
    rw [htake, partnerFades_eq]
    rfl
  rw [hkept]
  exact sampleChans_chan f hnoted hc

/-- What a SAMPLE frame sets beside the channels, and what it leaves. -/
theorem takeSample_fields {f : Fz} {s : State} (h : s.twin.link = true) : (takeSample f s).rails = s.rails ∧
    (takeSample f s).twin.muted = (s.twin.effShared && leAt f.body 1669 1 % 2 == 1) ∧
    (sharing s = false → (takeSample f s).streams = s.streams ∧ (takeSample f s).tdms = s.tdms) := by
  obtain ⟨v, hnoted, htake⟩ := takeSample_linked f h
  have hchans := sampleChans_eq f v
  have hshares : sharing (forUnits 208 (sampleChan f) v) = sharing s := by
    rw [hchans, hnoted]
    rfl
  refine ⟨?_, ?_, fun hsingle => ?_⟩
  · rw [htake, partnerFades_eq, hchans, hnoted]
  · rw [htake, partnerFades_eq, hchans, hnoted]
  · rw [htake, partnerFades_alone f (hshares.trans hsingle), hchans, hnoted]
    exact ⟨rfl, rfl⟩

end Sys2Proof.Machine
end

section
/-! PROOFS. The BLOCK and MODEL frames (R240, R373, R375, R376, Tables 14.3 and 14.5). -/

namespace Sys2Proof.Machine

/-! ### The BLOCK frame -/

/-- The join mark of a channel after the partner's JOIN_REQ bit, on a side that shares or not. -/
def markOf (shares req : Bool) (v : Chan) : Nat :=
  if shares && req && !v.share.partnerJoin && !v.share.joinReq && (v.fsm.state == .idle || v.fsm.state == .muted) then 48 else v.share.mark

theorem markFor_eq (s : State) (c : Nat) (req : Bool) : markFor s c req = markOf (sharing s) req (s.chan c) := rfl

/-- Which mark a BLOCK frame with index `idx` begins to judge on a channel: the own one with the block at `base`, or the starter's, which came in
the block before the one that the frame names (R375). -/
def markBegun (shares : Bool) (base idx : Nat) (b : List Byte) (c : Nat) (v : Chan) : Share :=
  if markOf shares (leAt b c 1 / 32 % 2 == 1) v = 48 ∧ v.share.mark = 0 then v.share.startMark base
  else if v.share.joinReq ∧ (v.fsm.state = .diag ∨ v.fsm.state = .retest) ∧ !v.share.partnerMark ∧ leAt b c 1 / 128 % 2 = 1 then v.share.startMark (idx - 8)
  else v.share

/-- A channel after its byte and its modulation limit of a BLOCK frame. -/
def blockTaken (shares : Bool) (base idx : Nat) (b : List Byte) (c : Nat) (v : Chan) : Chan :=
  { v with share := { markBegun shares base idx b c v with
    mark := markOf shares (leAt b c 1 / 32 % 2 == 1) v, partnerState := leAt b c 1 % 16, partnerDrives := leAt b c 1 / 16 % 2 == 1
    partnerJoin := leAt b c 1 / 32 % 2 == 1, voPartner := leAt b c 1 / 64 % 2 == 1, partnerMark := leAt b c 1 / 128 % 2 == 1
    mIdxPartner := f32At b (236 + 4 * c) v.share.mIdxPartner } }

/-- Of the share state the start of a mark changes when it begins and the sums over it. -/
theorem markBegun_eq (shares : Bool) (base idx : Nat) (b : List Byte) (c : Nat) (v : Chan) : markBegun shares base idx b c v = { v.share with
    markAt := (markBegun shares base idx b c v).markAt, vOwnSum := (markBegun shares base idx b c v).vOwnSum
    iOwnSum := (markBegun shares base idx b c v).iOwnSum, vStSum := (markBegun shares base idx b c v).vStSum
    nOwn := (markBegun shares base idx b c v).nOwn, nSt := (markBegun shares base idx b c v).nSt } := by
  unfold markBegun
  repeat' split
  all_goals rfl

theorem markBegun_own {shares : Bool} {b : List Byte} {c : Nat} {v : Chan} (h : markOf shares (leAt b c 1 / 32 % 2 == 1) v = 48)
    (hmark : v.share.mark = 0) (base idx : Nat) : (markBegun shares base idx b c v).markAt = some base := by
  unfold markBegun
  rw [if_pos ⟨h, hmark⟩]
  rfl

theorem markBegun_starter {b : List Byte} {c : Nat} {v : Chan} (hjoin : v.share.joinReq = true) (hstate : v.fsm.state = .diag)
    (hfresh : v.share.partnerMark = false) (hbit : leAt b c 1 / 128 % 2 = 1) (hmark : v.share.mark ≠ 0) (shares : Bool) (base idx : Nat) :
    (markBegun shares base idx b c v).markAt = some (idx - 8) := by
  unfold markBegun
  rw [if_neg fun h => hmark h.2, if_pos ⟨hjoin, .inl hstate, by rw [hfresh]; rfl, hbit⟩]
  rfl

theorem blockChan_self {c : Nat} (hc : c < 208) (idx : Nat) (b : List Byte) (s : State) :
    (blockChan idx b c s).chan c = blockTaken (sharing s) (winBase s) idx b c (s.chan c) := by
  unfold blockChan blockTaken markBegun
  dsimp only
  rw [chan_modShare_self _ _ hc, markFor_eq]

theorem blockChan_other {c k : Nat} (hk : k ≠ c) (idx : Nat) (b : List Byte) (s : State) : (blockChan idx b c s).chan k = s.chan k :=
  chan_modChan_other s _ hk

theorem blockChans_eq (idx : Nat) (b : List Byte) (s : State) :
    forUnits 208 (blockChan idx b) s = { s with chans := (forUnits 208 (blockChan idx b) s).chans } := forUnits_chans s fun _ _ => rfl

theorem blockChans_chan {c : Nat} (hc : c < 208) (idx : Nat) (b : List Byte) (s : State) :
    (forUnits 208 (blockChan idx b) s).chan c = blockTaken (sharing s) (winBase s) idx b c (s.chan c) := by
  refine forUnits_units (get := State.chan) (f := blockChan idx b) (R := fun c a v => v = blockTaken (sharing s) (winBase s) idx b c a)
    (P := fun u => sharing u = sharing s ∧ winBase u = winBase s) (fun _ _ hu => hu) (fun k j u hj => blockChan_other hj idx b u)
    (fun k u hk hu => ?_) ⟨rfl, rfl⟩ hc
  rw [blockChan_self hk, hu.1, hu.2]

/-- The partner's ceilings enter the controllers. -/
def railTerms (b : List Byte) (s : State) : State := forUnits 12 (fun r s => s.modRail r fun q => { q with cEffPartner := leAt b (208 + r) 1 }) s

/-- The partner's stage multipliers enter the dies. -/
def dieTerms (b : List Byte) (s : State) : State :=
  forUnits 4 (fun d s => s.modDsd d fun q => { q with partnerS := f32At b (220 + 4 * d) q.partnerS }) s

theorem railTerms_rail {r : Nat} (hr : r < 12) (b : List Byte) (s : State) :
    (railTerms b s).rail r = { s.rail r with cEffPartner := leAt b (208 + r) 1 } := by
  rw [railTerms, rail_forUnits (Nat.le_refl 12) (fun r q => { q with cEffPartner := leAt b (208 + r) 1 }), if_pos hr]

theorem dieTerms_dsd {d : Nat} (hd : d < 4) (b : List Byte) (s : State) :
    (dieTerms b s).dsd d = { s.dsd d with partnerS := f32At b (220 + 4 * d) (s.dsd d).partnerS } :=
  forUnits_units (get := State.dsd) (f := fun d s => s.modDsd d fun q => { q with partnerS := f32At b (220 + 4 * d) q.partnerS })
    (R := fun d a v => v = { a with partnerS := f32At b (220 + 4 * d) a.partnerS }) (P := fun _ => True)
    (fun _ _ _ => trivial) (fun _ _ u hj => dsd_modDsd_other u _ hj) (fun _ u hk _ => dsd_modDsd_self u _ hk) trivial hd

theorem railTerms_eq (b : List Byte) (s : State) : railTerms b s = { s with rails := (railTerms b s).rails } := forUnits_rails s fun _ _ => rfl

theorem dieTerms_eq (b : List Byte) (s : State) : dieTerms b s = { s with dsds := (dieTerms b s).dsds } :=
  forUnits_invariant (P := fun t => t = { s with dsds := t.dsds }) (fun d u h => by rw [State.modDsd, h]) 4 rfl

theorem takeBlock_parts (f : Fz) (s : State) : takeBlock f s =
    { dieTerms f.body (railTerms f.body (forUnits 208 (blockChan f.index f.body) s)) with
      twin := blockRun f.body (dieTerms f.body (railTerms f.body (forUnits 208 (blockChan f.index f.body) s))).twin } := rfl

/-- From `s` to `t` only channels, controllers and dies may differ. -/
def UnitsOnly (s t : State) : Prop := t = { s with chans := t.chans, rails := t.rails, dsds := t.dsds }

theorem UnitsOnly.trans {s t u : State} (h : UnitsOnly s t) (k : UnitsOnly t u) : UnitsOnly s u := by
  unfold UnitsOnly at *
  rw [k, h]

theorem blockParts_unitsOnly (f : Fz) (s : State) : UnitsOnly s (dieTerms f.body (railTerms f.body (forUnits 208 (blockChan f.index f.body) s))) := by
  have hchans : UnitsOnly s (forUnits 208 (blockChan f.index f.body) s) := by unfold UnitsOnly; rw [blockChans_eq]
  have hrails : ∀ u, UnitsOnly u (railTerms f.body u) := fun u => by unfold UnitsOnly; rw [railTerms_eq]
  have hdies : ∀ u, UnitsOnly u (dieTerms f.body u) := fun u => by unfold UnitsOnly; rw [dieTerms_eq]
  exact (hchans.trans (hrails _)).trans (hdies _)

/-- Of a state a BLOCK frame changes channels, controllers, dies, and the partner's RUN block with its map. -/
theorem takeBlock_eq (f : Fz) (s : State) : takeBlock f s = { s with
    chans := (takeBlock f s).chans, rails := (takeBlock f s).rails, dsds := (takeBlock f s).dsds
    twin := { s.twin with theirRunBlock := leAt f.body 1068 8, theirRunMap := mapAt f.body 1076 } } := by
  have h := blockParts_unitsOnly f s
  rw [takeBlock_parts]
  generalize dieTerms f.body (railTerms f.body (forUnits 208 (blockChan f.index f.body) s)) = u at h ⊢
  rw [h]
  rfl

theorem dieTerms_chan (b : List Byte) (s : State) (c : Nat) : (dieTerms b s).chan c = s.chan c := by rw [dieTerms_eq]; rfl
theorem dieTerms_rail (b : List Byte) (s : State) (r : Nat) : (dieTerms b s).rail r = s.rail r := by rw [dieTerms_eq]; rfl
theorem railTerms_chan (b : List Byte) (s : State) (c : Nat) : (railTerms b s).chan c = s.chan c := by rw [railTerms_eq]; rfl
theorem railTerms_dsd (b : List Byte) (s : State) (d : Nat) : (railTerms b s).dsd d = s.dsd d := by rw [railTerms_eq]; rfl
theorem blockChans_rail (idx : Nat) (b : List Byte) (s : State) (r : Nat) : (forUnits 208 (blockChan idx b) s).rail r = s.rail r := by
  rw [blockChans_eq]; rfl
theorem blockChans_dsd (idx : Nat) (b : List Byte) (s : State) (d : Nat) : (forUnits 208 (blockChan idx b) s).dsd d = s.dsd d := by
  rw [blockChans_eq]; rfl

/-- The units stand where the pair's state changes. -/
theorem units_setTwin (u : State) (w : Twin) : (∀ c, ({ u with twin := w } : State).chan c = u.chan c) ∧
    (∀ r, ({ u with twin := w } : State).rail r = u.rail r) ∧ ∀ d, ({ u with twin := w } : State).dsd d = u.dsd d :=
  ⟨fun _ => rfl, fun _ => rfl, fun _ => rfl⟩

theorem takeBlock_chan {c : Nat} (hc : c < 208) (f : Fz) (s : State) :
    (takeBlock f s).chan c = blockTaken (sharing s) (winBase s) f.index f.body c (s.chan c) := by
  rw [takeBlock_parts, (units_setTwin _ _).1, dieTerms_chan, railTerms_chan, blockChans_chan hc]

theorem takeBlock_rail {r : Nat} (hr : r < 12) (f : Fz) (s : State) :
    (takeBlock f s).rail r = { s.rail r with cEffPartner := leAt f.body (208 + r) 1 } := by
  rw [takeBlock_parts, (units_setTwin _ _).2.1, dieTerms_rail, railTerms_rail hr, blockChans_rail]

theorem takeBlock_dsd {d : Nat} (hd : d < 4) (f : Fz) (s : State) :
    (takeBlock f s).dsd d = { s.dsd d with partnerS := f32At f.body (220 + 4 * d) (s.dsd d).partnerS } := by
  rw [takeBlock_parts, (units_setTwin _ _).2.2, dieTerms_dsd hd, railTerms_dsd, blockChans_dsd]

/-! ### The MODEL frame -/

/-- One of the 8 entries of a MODEL frame. -/
def modelEntry (b : List Byte) (i : Nat) (s : State) : State :=
  if 208 ≤ leAt b (40 * i) 2 then s
  else
    let s1 := s.modShare (leAt b (40 * i) 2) fun h => { h with
      shadow := some ⟨f32At b (40 * i + 4 + 4 * 0) 0, f32At b (40 * i + 4 + 4 * 1) 0, f32At b (40 * i + 4 + 4 * 2) 0, f32At b (40 * i + 4 + 4 * 3) 0,
        f32At b (40 * i + 4 + 4 * 4) 0, f32At b (40 * i + 4 + 4 * 5) 0, leAt b (40 * i + 28) 4⟩
      shadowAt := s.keeper.counterUs }
    { s1 with twin := { s1.twin with
      adoptGot := if s1.twin.adoptGot.contains (leAt b (40 * i) 2) then s1.twin.adoptGot else leAt b (40 * i) 2 :: s1.twin.adoptGot } }

theorem takeModel_entries (f : Fz) (s : State) : takeModel f s = forUnits 8 (modelEntry f.body) s := rfl

/-- From `s` to `t` only the share states of channels and the set of channels whose shadow has come may differ. -/
def ShadowsOnly (s t : State) : Prop :=
  t = { s with chans := t.chans, twin := { s.twin with adoptGot := t.twin.adoptGot } } ∧
  ∀ c, (t.chan c).model = (s.chan c).model ∧ (t.chan c).fsm = (s.chan c).fsm

theorem modelEntry_shadowsOnly (b : List Byte) (i : Nat) (s : State) : ShadowsOnly s (modelEntry b i s) := by
  unfold modelEntry
  split
  · exact ⟨rfl, fun _ => ⟨rfl, rfl⟩⟩
  · extract_lets s1
    have h1 : ∀ c, (s1.chan c).model = (s.chan c).model ∧ (s1.chan c).fsm = (s.chan c).fsm :=
      modChan_related (R := fun a b => b.model = a.model ∧ b.fsm = a.fsm) (fun _ => ⟨rfl, rfl⟩) ⟨rfl, rfl⟩
    exact ⟨rfl, h1⟩

theorem ShadowsOnly.trans {s t u : State} (h : ShadowsOnly s t) (k : ShadowsOnly t u) : ShadowsOnly s u :=
  ⟨by rw [k.1, h.1], fun c => ⟨(k.2 c).1.trans (h.2 c).1, (k.2 c).2.trans (h.2 c).2⟩⟩

theorem takeModel_shadowsOnly (f : Fz) (s : State) : ShadowsOnly s (takeModel f s) :=
  forUnits_invariant (P := ShadowsOnly s) (fun i u h => h.trans (modelEntry_shadowsOnly f.body i u)) 8 ⟨rfl, fun _ => ⟨rfl, rfl⟩⟩

/-- A shadow of channel `c` is held, and has come by the Keeper's time now. -/
def ShadowNow (c : Nat) (s : State) : Prop := (s.chan c).share.shadow.isSome = true ∧ (s.chan c).share.shadowAt = s.keeper.counterUs

theorem modelEntry_self {b : List Byte} {i : Nat} (h : leAt b (40 * i) 2 < 208) (s : State) : ShadowNow (leAt b (40 * i) 2) (modelEntry b i s) := by
  unfold modelEntry
  rw [if_neg (Nat.not_le.mpr h)]
  extract_lets s1
  have h1 : ShadowNow (leAt b (40 * i) 2) s1 := by
    unfold ShadowNow s1
    rw [chan_modShare_self s _ h]
    exact ⟨rfl, rfl⟩
  exact h1

theorem modelEntry_keeps (b : List Byte) (i : Nat) {c : Nat} {s : State} (h : ShadowNow c s) : ShadowNow c (modelEntry b i s) := by
  unfold modelEntry
  split
  · exact h
  · extract_lets s1
    have h1 : ShadowNow c s1 := modChan_related (R := fun a v => a.share.shadow.isSome = true ∧ a.share.shadowAt = s.keeper.counterUs →
      v.share.shadow.isSome = true ∧ v.share.shadowAt = s.keeper.counterUs) (fun _ h => h) (fun _ => ⟨rfl, rfl⟩) c h
    exact h1

/-- Each channel that an entry names has its shadow. -/
theorem takeModel_shadow {f : Fz} {i : Nat} (hi : i < 8) (h : leAt f.body (40 * i) 2 < 208) (s : State) :
    ShadowNow (leAt f.body (40 * i) 2) (takeModel f s) :=
  forUnits_each (Q := fun i u => leAt f.body (40 * i) 2 < 208 → ShadowNow (leAt f.body (40 * i) 2) u) s (fun _ u _ h => modelEntry_self h u)
    (fun i _ _ _ hq h => modelEntry_keeps f.body i (hq h)) i hi h

end Sys2Proof.Machine
end

section
/-! PROOFS. The adoption of the LEAD's shadows at a block boundary (R240, R241). -/

namespace Sys2Proof.Machine

/-! ### What an adoption sets, and what leaves it -/

/-- Two models with the same four identified parameters. -/
def SameParams (a b : Model) : Prop := b.re25 = a.re25 ∧ b.bl0 = a.bl0 ∧ b.fs = a.fs ∧ b.qms = a.qms

theorem SameParams.rfl' (a : Model) : SameParams a a := ⟨rfl, rfl, rfl, rfl⟩

theorem SameParams.trans {a b c : Model} (h : SameParams a b) (k : SameParams b c) : SameParams a c := by
  obtain ⟨hre, hbl, hfs, hqms⟩ := h
  obtain ⟨kre, kbl, kfs, kqms⟩ := k
  exact ⟨kre.trans hre, kbl.trans hbl, kfs.trans hfs, kqms.trans hqms⟩

/-- From `s` to `t` whether an adoption is due, which shadows have come for it, and the parameters of every model stand. -/
def AdoptionStands (s t : State) : Prop :=
  t.twin.adoptDue = s.twin.adoptDue ∧ t.twin.adoptGot = s.twin.adoptGot ∧ ∀ c, SameParams (s.chan c).model (t.chan c).model

theorem AdoptionStands.rfl' (s : State) : AdoptionStands s s := ⟨rfl, rfl, fun _ => SameParams.rfl' _⟩

theorem AdoptionStands.trans {s t u : State} (h : AdoptionStands s t) (k : AdoptionStands t u) : AdoptionStands s u := by
  obtain ⟨hdue, hgot, hmodels⟩ := h
  obtain ⟨kdue, kgot, kmodels⟩ := k
  exact ⟨kdue.trans hdue, kgot.trans hgot, fun c => (hmodels c).trans (kmodels c)⟩

theorem AdoptionStands.of_eq {s t : State} (htwin : t.twin = s.twin) (hchans : t.chans = s.chans) : AdoptionStands s t :=
  ⟨by rw [htwin], by rw [htwin], fun c => by unfold State.chan; rw [hchans]; exact SameParams.rfl' _⟩

theorem Reports.adoptionStands {s t : State} (h : Reports s t) : AdoptionStands s t := .of_eq (by rw [h]) (by rw [h])

theorem modChan_adoptionStands (s : State) (c : Nat) {f : Chan → Chan} (h : ∀ v, SameParams v.model (f v).model) : AdoptionStands s (s.modChan c f) :=
  ⟨rfl, rfl, modChan_related (R := fun a b => SameParams a.model b.model) (fun _ => SameParams.rfl' _) (h _)⟩

theorem modDsp_adoptionStands (s : State) (c : Nat) (f : Dsp → Dsp) : AdoptionStands s (s.modDsp c f) :=
  modChan_adoptionStands s c fun _ => SameParams.rfl' _

theorem ite_adoptionStands {p : Prop} [Decidable p] {s t u : State} (ht : AdoptionStands s t) (hu : AdoptionStands s u) :
    AdoptionStands s (if p then t else u) := by
  split
  · exact ht
  · exact hu

/-! ### The parts of a window beside the adoption -/

theorem streamBlock_adoptionStands (st : Nat) (s : State) : AdoptionStands s (streamBlock st s) := by
  unfold streamBlock
  extract_lets t b gone miss lost s1 good s2
  have h1 : AdoptionStands s s1 := ite_adoptionStands (.of_eq rfl rfl) (.rfl' s)
  have h2 : AdoptionStands s s2 := h1.trans (.of_eq rfl rfl)
  refine ite_adoptionStands (.rfl' s) (ite_adoptionStands h2 (ite_adoptionStands ?_ ?_))
  · exact h2.trans (.of_eq rfl rfl)
  · exact h2.trans (.of_eq rfl rfl)

theorem tdmBlock_adoptionStands (x : Nat) (s : State) : AdoptionStands s (tdmBlock x s) := .of_eq rfl rfl

theorem keepSense_adoptionStands (s : State) (p : SensePair) : AdoptionStands s (keepSense s p) :=
  modChan_adoptionStands s p.ch fun _ => SameParams.rfl' _

theorem addEnergy_adoptionStands (s : State) (p : SensePair) : AdoptionStands s (addEnergy s p) := by
  unfold addEnergy
  extract_lets j kj s1
  have h1 : AdoptionStands s s1 := modChan_adoptionStands s p.ch fun _ => SameParams.rfl' _
  exact ite_adoptionStands (.rfl' s) (ite_adoptionStands h1 (h1.trans (.of_eq rfl rfl)))

theorem gatherWindow_adoptionStands (sense : List SensePair) (c : Nat) (s : State) : AdoptionStands s (gatherWindow sense c s) := by
  unfold gatherWindow
  extract_lets h w
  refine ite_adoptionStands (ite_adoptionStands (.rfl' s) ?_) (ite_adoptionStands ?_ ?_)
  all_goals exact modChan_adoptionStands s c fun _ => ⟨rfl, rfl, rfl, rfl⟩

theorem modelWindow_adoptionStands (sense : List SensePair) (c : Nat) (s : State) : AdoptionStands s (modelWindow sense c s) := by
  unfold modelWindow
  extract_lets h r0 r xs nOver reh p s1 coil mag target rth hot s2 s3 s4 s5 s6
  have h1 : AdoptionStands s s1 :=
    ⟨rfl, rfl, modChan_related (R := fun a b => SameParams a.model b.model) (fun _ => SameParams.rfl' _) ⟨rfl, rfl, rfl, rfl⟩⟩
  have h2 : AdoptionStands s s2 := h1.trans (modChan_adoptionStands s1 c fun _ => ⟨rfl, rfl, rfl, rfl⟩)
  have h3 : AdoptionStands s s3 := h2.trans (modChan_adoptionStands s2 c fun _ => ⟨rfl, rfl, rfl, rfl⟩)
  have h4 : AdoptionStands s s4 :=
    ite_adoptionStands ((h3.trans (count_reports _ _ s3).adoptionStands).trans (raiseHeld_reports _ _ _ _ _ _).adoptionStands) h3
  have h5 : AdoptionStands s s5 := ite_adoptionStands (h4.trans (raise_reports _ _ _ _).adoptionStands) h4
  have h6 : AdoptionStands s s6 := ite_adoptionStands (h5.trans (raise_reports _ _ _ _).adoptionStands) h5
  exact ite_adoptionStands (.rfl' s) (ite_adoptionStands (h6.trans (raise_reports _ _ _ _).adoptionStands) h6)

theorem stopZero_model (h : Chan) : (stopZero h).model = h.model := by
  unfold stopZero
  split <;> rfl

theorem chanWindow_adoptionStands (sense : List SensePair) (c : Nat) (s : State) : AdoptionStands s (chanWindow sense c s) := by
  unfold chanWindow
  refine ite_adoptionStands (modDsp_adoptionStands s c _) ?_
  extract_lets s1 d f base a fed fedX d1 n0 ran s2 mode plays vt us holds rs n fi done out outLess vr final d2 hold s3 sats s4 add
  have h1 : AdoptionStands s s1 := ((gatherWindow_adoptionStands sense c s).trans (modelWindow_adoptionStands sense c _)).trans
    (modChan_adoptionStands _ c fun v => by rw [stopZero_model]; exact SameParams.rfl' _)
  have h2 : AdoptionStands s s2 := h1.trans (modDsp_adoptionStands s1 c _)
  have h3 : AdoptionStands s s3 := h2.trans (modChan_adoptionStands s2 c fun v => by
    dsimp only
    split
    · exact SameParams.rfl' _
    · exact ⟨rfl, rfl, rfl, rfl⟩)
  have h4 : AdoptionStands s s4 :=
    ite_adoptionStands ((h3.trans (count_reports _ _ s3).adoptionStands).trans (raiseHeld_reports _ _ _ _ _ _).adoptionStands) h3
  have hadd : ∀ k n u, AdoptionStands s u → AdoptionStands s (add k n u) := fun k n u hu => ite_adoptionStands hu (hu.trans (count_reports _ _ u).adoptionStands)
  exact hadd _ _ _ (hadd _ _ _ (hadd _ _ _ h4))

theorem windowTracked_adoptionStands (s : State) : AdoptionStands s (windowTracked s) := by
  have hrails : AdoptionStands s (forUnits 12 trackRail s) := by
    rw [forUnits_trackRail_eq]
    exact .of_eq rfl rfl
  have hstages : AdoptionStands (forUnits 12 trackRail s) (forUnits 4 stageBlock (forUnits 12 trackRail s)) := by
    have h := forUnits_stageBlock_stages (forUnits 12 trackRail s)
    exact .of_eq (by rw [h]) (by rw [h])
  have hdigest : ∀ u, AdoptionStands u (formDigest u) := fun u => ite_adoptionStands ⟨rfl, rfl, fun _ => SameParams.rfl' _⟩ (.rfl' u)
  exact (hrails.trans hstages).trans (hdigest _)

theorem windowEnded_adoptionStands (s : State) : AdoptionStands s (windowEnded s) := by
  have h := sourceCheck_reports { s with
    media := { s.media with index := s.media.index + 8 }
    misc := { s.misc with senseFifo := [], muteState := if s.misc.muteState = 3 ∧ riseDone s then 0 else s.misc.muteState } }
  unfold windowEnded
  exact .of_eq (by rw [h]) (by rw [h])

/-! ### The adoption -/

/-- The parameters of a model are those of a shadow. -/
def HasShadow (w : Shadow) (m : Model) : Prop := m.re25 = w.re ∧ m.bl0 = w.bl0 ∧ m.fs = w.fs ∧ m.qms = w.qms

theorem HasShadow.stands {w : Shadow} {a b : Model} (h : HasShadow w a) (k : SameParams a b) : HasShadow w b := by
  obtain ⟨hre, hbl, hfs, hqms⟩ := h
  obtain ⟨kre, kbl, kfs, kqms⟩ := k
  exact ⟨kre.trans hre, kbl.trans hbl, kfs.trans hfs, kqms.trans hqms⟩

theorem adoptOne_self {c : Nat} (hc : c < 208) {s : State} {w : Shadow} (h : (s.chan c).share.shadow = some w) :
    HasShadow w ((adoptOne c s).chan c).model ∧ ((adoptOne c s).chan c).share = (s.chan c).share := by
  unfold adoptOne
  simp only [h]
  rw [chan_modModel_self _ _ hc]
  exact ⟨⟨rfl, rfl, rfl, rfl⟩, rfl⟩

theorem adoptOne_other {c k : Nat} (hk : k ≠ c) (s : State) : (adoptOne c s).chan k = s.chan k := by
  unfold adoptOne
  split
  · exact chan_modChan_other s _ hk
  · rfl

/-- A channel that holds a shadow has its parameters. -/
def Adopted (c : Nat) (s : State) : Prop := c < 208 → ∀ w, (s.chan c).share.shadow = some w → HasShadow w (s.chan c).model

theorem adoptOne_adopted (c : Nat) (s : State) : Adopted c (adoptOne c s) := by
  intro hc w h
  cases hshadow : (s.chan c).share.shadow with
  | none =>
    have hsame : adoptOne c s = s := by
      unfold adoptOne
      simp only [hshadow]
    rw [hsame, hshadow] at h
    cases h
  | some v =>
    obtain ⟨hmodel, hshare⟩ := adoptOne_self hc hshadow
    rw [hshare, hshadow] at h
    exact Option.some.inj h ▸ hmodel

theorem adoptOne_keeps (c : Nat) {k : Nat} {s : State} (h : Adopted k s) : Adopted k (adoptOne c s) := by
  by_cases hk : k = c
  · subst hk
    exact adoptOne_adopted k s
  · unfold Adopted
    rw [adoptOne_other hk]
    exact h

/-- Once every modelled channel's shadow has come, the adoption is over and each of these channels has its shadow's parameters. -/
theorem adopt_all {s : State} (hdue : s.twin.adoptDue = true) (hall : (modelledChans s.cfg.active).all (fun c => s.twin.adoptGot.contains c) = true) :
    (adopt s).twin.adoptDue = false ∧ (adopt s).twin.adoptGot = [] ∧
    ∀ (c : Nat) (w : Shadow), c ∈ modelledChans s.cfg.active → ((adopt s).chan c).share.shadow = some w → HasShadow w ((adopt s).chan c).model := by
  unfold adopt
  extract_lets l twin s1
  rw [if_pos (by simp only [hdue, Bool.true_and]; exact hall)]
  have hone : ∀ c u, (adoptOne c u).twin = u.twin := fun c u => by
    unfold adoptOne
    split <;> rfl
  have hended : s1.twin.adoptDue = false ∧ s1.twin.adoptGot = [] :=
    forList_invariant (P := fun t => t.twin.adoptDue = false ∧ t.twin.adoptGot = []) (fun c u h => by rw [hone]; exact h) l ⟨rfl, rfl⟩
  have hmodels : ∀ c ∈ l, Adopted c s1 := fun c hmem =>
    forList_each (Q := Adopted) adoptOne_adopted (fun c k u hq => adoptOne_keeps c hq) hmem _
  have hreports : Reports s1 (if s.twin.adoptRaise = true then s1.raise 0x400D 0 [] else s1) :=
    ite_reports (raise_reports _ _ _ _) (Reports.rfl' s1)
  obtain ⟨kdue, kgot, -⟩ := hreports.adoptionStands
  refine ⟨kdue.trans hended.1, kgot.trans hended.2, fun c w hmem h => ?_⟩
  rw [hreports.chan] at h ⊢
  exact hmodels c hmem (List.mem_range.mp (List.mem_of_mem_filter hmem)) w h

/-! ### The window as a whole -/

/-- Up to the adoption a window leaves what it reads: the configuration, the pair's state of the adoption, and the shadows. -/
theorem beforeAdoption (s : State) : (forUnits 4 tdmBlock (forUnits 32 streamBlock (windowBegun (blockPasses s)))).cfg = s.cfg ∧
    (forUnits 4 tdmBlock (forUnits 32 streamBlock (windowBegun (blockPasses s)))).twin.adoptDue = s.twin.adoptDue ∧
    (forUnits 4 tdmBlock (forUnits 32 streamBlock (windowBegun (blockPasses s)))).twin.adoptGot = s.twin.adoptGot ∧
    ∀ c, ((forUnits 4 tdmBlock (forUnits 32 streamBlock (windowBegun (blockPasses s)))).chan c).share.shadow = (s.chan c).share.shadow := by
  have hmutes := windowBegun_mutes (blockPasses s)
  have hwindowed : ∀ m, Windowed m (forUnits 4 tdmBlock (forUnits 32 streamBlock m)) := fun m =>
    forUnits_invariant (P := Windowed m) (fun x u h => h.trans (tdmBlock_windowed x u)) 4
      (forUnits_invariant (P := Windowed m) (fun st u h => h.trans (streamBlock_windowed st u)) 32 (Windowed.rfl' m))
  have hstands : ∀ m, AdoptionStands m (forUnits 4 tdmBlock (forUnits 32 streamBlock m)) := fun m =>
    forUnits_invariant (P := AdoptionStands m) (fun x u h => h.trans (tdmBlock_adoptionStands x u)) 4
      (forUnits_invariant (P := AdoptionStands m) (fun st u h => h.trans (streamBlock_adoptionStands st u)) 32 (.rfl' m))
  obtain ⟨hdue, hgot, -⟩ := hstands (windowBegun (blockPasses s))
  refine ⟨?_, hdue.trans (by rw [hmutes.1]; rfl), hgot.trans (by rw [hmutes.1]; rfl), fun c => ?_⟩
  · rw [(hwindowed _).1, hmutes.1]
    rfl
  · obtain ⟨-, -, -, hmark⟩ := (hwindowed (windowBegun (blockPasses s))).2 c
    obtain ⟨-, -, -, -, hshare⟩ := hmutes.2 c
    rw [hmark]
    show ((windowBegun (blockPasses s)).chan c).share.shadow = _
    rw [hshare, blockPasses_chan]

/-- After the adoption a window leaves what it has set, and the shadows. -/
theorem afterAdoption (pairs : List SensePair) (m : State) :
    AdoptionStands (adopt (forUnits 4 tdmBlock (forUnits 32 streamBlock m))) (windowEnded (windowTracked (windowPlayed pairs m))) := by
  unfold windowPlayed
  refine AdoptionStands.trans ?_ ((windowTracked_adoptionStands _).trans (windowEnded_adoptionStands _))
  refine forUnits_invariant (P := AdoptionStands _) (fun c u h => h.trans (chanWindow_adoptionStands pairs c u)) 208 ?_
  exact foldl_invariant (P := AdoptionStands _) (fun u p h => (h.trans (keepSense_adoptionStands u p)).trans (addEnergy_adoptionStands _ p)) pairs (.rfl' _)

/-- A window that begins with every shadow there ends the adoption, and each modelled channel has its shadow's parameters. -/
theorem windowOf_adopts (pairs : List SensePair) {s : State} (hdue : s.twin.adoptDue = true)
    (hall : (modelledChans s.cfg.active).all (fun c => s.twin.adoptGot.contains c) = true) :
    (windowOf pairs s).twin.adoptDue = false ∧ (windowOf pairs s).twin.adoptGot = [] ∧
    ∀ (c : Nat) (w : Shadow), c ∈ modelledChans s.cfg.active → (s.chan c).share.shadow = some w → HasShadow w ((windowOf pairs s).chan c).model := by
  obtain ⟨bcfg, bdue, bgot, bshadow⟩ := beforeAdoption s
  have hafter := afterAdoption pairs (windowBegun (blockPasses s))
  generalize forUnits 4 tdmBlock (forUnits 32 streamBlock (windowBegun (blockPasses s))) = m at bcfg bdue bgot bshadow hafter
  obtain ⟨kdue, kgot, kmodels⟩ := adopt_all (s := m) (bdue.trans hdue) (by rw [bcfg, bgot]; exact hall)
  obtain ⟨adue, agot, amodels⟩ := hafter
  refine ⟨adue.trans kdue, agot.trans kgot, fun c w hmem hw => ?_⟩
  have hmark := ((adopt_windowed m).2 c).2.2.2
  have hshadow : ((adopt m).chan c).share.shadow = some w := by
    rw [hmark]
    exact (bshadow c).trans hw
  exact (kmodels c w (by rw [bcfg]; exact hmem) hshadow).stands (amodels c)

end Sys2Proof.Machine
end

section
/-! PROOFS. The EPOCH and TIME frames (R362, R367, R368, R378, R379, Table 14.10). -/

namespace Sys2Proof.Machine

/-! ### The EPOCH frame -/

/-- The proposal that an EPOCH frame carries. -/
def epochProposal (b : List Byte) : Proposal :=
  ⟨leAt b 0 4, leAt b 4 4, if leAt b 8 8 = 0xFFFFFFFFFFFFFFFF then none else some (leAt b 8 8), leAt b 16 1, leAt b 20 8⟩

/-- The own proposal of the epoch of `p` is open. -/
def OwnOpen (t : Twin) (p : Proposal) : Prop := ∃ a : Proposal, t.own = some a ∧ a.epoch = p.epoch ∧ a.state ≠ 2

/-- What an EPOCH frame is judged by: the partner has abandoned its proposal, and no own one of that epoch is open. -/
theorem takeEpoch_eq (f : Fz) (s : State) : takeEpoch f s =
    if (epochProposal f.body).state = 2 ∧ !(s.twin.own.any fun a => a.epoch == (epochProposal f.body).epoch && a.state != 2) then
      { s with twin := { s.twin with theirs := none } }
    else judgeProposals { s with twin := { s.twin with theirs := some (epochProposal f.body) } } := rfl

theorem ownOpen_iff (t : Twin) (p : Proposal) : (t.own.any fun a => a.epoch == p.epoch && a.state != 2) = true ↔ OwnOpen t p := by
  unfold OwnOpen
  cases t.own <;> simp

theorem takeEpoch_drops {f : Fz} {s : State} (hstate : (epochProposal f.body).state = 2)
    (h : ∀ a : Proposal, s.twin.own = some a → a.epoch ≠ (epochProposal f.body).epoch ∨ a.state = 2) :
    takeEpoch f s = { s with twin := { s.twin with theirs := none } } := by
  have hnone : ¬ OwnOpen s.twin (epochProposal f.body) := fun ⟨a, hown, hepoch, hopen⟩ => (h a hown).elim (fun hne => hne hepoch) hopen
  rw [← ownOpen_iff, Bool.not_eq_true] at hnone
  rw [takeEpoch_eq, hnone]
  exact if_pos ⟨hstate, rfl⟩

theorem takeEpoch_judges {f : Fz} {s : State} (h : (epochProposal f.body).state ≠ 2 ∨ OwnOpen s.twin (epochProposal f.body)) :
    takeEpoch f s = judgeProposals { s with twin := { s.twin with theirs := some (epochProposal f.body) } } := by
  rw [takeEpoch_eq]
  refine if_neg fun hdrop => ?_
  rcases h with h | h
  · exact h hdrop.1
  · rw [(ownOpen_iff _ _).mpr h] at hdrop
    exact absurd hdrop.2 (by decide)

/-- The banks and the epoch of `s` stand in `t`. -/
def EpochStands (s t : State) : Prop :=
  t.pending = s.pending ∧ t.spi.mem = s.spi.mem ∧ t.sram = s.sram ∧ t.cfg.active = s.cfg.active ∧ t.cfg.pending = s.cfg.pending ∧
  t.twin.epoch = s.twin.epoch

theorem abandonCommit_stands (cause : Nat) (s : State) : EpochStands s (abandonCommit cause s) := by
  obtain ⟨hpending, hmem, hsram⟩ := abandonCommit_frame cause s
  refine ⟨hpending, hmem, hsram, ?_, ?_, ?_⟩
  all_goals
    unfold abandonCommit
    dsimp only
    (repeat' split) <;> simp [commitRecord, commitGone, State.draw]

/-- An abandoned commit is gone; the own proposal says so, and the partner's is no longer held (R368). -/
theorem abandonCommit_proposals (cause : Nat) {s : State} {c : Commit} (h : s.cfg.commit = some c) :
    (abandonCommit cause s).cfg.commit = none ∧ (abandonCommit cause s).twin.own = s.twin.own.map (fun p => { p with state := 2 }) ∧
    (abandonCommit cause s).twin.theirs = none := by
  unfold abandonCommit
  rw [h]
  dsimp only
  split <;> simp [commitRecord, commitGone, State.draw]

theorem requestStop_touches (c : Nat) (restart : Bool) (s : State) : Touches s (requestStop c restart s) := (requestStop_touchesChan c restart s).1

theorem stopForUnit_touches (u : CUnit) (s : State) : Touches s (stopForUnit u s) := by
  have hended : Touches s (endForUnit u s) := abortTests_touches _ _ _
  have hstopped : ∀ (p : Nat → State → Bool) (v : State), Touches v (forUnits 208 (fun c s => if p c s then requestStop c true s else s) v) := fun p v =>
    forUnits_touches (fun c t => by
      split
      · exact requestStop_touches c true t
      · exact Touches.rfl' t) 208 v
  unfold stopForUnit
  extract_lets t a b s1
  have h1 : Touches s s1 := hended.trans (hstopped (fun c s => restartsChan a b u c && !stillFor s u c) _)
  split
  · split
    · exact h1.trans (modRail_touches _ _ _)
    · exact h1
  · exact h1

theorem stopForUnits_touches (l : List UnitPlan) (s : State) : Touches s (l.foldl (fun s u => stopForUnit u.unit s) s) :=
  foldl_touches (fun s u => stopForUnit_touches u.unit s) l s

/-- An agreement sets the first block of the commit and stops what restarts, and nothing else of the commit, the banks and the pair. -/
theorem agreeCommit_cases (s : State) : agreeCommit s = s ∨ ∃ g : Commit → Commit, Touches (modCommit g s) (agreeCommit s) := by
  unfold agreeCommit
  split
  · split
    · exact .inr ⟨_, stopForUnits_touches _ _⟩
    · exact .inl rfl
  · exact .inl rfl

theorem agreeCommit_stands (s : State) : EpochStands s (agreeCommit s) := by
  rcases agreeCommit_cases s with hsame | ⟨g, htouches⟩
  · rw [hsame]
    exact ⟨rfl, rfl, rfl, rfl, rfl, rfl⟩
  · rw [htouches]
    exact ⟨rfl, rfl, rfl, rfl, rfl, rfl⟩

theorem judgeProposals_stands (s : State) : EpochStands s (judgeProposals s) := by
  unfold judgeProposals
  split
  · exact abandonCommit_stands _ s
  · exact agreeCommit_stands s

theorem takeEpoch_stands (f : Fz) (s : State) : EpochStands s (takeEpoch f s) := by
  rw [takeEpoch_eq]
  split
  · exact ⟨rfl, rfl, rfl, rfl, rfl, rfl⟩
  · exact judgeProposals_stands { s with twin := { s.twin with theirs := some (epochProposal f.body) } }

/-- Two armed proposals of one epoch and one digest give the commit its first block (R367). -/
theorem agreeCommit_agrees {s : State} {c : Commit} {a p : Proposal} (hcommit : s.cfg.commit = some c) (hown : s.twin.own = some a)
    (htheirs : s.twin.theirs = some p) (hepoch : a.epoch = p.epoch) (hdigest : a.digest = p.digest) (harmed : a.state = 1) (hpartner : p.state = 1)
    (hmine : c.epoch = some a.epoch) (hfirst : c.k0 = none) :
    (agreeCommit s).cfg.commit.bind (·.k0) = some (agreedBlock (s.nat 0x08 0 2) a p) ∧ (agreeCommit s).twin.theirs = some p := by
  have hagreed : agreed? s.twin = some (a, p) := by
    unfold agreed?
    rw [hown, htheirs]
    exact if_pos ⟨hepoch, hdigest, harmed, hpartner⟩
  unfold agreeCommit
  rw [hcommit, hagreed]
  dsimp only
  rw [if_pos ⟨hmine, hfirst⟩, stopForUnits_touches, modCommit_some hcommit]
  exact ⟨rfl, htheirs⟩

/-- Without a commit no proposal changes anything. -/
theorem judgeProposals_idle {s : State} (h : s.cfg.commit = none) : judgeProposals s = s := by
  unfold judgeProposals abandonCommit agreeCommit
  rw [h]
  split <;> rfl

/-- A clash of the proposals ends the commit in progress. -/
theorem judgeProposals_clashes {s : State} {c : Commit} {cause : Nat} (hcommit : s.cfg.commit = some c) (h : clash? s.twin = some cause) :
    (judgeProposals s).cfg.commit = none ∧ (judgeProposals s).twin.own = s.twin.own.map (fun p => { p with state := 2 }) ∧
    (judgeProposals s).twin.theirs = none := by
  unfold judgeProposals
  rw [h]
  exact abandonCommit_proposals cause hcommit

/-- The proposals of one epoch, the own one open, clash where the partner's is abandoned or has another digest, and only there (R368). -/
theorem clash?_open {t : Twin} {a p : Proposal} (hown : t.own = some a) (htheirs : t.theirs = some p) (hepoch : a.epoch = p.epoch)
    (hstate : a.state ≠ 2) : clash? t = if p.state = 2 then some 3 else if a.digest ≠ p.digest then some 2 else none := by
  unfold clash?
  rw [hown, htheirs]
  exact if_neg (by simp [hepoch, hstate])

/-! ### The TIME frame -/

/-- What a pause of sharing leaves of the pair's state. -/
def TimeStands (a b : Twin) : Prop :=
  b.t1Last = a.t1Last ∧ b.t2Last = a.t2Last ∧ b.role = a.role ∧ b.offset = a.offset

theorem TimeStands.rfl' (a : Twin) : TimeStands a a := ⟨rfl, rfl, rfl, rfl⟩

theorem chan_map (s : State) (f : Chan → Chan) {c : Nat} (hc : c < 208) : ({ s with chans := s.chans.map f } : State).chan c = f (s.chan c) := by
  simp [State.chan, hc]

theorem requestStop_state (c : Nat) (restart : Bool) (s : State) (k : Nat) :
    ((requestStop c restart s).chan k).fsm.state = (s.chan k).fsm.state :=
  modChan_related (R := fun a b => b.fsm.state = a.fsm.state) (fun _ => rfl) (by dsimp only; split <;> rfl) k

theorem unshare_state {c : Nat} (hc : c < 208) (s : State) : ((unshare s).chan c).fsm.state = (s.chan c).fsm.state := by
  simp [unshare, State.chan, hc]

/-- Sharing has paused from `s` to `t`: the pair does not share, and what the TIME frames have set and each channel's state stand. -/
def Paused (s t : State) : Prop :=
  t.twin.effShared = false ∧ t.twin.paused = true ∧ TimeStands s.twin t.twin ∧ ∀ c, c < 208 → (t.chan c).fsm.state = (s.chan c).fsm.state

theorem Paused.stopAll {s t : State} (h : Paused s t) : Paused s (forUnits 208 (requestStop · false) t) := by
  obtain ⟨hshared, hpaused, htime, hstates⟩ := h
  have htouched : Touches t (forUnits 208 (requestStop · false) t) := forUnits_touches (fun c u => requestStop_touches c false u) 208 t
  have htwin : (forUnits 208 (requestStop · false) t).twin = t.twin := by rw [htouched]
  refine ⟨by rw [htwin]; exact hshared, by rw [htwin]; exact hpaused, by rw [htwin]; exact htime, fun c hc => ?_⟩
  exact forUnits_invariant (P := fun u => (u.chan c).fsm.state = (s.chan c).fsm.state) (fun k u hu => (requestStop_state k false u c).trans hu) 208
    (hstates c hc)

/-- A pair whose sharing pauses does not share, and its channels keep their states (R358, R379). -/
theorem judgeMode_paused {s : State} (hlink : s.twin.link = true) (hpaused : s.twin.paused = true) : Paused s (judgeMode s) := by
  have hnever : mayShare s = false := by simp [mayShare, hpaused]
  unfold judgeMode
  rw [if_neg (by simp [hlink])]
  extract_lets now ended s1
  have hnow : now = false := by simp [now, hnever]
  have h1 : Paused s s1 := ⟨rfl, hpaused, ⟨rfl, rfl, rfl, rfl⟩, fun c hc => unshare_state hc _⟩
  split
  · rename_i hsame
    exact ⟨hsame.symm.trans hnow, hpaused, ⟨rfl, rfl, rfl, rfl⟩, fun _ _ => rfl⟩
  rw [if_neg (by simp [hnow])]
  split
  · exact h1.stopAll
  · exact h1

/-- A pause of sharing ends it, and on a FOLLOW every channel is dropped (R379). -/
theorem pauseSharing_pauses {s : State} (hshared : s.cfgShared = true) (hrunning : s.twin.paused = false) (hlink : s.twin.link = true) :
    (pauseSharing s).twin.effShared = false ∧ (pauseSharing s).twin.paused = true ∧ TimeStands s.twin (pauseSharing s).twin ∧
    (s.twin.role = .follow → ∀ c, c < 208 → ((pauseSharing s).chan c).fsm.state = .off) := by
  unfold pauseSharing
  rw [if_neg (by simp [hshared, hrunning])]
  extract_lets paused s1
  split
  · have hraised := raise_fields 0x8008 0 [wordS s.twin.offset] s1
    have hdropped : (dropChannels (s1.raise 0x8008 0 [wordS s.twin.offset])).twin = s1.twin := by
      rw [show dropChannels = allOff from rfl, allOff_eq]
      exact hraised.2.2.2.2.2.2.2.1
    obtain ⟨kshared, kpaused, ktime, kstates⟩ := judgeMode_paused (s := dropChannels (s1.raise 0x8008 0 [wordS s.twin.offset]))
      (by rw [hdropped]; exact hlink) (by rw [hdropped])
    rw [hdropped] at ktime
    exact ⟨kshared, kpaused, ktime, fun _ c hc => (kstates c hc).trans (allOff_chan _ hc)⟩
  · rename_i hrole
    obtain ⟨kshared, kpaused, ktime, -⟩ := judgeMode_paused (s := s1) hlink rfl
    exact ⟨kshared, kpaused, ktime, fun h => absurd h hrole⟩

/-- Where sharing is not configured or has paused, a pause changes nothing. -/
theorem pauseSharing_idle {s : State} (h : s.cfgShared = false ∨ s.twin.paused = true) : pauseSharing s = s := by
  unfold pauseSharing
  exact if_pos (by rcases h with h | h <;> simp [h])

/-- The offset of the partner's time from the four times of a round (R378). -/
def timeOffset (b : List Byte) (t2 : Nat) : Rat :=
  (((((leAt b 16 8 : Nat) : Int) - (leAt b 8 8 : Nat)) - ((t2 : Int) - (leAt b 0 8 : Nat)) : Int) : Rat) / 2

/-- The times of a frame are noted. -/
def timeNoted (b : List Byte) (t2 : Nat) (s : State) : State := { s with twin := { s.twin with t1Last := leAt b 0 8, t2Last := t2 } }

theorem takeTime_alone {f : Fz} {s : State} (t2 : Nat) (h : leAt f.body 8 8 = 0 ∨ s.twin.link = false) : takeTime f t2 s = timeNoted f.body t2 s := by
  unfold takeTime
  exact if_pos (by simpa using h)

/-- With a whole round and the link up, the offset is set, and one above 1 µs pauses sharing. -/
theorem takeTime_round {f : Fz} {s : State} (t2 : Nat) (hround : leAt f.body 8 8 ≠ 0) (hlink : s.twin.link = true) : ∃ g : Option Nat,
    takeTime f t2 s = if 1000 < absRat (timeOffset f.body t2) then
      pauseTime { timeNoted f.body t2 s with twin := { (timeNoted f.body t2 s).twin with offset := timeOffset f.body t2, goodSince := g } }
    else { timeNoted f.body t2 s with twin := { (timeNoted f.body t2 s).twin with offset := timeOffset f.body t2, goodSince := g } } := by
  unfold takeTime
  extract_lets t3 t1e t2e s1 o good s2
  rw [if_neg (by simpa [hlink] using hround)]
  exact ⟨_, rfl⟩

theorem pauseSharing_time {s : State} (hlink : s.twin.link = true) : TimeStands s.twin (pauseSharing s).twin := by
  by_cases hidle : s.cfgShared = false ∨ s.twin.paused = true
  · rw [pauseSharing_idle hidle]
    exact ⟨rfl, rfl, rfl, rfl⟩
  · rw [not_or, Bool.not_eq_false, Bool.not_eq_true] at hidle
    exact (pauseSharing_pauses hidle.1 hidle.2 hlink).2.2.1

/-- What a TIME frame sets in any case. -/
def TimeTaken (b : List Byte) (t2 : Nat) (s t : State) : Prop :=
  t.twin.t1Last = leAt b 0 8 ∧ t.twin.t2Last = t2 ∧ t.twin.role = s.twin.role

/-- A whole round with the link up sets the offset; within 1 µs it changes neither channel nor pause, beyond it a configured SHARED side that
has not paused does so. -/
theorem takeTime_linked {f : Fz} {s : State} (t2 : Nat) (hround : leAt f.body 8 8 ≠ 0) (hlink : s.twin.link = true) :
    TimeTaken f.body t2 s (takeTime f t2 s) ∧ (takeTime f t2 s).twin.offset = timeOffset f.body t2 ∧
    (absRat (timeOffset f.body t2) ≤ 1000 → (takeTime f t2 s).chans = s.chans ∧ (takeTime f t2 s).twin.paused = s.twin.paused) ∧
    (1000 < absRat (timeOffset f.body t2) → s.cfgShared = true → s.twin.paused = false →
      (takeTime f t2 s).twin.paused = true ∧ (takeTime f t2 s).twin.effShared = false ∧
      (s.twin.role = .follow → ∀ c : Nat, c < 208 → ((takeTime f t2 s).chan c).fsm.state = .off)) := by
  obtain ⟨g, htake⟩ := takeTime_round t2 hround hlink
  rw [htake]
  by_cases hfar : 1000 < absRat (timeOffset f.body t2)
  · rw [if_pos hfar]
    unfold pauseTime
    dsimp only
    have hup : ∀ n, ({ timeNoted f.body t2 s with twin := { (timeNoted f.body t2 s).twin with
        offset := timeOffset f.body t2, goodSince := n } } : State).twin.link = true := fun _ => hlink
    obtain ⟨h1, h2, hrole, hoffset⟩ := pauseSharing_time (hup none)
    refine ⟨⟨h1, h2, hrole⟩, hoffset, fun hnear => absurd hfar (not_lt.mpr hnear), fun _ hshared hrunning => ?_⟩
    obtain ⟨kshared, kpaused, -, kstates⟩ := pauseSharing_pauses (s := { timeNoted f.body t2 s with twin := { (timeNoted f.body t2 s).twin with
      offset := timeOffset f.body t2, goodSince := none } }) hshared hrunning hlink
    exact ⟨kpaused, kshared, kstates⟩
  · rw [if_neg hfar]
    exact ⟨⟨rfl, rfl, rfl⟩, rfl, fun _ => ⟨rfl, rfl⟩, fun h => absurd h hfar⟩

theorem takeTime_taken (f : Fz) (t2 : Nat) (s : State) : TimeTaken f.body t2 s (takeTime f t2 s) := by
  by_cases halone : leAt f.body 8 8 = 0 ∨ s.twin.link = false
  · rw [takeTime_alone t2 halone]
    exact ⟨rfl, rfl, rfl⟩
  · rw [not_or, Bool.not_eq_false] at halone
    exact (takeTime_linked t2 halone.1 halone.2).1

end Sys2Proof.Machine

open Sys2Proof Sys2Proof.Machine

/-- Settles O49: a wrong frame by its one answer, a correct one by what its type makes of the state. The join mark of 48 blocks, its start with the next
own block and the starter's mark in the block before the one that the frame names are the model's reading of R375 (notes/assumptions/57.md,
notes/assumptions/68.md). -/
theorem fikezoFramesAreTaken : Obligations.FikezoFramesAreTaken := by
  intro s hlive hheld haction
  have hexec := exec_frames hlive hheld haction
  refine ⟨?wrong, ?sampleDown, ?sample, ?block, ?model, ?adoption, ?daymark, ?epoch, ?time⟩
  case wrong =>
    intro l t2
    obtain ⟨hsample, hblock, hmodel, hbeacon, hepoch, htime⟩ := hexec l t2
    rw [hsample, hblock, hmodel, hbeacon, hepoch, htime]
    refine ⟨fun h => ?_, fun h => ?_, fun h => ?_, fun h => ⟨_, rfl, ?_⟩, fun h => ?_, fun h => ?_⟩
    all_goals rw [fzPass_wrong h]
    case refine_4 => rfl
    all_goals rw [badFrame_counts (by decide)]
  case sampleDown =>
    intro l f hframe hlink
    rw [(hexec l 0).1, (fzPass_taken l f 0 s).1 hframe, takeSample, if_pos (by simp [hlink])]
  case sample =>
    intro l f hframe hlink
    refine ⟨_, (hexec l 0).1, ?_⟩
    rw [(fzPass_taken l f 0 s).1 hframe]
    obtain ⟨hrails, hmuted, halone⟩ := takeSample_fields (f := f) hlink
    refine ⟨takeSample_frame f s, hrails, hmuted, halone, fun c hc => ?_⟩
    obtain ⟨hshare, hdrives, hsingle, hboth⟩ := takeSample_chan (f := f) hlink hc
    exact ⟨hshare, hdrives, hsingle, fun own hshares harmed => hboth own hshares (beq_iff_eq.mp harmed)⟩
  case block =>
    intro l f hframe
    refine ⟨_, (hexec l 0).2.1, ?_⟩
    rw [(fzPass_taken l f 0 s).2.1 hframe]
    refine ⟨takeBlock_eq f s, fun r hr => takeBlock_rail hr f s, fun d hd => takeBlock_dsd hd f s, fun c hc => ?_⟩
    rw [takeBlock_chan hc, markFor_eq]
    refine ⟨rfl, fun hown hmark => markBegun_own hown hmark _ _, fun hjoin hstate hfresh hbit hmark =>
      markBegun_starter hjoin hstate hfresh hbit hmark _ _ _, ?_⟩
    unfold blockTaken
    rw [markBegun_eq]
  case model =>
    intro l f hframe
    refine ⟨_, (hexec l 0).2.2.1, ?_⟩
    rw [(fzPass_taken l f 0 s).2.2.1 hframe]
    obtain ⟨hstate, hchans⟩ := takeModel_shadowsOnly f s
    refine ⟨takeModel_frame f s, fun i hi h => ?_, hstate, fun c _ => hchans c⟩
    obtain ⟨hshadow, htime⟩ := takeModel_shadow hi h s
    exact ⟨hshadow, htime.trans (by rw [hstate])⟩
  case adoption =>
    intro sense hlocked hruns hdue hall
    exact ⟨_, exec_dspWindow_playing sense hlocked hruns, windowOf_adopts _ hdue hall⟩
  case daymark =>
    intro l f hframe hbad
    refine ⟨_, (hexec l 0).2.2.2.1, ?_⟩
    rw [(fzPass_taken l f 0 s).2.2.2.1 hframe, takeFzBeacon_bad hbad]
  case epoch =>
    intro l f p hframe hp
    refine ⟨_, (hexec l 0).2.2.2.2.1, ?_⟩
    rw [(fzPass_taken l f 0 s).2.2.2.2.1 hframe]
    have hp : p = epochProposal f.body := hp
    obtain ⟨hpending, hmem, hsram, hactive, hbank, hepoch⟩ := takeEpoch_stands f s
    refine ⟨hpending, hmem, hsram, hactive, hbank, hepoch, fun hgone hnone => ?_, fun hheld hidle => ?_, fun c a hcommit hown hsame hopen => ?_⟩
    · refine takeEpoch_drops (hp ▸ hgone) fun a hown => ?_
      exact hp ▸ hnone a hown
    · rw [takeEpoch_judges (hp ▸ hheld), hp]
      exact judgeProposals_idle hidle
    · rw [takeEpoch_judges (hp ▸ .inr ⟨a, hown, hsame, hopen⟩), ← hp]
      have hclash := clash?_open (t := { s.twin with theirs := some p }) hown rfl hsame hopen
      refine ⟨fun hends => ?_, fun harmed hpartner hdigest hmine hfirst => ?_⟩
      · have hcause : ∃ cause, clash? { s.twin with theirs := some p } = some cause := by
          rw [hclash]
          split
          · exact ⟨3, rfl⟩
          · rename_i hstands
            exact ⟨2, if_pos (hends.resolve_left hstands)⟩
        obtain ⟨cause, hcause⟩ := hcause
        obtain ⟨kcommit, kown, ktheirs⟩ := judgeProposals_clashes (s := { s with twin := { s.twin with theirs := some p } }) hcommit hcause
        exact ⟨kcommit, kown.trans (by rw [hown]; rfl), ktheirs⟩
      · have hagree : judgeProposals { s with twin := { s.twin with theirs := some p } } = agreeCommit { s with twin := { s.twin with theirs := some p } } := by
          unfold judgeProposals
          rw [hclash, if_neg (by simp [hpartner]), if_neg (not_not.mpr hdigest)]
        rw [hagree]
        exact agreeCommit_agrees hcommit hown rfl hsame hdigest harmed hpartner hmine hfirst
  case time =>
    intro l f t2 hframe
    refine ⟨_, (hexec l t2).2.2.2.2.2, ?_⟩
    rw [(fzPass_taken l f t2 s).2.2.2.2.2 hframe]
    obtain ⟨h1, h2, hrole⟩ := takeTime_taken f t2 s
    refine ⟨takeTime_frame f t2 s, h1, h2, hrole, takeTime_alone t2, fun o hround hlink ho => ?_⟩
    subst ho
    exact (takeTime_linked t2 hround hlink).2

end

section
/-! PROOFS. What a hard stop does in each state of a channel (R266, R272, R273, R310, R326). -/

namespace Sys2Proof.Machine

/-- The state machine of a channel as FAULT begins (R272). -/
def Fsm.faulted (code : Nat) (hold : Bridge) (f : Fsm) : Fsm :=
  { f with state := .fault, bridge := hold, stop := .none, code := code, relayWant := false, diagStep := 0, admitted := false, restart := false }

theorem faultStart_own {c : Nat} (code : Nat) (data : List Word) (hc : c < 208) (s : State) :
    ((faultStart c code data s).chan c).fsm = (s.chan c).fsm.faulted code (holdFor s c) ∧
    ((faultStart c code data s).chan c).model = (s.chan c).model := by
  have hnote : Touches s (if (s.chan c).fsm.state = .diag then noteDiag c code s else s) ∧
      SamePins s (if (s.chan c).fsm.state = .diag then noteDiag c code s else s) ∧
      (if (s.chan c).fsm.state = .diag then noteDiag c code s else s).chan c = s.chan c := by
    split <;> exact ⟨rfl, rfl, rfl⟩
  unfold faultStart
  generalize (if (s.chan c).fsm.state = .diag then noteDiag c code s else s) = u at hnote ⊢
  obtain ⟨htouch, hpins, hchan⟩ := hnote
  obtain ⟨x, hx⟩ := idleEnds_chan_self u hc
  have hhold : holdFor (idleEnds c u) c = holdFor s c :=
    holdFor_touches c (htouch.trans (idleEnds_touchesChan c u).1) (hpins.trans (idleEnds_pins c u))
  rw [(raise_reports _ _ _ _).chan, chan_life, chan_modChan_self _ _ hc, maskDue_chan, hx, hchan, hhold]
  exact ⟨rfl, rfl⟩

/-- What a channel that enters FAULT keeps of its state machine, but for what a forced test held (R272, R407). -/
theorem enterFault_fsm {c : Nat} (code : Nat) (data : List Word) (hc : c < 208) (s : State) :
    SameFsm ((s.chan c).fsm.faulted code (holdFor s c)) ((enterFault c code data s).chan c).fsm := by
  rw [← (faultStart_own code data hc s).1]
  exact abortTests_sameFsm _ _ _ c

/-- The model of a channel goes on in FAULT (R224). -/
theorem enterFault_model {c : Nat} (code : Nat) (data : List Word) (hc : c < 208) (s : State) :
    ((enterFault c code data s).chan c).model = (s.chan c).model := by
  obtain ⟨-, -, -, -, -, hmodel, -⟩ := (abortTests_steady (preparing s c) 0xA012 (faultStart c code data s)).1 c
  exact hmodel.trans (faultStart_own code data hc s).2

/-- A further cause in FAULT or RETEST: the bridge is held, and only a code that is not re-testable takes the place of a re-testable one
(R326). -/
theorem faultAgain_fsm {c : Nat} (code : Nat) (data : List Word) (hc : c < 208) (s : State) :
    ((faultAgain c code data s).chan c).fsm.state = .fault ∧ ((faultAgain c code data s).chan c).fsm.bridge = holdFor s c ∧
    ((faultAgain c code data s).chan c).fsm.code =
      (if retestable code = false ∧ retestable (s.chan c).fsm.code = true then code else (s.chan c).fsm.code) := by
  have hleave : ∀ u : State, ((if (s.chan c).fsm.state = .retest then u.modShare c Share.leave else u).chan c).fsm = (u.chan c).fsm := fun u => by
    split
    · rw [chan_modShare_self _ _ hc]
    · rfl
  have hbase : (if (s.chan c).fsm.state = .retest then
        noteDiag c code (maskDue c ((s.count (chanStat c 0x10A) 1).life (chanStat c 0x183) 1)) else s.count (chanStat c 0x10A) 1).chan c = s.chan c := by
    split
    · rw [noteDiag_chan, maskDue_chan, chan_life, chan_count]
    · rfl
  have hraise : ∀ u : State, (if retestable code then u else u.raise code c data).chan c = u.chan c := fun u => by
    split
    · rfl
    · exact (raise_reports _ _ _ _).chan c
  unfold faultAgain
  dsimp only
  rw [hraise, hleave, chan_modFsm_self _ _ hc, hbase]
  refine ⟨rfl, rfl, ?_⟩
  simp

/-- A re-testable cause in FAULT or RETEST is counted as suppressed and raises nothing (R326). -/
theorem faultAgain_suppressed {c code : Nat} (data : List Word) (s : State) (h : retestable code = true) :
    (faultAgain c code data s).counters = (s.count (chanStat c 0x10A) 1).counters ∧ (faultAgain c code data s).log = s.log := by
  unfold faultAgain
  dsimp only
  rw [if_pos h, maskDue_eq]
  split <;> exact ⟨rfl, rfl⟩

theorem hardStop_off {c code : Nat} {data : List Word} {s : State} (h : (s.chan c).fsm.state = .off) : hardStop c code data s = s := by
  rw [hardStop, if_pos h]

theorem hardStop_driving {c code : Nat} {data : List Word} {s : State} (hoff : (s.chan c).fsm.state ≠ .off) (hfault : (s.chan c).fsm.state ≠ .fault)
    (hretest : (s.chan c).fsm.state ≠ .retest) : hardStop c code data s = enterFault c code data s := by
  rw [hardStop, if_neg hoff, if_neg (not_or.mpr ⟨hfault, hretest⟩)]

theorem hardStop_faulted_again {c code : Nat} {data : List Word} {s : State} (h : (s.chan c).fsm.state = .fault ∨ (s.chan c).fsm.state = .retest) :
    hardStop c code data s = faultAgain c code data s := by
  have hoff : (s.chan c).fsm.state ≠ .off := by rcases h with h | h <;> simp [h]
  rw [hardStop, if_neg hoff, if_pos h]

end Sys2Proof.Machine
open Sys2Proof Sys2Proof.Machine

/-- Settles O56: nothing in OFF, FAULT from a state that drives or is on its way to it, a suppressed cause in FAULT and RETEST. -/
theorem hardStopsActByState : Obligations.HardStopsActByState := by
  intro c code data s hc
  refine ⟨hardStop_off, fun hoff hfault hretest => ?_, fun hfaulted => ?_⟩
  · rw [hardStop_driving hoff hfault hretest]
    have hfsm := enterFault_fsm code data hc s
    exact ⟨enterFault_faulted code data s hc, by rw [hfsm]; rfl, by rw [hfsm]; rfl, by rw [hfsm]; rfl, enterFault_model code data hc s⟩
  · rw [hardStop_faulted_again hfaulted]
    obtain ⟨hstate, hbridge, hcode⟩ := faultAgain_fsm code data hc s
    exact ⟨(faultAgain_touchesChan c code data s).drives, hstate, hbridge, hcode, faultAgain_suppressed data s⟩
end

section
/-! PROOFS. A channel from OFF through its tests and its precharge to IDLE (R264, R268, R269, R272, R299, R300, R307, R308, R405, Tables 10.3 and
12.1). -/

namespace Sys2Proof.Machine

/-! ### The start (R272, R303) -/

theorem exec_channelStart {c : Nat} {s : State} (hen : s.enabled c = true) (hstate : (s.chan c).fsm.state = .off)
    (hrestart : (s.chan c).fsm.restart = false) (hdev : s.keeper.dev = .run) (hrail : railUp s c = true)
    (hreleased : (s.dsd (dsdOf c)).released = true) (hlinked : (s.dsd (dsdOf c)).linked = true) (hrole : heldByRole s c = false)
    (hlatch : (latchesOn s.pwm c).isEmpty = true) (hhold : (s.chan c).fsm.holdTest = false) :
    exec (.channelStart c) s = .next (startDiag c s) := by
  show execChannelStart c s = _
  simp [execChannelStart, hen, hstate, hrestart, hdev, hrail, hreleased, hlinked, hrole, hlatch, hhold]

/-- DIAG begins with the calibration to come, under the test of the bridge or, on a joined output, with the bridge open (R272, R375). -/
theorem startDiag_fsm {c : Nat} (hc : c < 208) {s : State} (h : (s.chan c).fsm.coilLatched = 0) :
    ((startDiag c s).chan c).fsm.state = .diag ∧
    ((startDiag c s).chan c).fsm.code = (if (s.chan c).fsm.code = chanCode c 0x44 then chanCode c 0x44 else 0) ∧
    ((startDiag c s).chan c).fsm.diagStep = firstTest s c false ∧
    ((startDiag c s).chan c).fsm.bridge = (if joiner s c then .open else .test) ∧ ((startDiag c s).chan c).fsm.calDone = false := by
  unfold startDiag
  dsimp only
  rw [if_pos h, chan_modChan_self _ _ hc, maskDue_chan]
  refine ⟨rfl, ?_, rfl, rfl, rfl⟩
  exact ite_congr rfl id fun _ => rfl

/-- A code that R311 has latched stops DIAG at once. -/
theorem startDiag_latched {c : Nat} (hc : c < 208) {s : State} (h : (s.chan c).fsm.coilLatched ≠ 0) :
    ((startDiag c s).chan c).fsm.state = .fault ∧ ((startDiag c s).chan c).fsm.code = chanCode c (s.chan c).fsm.coilLatched := by
  unfold startDiag
  dsimp only
  rw [if_neg h]
  obtain ⟨hstate, hcode, -⟩ := enterFault_self (chanCode c (s.chan c).fsm.coilLatched) [wordU (1000 * (s.chan c).fsm.coilRead)] _ hc
  exact ⟨hstate, hcode⟩

/-! ### The offsets of the sense pair (R405) -/

theorem setTests_touchesChan (c : Nat) (x : Tests) (s : State) : TouchesChan c s { s with tests := x } := ⟨rfl, rfl, fun _ _ => rfl⟩

theorem noteCal_touchesChan (c : Nat) (v i : Int) (s : State) : TouchesChan c s (noteCal c v i s) := by
  unfold noteCal
  extract_lets s1 f held
  have h1 : TouchesChan c s s1 := by
    unfold s1
    split
    · exact modDsp_touchesChan s c _
    · exact TouchesChan.rfl' c s
  exact h1.trans (setTests_touchesChan c _ s1)

theorem noteCal_fsm {c : Nat} (hc : c < 208) (v i : Int) (s : State) : ((noteCal c v i s).chan c).fsm = (s.chan c).fsm := by
  unfold noteCal
  extract_lets s1 f held
  show (s1.chan c).fsm = _
  unfold s1
  split
  · rw [chan_modDsp_self _ _ hc]
  · rfl

theorem setOffsets_touchesChan (c : Nat) (v i : Int) (s : State) : TouchesChan c s (setOffsets c v i s) := by
  unfold setOffsets
  extract_lets s1
  have h1 : TouchesChan c s s1 := modFsm_touchesChan s c _
  split
  · exact h1.trans (raiseHeldAs_touchesChan c _ _ _ _ s1).1
  · exact h1

/-- A new offset pair is held within its limits and leaves the state of its channel. -/
theorem setOffsets_fsm {c : Nat} (hc : c < 208) (v i : Int) (s : State) :
    ((setOffsets c v i s).chan c).fsm.calDone = true ∧ ((setOffsets c v i s).chan c).fsm.vOff = clampInt (-offsetMax) offsetMax v ∧
    ((setOffsets c v i s).chan c).fsm.iOff = clampInt (-offsetMax) offsetMax i ∧
    ((setOffsets c v i s).chan c).fsm.state = (s.chan c).fsm.state := by
  have hraise : ∀ (p : Prop) [Decidable p] (u : State) (data : List Word),
      (if p then u.raiseHeldAs (86400 * second) 0xA002 c data else u).chan c = u.chan c := fun p _ u data => by
    split
    · exact raiseHeldAs_chan _ _ _ _ _ u
    · rfl
  unfold setOffsets
  dsimp only
  rw [hraise, chan_modFsm_self _ _ hc]
  exact ⟨rfl, rfl, rfl, rfl⟩

theorem exec_senseOffsetCal {c : Nat} (v i : Int) {s : State} (hstate : (s.chan c).fsm.state = .diag ∨ (s.chan c).fsm.state = .retest)
    (hcal : (s.chan c).fsm.calDone = false) :
    exec (.senseOffsetCal c v i) s = .next (setOffsets c v i (if calTest s c then noteCal c v i s else s)) := by
  show execSenseOffsetCal c v i s = _
  unfold execSenseOffsetCal
  dsimp only
  rw [if_pos (by simp [hstate, hcal])]

/-! ### Tests 2 to 6 (R307, R308, Table 12.1) -/

/-- The low part of the code that the present test of DIAG gives, 0 where it passes (Table 12.1). -/
def testLow (s : State) (c : Nat) (r : TestReading) : Nat :=
  match (s.chan c).fsm.diagStep with
  | 2 => if rOf r ≤ 16 * s.ratv 0x10 c 0x15 then 5 else 0
  | 3 => if 2 ≤ r.nodeA ∨ 2 ≤ r.nodeB then 2 else 0
  | 4 => if r.nodeA < 2 ∨ r.nodeB < 2 then 1 else 0
  | 5 => if 1/2 < absRat (r.legA - r.nodeA) ∨ 1/2 < absRat (r.legB - r.nodeB) then 8 else 0
  | _ => if rOf r < s.ratv 0x10 c 0x15 / 4 then 4 else if 4 * s.ratv 0x10 c 0x15 < rOf r then 3 else 0

/-- The current of test 6 gives full protection back (R308). -/
def fullCurrent (r : TestReading) : Bool := decide (10/1000 ≤ idOf r) && decide (idOf r ≤ 30/1000)

/-- Test 6 has measured its load; its current may give full protection back (R308). -/
def loadMeasured (c : Nat) (r : TestReading) (s : State) : State :=
  let s1 := s.modFsm c fun f => { f with diagR := rOf r }
  if fullCurrent r then leaveVoltageOnly c s1 else s1

/-- Test 6 passes without that current: the voltage alone protects (R320). -/
def loadTaken (c low : Nat) (r : TestReading) (s : State) : State :=
  if low = 0 ∧ fullCurrent r = false then enterVoltageOnly c 1 (loadMeasured c r s) else loadMeasured c r s

/-- The state in which the present test of DIAG is judged. -/
def testBase (s : State) (c : Nat) (r : TestReading) : State := if (s.chan c).fsm.diagStep = 6 then loadTaken c (testLow s c r) r s else s

/-- Test `n` passes, or fails with the low part of a code. -/
def judged (c n low : Nat) (data : List Word) (s : State) : State := if low = 0 then passTest c n s else failTest c (chanCode c low) data s

theorem judged_passed (c n : Nat) (data : List Word) (s : State) : judged c n 0 data s = passTest c n s := rfl
theorem judged_failed {low : Nat} (c n : Nat) (data : List Word) (s : State) (h : low ≠ 0) :
    judged c n low data s = failTest c (chanCode c low) data s := if_neg h

/-- A test with one condition to fail. -/
theorem judged_of_ite {p : Prop} [Decidable p] {low : Nat} (hlow : low ≠ 0) (c n : Nat) (data : List Word) (s : State) :
    (if p then .next (failTest c (chanCode c low) data s) else .next (passTest c n s) : Out State) = .next (judged c n (if p then low else 0) data s) := by
  split
  · rw [judged_failed c n data s hlow]
  · rfl

theorem judged_load {p q : Prop} [Decidable p] [Decidable q] (c : Nat) (r : TestReading) (data : List Word) (s : State) :
    (if p then .next (failTest c (chanCode c 4) data (loadMeasured c r s))
      else if q then .next (failTest c (chanCode c 3) data (loadMeasured c r s))
      else .next (passTest c 6 (if fullCurrent r then loadMeasured c r s else enterVoltageOnly c 1 (loadMeasured c r s))) : Out State) =
    .next (judged c 6 (if p then 4 else if q then 3 else 0) data (loadTaken c (if p then 4 else if q then 3 else 0) r s)) := by
  unfold loadTaken judged
  split
  · rfl
  · split
    · rfl
    · cases fullCurrent r <;> rfl

theorem exec_diagTestComplete {c : Nat} (r : TestReading) {s : State} (hstate : (s.chan c).fsm.state = .diag)
    (hcal : (s.chan c).fsm.calDone = true) (hjoin : (s.chan c).share.joinReq = false) (hrail : railUp s c = true)
    (hclosed : s.flag 0x10 c 0x16 = true → (s.chan c).fsm.diagStep = 3 → (s.chan c).fsm.relayOn = true)
    (hopen : (s.chan c).fsm.diagStep = 2 → (s.chan c).fsm.relayOn = false) (hlo : 2 ≤ (s.chan c).fsm.diagStep)
    (hhi : (s.chan c).fsm.diagStep ≤ 6) :
    ∃ data, exec (.diagTestComplete c r) s = .next (judged c (s.chan c).fsm.diagStep (testLow s c r) data (testBase s c r)) := by
  show ∃ data, execDiagTestComplete c r s = _
  unfold execDiagTestComplete testBase testLow
  dsimp only
  rw [if_pos (by simp [hstate, hcal, hjoin, hrail])]
  obtain hstep | hstep | hstep | hstep | hstep : (s.chan c).fsm.diagStep = 2 ∨ (s.chan c).fsm.diagStep = 3 ∨ (s.chan c).fsm.diagStep = 4 ∨
    (s.chan c).fsm.diagStep = 5 ∨ (s.chan c).fsm.diagStep = 6 := by omega
  all_goals simp only [hstep]
  · rw [if_neg (by simp [hopen hstep])]
    exact ⟨_, judged_of_ite (low := 5) (by decide) c 2 _ s⟩
  · have hrelay : ¬ (s.flag 0x10 c 0x16 && !(s.chan c).fsm.relayOn) = true := by
      cases hfit : s.flag 0x10 c 0x16 with
      | true => simp [hclosed hfit hstep]
      | false => simp
    rw [if_neg hrelay]
    exact ⟨_, judged_of_ite (low := 2) (by decide) c 3 _ s⟩
  · exact ⟨_, judged_of_ite (low := 1) (by decide) c 4 _ s⟩
  · simp only [Bool.or_eq_true, decide_eq_true_eq]
    exact ⟨_, judged_of_ite (low := 8) (by decide) c 5 _ s⟩
  · exact ⟨_, judged_load c r _ s⟩

theorem passTest_touchesChan (c n : Nat) (s : State) : TouchesChan c s (passTest c n s) := modFsm_touchesChan s c _

/-- A test after the first that passes leads to the next. -/
theorem passTest_fsm {c n : Nat} (hc : c < 208) (hn : n ≠ 1) (s : State) :
    ((passTest c n s).chan c).fsm.state = (s.chan c).fsm.state ∧ ((passTest c n s).chan c).fsm.diagStep = n + 1 ∧
    ((passTest c n s).chan c).fsm.bridge = (s.chan c).fsm.bridge ∧ ((passTest c n s).chan c).fsm.voltageOnly = (s.chan c).fsm.voltageOnly := by
  unfold passTest
  rw [chan_modFsm_self _ _ hc]
  exact ⟨rfl, if_neg hn, rfl, rfl⟩

theorem failTest_diag {c : Nat} {code : Nat} {data : List Word} {s : State} (h : (s.chan c).fsm.state = .diag) :
    failTest c code data s = enterFault c code data s := by
  unfold failTest
  rw [if_neg (by simp [h])]

/-- What is measured of a load changes of its channel only the protection and the reading, and nothing of the generators. -/
def Probes (c : Nat) (s t : State) : Prop :=
  TouchesChan c s t ∧ t.pwm = s.pwm ∧ (t.chan c).fsm.state = (s.chan c).fsm.state ∧ (t.chan c).fsm.bridge = (s.chan c).fsm.bridge

theorem Probes.rfl' (c : Nat) (s : State) : Probes c s s := ⟨TouchesChan.rfl' c s, rfl, rfl, rfl⟩

theorem Probes.trans {c : Nat} {s t u : State} (h : Probes c s t) (k : Probes c t u) : Probes c s u := by
  obtain ⟨htouch, hpwm, hstate, hbridge⟩ := h
  obtain ⟨ktouch, kpwm, kstate, kbridge⟩ := k
  exact ⟨htouch.trans ktouch, kpwm.trans hpwm, kstate.trans hstate, kbridge.trans hbridge⟩

theorem enterVoltageOnly_pwm (c case : Nat) (s : State) : (enterVoltageOnly c case s).pwm = s.pwm := by
  unfold enterVoltageOnly
  split
  · rfl
  · rw [(raise_reports _ _ _ _).pwm, (raise_reports _ _ _ _).pwm]
    rfl

theorem enterVoltageOnly_probes {c : Nat} (case : Nat) (hc : c < 208) (s : State) : Probes c s (enterVoltageOnly c case s) := by
  obtain ⟨hfsm, -, -⟩ := enterVoltageOnly_fsm c case s hc
  exact ⟨enterVoltageOnly_touchesChan c case s, enterVoltageOnly_pwm c case s, by rw [hfsm], by rw [hfsm]⟩

theorem leaveVoltageOnly_fsm {c : Nat} (hc : c < 208) (s : State) :
    ((leaveVoltageOnly c s).chan c).fsm = { (s.chan c).fsm with voltageOnly := false } := by
  unfold leaveVoltageOnly
  split
  · rw [chan_modChan_self _ _ hc]
  · rename_i h
    rw [Bool.not_eq_true] at h
    rw [← h]

theorem leaveVoltageOnly_probes {c : Nat} (hc : c < 208) (s : State) : Probes c s (leaveVoltageOnly c s) := by
  refine ⟨?_, ?_, by rw [leaveVoltageOnly_fsm hc], by rw [leaveVoltageOnly_fsm hc]⟩
  · unfold leaveVoltageOnly
    split
    · exact modChan_touchesChan s c _
    · exact TouchesChan.rfl' c s
  · unfold leaveVoltageOnly
    split <;> rfl

theorem loadMeasured_probes {c : Nat} (hc : c < 208) (r : TestReading) (s : State) : Probes c s (loadMeasured c r s) := by
  have hread : Probes c s (s.modFsm c fun f => { f with diagR := rOf r }) :=
    ⟨modFsm_touchesChan s c _, rfl, by rw [chan_modFsm_self _ _ hc], by rw [chan_modFsm_self _ _ hc]⟩
  unfold loadMeasured
  extract_lets s1
  split
  · exact hread.trans (leaveVoltageOnly_probes hc s1)
  · exact hread

theorem testBase_probes {c : Nat} (hc : c < 208) (r : TestReading) (s : State) : Probes c s (testBase s c r) := by
  unfold testBase
  split
  · unfold loadTaken
    split
    · exact (loadMeasured_probes hc r s).trans (enterVoltageOnly_probes 1 hc _)
    · exact loadMeasured_probes hc r s
  · exact Probes.rfl' c s

/-- In test 6 a current of 10 to 30 mA gives full protection back; a test passed without it leaves the voltage alone (R308, R320). -/
theorem testBase_voltageOnly {c : Nat} (hc : c < 208) (r : TestReading) {s : State} (hstep : (s.chan c).fsm.diagStep = 6) :
    (fullCurrent r = true → ((testBase s c r).chan c).fsm.voltageOnly = false) ∧
    (testLow s c r = 0 → fullCurrent r = false → ((testBase s c r).chan c).fsm.voltageOnly = true) := by
  unfold testBase loadTaken
  rw [if_pos hstep]
  refine ⟨fun hfull => ?_, fun hlow hpart => ?_⟩
  · rw [if_neg (by simp [hfull]), loadMeasured, if_pos hfull, leaveVoltageOnly_fsm hc]
  · rw [if_pos ⟨hlow, hpart⟩, (enterVoltageOnly_fsm c 1 _ hc).1]

/-- A judged test of DIAG: the next test, or FAULT with its code. The protection is that of the state in which it was judged. -/
theorem judged_diag {c n low : Nat} {data : List Word} {s u : State} (hc : c < 208) (hn : n ≠ 1) (h : Probes c s u)
    (hstate : (s.chan c).fsm.state = .diag) :
    DrivesChan c s (judged c n low data u) ∧
    ((judged c n low data u).chan c).fsm.voltageOnly = (u.chan c).fsm.voltageOnly ∧
    (low = 0 → ((judged c n low data u).chan c).fsm.state = .diag ∧ ((judged c n low data u).chan c).fsm.diagStep = n + 1 ∧
      ((judged c n low data u).chan c).fsm.bridge = (s.chan c).fsm.bridge) ∧
    (low ≠ 0 → ((judged c n low data u).chan c).fsm.state = .fault ∧ ((judged c n low data u).chan c).fsm.code = chanCode c low ∧
      ((judged c n low data u).chan c).fsm.bridge = holdFor s c) := by
  obtain ⟨htouch, hpwm, hsame, hbridge⟩ := h
  rw [hstate] at hsame
  by_cases hlow : low = 0
  · subst hlow
    obtain ⟨kstate, kstep, kbridge, kvolt⟩ := passTest_fsm hc hn u
    rw [judged_passed]
    exact ⟨(htouch.trans (passTest_touchesChan c n u)).drives, kvolt, fun _ => ⟨kstate.trans hsame, kstep, kbridge.trans hbridge⟩,
      fun h => absurd rfl h⟩
  · rw [judged_failed c n data u hlow, failTest_diag hsame]
    obtain ⟨hdrives, kstate, kcode, kbridge, -⟩ := enterFault_faulted (chanCode c low) data u hc
    rw [holdFor_touches c htouch.1 (.of_eq hpwm)] at kbridge
    refine ⟨htouch.drives.trans hdrives, ?_, fun h => absurd h hlow, fun _ => ⟨kstate, kcode, kbridge⟩⟩
    rw [enterFault_fsm (chanCode c low) data hc u]
    rfl

/-! ### The polarity of the sense pair (R268, R269, Table 10.3) -/

theorem diagDone_touchesChan (c : Nat) (s : State) : TouchesChan c s (diagDone c s) :=
  ((passTest_touchesChan c 7 s).trans (life_touchesChan c _ _ _)).trans (toPrecharge_touchesChan c _)

theorem diagDone_fsm {c : Nat} (hc : c < 208) (s : State) :
    ((diagDone c s).chan c).fsm.state = .precharge ∧ ((diagDone c s).chan c).fsm.diagStep = 9 := by
  unfold diagDone toPrecharge
  rw [chan_modFsm_self _ _ hc]
  exact ⟨rfl, rfl⟩

/-- An undecided polarity faults. -/
theorem exec_polarityCheck_undecided {c : Nat} {v i : Rat} {s : State} (hstate : (s.chan c).fsm.state = .diag)
    (hstep : (s.chan c).fsm.diagStep = 7) (h : polarity (s.chan c).fsm.voltageOnly v i = none) :
    exec (.polarityCheck c v i) s = .next (enterFault c (chanCode c 0xB) [wordS (1000 * v), wordS (1000 * i)] s) := by
  show execPolarityCheck c v i s = _
  simp [execPolarityCheck, hstate, hstep, h]

/-- The state in which a polarity that is as wired passes; one found by a swap is reported. -/
def polarityKept (c : Nat) (s : State) : State :=
  if (s.chan c).fsm.polRepeat then
    s.raise (chanCode c 0xA) c [word (bit (s.chan c).fsm.swapV 0 + bit (s.chan c).fsm.swapI 1)]
  else s

theorem polarityKept_reports (c : Nat) (s : State) : Reports s (polarityKept c s) := by
  unfold polarityKept
  split
  · exact raise_reports _ _ _ _
  · rfl

theorem exec_polarityCheck_right {c : Nat} {v i : Rat} {s : State} (hstate : (s.chan c).fsm.state = .diag)
    (hstep : (s.chan c).fsm.diagStep = 7) (h : polarity (s.chan c).fsm.voltageOnly v i = some (false, false)) :
    exec (.polarityCheck c v i) s = .next (diagDone c (polarityKept c s)) := by
  show execPolarityCheck c v i s = _
  simp only [execPolarityCheck, hstate, hstep, h, polarityKept]
  cases (s.chan c).fsm.polRepeat <;> rfl

/-- What a reversed pair leads to: FAULT after a swap, FAULT where no swap is allowed, or the swap and one repetition. -/
def polarityReversed (c : Nat) (rv ri : Bool) (v i : Rat) (s : State) : State :=
  let found := s.modFsm c fun f => { f with foundV := rv, foundI := ri }
  if (s.chan c).fsm.polRepeat then enterFault c (chanCode c 0xB) [wordS (1000 * v), wordS (1000 * i)] s
  else if (s.chan c).fsm.swapOn then found.modFsm c fun f => { f with swapV := rv, swapI := ri, polRepeat := true }
  else enterFault c (chanCode c 9) [word (bit rv 0 + bit ri 1)] found

theorem exec_polarityCheck_reversed {c : Nat} {v i : Rat} {rv ri : Bool} {s : State} (hstate : (s.chan c).fsm.state = .diag)
    (hstep : (s.chan c).fsm.diagStep = 7) (h : polarity (s.chan c).fsm.voltageOnly v i = some (rv, ri)) (hrev : (rv || ri) = true) :
    exec (.polarityCheck c v i) s = .next (polarityReversed c rv ri v i s) := by
  have hneither : (!rv && !ri) = false := by rw [← Bool.not_or, hrev]; rfl
  show execPolarityCheck c v i s = _
  simp only [execPolarityCheck, hstate, hstep, h, hneither, polarityReversed]
  cases (s.chan c).fsm.polRepeat <;> cases (s.chan c).fsm.swapOn <;> rfl

theorem polarityReversed_drives (c : Nat) (rv ri : Bool) (v i : Rat) (s : State) : DrivesChan c s (polarityReversed c rv ri v i s) := by
  unfold polarityReversed
  extract_lets found
  have hfound : TouchesChan c s found := modFsm_touchesChan s c _
  split
  · exact enterFault_drives _ _ _ _
  split
  · exact (hfound.trans (modFsm_touchesChan found c _)).drives
  · exact hfound.drives.trans (enterFault_drives _ _ _ _)

theorem polarityReversed_fsm {c : Nat} (hc : c < 208) (rv ri : Bool) (v i : Rat) {s t : State} (ht : t = polarityReversed c rv ri v i s)
    (hstate : (s.chan c).fsm.state = .diag) :
    ((s.chan c).fsm.polRepeat = true → (t.chan c).fsm.state = .fault ∧ (t.chan c).fsm.code = chanCode c 0xB) ∧
    ((s.chan c).fsm.polRepeat = false → (s.chan c).fsm.swapOn = false → (t.chan c).fsm.state = .fault ∧ (t.chan c).fsm.code = chanCode c 9) ∧
    ((s.chan c).fsm.polRepeat = false → (s.chan c).fsm.swapOn = true → (t.chan c).fsm.state = .diag ∧ (t.chan c).fsm.polRepeat = true ∧
      (t.chan c).fsm.swapV = rv ∧ (t.chan c).fsm.swapI = ri) := by
  subst ht
  unfold polarityReversed
  refine ⟨fun hrep => ?_, fun hrep hswap => ?_, fun hrep hswap => ?_⟩
  · rw [if_pos hrep]
    obtain ⟨kstate, kcode, -⟩ := enterFault_self (chanCode c 0xB) [wordS (1000 * v), wordS (1000 * i)] s hc
    exact ⟨kstate, kcode⟩
  · rw [if_neg (by simp [hrep]), if_neg (by simp [hswap])]
    obtain ⟨kstate, kcode, -⟩ := enterFault_self (chanCode c 9) [word (bit rv 0 + bit ri 1)]
      (s.modFsm c fun f => { f with foundV := rv, foundI := ri }) hc
    exact ⟨kstate, kcode⟩
  · rw [if_neg (by simp [hrep]), if_pos hswap, chan_modFsm_self _ _ hc, chan_modFsm_self _ _ hc]
    exact ⟨hstate, rfl, rfl, rfl⟩

/-! ### Precharge (R262 to R264, R299, R300) -/

/-- The state in which the sources drive the nodes. -/
def precharging (c : Nat) (s : State) : State :=
  seedModel c ((startLegs c s).modFsm c fun f => { f with diagStep := 0, bridge := if (s.chan c).share.joinReq then .open else .precharge })

theorem exec_prechargeStart {c : Nat} {s : State} (hstate : (s.chan c).fsm.state = .precharge) (hstep : (s.chan c).fsm.diagStep = 9) :
    exec (.prechargeStart c) s = .next (precharging c s) := by
  show execPrechargeStart c s = _
  simp [execPrechargeStart, hstate, hstep]
  rfl

theorem precharging_touchesChan (c : Nat) (s : State) : TouchesChan c s (precharging c s) :=
  ((startLegs_touchesChan c s).trans (modFsm_touchesChan _ c _)).trans (seedModel_touchesChan c _)

theorem precharging_fsm {c : Nat} (hc : c < 208) (s : State) : ((precharging c s).chan c).fsm =
    { (s.chan c).fsm with diagStep := 0, bridge := if (s.chan c).share.joinReq then .open else .precharge } := by
  unfold precharging
  rw [seedModel_fsm _ _ hc, chan_modFsm_self _ _ hc, startLegs_chan]

/-- The conditions of the release, read off the nodes and the flying capacitors (R262, R299). -/
theorem precharged_of {s : State} {c : Nat} {a b diff v : Rat} {caps : List Rat} (hv : v = (s.rail (rcOf c)).vRail)
    (hnodes : (s.chan c).share.joinReq = true ∨
      (absRat (a - v / 2) ≤ 2/100 * (v / 2) ∧ absRat (b - v / 2) ≤ 2/100 * (v / 2) ∧ absRat diff ≤ 50/1000))
    (hcaps : isL c = false ∨ (s.chan c).fsm.cellFallback = true ∨ (∀ i : Nat, i < 4 →
      absRat (caps.getD i 0 - legVolts v (if i % 2 = 0 then 2 else 1)) ≤ 3/100 * legVolts v (if i % 2 = 0 then 2 else 1))) :
    precharged s c a b diff caps = true := by
  subst hv
  unfold precharged nearTo
  simp only [Bool.and_eq_true, Bool.or_eq_true, decide_eq_true_eq, Bool.not_eq_true', List.all_eq_true, List.mem_range]
  exact ⟨by rwa [and_assoc], or_assoc.mpr hcaps⟩

/-- Nodes more than 50 mV apart hold the release off. -/
theorem not_precharged_apart {s : State} {c : Nat} {diff : Rat} (a b : Rat) (caps : List Rat) (hjoin : (s.chan c).share.joinReq = false)
    (hdiff : 50/1000 < absRat diff) : precharged s c a b diff caps = false := by
  unfold precharged
  simp [hjoin, not_le.mpr hdiff]

theorem exec_prechargeComplete_apart {c : Nat} {diff : Rat} {s : State} (a b : Rat) (caps : List Rat) (hjoin : (s.chan c).share.joinReq = false)
    (hdiff : 50/1000 < absRat diff) : exec (.prechargeComplete c a b diff caps) s = .next s := by
  show execPrechargeComplete c a b diff caps s = _
  simp [execPrechargeComplete, not_precharged_apart a b caps hjoin hdiff]

/-- The release of both legs: IDLE with the bridge switching, the spread register seeded and the dead times of a start (R263, R300). -/
theorem exec_prechargeComplete_releases {c : Nat} (hc : c < 208) {a b diff : Rat} {caps : List Rat} {s : State}
    (hstate : (s.chan c).fsm.state = .precharge) (hstep : (s.chan c).fsm.diagStep = 0) (hstop : (s.chan c).fsm.stop = .none)
    (hready : precharged s c a b diff caps = true) (hlow : fallbackLow s c = true) (htaken : startTaken s c = true) :
    ∃ t, exec (.prechargeComplete c a b diff caps) s = .next t ∧ TouchesChan c s t ∧ (t.chan c).fsm.state = .idle ∧
      (t.chan c).fsm.bridge = .switching ∧ (t.chan c).loop.lfsr = c + 1 ∧ (t.chan c).loop.spread = 0 ∧
      (t.chan c).loop.dead = startDead s c ∧ (t.chan c).fsm.tauOk = false := by
  have hdrawn : TouchesChan c s s.drawRat.2 := ⟨rfl, rfl, fun _ _ => rfl⟩
  have hfed := ((hdrawn.trans (maskDue_touchesChan c c _)).trans (countAt_touchesChan c (startFraction s c) _)).trans (freshFeed_touchesChan c _)
  show ∃ t, execPrechargeComplete c a b diff caps s = .next t ∧ _
  unfold execPrechargeComplete
  dsimp only
  rw [if_pos (by simp [hstate, hstep, hstop, hready, hlow, htaken])]
  refine ⟨_, rfl, hfed.trans (modChan_touchesChan _ c _), ?_⟩
  rw [chan_modChan_self _ _ hc]
  exact ⟨rfl, rfl, rfl, rfl, rfl, rfl⟩

theorem exec_prechargeTimeout {c : Nat} (vp vn : Rat) {s : State} (hstate : (s.chan c).fsm.state = .precharge)
    (hstep : (s.chan c).fsm.diagStep = 0) (hstop : (s.chan c).fsm.stop = .none) :
    exec (.prechargeTimeout c vp vn) s = .next (enterFault c (chanCode c 0xC) [wordU (1000 * vp), wordU (1000 * vn)] s) := by
  show execPrechargeTimeout c vp vn s = _
  simp [execPrechargeTimeout, hstate, hstep, hstop]

end Sys2Proof.Machine
open Sys2Proof Sys2Proof.Machine

/-- Settles O33: each row by what it makes of its channel, the tests by the state in which they are judged. -/
theorem channelTestRows : Obligations.ChannelTestRows := by
  intro s c hc
  refine ⟨?start, ?offsets, ?tests, ?polarity, ?precharge, ?release⟩
  case start =>
    intro hen hstate hrestart hdev hrail hreleased hlinked hrole hlatch hhold
    exact ⟨_, exec_channelStart hen hstate hrestart hdev hrail hreleased hlinked hrole hlatch hhold, startDiag_drives c s,
      startDiag_fsm hc, startDiag_latched hc⟩
  case offsets =>
    intro v i hstate hcal
    refine ⟨_, exec_senseOffsetCal v i hstate hcal, ?_⟩
    have hnoted : TouchesChan c s (if calTest s c then noteCal c v i s else s) ∧
        ((if calTest s c then noteCal c v i s else s).chan c).fsm = (s.chan c).fsm := by
      split
      · exact ⟨noteCal_touchesChan c v i s, noteCal_fsm hc v i s⟩
      · exact ⟨TouchesChan.rfl' c s, rfl⟩
    obtain ⟨htouch, hfsm⟩ := hnoted
    rw [← hfsm]
    exact ⟨htouch.trans (setOffsets_touchesChan c v i _), setOffsets_fsm hc v i _⟩
  case tests =>
    intro r hstate hcal hjoin hrail hclosed hopen hlo hhi
    obtain ⟨data, hexec⟩ := exec_diagTestComplete r hstate hcal hjoin hrail hclosed hopen hlo hhi
    obtain ⟨hdrives, hvolt, hpass, hfail⟩ :=
      judged_diag (n := (s.chan c).fsm.diagStep) (low := testLow s c r) (data := data) hc (by omega) (testBase_probes hc r s) hstate
    refine ⟨_, testLow s c r, hexec, hdrives, rfl, hpass, fun hstep hmin hmax => ?_, fun hstep hlow hpart => ?_, hfail⟩
    · rw [hvolt]
      exact (testBase_voltageOnly hc r hstep).1 (by simp [fullCurrent, hmin, hmax])
    · rw [hvolt]
      refine (testBase_voltageOnly hc r hstep).2 hlow ?_
      rcases hpart with h | h <;> simp [fullCurrent, not_le.mpr h]
  case polarity =>
    intro v i hstate hstep
    rcases hpol : polarity (s.chan c).fsm.voltageOnly v i with _ | ⟨rv, ri⟩
    · obtain ⟨hdrives, kstate, kcode, -⟩ := enterFault_faulted (chanCode c 0xB) [wordS (1000 * v), wordS (1000 * i)] s hc
      refine ⟨_, exec_polarityCheck_undecided hstate hstep hpol, hdrives, fun h => ?_, fun _ => ⟨kstate, kcode⟩, fun rv ri h => ?_⟩
      · cases h
      · cases h
    · cases hrev : rv || ri with
      | false =>
        obtain ⟨rfl, rfl⟩ := Bool.or_eq_false_iff.mp hrev
        refine ⟨_, exec_polarityCheck_right hstate hstep hpol,
          (((polarityKept_reports c s).touchesChan c).trans (diagDone_touchesChan c _)).drives, fun _ => diagDone_fsm hc _, fun h => ?_,
          fun rv ri h hrev' => ?_⟩
        · cases h
        · cases h
          cases hrev'
      | true =>
        refine ⟨_, exec_polarityCheck_reversed hstate hstep hpol hrev, polarityReversed_drives c rv ri v i s, fun h => ?_, fun h => ?_,
          fun rv' ri' h _ => ?_⟩
        · cases h
          cases hrev
        · cases h
        · cases h
          exact polarityReversed_fsm hc rv ri v i rfl hstate
  case precharge =>
    intro hstate hstep
    exact ⟨_, exec_prechargeStart hstate hstep, precharging_touchesChan c s, precharging_fsm hc s⟩
  case release =>
    intro hstate hstep hstop
    refine ⟨fun a b diff v caps hv hlow htaken hnodes hcaps => ?_, fun a b diff caps hjoin hdiff => exec_prechargeComplete_apart a b caps hjoin hdiff,
      fun vp vn => ⟨_, exec_prechargeTimeout vp vn hstate hstep hstop, enterFault_faulted _ _ s hc⟩⟩
    exact exec_prechargeComplete_releases hc hstate hstep hstop (precharged_of hv hnodes hcaps) hlow htaken
end

section
/-! PROOFS. IDLE, RUN and MUTED of a channel, its silent stops, and the hard stop of an open sense line (R248, R252, R264, R265, R271 to R273, R286,
R300, R301, R317). -/

namespace Sys2Proof.Machine

/-! ### IDLE (R248, R252, R264, R300) -/

theorem hardStop_idle {c code : Nat} {data : List Word} {s : State} (hc : c < 208) (h : (s.chan c).fsm.state = .idle) :
    Faulted c code s (hardStop c code data s) := hardStop_faulted hc (by rw [h]; rfl)

/-- A measured delay in its range is kept, on an S-channel with its alignment. -/
theorem exec_tauMeasured_taken {c : Nat} (hc : c < 208) {τ : Rat} {s : State} (hstate : (s.chan c).fsm.state = .idle)
    (hstop : (s.chan c).fsm.stop = .none) (hτ : 500 ≤ τ ∧ τ ≤ (if isL c then 15000 else 9000)) :
    ∃ t, exec (.tauMeasured c τ) s = .next t ∧ TouchesChan c s t ∧ (t.chan c).fsm = { (s.chan c).fsm with tauOk := true } ∧
      (t.chan c).loop.tauNs = τ ∧ (t.chan c).loop.tauStored = some τ := by
  show ∃ t, execTauMeasured c τ s = .next t ∧ _
  unfold execTauMeasured
  dsimp only
  rw [if_pos (by simp [hstate, hstop]), if_pos hτ]
  refine ⟨_, rfl, modChan_touchesChan s c _, ?_⟩
  rw [chan_modChan_self _ _ hc]
  exact ⟨rfl, rfl, rfl⟩

theorem exec_tauMeasured_out {c : Nat} {τ : Rat} {s : State} (hstate : (s.chan c).fsm.state = .idle)
    (hstop : (s.chan c).fsm.stop = .none) (hτ : ¬ (500 ≤ τ ∧ τ ≤ (if isL c then 15000 else 9000))) :
    exec (.tauMeasured c τ) s = .next (hardStop c (chanCode c (if isL c then 0x40 else 0x30)) [wordU τ] s) := by
  show execTauMeasured c τ s = _
  unfold execTauMeasured
  dsimp only
  rw [if_pos (by simp [hstate, hstop]), if_neg hτ]

theorem exec_loopRange {c : Nat} {s : State} (hstate : (s.chan c).fsm.state = .idle) (hstop : (s.chan c).fsm.stop = .none)
    (htrim : (s.chan c).fsm.trimOk = false) (hS : isL c = false) (hlate : sinceRelease s c 9600 = true) :
    exec (.loopRange c) s = .next (hardStop c (chanCode c 0x30) [0] s) := by
  show execLoopRange c s = _
  simp [execLoopRange, hstate, hstop, htrim, hS, hlate]

/-- A capacitor that is off its voltage 100 ms after the release stops the channel, whichever it is. -/
theorem exec_fcImbalanceTimeout {c : Nat} {s : State} (hstate : (s.chan c).fsm.state = .idle) (hstop : (s.chan c).fsm.stop = .none)
    (hL : isL c = true) (hfc : (s.chan c).fsm.fcOk = false) (hcells : (s.chan c).fsm.cellFallback = false)
    (hlate : sinceRelease s c 9600 = true) (hout : (fcOut s (lOf c)).isSome = true) :
    ∃ data, exec (.fcImbalanceTimeout c) s = .next (hardStop c (chanCode c 0x41) data s) := by
  obtain ⟨i, hi⟩ := Option.isSome_iff_exists.mp hout
  show ∃ data, execFcImbalanceTimeout c s = _
  exact ⟨_, by simp [execFcImbalanceTimeout, hstate, hstop, hL, hfc, hcells, hlate, hi]; rfl⟩

theorem trimLoop_touchesChan (c : Nat) (s : State) : TouchesChan c s (trimLoop c s) := by
  have hdrawn : TouchesChan c s s.drawRat.2.drawRat.2 := ⟨rfl, rfl, fun _ _ => rfl⟩
  unfold trimLoop
  exact hdrawn.trans (modLoop_touchesChan _ c _)

theorem trimLoop_fsm {c : Nat} (hc : c < 208) (s : State) : ((trimLoop c s).chan c).fsm = (s.chan c).fsm := by
  unfold trimLoop
  dsimp only
  rw [chan_modLoop_self _ _ hc]
  rfl

/-- The state of a channel that waits for its block boundary, on an S-channel with its loop trimmed. -/
def idleCompleted (c : Nat) (s : State) : State :=
  (if isL c then s else trimLoop c s).modFsm c fun f => { f with admitted := true, trimOk := true, fcOk := true }

theorem exec_idleComplete {c : Nat} {s : State} (hstate : (s.chan c).fsm.state = .idle) (hstop : (s.chan c).fsm.stop = .none)
    (htau : (s.chan c).fsm.tauOk = true) (hlate : sinceRelease s c 1920 = true)
    (hfc : isL c = false ∨ (s.chan c).fsm.cellFallback = true ∨ fcOut s (lOf c) = none) :
    exec (.idleComplete c) s = .next (idleCompleted c s) := by
  have hcaps : (!isL c || (s.chan c).fsm.cellFallback || (fcOut s (lOf c)).isNone) = true := by
    rcases hfc with h | h | h <;> simp [h]
  show execIdleComplete c s = _
  unfold execIdleComplete
  dsimp only
  rw [if_pos (by simp only [hstate, hstop, htau, hlate, hcaps]; rfl)]
  rfl

theorem idleCompleted_touchesChan (c : Nat) (s : State) : TouchesChan c s (idleCompleted c s) := by
  refine TouchesChan.trans ?_ (modFsm_touchesChan _ c _)
  split
  · exact TouchesChan.rfl' c s
  · exact trimLoop_touchesChan c s

theorem idleCompleted_fsm {c : Nat} (hc : c < 208) (s : State) :
    ((idleCompleted c s).chan c).fsm = { (s.chan c).fsm with admitted := true, trimOk := true, fcOk := true } := by
  unfold idleCompleted
  rw [chan_modFsm_self _ _ hc]
  split
  · rfl
  · rw [trimLoop_fsm hc]

theorem exec_enterRun {c : Nat} {s : State} (hstate : (s.chan c).fsm.state = .idle) (hstop : (s.chan c).fsm.stop = .none)
    (hheld : (s.chan c).fsm.admitted = true) (halone : sharing s = false) : exec (.enterRun c) s = .next (admitChannel c s) := by
  show execEnterRun c s = _
  simp [execEnterRun, hstate, hstop, hheld, halone]

theorem admitChannel_run {c : Nat} (hc : c < 208) {s : State} (h : muteSource s c = false) :
    ((admitChannel c s).chan c).fsm.admitted = false ∧ ((admitChannel c s).chan c).fsm.state = .run ∧
    ((admitChannel c s).chan c).dsp.fade = ⟨0, 1, 0, 1024⟩ := by
  rw [admitChannel, if_neg (by simp [h]), chan_modChan_self _ _ hc]
  exact ⟨rfl, rfl, rfl⟩

theorem admitChannel_muted {c : Nat} (hc : c < 208) {s : State} (h : muteSource s c = true) :
    ((admitChannel c s).chan c).fsm.admitted = false ∧ ((admitChannel c s).chan c).fsm.state = .muted ∧
    ((admitChannel c s).chan c).dsp = (s.chan c).dsp := by
  rw [admitChannel, if_pos h, chan_modFsm_self _ _ hc, maskDue_chan]
  exact ⟨rfl, rfl, rfl⟩

/-! ### RUN to MUTED, and an open sense line (R271, R273, R317) -/

/-- The channel in MUTED: an admission ramp is cut short and heads for 0. -/
def muteEntered (c : Nat) (s : State) : State :=
  (maskDue c s).modChan c fun h => { h with
    fsm := { h.fsm with state := .muted }
    dsp := { h.dsp with fade := if h.dsp.fade.done then h.dsp.fade else h.dsp.fade.to 0 1024 } }

theorem exec_muteEnter {c : Nat} {s : State} (hstate : (s.chan c).fsm.state = .run) (hstop : (s.chan c).fsm.stop = .none)
    (hmute : muteSource s c = true) : exec (.muteEnter c) s = .next (muteEntered c s) := by
  show execMuteEnter c s = _
  unfold execMuteEnter
  dsimp only
  rw [if_pos (by simp [hstate, hstop, hmute])]
  rfl

theorem muteEntered_chan {c : Nat} (hc : c < 208) (s : State) :
    ((muteEntered c s).chan c).fsm = { (s.chan c).fsm with state := .muted } ∧
    ((muteEntered c s).chan c).dsp.fade = (if (s.chan c).dsp.fade.done then (s.chan c).dsp.fade else (s.chan c).dsp.fade.to 0 1024) := by
  unfold muteEntered
  rw [chan_modChan_self _ _ hc, maskDue_chan]
  exact ⟨rfl, rfl⟩

theorem exec_senseOpenRun {c : Nat} {a b : List Rat} {s : State} (hbridge : (s.chan c).fsm.bridge = .switching)
    (h : fourApart (s.rail (rcOf c)).vRail a = true ∨ fourApart (s.rail (rcOf c)).vRail b = true) :
    ∃ data, exec (.senseOpenRun c a b) s = .next (hardStop c (chanCode c 8) data s) := by
  show ∃ data, execSenseOpenRun c a b s = _
  unfold execSenseOpenRun
  dsimp only
  rw [if_pos (by simp only [hbridge, Bool.and_eq_true, Bool.or_eq_true]; exact ⟨rfl, h⟩)]
  exact ⟨_, rfl⟩

/-! ### Silent stops (R265, R273, R301, R371) -/

theorem exec_silentStop_run {c : Nat} {s : State} (hstop : (s.chan c).fsm.stop = .requested) (hstate : (s.chan c).fsm.state = .run) :
    exec (.silentStop c) s =
      .next (s.modChan c fun h => { h with fsm := { h.fsm with stop := .fading }, dsp := { h.dsp with fade := h.dsp.fade.to 0 1024 } }) := by
  show execSilentStop c s = _
  simp [execSilentStop, hstop, hstate]

theorem exec_silentStop_zero {c : Nat} {s : State} (hstop : (s.chan c).fsm.stop = .requested)
    (hstate : (s.chan c).fsm.state = .idle ∨ (s.chan c).fsm.state = .muted) :
    exec (.silentStop c) s = .next ((idleEnds c s).modFsm c fun f => { f with stop := .zero, zeroBlocks := 0, admitted := false }) := by
  show execSilentStop c s = _
  rcases hstate with h | h <;> simp [execSilentStop, hstop, h]

theorem exec_silentStop_sink {c : Nat} {s : State} (hstop : (s.chan c).fsm.stop = .requested) (hstate : (s.chan c).fsm.state.switching = false) :
    exec (.silentStop c) s =
      .next (s.modFsm c fun f => { f with stop := .sinking, diagStep := 0, bridge := if s.cfgShared then .open else .sink }) := by
  show execSilentStop c s = _
  unfold execSilentStop
  cases hs : (s.chan c).fsm.state <;> simp [hs, ChanState.switching, hstop] at hstate ⊢
/-- A requested stop begins by the state of its channel, which stands: the fade of RUN, the zero reference of IDLE and MUTED, or the
discharge. -/
theorem exec_silentStop {c : Nat} (hc : c < 208) {s : State} (hstop : (s.chan c).fsm.stop = .requested) :
    ∃ t, exec (.silentStop c) s = .next t ∧ TouchesChan c s t ∧ (t.chan c).fsm.state = (s.chan c).fsm.state ∧
      ((s.chan c).fsm.state = .run → (t.chan c).fsm.stop = .fading ∧ (t.chan c).dsp.fade = (s.chan c).dsp.fade.to 0 1024) ∧
      ((s.chan c).fsm.state = .idle ∨ (s.chan c).fsm.state = .muted → (t.chan c).fsm.stop = .zero ∧ (t.chan c).fsm.zeroBlocks = 0) ∧
      ((s.chan c).fsm.state.switching = false →
        (t.chan c).fsm.stop = .sinking ∧ (t.chan c).fsm.bridge = (if s.cfgShared then .open else .sink)) := by
  have hkinds : (s.chan c).fsm.state = .run ∨ ((s.chan c).fsm.state = .idle ∨ (s.chan c).fsm.state = .muted) ∨
      (s.chan c).fsm.state.switching = false := by cases (s.chan c).fsm.state <;> simp [ChanState.switching]
  rcases hkinds with hrun | hzero | hsink
  · refine ⟨_, exec_silentStop_run hstop hrun, modChan_touchesChan s c _, ?_⟩
    rw [chan_modChan_self _ _ hc]
    exact ⟨rfl, fun _ => ⟨rfl, rfl⟩, fun h => by simp [hrun] at h, fun h => by simp [hrun, ChanState.switching] at h⟩
  · obtain ⟨x, hx⟩ := idleEnds_chan_self s hc
    refine ⟨_, exec_silentStop_zero hstop hzero, (idleEnds_touchesChan c s).trans (modFsm_touchesChan _ c _), ?_⟩
    rw [chan_modFsm_self _ _ hc, hx]
    refine ⟨rfl, fun h => ?_, fun _ => ⟨rfl, rfl⟩, fun h => ?_⟩
    · simp [h] at hzero
    · rcases hzero with e | e <;> simp [e, ChanState.switching] at h
  · refine ⟨_, exec_silentStop_sink hstop hsink, modFsm_touchesChan s c _, ?_⟩
    rw [chan_modFsm_self _ _ hc]
    refine ⟨rfl, fun h => ?_, fun h => ?_, fun _ => ⟨rfl, rfl⟩⟩
    · simp [h, ChanState.switching] at hsink
    · rcases h with h | h <;> simp [h, ChanState.switching] at hsink

/-- The gates of a channel after its blocks at zero reference are off together. -/
def gatesOff (c : Nat) (s : State) : State :=
  (countAt c 12 s).modFsm c fun f => { f with stop := .sinking, bridge := if s.cfgShared then .open else .sink }

theorem exec_silentStopGatesOff {c : Nat} {s : State} (hstop : (s.chan c).fsm.stop = .zero) (hzero : 2 ≤ (s.chan c).fsm.zeroBlocks) :
    exec (.silentStopGatesOff c) s = .next (gatesOff c s) := by
  show execSilentStopGatesOff c s = _
  simp [execSilentStopGatesOff, hstop, hzero]
  rfl

theorem gatesOff_touchesChan (c : Nat) (s : State) : TouchesChan c s (gatesOff c s) :=
  (countAt_touchesChan c 12 s).trans (modFsm_touchesChan _ c _)

theorem gatesOff_fsm {c : Nat} (hc : c < 208) (s : State) :
    ((gatesOff c s).chan c).fsm = { (s.chan c).fsm with stop := .sinking, bridge := if s.cfgShared then .open else .sink } := by
  unfold gatesOff
  rw [chan_modFsm_self _ _ hc, countAt_chan]

/-- The discharge goes on while a node stands at 1.0 V or above. -/
theorem exec_silentStopDischarged_high {c i : Nat} {nodes : List Rat} {s : State} (halone : s.cfgShared = false)
    (hi : i < (if isL c then 6 else 2)) (hnode : 1 ≤ nodes.getD i 0) : exec (.silentStopDischarged c nodes) s = .next s := by
  have hhigh : ((List.range (if isL c then 6 else 2)).all fun i => decide (nodes.getD i 0 < 1)) = false :=
    List.all_eq_false.mpr ⟨i, List.mem_range.mpr hi, by simpa using hnode⟩
  show execSilentStopDischarged c nodes s = _
  rw [execSilentStopDischarged, halone, hhigh]
  simp

theorem exec_silentStopDischarged {c : Nat} {nodes : List Rat} {s : State} (hstop : (s.chan c).fsm.stop = .sinking)
    (h : s.cfgShared = true ∨ ∀ i : Nat, i < (if isL c then 6 else 2) → nodes.getD i 0 < 1) :
    exec (.silentStopDischarged c nodes) s = .next (toOff c s) := by
  have hlow : (s.cfgShared || (List.range (if isL c then 6 else 2)).all fun i => decide (nodes.getD i 0 < 1)) = true := by
    rw [Bool.or_eq_true, List.all_eq_true]
    exact h.imp_right fun hall i hi => decide_eq_true (hall i (List.mem_range.mp hi))
  show execSilentStopDischarged c nodes s = _
  rw [execSilentStopDischarged, hlow, hstop]
  rfl

theorem exec_silentStopTimeout {c : Nat} (vp vn : Rat) {s : State} (hstop : (s.chan c).fsm.stop = .sinking) :
    exec (.silentStopTimeout c vp vn) s = .next ((toOff c s).raise (chanCode c 0xC) c [wordU (1000 * vp), wordU (1000 * vn)]) := by
  show execSilentStopTimeout c vp vn s = _
  simp [execSilentStopTimeout, hstop]

theorem toOff_log (c : Nat) (s : State) : (toOff c s).log = s.log := by rw [toOff_eq]

end Sys2Proof.Machine
open Sys2Proof Sys2Proof.Machine

/-- Settles O34: each row by the state of its channel, the end of a silent stop by OFF with or without a record. -/
theorem channelPlayRows : Obligations.ChannelPlayRows := by
  intro s c hc
  refine ⟨?idle, ?mute, ?sense, ?stop, ?gates, ?high, ?ends⟩
  case idle =>
    intro hstate hstop
    refine ⟨fun τ => ?_, fun htrim hS hlate => ⟨_, exec_loopRange hstate hstop htrim hS hlate, hardStop_idle hc hstate⟩,
      fun hL hfc hcells hlate hout => ?_,
      fun htau hlate hfc => ⟨_, exec_idleComplete hstate hstop htau hlate hfc, idleCompleted_touchesChan c s, idleCompleted_fsm hc s⟩,
      fun hheld halone => ⟨_, exec_enterRun hstate hstop hheld halone, admitChannel_touchesChan c s, ?_⟩⟩
    · by_cases hτ : 500 ≤ τ ∧ τ ≤ (if isL c then 15000 else 9000)
      · obtain ⟨t, hexec, htaken⟩ := exec_tauMeasured_taken hc hstate hstop hτ
        exact ⟨t, hexec, fun _ => htaken, fun h => absurd hτ h⟩
      · exact ⟨_, exec_tauMeasured_out hstate hstop hτ, fun h => absurd h hτ, fun _ => hardStop_idle hc hstate⟩
    · obtain ⟨data, hexec⟩ := exec_fcImbalanceTimeout hstate hstop hL hfc hcells hlate hout
      exact ⟨_, hexec, hardStop_idle hc hstate⟩
    · cases hmute : muteSource s c with
      | false =>
        obtain ⟨hheld', hrun⟩ := admitChannel_run hc hmute
        exact ⟨hheld', fun _ => hrun, fun h => absurd h Bool.false_ne_true⟩
      | true =>
        obtain ⟨hheld', hmuted⟩ := admitChannel_muted hc hmute
        exact ⟨hheld', fun h => absurd h.symm Bool.false_ne_true, fun _ => hmuted⟩
  case mute =>
    intro hstate hstop hmute
    exact ⟨_, exec_muteEnter hstate hstop hmute, (maskDue_touchesChan c c s).trans (modChan_touchesChan _ c _), muteEntered_chan hc s⟩
  case sense =>
    intro a b hstate hbridge hapart
    obtain ⟨data, hexec⟩ := exec_senseOpenRun hbridge hapart
    exact ⟨_, hexec, hardStop_faulted hc hstate⟩
  case stop => exact exec_silentStop hc
  case gates =>
    intro hstop hzero
    exact ⟨_, exec_silentStopGatesOff hstop hzero, gatesOff_touchesChan c s, gatesOff_fsm hc s⟩
  case high =>
    intro _ halone nodes i hi hnode
    exact exec_silentStopDischarged_high halone hi hnode
  case ends =>
    intro hstop vp vn nodes hlow
    obtain ⟨hstate, -, -, hnone, hbridge⟩ := toOff_chan_self s hc
    have hlog := toOff_log c s
    exact ⟨_, _, exec_silentStopDischarged hstop hlow, exec_silentStopTimeout vp vn hstop, toOff_touchesChan c s,
      (toOff_touchesChan c s).trans (raise_touchesChan c _ _ _ _), (raise_reports _ _ _ _).chan c, hstate, hnone, hbridge, hlog,
      (raise_raised _ _ _ _).of_log (by rw [hlog]) (by rw [hlog])⟩
end

section
/-! PROOFS. The loop of a switching channel: comparator edges, spread, dead times, per-cycle limits, load shorts and stalls (R245, R247, R253 to R261,
R267, R288, R293, R315, R316, R319). -/

namespace Sys2Proof.Machine

/-! ### A change of one loop -/

/-- From `s` to `t` only the loop of channel `c` may differ, and what is counted and raised; the generators stand. -/
def LoopsOnly (c : Nat) (s t : State) : Prop := TouchesChan c s t ∧ t.pwm = s.pwm ∧ t.chan c = { s.chan c with loop := (t.chan c).loop }

theorem LoopsOnly.rfl' (c : Nat) (s : State) : LoopsOnly c s s := ⟨TouchesChan.rfl' c s, rfl, rfl⟩

theorem LoopsOnly.trans {c : Nat} {s t u : State} (h : LoopsOnly c s t) (k : LoopsOnly c t u) : LoopsOnly c s u := by
  obtain ⟨htouch, hpwm, hchan⟩ := h
  obtain ⟨ktouch, kpwm, kchan⟩ := k
  refine ⟨htouch.trans ktouch, kpwm.trans hpwm, ?_⟩
  rw [kchan, hchan]

theorem LoopsOnly.fsm {c : Nat} {s t : State} (h : LoopsOnly c s t) : (t.chan c).fsm = (s.chan c).fsm := by
  obtain ⟨-, -, hchan⟩ := h
  rw [hchan]

/-- What leaves every channel and the generators leaves the loops. -/
theorem LoopsOnly.of_chan {c : Nat} {s t : State} (h : TouchesChan c s t) (hpwm : t.pwm = s.pwm) (hchan : t.chan c = s.chan c) : LoopsOnly c s t :=
  ⟨h, hpwm, by rw [hchan]⟩

theorem Reports.loopsOnly {s t : State} (c : Nat) (h : Reports s t) : LoopsOnly c s t := .of_chan (h.touchesChan c) h.pwm (h.chan c)

theorem modLoop_loopsOnly {c : Nat} (hc : c < 208) (s : State) (f : Loop → Loop) : LoopsOnly c s (s.modLoop c f) :=
  ⟨modLoop_touchesChan s c f, rfl, by rw [chan_modLoop_self _ _ hc]⟩

theorem count_loopsOnly (c id n : Nat) (s : State) : LoopsOnly c s (s.count id n) := .of_chan (count_touchesChan c id n s) rfl rfl
theorem life_loopsOnly (c id n : Nat) (s : State) : LoopsOnly c s (s.life id n) := .of_chan (life_touchesChan c id n s) rfl rfl

/-- A channel that is faulted after a change that leaves its hold is faulted. -/
theorem Faulted.after {c code : Nat} {s u t : State} (h : TouchesChan c s u) (hpwm : u.pwm = s.pwm) (k : Faulted c code u t) : Faulted c code s t := by
  obtain ⟨hdrives, hstate, hcode, hbridge, hstop⟩ := k
  rw [holdFor_touches c h.1 (.of_eq hpwm)] at hbridge
  exact ⟨h.drives.trans hdrives, hstate, hcode, hbridge, hstop⟩

/-! ### Comparator edges (R245 to R249, R258) -/

/-- Where no cycle field and no margin waits, a new cycle changes nothing. -/
theorem newCycle_settled {c : Nat} {s : State} (hcyc : (s.chan c).loop.cycOld = none) (hmargin : (s.chan c).loop.marginDue = []) :
    newCycle c s = s := by
  have htaken : takeMargins c s = s := by simp [takeMargins, hmargin]
  unfold newCycle
  dsimp only
  rw [htaken, hcyc]

theorem clampRat_within (lim x : Rat) : absRat (clampRat (-lim) lim x) ≤ absRat lim := by
  unfold absRat clampRat
  repeat' split
  all_goals linarith

theorem testSequence_loopsOnly (c : Nat) (s : State) : LoopsOnly c s (testSequence s c).2 := by
  unfold testSequence
  dsimp only
  split
  · exact .of_chan ⟨rfl, rfl, fun _ _ => rfl⟩ rfl rfl
  · exact .rfl' c s

theorem testSequence_chan (s : State) (c k : Nat) : (testSequence s c).2.chan k = s.chan k := by
  unfold testSequence
  dsimp only
  split <;> rfl

/-- A test sequence stands on the reference in an IDLE that still measures its delay, and nowhere else (R248). -/
theorem testSequence_none {s : State} {c : Nat} (h : (s.chan c).fsm.state ≠ .idle ∨ (s.chan c).fsm.tauOk = true) : testSequence s c = (0, s) := by
  have hno : ¬ ((s.chan c).fsm.state = .idle ∧ (!(s.chan c).fsm.tauOk) = true) := by
    rintro ⟨hidle, hmeasures⟩
    rcases h with h | h
    · exact h hidle
    · simp [h] at hmeasures
  unfold testSequence
  exact if_neg hno

theorem indexClip_loopsOnly (c : Nat) (s : State) : LoopsOnly c s (indexClip c s) :=
  ((count_loopsOnly c _ _ s).trans (life_loopsOnly c _ _ _)).trans ((raiseHeld_reports _ _ _ _ _ _).loopsOnly c)

theorem indexClip_chan (c k : Nat) (s : State) : (indexClip c s).chan k = s.chan k := raiseHeld_chan _ _ _ _ k _ _

theorem clipOnce_loopsOnly {c : Nat} (hc : c < 208) (n : Nat) (s : State) : LoopsOnly c s (clipOnce c n s) := by
  unfold clipOnce
  split
  · exact .rfl' c s
  · exact (modLoop_loopsOnly hc s _).trans (indexClip_loopsOnly c _)

/-- A clipped sample changes of the loop only which sample was the last to clip. -/
theorem clipOnce_loop {c : Nat} (hc : c < 208) (n : Nat) (s : State) :
    ∃ x, ((clipOnce c n s).chan c).loop = { (s.chan c).loop with clipN := x } := by
  unfold clipOnce
  split
  · exact ⟨_, rfl⟩
  · rw [indexClip_chan, chan_modLoop_self _ _ hc]
    exact ⟨_, rfl⟩

/-- The reference of a comparator edge ahead of the clamp. -/
def edgeReference (s : State) (c n j : Nat) : Rat := loopReference s c n j + (testSequence s c).1

/-- The clamp of the reference (R247). -/
def edgeLimit (s : State) (c : Nat) : Rat := (s.chan c).loop.mIdxClamp * (s.rail (rcOf c)).vRail

/-- The integral at a comparator edge (R245). -/
def edgeIntegral (s : State) (c n j : Nat) (v i dtNs : Rat) : Rat :=
  (s.chan c).loop.integ + (clampRat (-edgeLimit s c) (edgeLimit s c) (edgeReference s c n j) + droop s c i - v) * dtNs / 1000000000

/-- The integral has crossed the window of its leg, or stood at its bound (R245, R260). -/
def edgeCrosses (l : Loop) (x : Rat) : Bool := l.atBound || (if l.highA then decide (x ≤ -windowNow l) else decide (windowNow l ≤ x))

/-- The state once the clamp has been taken and counted. -/
def edgeClamped (c n j : Nat) (s : State) : State :=
  if edgeLimit s c < absRat (edgeReference s c n j) then clipOnce c n (testSequence s c).2 else (testSequence s c).2

/-- The legs swap, and a swap below the minimum pulse counts (R258). -/
def edgeSwapped (c : Nat) (dtNs : Rat) (l : Loop) (s : State) : State :=
  let t := s.modLoop c fun g => { g with highA := !g.highA, integ := if g.highA then -windowNow l else windowNow l, atBound := false }
  if dtNs < pulseFloor l then t.count (chanStat c 0x08A) 1 else t

/-- The effect of a comparator edge on the state with the clamp taken. -/
def edgeTaken (c : Nat) (dtNs : Rat) (l : Loop) (x : Rat) (s : State) : State :=
  if l.reverse then s
  else if edgeCrosses l x then edgeSwapped c dtNs l s
  else s.modLoop c fun g => { g with integ := x }

theorem exec_loopComparatorEdge {c : Nat} (n j : Nat) (v i dtNs : Rat) {s : State} (harmed : armed s c = true) (hS : isL c = false)
    (hcyc : (s.chan c).loop.cycOld = none) (hmargin : (s.chan c).loop.marginDue = []) :
    exec (.loopComparatorEdge c n j v i dtNs) s =
      .next (edgeTaken c dtNs (s.chan c).loop (edgeIntegral s c n j v i dtNs) (edgeClamped c n j s)) := by
  show execLoopComparatorEdge c n j v i dtNs s = _
  unfold execLoopComparatorEdge
  rw [if_pos (by simp [harmed, hS]), newCycle_settled hcyc hmargin]
  unfold edgeTaken
  rw [apply_ite Host.Outcome.next, apply_ite Host.Outcome.next]
  rfl

theorem edgeClamped_loopsOnly {c : Nat} (hc : c < 208) (n j : Nat) (s : State) : LoopsOnly c s (edgeClamped c n j s) := by
  unfold edgeClamped
  split
  · exact (testSequence_loopsOnly c s).trans (clipOnce_loopsOnly hc n _)
  · exact testSequence_loopsOnly c s

theorem edgeClamped_loop {c : Nat} (hc : c < 208) (n j : Nat) (s : State) :
    ∃ x, ((edgeClamped c n j s).chan c).loop = { (s.chan c).loop with clipN := x } := by
  unfold edgeClamped
  split
  · rw [← testSequence_chan s c c]
    exact clipOnce_loop hc n _
  · rw [testSequence_chan]
    exact ⟨_, rfl⟩

/-- A reference within the clamp leaves the state. -/
theorem edgeClamped_within {c n j : Nat} {s : State} (h : (s.chan c).fsm.state ≠ .idle ∨ (s.chan c).fsm.tauOk = true)
    (hlim : absRat (loopReference s c n j) ≤ edgeLimit s c) : edgeClamped c n j s = s := by
  unfold edgeClamped edgeReference
  rw [testSequence_none h, add_zero, if_neg (not_lt.mpr hlim)]

theorem edgeTaken_loopsOnly {c : Nat} (hc : c < 208) (dtNs : Rat) (l : Loop) (x : Rat) (s : State) : LoopsOnly c s (edgeTaken c dtNs l x s) := by
  unfold edgeTaken
  split
  · exact .rfl' c s
  split
  · unfold edgeSwapped
    extract_lets t
    have ht : LoopsOnly c s t := modLoop_loopsOnly hc s _
    split
    · exact ht.trans (count_loopsOnly c _ _ t)
    · exact ht
  · exact modLoop_loopsOnly hc s _

/-- An integral that crosses swaps the legs and starts at the window; one that does not leaves them. -/
theorem edgeTaken_loop {c : Nat} (hc : c < 208) (dtNs : Rat) {l : Loop} (x : Rat) (s : State) (hforward : l.reverse = false) :
    (edgeCrosses l x = true → ((edgeTaken c dtNs l x s).chan c).loop = { (s.chan c).loop with
      highA := !(s.chan c).loop.highA, integ := if (s.chan c).loop.highA then -windowNow l else windowNow l, atBound := false }) ∧
    (edgeCrosses l x = false → ((edgeTaken c dtNs l x s).chan c).loop = { (s.chan c).loop with integ := x }) := by
  unfold edgeTaken
  rw [if_neg (by simp [hforward])]
  refine ⟨fun h => ?_, fun h => ?_⟩
  · rw [if_pos h]
    unfold edgeSwapped
    split
    · rw [chan_count, chan_modLoop_self _ _ hc]
    · rw [chan_modLoop_self _ _ hc]
  · rw [if_neg (by simp [h]), chan_modLoop_self _ _ hc]

theorem edgeTaken_counted (c : Nat) (dtNs : Rat) {l : Loop} (x : Rat) (s : State) (hforward : l.reverse = false) :
    (edgeTaken c dtNs l x s).log = s.log ∧ (edgeTaken c dtNs l x s).counters =
      if edgeCrosses l x = true ∧ dtNs < pulseFloor l then (s.count (chanStat c 0x08A) 1).counters else s.counters := by
  unfold edgeTaken edgeSwapped
  rw [if_neg (by simp [hforward])]
  by_cases hcross : edgeCrosses l x = true
  · by_cases hearly : dtNs < pulseFloor l
    · rw [if_pos hcross, if_pos hearly, if_pos ⟨hcross, hearly⟩]
      exact ⟨rfl, rfl⟩
    · rw [if_pos hcross, if_neg hearly, if_neg fun h => hearly h.2]
      exact ⟨rfl, rfl⟩
  · rw [if_neg hcross, if_neg fun h => hcross h.1]
    exact ⟨rfl, rfl⟩

/-! ### Spread and dead times (R253, R255 to R257, R288) -/

/-- The loop after a draw of its spread offset under a spread of `sp` per cent (R253). -/
def Loop.drawn (sp : Rat) (l : Loop) : Loop :=
  if 0 < sp then { l with lfsr := lfsr15^[15] l.lfsr, spread := ((lfsr15^[15] l.lfsr * 65 / 32768 : Nat) - 32 : Rat) * sp / 3200 }
  else { l with spread := 0 }

theorem exec_spreadDraw {c : Nat} (hc : c < 208) {s : State} (harmed : armed s c = true) (hS : isL c = false) :
    ∃ t, exec (.spreadDraw c) s = .next t ∧ TouchesChan c s t ∧
      t.chan c = { s.chan c with loop := (s.chan c).loop.drawn (f32Val (cycWord s c 0x11)) } := by
  show ∃ t, execSpreadDraw c s = .next t ∧ _
  unfold execSpreadDraw Loop.drawn
  dsimp only
  rw [if_pos (by simp [harmed, hS])]
  split
  · exact ⟨_, rfl, modLoop_touchesChan s c _, chan_modLoop_self s _ hc⟩
  · exact ⟨_, rfl, modLoop_touchesChan s c _, chan_modLoop_self s _ hc⟩

/-- The dead time that 64 qualifying edges of one kind give, one step on within its limits (R256). -/
def adaptedDead (s : State) (c edge early late : Nat) : Nat :=
  let d := (s.chan c).loop.dead.getD edge (ceilingOf s c edge)
  if late < early then min (ceilingOf s c edge) (d + 1) else if early < late then max (deadMin c) (d - 1) else d

theorem exec_deadtimeAdapt {c edge early late : Nat} (hc : c < 208) {s : State} (harmed : armed s c = true) (hmode : cycWord s c 0x12 = 1)
    (hedge : edge < deadEdges c) : ∃ t, exec (.deadtimeAdapt c edge early late) s = .next t ∧ TouchesChan c s t ∧ t.log = s.log ∧
      t.chan c = { s.chan c with loop := { (s.chan c).loop with
        dead := (s.chan c).loop.dead.set edge (adaptedDead s c edge early late)
        adapted := (s.chan c).loop.dead.set edge (adaptedDead s c edge early late) } } := by
  show ∃ t, execDeadtimeAdapt c edge early late s = .next t ∧ _
  unfold execDeadtimeAdapt
  dsimp only
  rw [if_pos (by simp [harmed, hmode, hedge])]
  refine ⟨_, rfl, ?_⟩
  split
  · exact ⟨(modLoop_touchesChan s c _).trans (count_touchesChan c _ _ _), rfl, (chan_count _ _ _ _).trans (chan_modLoop_self s _ hc)⟩
  · exact ⟨modLoop_touchesChan s c _, rfl, chan_modLoop_self s _ hc⟩

/-! ### Per-cycle limits (R259 to R261, R293, R294, R315, R316) -/

/-- The integrator of an S-channel stands at its bound until the next edge (R260). -/
def Loop.held (L : Bool) (l : Loop) : Loop :=
  if L then l else { l with atBound := true, integ := if l.highA then -windowNow l else windowNow l }

theorem holdIntegrator_loopsOnly {c : Nat} (hc : c < 208) (s : State) : LoopsOnly c s (holdIntegrator c s) := by
  unfold holdIntegrator
  split
  · exact .rfl' c s
  · exact modLoop_loopsOnly hc s _

theorem holdIntegrator_loop {c : Nat} (hc : c < 208) (s : State) : ((holdIntegrator c s).chan c).loop = (s.chan c).loop.held (isL c) := by
  unfold holdIntegrator Loop.held
  split
  · rfl
  · rw [chan_modLoop_self _ _ hc]

/-- The loop that a trip of leg `ab` leaves, in the reverse state (R260, R293). -/
def Loop.reversed (L ab : Bool) (l : Loop) : Loop :=
  if L then { l with reverse := true, releaseDue := false, highA := !ab }
  else { l with reverse := true, releaseDue := false, highA := !ab, atBound := true, integ := if ab then windowNow l else -windowNow l }

theorem held_reversed (L ab : Bool) (l : Loop) :
    { Loop.held L { l with highA := !ab } with reverse := true, releaseDue := false } = l.reversed L ab := by
  unfold Loop.held Loop.reversed
  cases L with
  | true => rfl
  | false => cases ab <;> rfl

theorem reversed_limRun (L ab : Bool) (l : Loop) : (l.reversed L ab).limRun = l.limRun := by cases L <;> rfl
theorem reversed_limTotal (L ab : Bool) (l : Loop) : (l.reversed L ab).limTotal = l.limTotal := by cases L <;> rfl

theorem limitedCycle_loopsOnly {c : Nat} (hc : c < 208) (s : State) : LoopsOnly c s (limitedCycle c s) := by
  unfold limitedCycle
  extract_lets n s1
  have h1 : LoopsOnly c s s1 := (modLoop_loopsOnly hc s _).trans (count_loopsOnly c _ _ _)
  split
  · exact h1.trans (life_loopsOnly c _ _ s1)
  · exact h1

theorem limitedCycle_loop {c : Nat} (hc : c < 208) (s : State) :
    ((limitedCycle c s).chan c).loop = { (s.chan c).loop with limTotal := (s.chan c).loop.limTotal + 1 } := by
  unfold limitedCycle
  dsimp only
  split
  · rw [chan_life, chan_count, chan_modLoop_self _ _ hc]
  · rw [chan_count, chan_modLoop_self _ _ hc]

/-- LOAD_SHORT faults its channel, on the fourth within 60 s of the first with LOAD_SHORT_REPEAT (R315, R316). -/
theorem loadShort_faulted {c : Nat} (hc : c < 208) {s : State} (hswitch : (s.chan c).fsm.state.switching = true) :
    Faulted c (chanCode c (if 3 ≤ ((s.chan c).fsm.shorts.filter fun x => decide (s.media.samples ≤ x + 60 * 96000)).length then 0x11 else 0x10))
      s (loadShort c s) := by
  unfold loadShort
  extract_lets now times s1
  have htimes : 4 ≤ times.length ↔ 3 ≤ ((s.chan c).fsm.shorts.filter fun x => decide (s.media.samples ≤ x + 60 * 96000)).length := by
    simp only [times, now, List.length_append, List.length_singleton]
    omega
  have htouch : TouchesChan c s s1 := ((modFsm_touchesChan s c _).trans (count_touchesChan c _ _ _)).trans (life_touchesChan c _ _ _)
  have hstate : (s1.chan c).fsm.state = (s.chan c).fsm.state := by
    rw [chan_life, chan_count, chan_modFsm_self _ _ hc]
  by_cases h : 4 ≤ times.length
  · rw [if_pos h, if_pos (htimes.mp h)]
    refine .after (htouch.trans (modFsm_touchesChan s1 c _)) rfl (hardStop_faulted hc ?_)
    rw [chan_modFsm_self _ _ hc]
    exact hstate ▸ hswitch
  · rw [if_neg h, if_neg (mt htimes.mpr h)]
    exact .after htouch rfl (hardStop_faulted hc (hstate ▸ hswitch))

/-- The state that a trip forces: the integrator held, the reverse state, and the cycles in a row counted to `n`. -/
def tripForced (c n : Nat) (s : State) : State :=
  (holdIntegrator c s).modLoop c fun l => { l with reverse := true, releaseDue := false, limRun := n }

/-- Limited cycles in a row with a new one. -/
def limitedRow (l : Loop) (consecutive : Bool) : Nat := if consecutive then l.limRun + 1 else 1

theorem trip_sameCycle (c : Nat) (con : Bool) (s : State) : trip c false con s = tripForced c (s.chan c).loop.limRun s := rfl

theorem trip_counted {c : Nat} {con : Bool} {s : State} (h : limitedRow (s.chan c).loop con < 8) :
    trip c true con s = limitedCycle c (tripForced c (limitedRow (s.chan c).loop con) s) := by
  unfold trip
  exact if_neg fun h' => absurd h'.2 (not_le.mpr h)

theorem trip_short {c : Nat} {con : Bool} {s : State} (h : 8 ≤ limitedRow (s.chan c).loop con) :
    trip c true con s = loadShort c (limitedCycle c (tripForced c (limitedRow (s.chan c).loop con) s)) := by
  unfold trip
  exact if_pos ⟨rfl, h⟩

/-- A state that differs from `s` by the leg alone that a trip takes low. -/
def LegTaken (c : Nat) (ab : Bool) (s u : State) : Prop :=
  LoopsOnly c s u ∧ (u.chan c).loop = { (s.chan c).loop with highA := !ab }

theorem tripForced_loopsOnly {c : Nat} (hc : c < 208) (n : Nat) (s : State) : LoopsOnly c s (tripForced c n s) :=
  (holdIntegrator_loopsOnly hc s).trans (modLoop_loopsOnly hc _ _)

theorem tripForced_loop {c : Nat} (hc : c < 208) (n : Nat) {ab : Bool} {s u : State} (h : LegTaken c ab s u) :
    ((tripForced c n u).chan c).loop = { (s.chan c).loop.reversed (isL c) ab with limRun := n } := by
  unfold tripForced
  rw [chan_modLoop_self _ _ hc, holdIntegrator_loop hc, h.2, ← held_reversed]

/-- A trip within a limited cycle forces the reverse state and counts nothing. -/
theorem trip_sameCycle_forces {c : Nat} (hc : c < 208) (con : Bool) {ab : Bool} {s u : State} (h : LegTaken c ab s u) :
    LoopsOnly c s (trip c false con u) ∧ ((trip c false con u).chan c).loop = (s.chan c).loop.reversed (isL c) ab := by
  rw [trip_sameCycle]
  refine ⟨h.1.trans (tripForced_loopsOnly hc _ u), ?_⟩
  rw [tripForced_loop hc _ h, h.2]
  dsimp only
  rw [← reversed_limRun (isL c) ab]

/-- A trip of a new cycle, short of the eighth in a row, also counts the cycle. -/
theorem trip_counted_forces {c : Nat} (hc : c < 208) {con : Bool} {ab : Bool} {s u : State} (h : LegTaken c ab s u)
    (hrow : limitedRow (s.chan c).loop con < 8) :
    LoopsOnly c s (trip c true con u) ∧ ((trip c true con u).chan c).loop = { (s.chan c).loop.reversed (isL c) ab with
      limRun := limitedRow (s.chan c).loop con, limTotal := (s.chan c).loop.limTotal + 1 } := by
  have hsame : limitedRow (u.chan c).loop con = limitedRow (s.chan c).loop con := by rw [h.2]; rfl
  rw [trip_counted (by rwa [hsame]), hsame]
  refine ⟨(h.1.trans (tripForced_loopsOnly hc _ u)).trans (limitedCycle_loopsOnly hc _), ?_⟩
  rw [limitedCycle_loop hc, tripForced_loop hc _ h]
  dsimp only
  rw [reversed_limTotal]

/-- The eighth limited cycle in a row declares LOAD_SHORT. -/
theorem trip_short_faults {c : Nat} (hc : c < 208) {ab : Bool} {s u : State} (h : LegTaken c ab s u)
    (hswitch : (s.chan c).fsm.state.switching = true) (hrow : 7 ≤ (s.chan c).loop.limRun) :
    Faulted c (chanCode c (if 3 ≤ ((s.chan c).fsm.shorts.filter fun x => decide (s.media.samples ≤ x + 60 * 96000)).length then 0x11 else 0x10))
      s (trip c true true u) := by
  have hrow' : 8 ≤ limitedRow (u.chan c).loop true := by rw [h.2]; exact Nat.succ_le_succ hrow
  rw [trip_short hrow']
  have hforced := (h.1.trans (tripForced_loopsOnly hc (limitedRow (u.chan c).loop true) u)).trans (limitedCycle_loopsOnly hc _)
  have hmedia : ∀ {t : State}, LoopsOnly c s t → t.media = s.media := fun ht => by rw [ht.1.1]
  have hshort := loadShort_faulted hc (hforced.fsm ▸ hswitch)
  rw [hforced.fsm, hmedia hforced] at hshort
  exact .after hforced.1 hforced.2.1 hshort

/-- A trip, whichever cycle it falls in, leaves every other unit driving as it did. -/
theorem trip_drives {c : Nat} (hc : c < 208) (cyc con : Bool) {ab : Bool} {s u : State} (h : LegTaken c ab s u)
    (hswitch : (s.chan c).fsm.state.switching = true) : DrivesChan c s (trip c cyc con u) := by
  cases cyc with
  | false => exact (trip_sameCycle_forces hc con h).1.1.drives
  | true =>
    by_cases hrow : limitedRow (s.chan c).loop con < 8
    · exact (trip_counted_forces hc h hrow).1.1.drives
    · cases con with
      | false => exact absurd (show 1 < 8 by decide) hrow
      | true => exact (trip_short_faults hc h hswitch (Nat.le_of_succ_le_succ (not_lt.mp hrow))).1

/-- The leg that a trip takes low, before the trip itself. -/
def tripLeg (c : Nat) (ab : Bool) (s : State) : State := s.modLoop c fun l => { l with highA := !ab }

theorem tripLeg_legTaken {c : Nat} (hc : c < 208) (ab : Bool) (s : State) : LegTaken c ab s (tripLeg c ab s) :=
  ⟨modLoop_loopsOnly hc s _, by rw [tripLeg, chan_modLoop_self _ _ hc]⟩

theorem LegTaken.count {c : Nat} {ab : Bool} {s u : State} (id n : Nat) (h : LegTaken c ab s u) : LegTaken c ab s (u.count id n) :=
  ⟨h.1.trans (count_loopsOnly c id n u), h.2⟩

theorem exec_currentLimitTrip {c : Nat} (ab cyc con : Bool) {fell dropped : Bool} {s : State} (harmed : armed s c = true)
    (hvolt : (s.chan c).fsm.voltageOnly = false) (h : (fell || dropped) = true) :
    exec (.currentLimitTrip c ab cyc con fell dropped) s = .next (trip c cyc con (tripLeg c ab s)) := by
  show execCurrentLimitTrip c ab cyc con fell dropped s = _
  unfold execCurrentLimitTrip
  dsimp only
  rw [if_pos (by simp [harmed, hvolt]), if_pos h]
  rfl

theorem exec_dropTrip {c : Nat} (ab cyc con : Bool) {s : State} (harmed : armed s c = true) :
    exec (.dropTrip c ab cyc con) s =
      .next (trip c cyc con ((tripLeg c ab s).count (chanStat c (if isL c then 0x0CB else 0x089)) 1)) := by
  show execDropTrip c ab cyc con s = _
  unfold execDropTrip
  rw [if_pos harmed]
  rfl

/-- The reverse state that a current which does not fall forces, its cycle counted in no row (R315, R319). -/
def unsensedTrip (c : Nat) (cyc : Bool) (s : State) : State :=
  (holdIntegrator c (if cyc then limitedCycle c s else s)).modLoop c fun l => { l with reverse := true, releaseDue := false }

theorem exec_currentLimitTrip_unsensed {c : Nat} (ab cyc con : Bool) {s : State} (harmed : armed s c = true)
    (hvolt : (s.chan c).fsm.voltageOnly = false) :
    exec (.currentLimitTrip c ab cyc con false false) s = .next (enterVoltageOnly c 2 (unsensedTrip c cyc (tripLeg c ab s))) := by
  show execCurrentLimitTrip c ab cyc con false false s = _
  unfold execCurrentLimitTrip
  dsimp only
  rw [if_pos (by simp [harmed, hvolt])]
  rfl

theorem unsensedTrip_forces {c : Nat} (hc : c < 208) (cyc : Bool) {ab : Bool} {s u : State} (h : LegTaken c ab s u) :
    LoopsOnly c s (unsensedTrip c cyc u) ∧
    ∃ n, ((unsensedTrip c cyc u).chan c).loop = { (s.chan c).loop.reversed (isL c) ab with limTotal := n } := by
  have hcounted : LoopsOnly c u (if cyc then limitedCycle c u else u) ∧
      ∃ n, ((if cyc then limitedCycle c u else u).chan c).loop = { (u.chan c).loop with limTotal := n } := by
    split
    · exact ⟨limitedCycle_loopsOnly hc u, _, limitedCycle_loop hc u⟩
    · exact ⟨.rfl' c u, _, rfl⟩
  obtain ⟨hloops, n, hn⟩ := hcounted
  unfold unsensedTrip
  refine ⟨((h.1.trans hloops).trans (holdIntegrator_loopsOnly hc _)).trans (modLoop_loopsOnly hc _ _), n, ?_⟩
  rw [chan_modLoop_self _ _ hc, holdIntegrator_loop hc, hn, h.2, ← held_reversed]
  unfold Loop.held
  cases isL c <;> rfl

theorem reversed_bound (ab : Bool) (l : Loop) :
    (l.reversed false ab).atBound = true ∧ (l.reversed false ab).integ = if ab then windowNow l else -windowNow l := ⟨rfl, rfl⟩

theorem reversed_reverse (L ab : Bool) (l : Loop) : (l.reversed L ab).reverse = true := by cases L <;> rfl

/-! ### Releases, stalls and delay lines (R255, R260, R267, R293) -/

theorem exec_reverseStateRelease {c : Nat} {s : State} (h : (s.chan c).loop.reverse = true) : exec (.reverseStateRelease c) s =
    .next (s.modLoop c fun l => if isL c then { l with releaseDue := true } else { l with reverse := false }) := by
  show execReverseStateRelease c s = _
  rw [execReverseStateRelease, if_pos h]

theorem exec_loopStall {c : Nat} {s : State} (harmed : armed s c = true) (hS : isL c = false) :
    exec (.loopStall c) s = .next (hardStop c (chanCode c 0x31) [] s) := by
  show execLoopStall c s = _
  rw [execLoopStall, if_pos (by simp [harmed, hS])]

theorem exec_delayLineCal {d : Nat} {s : State} (h : (s.dsd d).released = true) :
    exec (.delayLineCal d) s = .next (s.modDsd d fun q => { q with lineCal := q.lineCal + 1 }) := by
  show execDelayLineCal d s = _
  rw [execDelayLineCal, if_pos h]

end Sys2Proof.Machine
open Sys2Proof Sys2Proof.Machine

/-- Settles O36: an edge by whether its integral crosses, a trip by the cycle it falls in, the other rows by their effect on the loop. -/
theorem loopRows : Obligations.LoopRows := by
  intro s c hc
  refine ⟨?edge, ?spread, ?adapt, ?trips, ?unsensed, exec_reverseStateRelease, ?stall, ?line⟩
  case edge =>
    intro n j v i dtNs w lim harmed hS hcyc hmargin hw hlim
    subst hw hlim
    have hclamped := edgeClamped_loopsOnly hc n j s
    obtain ⟨k, hloop⟩ := edgeClamped_loop hc n j s
    have htaken := hclamped.trans (edgeTaken_loopsOnly hc dtNs (s.chan c).loop (edgeIntegral s c n j v i dtNs) (edgeClamped c n j s))
    refine ⟨_, exec_loopComparatorEdge n j v i dtNs harmed hS hcyc hmargin, htaken.1, htaken.fsm, fun hrev => ?_, fun hrev => ?_⟩
    · rw [edgeTaken, if_pos hrev, hloop]
      exact ⟨rfl, rfl⟩
    · obtain ⟨hcross, hstay⟩ := edgeTaken_loop hc dtNs (edgeIntegral s c n j v i dtNs) (edgeClamped c n j s) hrev
      rw [hloop] at hcross hstay
      refine ⟨clampRat (-edgeLimit s c) (edgeLimit s c) (edgeReference s c n j), edgeIntegral s c n j v i dtNs,
        edgeCrosses (s.chan c).loop (edgeIntegral s c n j v i dtNs), clampRat_within _ _, rfl, ?_, fun h => ?_, fun h => ?_, fun hplain => ?_⟩
      · unfold edgeCrosses
        cases (s.chan c).loop.highA <;> simp
      · rw [hcross h]
        exact ⟨rfl, rfl, rfl⟩
      · rw [hstay h]
        exact ⟨rfl, rfl⟩
      · refine ⟨by rw [edgeReference, testSequence_none hplain, add_zero]; rfl, fun hwithin => ?_⟩
        rw [edgeClamped_within hplain hwithin]
        exact edgeTaken_counted c dtNs _ s hrev
  case spread => exact exec_spreadDraw hc
  case adapt =>
    intro edge early late n harmed hmode hedge hn
    obtain rfl : n = adaptedDead s c edge early late := hn
    exact exec_deadtimeAdapt hc harmed hmode hedge
  case trips =>
    intro ab cyc con fell dropped l hfall harmed hswitch hvolt hl
    obtain rfl : l = (s.chan c).loop.reversed (isL c) ab := hl
    have hlimit := tripLeg_legTaken hc ab s
    have hdrop := hlimit.count (chanStat c (if isL c then 0x0CB else 0x089)) 1
    refine ⟨_, _, exec_currentLimitTrip ab cyc con harmed hvolt hfall, exec_dropTrip ab cyc con harmed,
      trip_drives hc cyc con hlimit hswitch, trip_drives hc cyc con hdrop hswitch, ?_⟩
    have hboth : ∀ v, v = trip c cyc con (tripLeg c ab s) ∨
        v = trip c cyc con ((tripLeg c ab s).count (chanStat c (if isL c then 0x0CB else 0x089)) 1) →
        ∃ u, LegTaken c ab s u ∧ v = trip c cyc con u := by
      rintro v (rfl | rfl)
      · exact ⟨_, hlimit, rfl⟩
      · exact ⟨_, hdrop, rfl⟩
    refine ⟨fun hcyc v hv => ?_, fun hcyc hrow v hv => ?_, fun hcyc hcon hrow v hv => ?_⟩
    · obtain ⟨u, hleg, rfl⟩ := hboth v hv
      subst hcyc
      obtain ⟨hloops, hloop⟩ := trip_sameCycle_forces hc con hleg
      exact ⟨hloops.fsm, hloop⟩
    · obtain ⟨u, hleg, rfl⟩ := hboth v hv
      subst hcyc
      obtain ⟨hloops, hloop⟩ := trip_counted_forces hc hleg hrow
      exact ⟨hloops.fsm, hloop⟩
    · obtain ⟨u, hleg, rfl⟩ := hboth v hv
      subst hcyc hcon
      obtain ⟨-, hstate, hcode, hbridge, -⟩ := trip_short_faults hc hleg hswitch hrow
      exact ⟨hstate, hbridge, hcode⟩
  case unsensed =>
    intro ab cyc con harmed hvolt
    obtain ⟨hloops, n, hloop⟩ := unsensedTrip_forces hc cyc (tripLeg_legTaken hc ab s)
    obtain ⟨hfsm, hkept, -⟩ := enterVoltageOnly_fsm c 2 (unsensedTrip c cyc (tripLeg c ab s)) hc
    refine ⟨_, exec_currentLimitTrip_unsensed ab cyc con harmed hvolt, hloops.1.trans (enterVoltageOnly_touchesChan c 2 _), ?_⟩
    rw [hfsm, hkept, hloop, hloops.fsm]
    refine ⟨rfl, reversed_reverse _ _ _, reversed_limRun _ _ _, fun hS => ?_⟩
    rw [hS]
    exact reversed_bound ab _
  case stall =>
    intro harmed hS hswitch
    exact ⟨_, exec_loopStall harmed hS, hardStop_faulted hc hswitch⟩
  case line =>
    intro d hd hreleased
    exact ⟨_, exec_delayLineCal hreleased, rfl, dsd_modDsd_self s _ hd⟩
end

section
/-! PROOFS. The mute line and the emergency multiplier, the zone temperatures and the stage shutdown (R271, R312, R313, R321 to R323, Tables 12.2
and 12.5). -/

namespace Sys2Proof.Machine

/-! ### The mute line (R312, R313) -/

theorem exec_muteNFiltered {s : State} (b : Bool) (n : Nat) (hlock : s.media.locked = true) :
    exec (.muteNFiltered b n) s = .next (if 64 ≤ n then { s with spi := { s.spi with mutePin := b } } else s) := by
  show execMuteNFiltered b n s = _
  unfold execMuteNFiltered
  by_cases h : 64 ≤ n
  · rw [if_pos (by simp [hlock, h]), if_pos h]
  · rw [if_neg (by simp [h]), if_neg h]

/-- The multiplier of an enabled channel heads for its goal; a rise that the partner's line holds does not begin. -/
theorem moveE_chan (goal : Rat) (s : State) {c : Nat} (hc : c < 208) : (moveE goal s).chan c =
    if s.enabled c && !(goal != 0 && s.twin.muted && bothDrive s c) then
      { s.chan c with dsp := { (s.chan c).dsp with e := (s.chan c).dsp.e.to goal 1024 } } else s.chan c :=
  chan_mapIdx s _ hc

theorem exec_emuteFallStart {s : State} (hlock : s.media.locked = true) (hline : muteLine s = true)
    (hstate : s.misc.muteState = 0 ∨ s.misc.muteState = 3) :
    exec .emuteFallStart s = .next { moveE 0 s with misc := { s.misc with muteState := 1 } } := by
  show execEmuteFallStart s = _
  rw [execEmuteFallStart, if_pos (by simp [hlock, hline, hstate])]

/-- Setting bits of IRQ_STATUS clears none, whether the Keeper runs or not (R90). -/
theorem irqSpi_keeps {w : Word} (halted : Bool) (m : Word) {p : Spi} (h : p.irqStatus &&& w = w) : (irqSpi halted m p).irqStatus &&& w = w := by
  unfold irqSpi
  split
  · exact and_or_of_and _ h
  · exact and_or_of_and _ h

theorem raise_keepsIrq {w : Word} {s : State} (code inst : Nat) (data : List Word) (h : s.spi.irqStatus &&& w = w) :
    (s.raise code inst data).spi.irqStatus &&& w = w := by
  unfold State.raise
  split
  · unfold State.enter
    dsimp only
    rw [irq_spi]
    refine irqSpi_keeps _ _ ?_
    split <;> exact h
  · exact h

/-- MUTED does not wait for the Keeper (R90). -/
theorem irqSpi_muted (halted : Bool) (p : Spi) : (irqSpi halted irqMuted p).irqStatus &&& irqMuted = irqMuted := by
  have hbit : ∀ v : Word, (v ||| irqMuted) &&& irqMuted = irqMuted := fun v => by
    rw [BitVec.or_comm]
    exact and_or_of_and v BitVec.and_self
  have hown : irqMuted &&& ~~~irqKeeper = irqMuted := by decide
  unfold irqSpi
  split
  · dsimp only
    rw [hown]
    exact hbit _
  · exact hbit _

theorem allMuted_of {s : State} (h : ∀ c, c < 208 → s.enabled c = true → (s.chan c).dsp.e.now = 0) : allMuted s = true := by
  unfold allMuted
  rw [List.all_eq_true]
  intro c hc
  cases hen : s.enabled c with
  | false => rfl
  | true => simp [h c (List.mem_range.mp hc) hen]

/-- Every channel has fallen silent: SILENT and the interrupt bit. -/
def silenced (s : State) : State :=
  ({ s with misc := { s.misc with muteState := 2 }, spi := { s.spi with silent := true } } : State).irq irqMuted

theorem exec_emuteSilent {s : State} (hstate : s.misc.muteState = 1) (hall : allMuted s = true) :
    exec .emuteSilent s = .next ((silenced s).raise 0x5050 0 [word (bit s.spi.mutePin 0 + bit s.spi.emute 1)]) := by
  show execEmuteSilent s = _
  unfold execEmuteSilent
  rw [if_pos (by simp [hstate, hall])]
  rfl

theorem silenced_reports (s : State) :
    Reports { s with misc := { s.misc with muteState := 2 }, spi := { s.spi with silent := true } } (silenced s) := irq_reports _ _

theorem silenced_spi (s : State) : (silenced s).spi = irqSpi s.keeper.halted irqMuted { s.spi with silent := true } := irq_spi _ _

theorem silenced_log (s : State) : (silenced s).log = s.log := irq_log _ _

/-! ### The end of a mute (R271, R272, R313) -/

/-- What the release makes of the multipliers: the fall of a brown-out and of SAFE goes on (R63). -/
def riseBegun (s : State) : State := if s.power.falling || s.keeper.dev == .safe then s else moveE 1 s

/-- The device no longer mutes; its channels still do. -/
def muteReleasing (s : State) : State :=
  { riseBegun s with misc := { (riseBegun s).misc with muteState := 3 }, spi := { (riseBegun s).spi with silent := false } }

theorem exec_emuteRiseStart {s : State} (hlock : s.media.locked = true) (hline : muteLine s = false)
    (hstate : s.misc.muteState = 1 ∨ s.misc.muteState = 2) :
    exec .emuteRiseStart s = .next ((forUnits 208 unmute (muteReleasing s)).raise 0x5051 0 []) := by
  show execEmuteRiseStart s = _
  rw [execEmuteRiseStart, if_pos (by simp [hlock, hline, hstate])]
  rfl

theorem riseBegun_eq (s : State) : riseBegun s = { s with chans := (riseBegun s).chans } := by
  unfold riseBegun
  split <;> rfl

/-- The multiplier of each channel as the rise begins, its loop and its state as they were. -/
theorem riseBegun_chan (s : State) {c : Nat} (hc : c < 208) : (riseBegun s).chan c = { s.chan c with dsp := { (s.chan c).dsp with
    e := if s.enabled c ∧ s.power.falling = false ∧ s.keeper.dev ≠ .safe ∧ ¬(s.twin.muted ∧ bothDrive s c) then (s.chan c).dsp.e.to 1 1024
      else (s.chan c).dsp.e } } := by
  unfold riseBegun
  by_cases hfall : (s.power.falling || s.keeper.dev == .safe) = true
  · have hno : ¬ (s.enabled c ∧ s.power.falling = false ∧ s.keeper.dev ≠ .safe ∧ ¬(s.twin.muted ∧ bothDrive s c)) := by
      rintro ⟨-, hup, hdev, -⟩
      simp [hup, hdev] at hfall
    rw [if_pos hfall, if_neg hno]
  · obtain ⟨hup, hdev⟩ : s.power.falling = false ∧ s.keeper.dev ≠ .safe := by simpa using hfall
    have hcond : (s.enabled c && !((1 : Rat) != 0 && s.twin.muted && bothDrive s c)) = true ↔
        (s.enabled c ∧ s.power.falling = false ∧ s.keeper.dev ≠ .safe ∧ ¬(s.twin.muted ∧ bothDrive s c)) := by
      simp [hup, hdev, imp_iff_not_or]
    rw [if_neg hfall, moveE_chan 1 s hc]
    by_cases h : (s.enabled c && !((1 : Rat) != 0 && s.twin.muted && bothDrive s c)) = true
    · rw [if_pos h, if_pos (hcond.mp h)]
    · rw [if_neg h, if_neg (mt hcond.mpr h)]

/-- The mute sources of a channel rest on what the release leaves. -/
theorem muteReleasing_muteReleased (s : State) {c : Nat} (hc : c < 208) : muteReleased (muteReleasing s) c = muteReleased s c := by
  have hchan : (muteReleasing s).chan c = (riseBegun s).chan c := rfl
  unfold muteReleased muteOf bothDrive armed
  rw [hchan, riseBegun_chan s hc]
  unfold muteReleasing
  rw [riseBegun_eq]
  rfl

/-- What the release makes of one channel: its multiplier goes on as begun, and MUTED with every source released returns to RUN. -/
def Unmuted (s : State) (c : Nat) (a b : Chan) : Prop :=
  b.dsp.e = a.dsp.e ∧ (a.fsm.state = .muted → a.fsm.stop = .none → muteReleased s c = true → b.fsm.state = .run) ∧
  (a.fsm.state ≠ .muted → b.fsm = a.fsm)

theorem unmute_unmuted {c : Nat} (hc : c < 208) {s u : State} (h : Mutes s u) : Unmuted s c (u.chan c) ((unmute c u).chan c) := by
  have hsources := h.muteReleased c
  unfold unmute
  split
  · rename_i hfree
    rw [chan_modChan_self _ _ hc, maskDue_chan]
    exact ⟨rfl, fun _ _ _ => rfl, fun hne => absurd hfree.1 hne⟩
  · rename_i hheld
    exact ⟨rfl, fun hmuted hstop hfree => absurd ⟨hmuted, hstop, hsources.trans hfree⟩ hheld, fun _ => rfl⟩

theorem unmute_other {c k : Nat} (hk : k ≠ c) (s : State) : (unmute c s).chan k = s.chan k := by
  unfold unmute
  split
  · rw [chan_modChan_other _ _ hk, maskDue_chan]
  · rfl

theorem forUnits_unmute_mutes (s : State) : Mutes s (forUnits 208 unmute s) :=
  forUnits_invariant (P := Mutes s) (fun c _ h => h.trans (unmute_mutes c _)) 208 (Mutes.rfl' s)

theorem forUnits_unmute (s : State) {c : Nat} (hc : c < 208) : Unmuted s c (s.chan c) ((forUnits 208 unmute s).chan c) :=
  forUnits_units (get := State.chan) (R := Unmuted s) (P := Mutes s) (fun k _ h => h.trans (unmute_mutes k _)) (fun _ _ u hk => unmute_other hk u)
    (fun _ _ hk h => unmute_unmuted hk h) (Mutes.rfl' s) hc

/-! ### Heatsink zones (R321) -/

theorem ntcKind_eq (ohm : Rat) : ntcKind ohm = if 1000000 < ohm then 1 else if ohm < 100 then 2 else 0 := by
  unfold ntcKind ntcInRange
  by_cases hopen : 1000000 < ohm
  · simp [hopen, not_le.mpr hopen]
  · by_cases hshort : ohm < 100
    · simp [hopen, hshort, not_le.mpr hshort]
    · simp [hopen, hshort, not_lt.mp hopen, not_lt.mp hshort]

theorem exec_zoneNtcSample {d : Nat} (ohm die : Rat) {s : State} (h : (s.dsd d).released = true) :
    exec (.zoneNtcSample d ohm die) s = .next (s.modDsd d (zoneReading ohm die)) := by
  show execZoneNtcSample d ohm die s = _
  rw [execZoneNtcSample, if_pos h]

theorem zoneReading_eq (ohm die : Rat) (q : Dsd) : zoneReading ohm die q =
    { (if q.onDie then zoneTake die q else if ntcInRange ohm then zoneTake (ntcCelsius ohm) q else q) with
      ntcBad := (if 1000000 < ohm then 1 else if ohm < 100 then 2 else 0)
      ntcMs := (if q.ntcBad = (if 1000000 < ohm then 1 else if ohm < 100 then 2 else 0) then q.ntcMs + 1 else 1) } := by
  rw [← ntcKind_eq]
  rfl

/-- A die whose temperature comes from a new source starts its mean afresh. -/
def Dsd.sourced (onDie : Bool) (kind : Nat) (q : Dsd) : Dsd :=
  { q with onDie := onDie, ntcWas := kind, readings := [], ntcBad := 0, ntcMs := 0, hotMs := 0 }

theorem zoneSource_dsd {d : Nat} (hd : d < 4) (kind : Nat) (s : State) : (zoneSource d kind s).dsd d =
    if (s.dsd d).onDie = (kind != 0) then { s.dsd d with ntcWas := kind } else (s.dsd d).sourced (kind != 0) kind := dsd_modDsd_self s _ hd

/-- A thermistor declared failed: the die's own sensor is the source, and the failure is raised. -/
def ntcDeclared (d kind code : Nat) (ohm : Rat) (s : State) : State := (zoneSource d kind s).raise code (0x100 + d) [ohmWord ohm]

theorem ntcDeclared_effects {d kind : Nat} (hd : d < 4) (hkind : (kind != 0) = true) (code : Nat) (ohm : Rat) (s : State) :
    Reports { s with dsds := (ntcDeclared d kind code ohm s).dsds } (ntcDeclared d kind code ohm s) ∧
    (ntcDeclared d kind code ohm s).dsd d =
      (if (s.dsd d).onDie then { s.dsd d with ntcWas := kind } else (s.dsd d).sourced true kind) ∧
    Raised code (0x100 + d) [ohmWord ohm] s (ntcDeclared d kind code ohm s) := by
  have hreports : Reports (zoneSource d kind s) (ntcDeclared d kind code ohm s) := raise_reports _ _ _ _
  have hdsds : (ntcDeclared d kind code ohm s).dsds = (zoneSource d kind s).dsds := by rw [hreports]
  refine ⟨by rw [hdsds]; exact hreports, ?_, (raise_raised _ _ _ _).of_log rfl rfl⟩
  rw [hreports.dsd, zoneSource_dsd hd, hkind]

theorem exec_zoneNtcOpen {d : Nat} {ohm : Rat} {s : State} (hreleased : (s.dsd d).released = true) (hwas : (s.dsd d).ntcWas ≠ 1)
    (hbad : (s.dsd d).ntcBad = 1) (hms : 100 ≤ (s.dsd d).ntcMs) (hohm : 1000000 < ohm) :
    exec (.zoneNtcOpen d ohm) s = .next (ntcDeclared d 1 0x5022 ohm s) := by
  show execZoneNtcOpen d ohm s = _
  rw [execZoneNtcOpen, if_pos (by simp [ntcFailed, hreleased, hwas, hbad, hms, hohm])]
  rfl

theorem exec_zoneNtcShort {d : Nat} {ohm : Rat} {s : State} (hreleased : (s.dsd d).released = true) (hwas : (s.dsd d).ntcWas ≠ 2)
    (hbad : (s.dsd d).ntcBad = 2) (hms : 100 ≤ (s.dsd d).ntcMs) (hohm : ohm < 100) :
    exec (.zoneNtcShort d ohm) s = .next (ntcDeclared d 2 0x5023 ohm s) := by
  show execZoneNtcShort d ohm s = _
  rw [execZoneNtcShort, if_pos (by simp [ntcFailed, hreleased, hwas, hbad, hms, hohm])]
  rfl

theorem exec_zoneNtcReturn {d : Nat} {s : State} (hreleased : (s.dsd d).released = true) (hdie : (s.dsd d).onDie = true)
    (hbad : (s.dsd d).ntcBad = 0) (hms : 10000 ≤ (s.dsd d).ntcMs) : exec (.zoneNtcReturn d) s = .next (zoneSource d 0 s) := by
  show execZoneNtcReturn d s = _
  unfold execZoneNtcReturn
  dsimp only
  rw [if_pos (by simp [hreleased, hdie, hbad, hms])]

/-! ### Stage shutdown (R322, R323) -/

/-- A cause that stops the switching channels of a list. -/
def stopSwitching (low : Nat) (data : List Word) (c : Nat) (s : State) : State :=
  if (s.chan c).fsm.bridge = .switching then hardStop c (chanCode c low) data s else s

theorem stopSwitching_touches (low : Nat) (data : List Word) (c : Nat) (s : State) : Touches s (stopSwitching low data c s) := by
  unfold stopSwitching
  split
  · exact hardStop_touches _ _ _ _
  · rfl

theorem stopSwitching_sameRail (low : Nat) (data : List Word) (c : Nat) (s : State) (r : Nat) :
    SameRail (s.rail r) ((stopSwitching low data c s).rail r) := by
  unfold stopSwitching
  split
  · exact hardStop_sameRail _ _ _ _ r
  · rfl

theorem stopSwitching_other (low : Nat) (data : List Word) {c k : Nat} (hk : k ≠ c) (s : State) :
    SameDrive (s.chan k) ((stopSwitching low data c s).chan k) := by
  unfold stopSwitching
  split
  · exact hardStop_other _ _ _ _ hk
  · exact SameDrive.rfl' _

/-- A channel of the list whose bridge switches faults once; a channel outside it, or held, drives on. -/
theorem forList_stopSwitching (low : Nat) (data : List Word) (l : List Nat) (s : State) {k : Nat} (hk : k < 208) :
    (k ∈ l → (s.chan k).fsm.bridge = .switching → (s.chan k).fsm.state.switching = true →
      ((forList l (stopSwitching low data) s).chan k).fsm.state = .fault ∧
      ((forList l (stopSwitching low data) s).chan k).fsm.code = chanCode k low) ∧
    (k ∉ l ∨ (s.chan k).fsm.bridge ≠ .switching → SameDrive (s.chan k) ((forList l (stopSwitching low data) s).chan k)) := by
  unfold forList
  induction l generalizing s with
  | nil => exact ⟨fun h => absurd h List.not_mem_nil, fun _ => SameDrive.rfl' _⟩
  | cons a l ih =>
    rw [List.foldl_cons]
    obtain ⟨hstops, hstands⟩ := ih (stopSwitching low data a s)
    by_cases ha : k = a
    · subst ha
      refine ⟨fun _ hbridge hswitch => ?_, fun h => ?_⟩
      · obtain ⟨hstate, hcode, hhold, -⟩ := hardStop_switching (code := chanCode k low) (data := data) hk hswitch
        have hstep : stopSwitching low data k s = hardStop k (chanCode k low) data s := if_pos hbridge
        rw [hstep] at hstands ⊢
        obtain ⟨kstate, kcode, -⟩ := hstands (.inr (hhold ▸ holdFor_ne s k))
        exact ⟨kstate.trans hstate, kcode.trans hcode⟩
      · have hheld : (s.chan k).fsm.bridge ≠ .switching := h.resolve_left fun hout => hout List.mem_cons_self
        have hstep : stopSwitching low data k s = s := if_neg hheld
        rw [hstep] at hstands ⊢
        exact hstands (.inr hheld)
    · have hdrive := stopSwitching_other low data ha s
      obtain ⟨hstate, -, hbridge, -⟩ := id hdrive
      rw [hstate, hbridge] at hstops
      rw [hbridge] at hstands
      refine ⟨fun hmem => hstops ((List.mem_cons.mp hmem).resolve_left ha), fun h => hdrive.trans (hstands ?_)⟩
      exact h.imp_left fun hout hmem => hout (List.mem_cons_of_mem a hmem)

/-- The die with its shutdown begun and counted anew, and its event raised once, before its channels stop. -/
def stageShut (d : Nat) (s : State) : State :=
  let s0 := s.modDsd d fun q => { q with shut := true, hotMs := 0 }
  if (s.dsd d).shut then s0 else s0.raise 0x5021 (0x100 + d) [wordU (10 * (s.dsd d).zoneC)]

theorem stageShut_reports (d : Nat) (s : State) : Reports (s.modDsd d fun q => { q with shut := true, hotMs := 0 }) (stageShut d s) := by
  unfold stageShut
  extract_lets s0
  split
  · rfl
  · exact raise_reports _ _ _ _

theorem exec_stageShutdown {d : Nat} {s : State} (hreleased : (s.dsd d).released = true) (hhot : 100 ≤ (s.dsd d).hotMs) :
    exec (.stageShutdown d) s = .next (forList (chansOf d) (stopSwitching 0x21 [wordU (10 * (s.dsd d).zoneC)]) (stageShut d s)) := by
  show execStageShutdown d s = _
  unfold execStageShutdown
  dsimp only
  rw [if_pos (by simp [hreleased, hhot])]
  rfl

end Sys2Proof.Machine
open Sys2Proof Sys2Proof.Machine

/-- Settles O37: the mute rows by the multipliers they move, the zone rows by their die, the shutdown by the stop of each switching channel. -/
theorem muteAndZoneRows : Obligations.MuteAndZoneRows := by
  intro s
  refine ⟨fun b n => exec_muteNFiltered b n, ?fall, ?silent, ?rise, ?zones⟩
  case fall =>
    intro hlock hline hstate
    refine ⟨_, exec_emuteFallStart hlock hline hstate, rfl, fun c hc => ?_⟩
    refine (moveE_chan 0 s hc).trans ?_
    simp
  case silent =>
    intro hstate hall
    have hraised := raise_reports 0x5050 0 [word (bit s.spi.mutePin 0 + bit s.spi.emute 1)] (silenced s)
    have hsilent := silenced_reports s
    have hlog := silenced_log s
    refine ⟨_, exec_emuteSilent hstate (allMuted_of hall), ?_, ?_, raise_keepsIrq _ _ _ ?_, ?_, ?_, (raise_raised _ _ _ _).of_log ?_ ?_⟩
    · rw [hraised, hsilent]
    · rw [hraised, hsilent]
    · rw [silenced_spi]
      exact irqSpi_muted _ _
    · rw [hraised, hsilent]
    · rw [hraised, hsilent]
      exact ⟨rfl, rfl, rfl, rfl⟩
    · rw [hlog]
    · rw [hlog]
  case rise =>
    intro hlock hline hstate
    have hraised := raise_reports 0x5051 0 [] (forUnits 208 unmute (muteReleasing s))
    obtain ⟨hmutes, -⟩ := forUnits_unmute_mutes (muteReleasing s)
    have hrise : muteReleasing s = { s with
        chans := (riseBegun s).chans, misc := { s.misc with muteState := 3 }, spi := { s.spi with silent := false } } := by
      unfold muteReleasing
      rw [riseBegun_eq]
    refine ⟨_, exec_emuteRiseStart hlock hline hstate, ?_, ?_, ?_, (raise_raised _ _ _ _).of_log ?_ ?_, fun c hc => ?_⟩
    · rw [hraised, hmutes, hrise]
    · rw [hraised, hmutes, hrise]
    · rw [hraised, hmutes, hrise]
      exact ⟨rfl, rfl, rfl, rfl⟩
    · rw [hmutes, hrise]
    · rw [hmutes, hrise]
    · obtain ⟨hmult, hrun, hkeep⟩ := forUnits_unmute (muteReleasing s) hc
      have hchan : (muteReleasing s).chan c = (riseBegun s).chan c := rfl
      rw [muteReleasing_muteReleased s hc, hchan, riseBegun_chan s hc] at hrun
      rw [hchan, riseBegun_chan s hc] at hmult hkeep
      rw [hraised.chan]
      exact ⟨hmult, fun hmuted hstop hflag hfree => hrun hmuted hstop (by simp [muteReleased, hflag, hfree]), hkeep⟩
  case zones =>
    intro d ohm die hd hreleased
    refine ⟨⟨_, exec_zoneNtcSample ohm die hreleased, rfl, (dsd_modDsd_self s _ hd).trans (zoneReading_eq ohm die _)⟩,
      fun hwas hbad hms hohm => ⟨_, exec_zoneNtcOpen hreleased hwas hbad hms hohm, ntcDeclared_effects hd rfl 0x5022 ohm s⟩,
      fun hwas hbad hms hohm => ⟨_, exec_zoneNtcShort hreleased hwas hbad hms hohm, ntcDeclared_effects hd rfl 0x5023 ohm s⟩,
      fun hdie hbad hms => ⟨_, exec_zoneNtcReturn hreleased hdie hbad hms, rfl, ?_⟩, fun hhot => ?_⟩
    · rw [zoneSource_dsd hd, hdie]
      rfl
    · have hshut := stageShut_reports d s
      have hquiet : Quiet s (stageShut d s) := Quiet.trans (t := s.modDsd d fun q => { q with shut := true, hotMs := 0 }) ⟨rfl, rfl, rfl, rfl⟩
        hshut.touches.quiet
      have htouch : Touches (stageShut d s) _ :=
        forList_touches (stopSwitching_touches 0x21 [wordU (10 * (s.dsd d).zoneC)]) (chansOf d) (stageShut d s)
      refine ⟨_, exec_stageShutdown hreleased hhot, hquiet.trans htouch.quiet, ?_, ?_, fun r => ?_, fun c hc => ?_⟩
      · rw [htouch.dsd, hshut.dsd, dsd_modDsd_self _ _ hd]
      · rw [htouch.dsd, hshut.dsd, dsd_modDsd_self _ _ hd]
      · have hrail : (stageShut d s).rail r = s.rail r := hshut.rail r
        rw [← hrail]
        exact forList_invariant (P := fun t => SameRail ((stageShut d s).rail r) (t.rail r))
          (fun k u h => h.trans (stopSwitching_sameRail 0x21 _ k u r)) (chansOf d) (SameRail.rfl' _)
      · obtain ⟨hstops, hstands⟩ := forList_stopSwitching 0x21 [wordU (10 * (s.dsd d).zoneC)] (chansOf d) (stageShut d s) hc
        have hchan : (stageShut d s).chan c = s.chan c := hshut.chan c
        rw [hchan, mem_chansOf hc hd] at hstops hstands
        exact ⟨hstops, hstands⟩
end

section
/-! PROOFS. The filters of RSEL, the ceiling terms, the two writes of c_keeper and the selection of a controller (R304, R335, R336, R338, Table 1.5). -/

namespace Sys2Proof.Machine

/-! ### The filters of RSEL (R335) -/

/-- A row that has stood for the longest time of its own direction is taken where it differs. -/
theorem rselTaken_of_stood {up down old row us : Nat} (s : State) (h : (if old < row then up else down) + 100 ≤ us) :
    rselTaken up down old row us s = (decide (row ≠ old), s) := by
  unfold rselTaken State.filtered
  by_cases hrow : row = old
  · simp [hrow]
  · rw [if_neg hrow, if_neg (by omega), if_pos h, decide_eq_true hrow]

/-- A row that has stood for less than the shortest time of its own direction is not taken. -/
theorem rselTaken_of_early {up down old row us : Nat} (s : State) (h : us < if old < row then up else down) :
    rselTaken up down old row us s = (false, s) := by
  unfold rselTaken State.filtered
  by_cases hrow : row = old
  · rw [if_pos hrow]
  · rw [if_neg hrow, if_pos h]

/-- Two values of a controller of which only the row and the target may differ. -/
def RowOnly (a b : Rail) : Prop := b = { a with row := b.row, target := b.target }

theorem RowOnly.rfl' (a : Rail) : RowOnly a a := rfl

theorem RowOnly.trans {a b c : Rail} (h : RowOnly a b) (k : RowOnly b c) : RowOnly a c := by
  unfold RowOnly at *
  rw [k, h]

/-- A change of the ceiling terms leaves of every controller all but its row and target. -/
theorem ceilingChanged_rowOnly (r old : Nat) (s : State) (k : Nat) : RowOnly (s.rail k) ((ceilingChanged r old s).rail k) := by
  obtain ⟨⟨-, -, hother⟩, hown⟩ := ceilingChanged_rail r old s
  by_cases hk : k = r
  · subst hk
    exact hown
  · rw [hother k hk]
    exact RowOnly.rfl' _

/-- The controllers follow changed ceilings, of which `old` gives the values before. -/
def ceilingsChanged (old : Nat → Nat) (s : State) : State := forUnits 12 (fun r t => ceilingChanged r (old r) t) s

theorem ceilingsChanged_touches (old : Nat → Nat) (s : State) : Touches s (ceilingsChanged old s) :=
  forUnits_touches (fun r t => ceilingChanged_touches r (old r) t) 12 s

theorem ceilingsChanged_chans (old : Nat → Nat) (s : State) : (ceilingsChanged old s).chans = s.chans :=
  forUnits_invariant (P := fun t => t.chans = s.chans) (fun r t h => (ceilingChanged_rail r (old r) t).1.2.1.trans h) 12 rfl

theorem ceilingsChanged_rowOnly (old : Nat → Nat) (s : State) (k : Nat) : RowOnly (s.rail k) ((ceilingsChanged old s).rail k) :=
  forUnits_invariant (P := fun t => RowOnly (s.rail k) (t.rail k)) (fun r t h => h.trans (ceilingChanged_rowOnly r (old r) t k)) 12 (RowOnly.rfl' _)

/-- The RAIL domain with a new row on its pins. -/
def rselRailSet (row : Nat) (s : State) : State := { s with misc := { s.misc with rselRail := row } }

theorem exec_rselFilterRail_taken {row us : Nat} {s : State} (hdone : s.power.seqDone = true)
    (hus : (if s.misc.rselRail < min row 7 then 500 else 1500) + 100 ≤ us) :
    exec (.rselFilterRail row us) s = .next (if min row 7 = s.misc.rselRail then s else ceilingsChanged (cEffRail s) (rselRailSet (min row 7) s)) := by
  show execRselFilterRail row us s = _
  unfold execRselFilterRail
  dsimp only
  rw [if_pos hdone, rselTaken_of_stood s hus]
  by_cases hrow : min row 7 = s.misc.rselRail
  · rw [if_pos hrow, if_neg (by simp [hrow])]
  · rw [if_neg hrow, if_pos (decide_eq_true hrow)]
    rfl

theorem exec_rselFilterRail_early {row us : Nat} {s : State} (hdone : s.power.seqDone = true)
    (hus : us < if s.misc.rselRail < min row 7 then 500 else 1500) : exec (.rselFilterRail row us) s = .next s := by
  show execRselFilterRail row us s = _
  unfold execRselFilterRail
  dsimp only
  rw [if_pos hdone, rselTaken_of_early s hus]
  rfl

theorem exec_rselFilterDsp_taken {row us : Nat} {s : State} (hlock : s.media.locked = true) (hus : 1100 ≤ us) :
    exec (.rselFilterDsp row us) s = .next { s with misc := { s.misc with rselDsp := min row 7 } } := by
  show execRselFilterDsp row us s = _
  unfold execRselFilterDsp
  dsimp only
  rw [if_pos hlock, rselTaken_of_stood s (by rwa [ite_self])]
  by_cases hrow : min row 7 = s.misc.rselDsp
  · rw [if_neg (by simp [hrow]), hrow]
  · rw [if_pos (decide_eq_true hrow)]

theorem exec_rselFilterDsp_early {row us : Nat} {s : State} (hlock : s.media.locked = true) (hus : us < 1000) :
    exec (.rselFilterDsp row us) s = .next s := by
  show execRselFilterDsp row us s = _
  unfold execRselFilterDsp
  dsimp only
  rw [if_pos hlock, rselTaken_of_early s (by rwa [ite_self])]
  rfl

/-! ### The two writes of c_keeper (R304, R336) -/

theorem keepRail_touchesRail (rc row : Nat) (s : State) : TouchesRail rc s (keepRail rc row s) :=
  (modRail_touchesRail s rc _).trans (ceilingChanged_rail rc _ _).1

/-- The goal of a new c_keeper: its row, held down by the fallback of the controller's group. -/
def keeperGoal (s : State) (rc row : Nat) : Nat := min row (if groupFallback s rc then (fallbackRow? s.cfg.active rc).getD 7 else 7)

/-- The Keeper has its new goal, and the second write is due where the goal is another. -/
def goalSet (rc goal : Nat) (s : State) : State :=
  s.modRail rc fun q => { q with cKeepGoal := goal, secondDue := goal != (s.rail rc).cKeepGoal || q.secondDue }

theorem goalSet_rail {rc : Nat} (hrc : rc < 12) (goal : Nat) (s : State) : (goalSet rc goal s).rail rc =
    { s.rail rc with cKeepGoal := goal, secondDue := goal != (s.rail rc).cKeepGoal || (s.rail rc).secondDue } := rail_modRail_self s _ hrc

/-- The DSP takes a lower goal first, the RAIL logic a higher one. -/
theorem exec_keeperCeilingWrite {rc row : Nat} {s : State} (hlog : canLog s = true) :
    exec (.keeperCeilingWrite rc row) s = .next (
      if keeperGoal s rc row < (s.rail rc).cKeepGoal then
        (goalSet rc (keeperGoal s rc row) s).modRail rc fun q => { q with cKeepDsp := keeperGoal s rc row }
      else if (s.rail rc).cKeepGoal < keeperGoal s rc row then keepRail rc (keeperGoal s rc row) (goalSet rc (keeperGoal s rc row) s)
      else goalSet rc (keeperGoal s rc row) s) := by
  have hserves : (s.keeper.serving && !s.keeper.halted) = true := hlog
  show execKeeperCeilingWrite rc row s = _
  unfold execKeeperCeilingWrite
  rw [if_pos hserves, apply_ite Host.Outcome.next, apply_ite Host.Outcome.next]
  rfl

/-- What the first write of a new c_keeper leaves (R336). -/
theorem keeperCeilingWrite_effects {rc : Nat} (hrc : rc < 12) (row : Nat) {s : State} (hlog : canLog s = true) :
    ∃ t, exec (.keeperCeilingWrite rc row) s = .next t ∧ TouchesRail rc s t ∧ (t.rail rc).cKeepGoal = keeperGoal s rc row ∧
      (keeperGoal s rc row < (s.rail rc).cKeepGoal →
        (t.rail rc).cKeepDsp = keeperGoal s rc row ∧ (t.rail rc).cKeepRail = (s.rail rc).cKeepRail ∧ (t.rail rc).secondDue = true) ∧
      ((s.rail rc).cKeepGoal < keeperGoal s rc row →
        (t.rail rc).cKeepRail = keeperGoal s rc row ∧ (t.rail rc).cKeepDsp = (s.rail rc).cKeepDsp ∧ (t.rail rc).secondDue = true) ∧
      (keeperGoal s rc row = (s.rail rc).cKeepGoal → t.rail rc = s.rail rc) := by
  have htouch : TouchesRail rc s (goalSet rc (keeperGoal s rc row) s) := modRail_touchesRail s rc _
  refine ⟨_, exec_keeperCeilingWrite hlog, ?_⟩
  rcases Nat.lt_trichotomy (keeperGoal s rc row) (s.rail rc).cKeepGoal with hlow | hsame | hhigh
  · rw [if_pos hlow, rail_modRail_self _ _ hrc, goalSet_rail hrc]
    exact ⟨htouch.trans (modRail_touchesRail _ rc _), rfl, fun _ => ⟨rfl, rfl, by simp [hlow.ne]⟩, fun h => absurd h (by omega),
      fun h => absurd h hlow.ne⟩
  · rw [if_neg (by omega), if_neg (by omega), goalSet_rail hrc]
    refine ⟨htouch, rfl, fun h => absurd hsame h.ne, fun h => absurd hsame h.ne', fun _ => ?_⟩
    simp [hsame]
  · rw [if_neg (by omega), if_pos hhigh, keepRail_rail hrc, goalSet_rail hrc]
    exact ⟨htouch.trans (keepRail_touchesRail rc _ _), rfl, fun h => absurd h (by omega), fun _ => ⟨rfl, rfl, by simp [hhigh.ne']⟩,
      fun h => absurd h hhigh.ne'⟩

/-! ### The selection and the reference (R338) -/

/-- Without the CD link the selection is ignored: the target is that of the row and the table in force (R345). -/
theorem exec_railSelectionApply_unlinked {rc : Nat} {s : State} (hstate : (s.rail rc).state = .regulating)
    (hlink : (s.dsd (rc / 3)).linked = false) : exec (.railSelectionApply rc) s = .next (s.modRail rc fun q =>
      { q with row := (s.rail rc).row, target := q.setpoint (s.rail rc).row }) := by
  show execRailSelectionApply rc s = _
  unfold execRailSelectionApply
  dsimp only
  rw [if_pos (by simp [hstate]), hlink]
  rfl

/-- A value that approaches its goal moves by at most the given step. -/
theorem abs_approach_sub_le (x goal : Rat) {d : Rat} (hd : 0 ≤ d) : |approach x goal d - x| ≤ d := by
  unfold approach
  split
  · next hbelow => exact abs_sub_le_iff.mpr ⟨by linarith [min_le_right goal (x + d)], by linarith [le_min hbelow.le (le_add_of_nonneg_right hd)]⟩
  · next habove => exact abs_sub_le_iff.mpr ⟨by linarith [max_le (not_lt.mp habove) (sub_le_self x hd)], by linarith [le_max_right goal (x - d)]⟩

/-- The reference of a controller that regulates without a requested stop heads for its target at the slew. -/
theorem moveRef_regulating {s : State} {rc : Nat} {q : Rail} (hstate : q.state = .regulating) (hstop : q.stopReq = false) :
    moveRef s rc q = { q with ref := approach q.ref q.target (slew s rc / 12) } := by
  have hgoal : refGoal s rc q = q.target := if_neg (by simp [hstop])
  have hrate : refRate s rc q = slew s rc := if_neg (by simp [hstate])
  rw [moveRef_eq, hgoal, hrate, hstate]
  rfl

end Sys2Proof.Machine
open Sys2Proof Sys2Proof.Machine

/-- Settles O29: each filter by its direction, the first write of c_keeper by the order of the goals, the selection by the link. -/
theorem ceilingRows : Obligations.CeilingRows := by
  intro s
  refine ⟨?rselRail, fun row us hlock => ⟨exec_rselFilterDsp_taken hlock, exec_rselFilterDsp_early hlock⟩, ?terms, ?write, ?second, ?selection, ?reference⟩
  case rselRail =>
    rintro row us least hdone rfl
    refine ⟨fun hus => ⟨_, exec_rselFilterRail_taken hdone hus, ?_⟩, exec_rselFilterRail_early hdone⟩
    split
    · next hsame => exact ⟨hsame.symm, rfl, Quiet.rfl' s, fun r => rfl⟩
    · have htouch := ceilingsChanged_touches (cEffRail s) (rselRailSet (min row 7) s)
      exact ⟨by rw [htouch]; rfl, ceilingsChanged_chans _ _, Quiet.trans (t := rselRailSet (min row 7) s) ⟨rfl, rfl, rfl, rfl⟩ htouch.quiet,
        ceilingsChanged_rowOnly _ (rselRailSet (min row 7) s)⟩
  case terms =>
    intro rc v hlock
    exact ⟨_, exec_ceilingTermsRefresh v hlock, modRail_touchesRail s rc _, fun hrc => rail_modRail_self s _ hrc⟩
  case write =>
    rintro rc row goal hrc hlog rfl
    exact keeperCeilingWrite_effects hrc row hlog
  case second =>
    intro rc hrc hdue hruns
    refine ⟨_, exec_cKeeperSecondWrite hdue hruns, (modRail_touchesRail s rc _).trans (keepRail_touchesRail rc _ _), ?_⟩
    rw [keepRail_rail hrc, rail_modRail_self _ _ hrc]
    exact ⟨rfl, rfl, rfl⟩
  case selection =>
    rintro rc row hrc hstate rfl
    cases hlink : (s.dsd (rc / 3)).linked
    · refine ⟨_, exec_railSelectionApply_unlinked hstate hlink, modRail_touchesRail s rc _, rfl, nofun, fun _ => ?_⟩
      exact rail_modRail_self s _ hrc
    · refine ⟨_, exec_railSelectionApply_linked hstate hlink, modRail_touchesRail s rc _, rfl, fun _ => ?_, nofun⟩
      exact rail_modRail_self s _ hrc
  case reference =>
    intro rc q hstate hstop hslew
    have hmove := moveRef_regulating (s := s) (rc := rc) hstate hstop
    exact ⟨hmove, by rw [hmove]; exact abs_approach_sub_le q.ref q.target (div_nonneg hslew (by norm_num))⟩
end

section
/-! PROOFS. The trigger matches that latch the samplers of a generator, and the cell check of an L-channel (R282, R289, R291, R302 to R304, R307,
R326, R393). -/

namespace Sys2Proof.Machine

/-! ### What a stop changes of the generators (R292) -/

theorem maskDue_pwm_congr (c : Nat) {s t : State} (h : t.pwm = s.pwm) : (maskDue c t).pwm = (maskDue c s).pwm := by
  unfold maskDue
  split
  · simp only [State.modPwmCh, State.pwmCh, h]
  · exact h

/-- FAULT makes the mask table of its channel due, and changes nothing else of the generators. -/
theorem enterFault_pwm (c code : Nat) (data : List Word) (s : State) : (enterFault c code data s).pwm = (maskDue c s).pwm := by
  have hnote : (if (s.chan c).fsm.state = .diag then noteDiag c code s else s).pwm = s.pwm := by split <;> rfl
  unfold enterFault
  rw [abortTests_pwm]
  unfold faultStart
  exact (raise_reports _ _ _ _).pwm.trans (maskDue_pwm_congr c ((idleEnds_pwm c _).trans hnote))

theorem faultAgain_pwm (c code : Nat) (data : List Word) (s : State) :
    (faultAgain c code data s).pwm = if (s.chan c).fsm.state = .retest then (maskDue c s).pwm else s.pwm := by
  have hraise : ∀ u : State, (if retestable code then u else u.raise code c data).pwm = u.pwm := fun u => by
    split
    · rfl
    · exact (raise_reports _ _ _ _).pwm
  unfold faultAgain
  dsimp only
  rw [hraise]
  split
  · exact maskDue_pwm_congr c (t := (s.count (chanStat c 0x10A) 1).life (chanStat c 0x183) 1) rfl
  · rfl

/-- A cause of FAULT makes at most the mask table of its channel due. -/
theorem hardStop_pwm (c code : Nat) (data : List Word) (s : State) :
    (hardStop c code data s).pwm = s.pwm ∨ (hardStop c code data s).pwm = (maskDue c s).pwm := by
  unfold hardStop
  dsimp only
  split
  · exact .inl rfl
  split
  · rw [faultAgain_pwm]
    split
    · exact .inr rfl
    · exact .inl rfl
  · exact .inr (enterFault_pwm c code data s)

/-- Of the generators only that of Lk may differ, and of it neither the registers nor the sampled capacitors. -/
def RegsStand (k : Nat) (s t : State) : Prop :=
  (∀ m, m ≠ k → t.pwmCh m = s.pwmCh m) ∧ (t.pwmCh k).sh = (s.pwmCh k).sh ∧ (t.pwmCh k).act = (s.pwmCh k).act ∧ (t.pwmCh k).fc = (s.pwmCh k).fc

theorem RegsStand.rfl' (k : Nat) (s : State) : RegsStand k s s := ⟨fun _ _ => rfl, rfl, rfl, rfl⟩

theorem RegsStand.trans {k : Nat} {s t u : State} (h : RegsStand k s t) (l : RegsStand k t u) : RegsStand k s u := by
  obtain ⟨hother, hsh, hact, hfc⟩ := h
  obtain ⟨lother, lsh, lact, lfc⟩ := l
  exact ⟨fun m hm => (lother m hm).trans (hother m hm), lsh.trans hsh, lact.trans hact, lfc.trans hfc⟩

theorem RegsStand.of_pwm (k : Nat) {s t u : State} (h : RegsStand k s t) (hpwm : u.pwm = t.pwm) : RegsStand k s u := by
  unfold RegsStand State.pwmCh at *
  rwa [hpwm]

theorem modPwmCh_regsStand {k : Nat} (hk : k < 16) (s : State) {f : PwmCh → PwmCh} (h : ∀ g, (f g).sh = g.sh ∧ (f g).act = g.act ∧ (f g).fc = g.fc) :
    RegsStand k s (s.modPwmCh k f) := by
  refine ⟨fun m hm => pwmCh_modPwmCh_other s f hm, ?_⟩
  rw [pwmCh_modPwmCh_self s f hk]
  exact h _

theorem maskDue_regsStand {k : Nat} (hk : k < 16) (s : State) : RegsStand k s (maskDue (192 + k) s) := by
  unfold maskDue
  split
  · rw [Nat.add_sub_cancel_left]
    exact modPwmCh_regsStand hk s fun g => ⟨rfl, rfl, rfl⟩
  · exact RegsStand.rfl' k s

theorem hardStop_regsStand {k : Nat} (hk : k < 16) (code : Nat) (data : List Word) (s : State) : RegsStand k s (hardStop (192 + k) code data s) := by
  rcases hardStop_pwm (192 + k) code data s with h | h
  · exact (RegsStand.rfl' k s).of_pwm k h
  · exact (maskDue_regsStand hk s).of_pwm k h

/-! ### A fresh sample of a leg (R289, R302) -/

/-- What the judgement of a sample may change: how its own channel drives, and of its generator neither the registers nor the samples. -/
def Judges (k : Nat) (s t : State) : Prop := DrivesChan (192 + k) s t ∧ RegsStand k s t ∧ SamePins s t

theorem Judges.rfl' (k : Nat) (s : State) : Judges k s s := ⟨DrivesChan.rfl' _ s, RegsStand.rfl' k s, rfl⟩

theorem fcStop_judges {k : Nat} (hk : k < 16) (low cap : Nat) (dev : Rat) (s : State) : Judges k s (fcStop (192 + k) low cap dev s) := by
  unfold fcStop
  exact ⟨(hardStop_drives _ _ _ s).trans (modFsm_touchesChan _ _ _).drives, (hardStop_regsStand hk _ _ s).of_pwm k rfl,
    (hardStop_pins _ _ _ s).trans (.of_eq rfl)⟩

theorem modPwmCh_judges {k : Nat} (hk : k < 16) (s : State) {f : PwmCh → PwmCh} (h : ∀ g, (f g).sh = g.sh ∧ (f g).act = g.act ∧ (f g).fc = g.fc) :
    Judges k s (s.modPwmCh k f) := ⟨(modPwmCh_touchesChan _ s k f).drives, modPwmCh_regsStand hk s h, rfl⟩

/-- The two capacitors of a leg are latched, with the runs of samples that stay off their voltage. -/
def capsLatched (k leg : Nat) (v1 v2 : Rat) (run : List Nat) (s : State) : State :=
  s.modPwmCh k fun g => { g with fc := (g.fc.set (2 * leg) v1).set (2 * leg + 1) v2, devRun := run }

/-- A fresh sample is latched and then judged: the channel stops, or the leg takes new trims. -/
theorem fcSample_judges {k : Nat} (hk : k < 16) (leg : Nat) (v1 v2 i : Rat) (s : State) :
    ∃ run, Judges k (capsLatched k leg v1 v2 run s) (fcSample k leg v1 v2 i s) := by
  unfold fcSample
  extract_lets c vr e1 e2 g lim run r1 r2 s1
  refine ⟨(g.devRun.set (2 * leg) r1).set (2 * leg + 1) r2, ?_⟩
  show Judges k s1 _
  split
  · exact Judges.rfl' k s1
  split
  · exact fcStop_judges hk _ _ _ s1
  split
  · exact fcStop_judges hk _ _ _ s1
  split
  · exact fcStop_judges hk _ _ _ s1
  split
  · exact fcStop_judges hk _ _ _ s1
  · exact modPwmCh_judges hk s1 fun g => by split <;> exact ⟨rfl, rfl, rfl⟩

/-! ### A trigger match (R282, R291) -/

theorem commuteAt_regsStand {k : Nat} (hk : k < 16) (count : Nat) (s : State) : RegsStand k s (commuteAt k count s) := by
  unfold commuteAt
  dsimp only
  split
  · exact RegsStand.rfl' k s
  · exact modPwmCh_regsStand hk s fun g => ⟨rfl, rfl, rfl⟩

/-- The base counter stands at the match of trigger j, which is a commutation event where it is selected. -/
def matchedAt (k j : Nat) (s : State) : State :=
  let s1 := if evtBit (s.pwmCh k).act (9 + j) then commuteAt k (trigOf (s.pwmCh k).act j) s else s
  { s1 with pwm := { s1.pwm with count := trigOf (s.pwmCh k).act j } }

theorem commuteAt_eq (k count : Nat) (s : State) : commuteAt k count s = { s with pwm := (commuteAt k count s).pwm } := by
  unfold commuteAt
  dsimp only
  split <;> rfl

theorem matchedAt_eq (k j : Nat) (s : State) : matchedAt k j s = { s with pwm := (matchedAt k j s).pwm } := by
  unfold matchedAt
  dsimp only
  split
  · rw [commuteAt_eq]
  · rfl

theorem matchedAt_touchesChan (c k j : Nat) (s : State) : TouchesChan c s (matchedAt k j s) := by
  rw [matchedAt_eq]
  exact ⟨rfl, rfl, fun _ _ => rfl⟩

theorem matchedAt_chans (k j : Nat) (s : State) : (matchedAt k j s).chans = s.chans := by rw [matchedAt_eq]

theorem matchedAt_regsStand {k : Nat} (hk : k < 16) (j : Nat) (s : State) : RegsStand k s (matchedAt k j s) := by
  unfold matchedAt
  dsimp only
  split
  · exact commuteAt_regsStand hk _ s
  · exact RegsStand.rfl' k s

/-- What the sampler of trigger j latches: the capacitors of leg A or B, which are then judged, the current, or the leg voltages. -/
def sampled (k j : Nat) (v1 v2 i : Rat) (s : State) : State :=
  if j < 2 then fcSample k j v1 v2 i s
  else s.modPwmCh k fun g => if j = 2 then { g with iSample := i } else { g with legSample := [v1, v2] }

theorem exec_trigMatch {k j : Nat} (v1 v2 i : Rat) {s : State} (hk : k < 16) (hj : j < 4) (hlock : s.media.locked = true)
    (hmatch : trigOf (s.pwmCh k).act j < s.pwm.period) : exec (.trigMatch k j v1 v2 i) s = .next (sampled k j v1 v2 i (matchedAt k j s)) := by
  show execTrigMatch k j v1 v2 i s = _
  unfold execTrigMatch
  dsimp only
  rw [if_pos (by simp [hlock, hk, hj, hmatch])]
  match j, hj with
  | 0, _ => rfl
  | 1, _ => rfl
  | 2, _ => rfl
  | 3, _ => rfl

/-- A match leaves the counter at its trigger, and the other generators and the registers as they are. -/
theorem sampled_matchedAt {k : Nat} (hk : k < 16) (j : Nat) (v1 v2 i : Rat) {s t : State} (ht : t = sampled k j v1 v2 i (matchedAt k j s)) :
    DrivesChan (192 + k) s t ∧ t.pwm.count = trigOf (s.pwmCh k).act j ∧ (∀ m, m ≠ k → t.pwmCh m = s.pwmCh m) ∧
      (t.pwmCh k).sh = (s.pwmCh k).sh ∧ (t.pwmCh k).act = (s.pwmCh k).act ∧
      (j < 2 → (t.pwmCh k).fc = ((s.pwmCh k).fc.set (2 * j) v1).set (2 * j + 1) v2) := by
  obtain ⟨mother, msh, mact, mfc⟩ := matchedAt_regsStand hk j s
  have mtouch := matchedAt_touchesChan (192 + k) k j s
  subst ht
  unfold sampled
  split
  · obtain ⟨run, hdrives, ⟨hother, hsh, hact, hfc⟩, hpins⟩ := fcSample_judges hk j v1 v2 i (matchedAt k j s)
    have hown : (capsLatched k j v1 v2 run (matchedAt k j s)).pwmCh k =
        { (matchedAt k j s).pwmCh k with fc := (((matchedAt k j s).pwmCh k).fc.set (2 * j) v1).set (2 * j + 1) v2, devRun := run } :=
      pwmCh_modPwmCh_self _ _ hk
    rw [hown] at hsh hact hfc
    rw [mfc] at hfc
    refine ⟨(mtouch.trans (modPwmCh_touchesChan _ _ k _)).drives.trans hdrives, by rw [hpins]; rfl, fun m hm => ?_, hsh.trans msh, hact.trans mact,
      fun _ => hfc⟩
    exact (hother m hm).trans ((pwmCh_modPwmCh_other _ _ hm).trans (mother m hm))
  · next hj =>
    obtain ⟨hdrives, ⟨hother, hsh, hact, -⟩, -⟩ := modPwmCh_judges hk (matchedAt k j s)
      (f := fun g => if j = 2 then { g with iSample := i } else { g with legSample := [v1, v2] }) fun g => by split <;> exact ⟨rfl, rfl, rfl⟩
    exact ⟨mtouch.drives.trans hdrives, rfl, fun m hm => (hother m hm).trans (mother m hm), hsh.trans msh, hact.trans mact, fun h => absurd h hj⟩

theorem sampled_current {k : Nat} (hk : k < 16) (v1 v2 i : Rat) (s : State) :
    ((sampled k 2 v1 v2 i s).pwmCh k).iSample = i ∧ (sampled k 2 v1 v2 i s).chans = s.chans := by
  unfold sampled
  rw [if_neg (by decide), pwmCh_modPwmCh_self s _ hk]
  exact ⟨rfl, rfl⟩

theorem sampled_legs {k : Nat} (hk : k < 16) (v1 v2 i : Rat) (s : State) :
    ((sampled k 3 v1 v2 i s).pwmCh k).legSample = [v1, v2] ∧ (sampled k 3 v1 v2 i s).chans = s.chans := by
  unfold sampled
  rw [if_neg (by decide), pwmCh_modPwmCh_self s _ hk]
  exact ⟨rfl, rfl⟩

/-! ### The cell check (R303) -/

theorem retestable_cellFailed (c : Nat) : retestable (chanCode c 0x44) = false := by
  unfold chanCode
  cases isL c <;> decide

/-- What the cell check found is kept for LOAD_DIAG (Table 16.2). -/
def cellNoted (c : Nat) (drops slopes : List Rat) (s : State) : State :=
  s.modFsm c fun f => { f with cellConducts := conducting drops, cellCaps := openOnes (s.rail (rcOf c)).vRail slopes }

theorem cellNoted_touchesChan (c : Nat) (drops slopes : List Rat) (s : State) : TouchesChan c s (cellNoted c drops slopes s) :=
  modFsm_touchesChan s c _

theorem cellNoted_fsm {c : Nat} (hc : c < 208) (drops slopes : List Rat) (s : State) : ((cellNoted c drops slopes s).chan c).fsm =
    { (s.chan c).fsm with cellConducts := conducting drops, cellCaps := openOnes (s.rail (rcOf c)).vRail slopes } := by
  unfold cellNoted
  rw [chan_modFsm_self _ _ hc]

theorem cellCheckRuns_diag {c : Nat} {s : State} (hL : 192 ≤ c) (hstate : (s.chan c).fsm.state = .diag) (hstep : (s.chan c).fsm.diagStep = 1)
    (hcal : (s.chan c).fsm.calDone = true) (hjoin : (s.chan c).share.joinReq = false) (hrail : railUp s c = true) : cellCheckRuns s c = true := by
  simp [cellCheckRuns, isL, hL, hstate, hstep, hcal, hjoin, hrail]

theorem cellCheckRuns_fault {c : Nat} {s : State} (hL : 192 ≤ c) (hstate : (s.chan c).fsm.state = .fault) (hstep : (s.chan c).fsm.diagStep = 1)
    (hrail : railUp s c = true) : cellCheckRuns s c = true := by
  simp [cellCheckRuns, isL, hL, hstate, hstep, hrail]

section
variable {c : Nat} {drops slopes : List Rat} {s : State} (hruns : cellCheckRuns s c = true)
include hruns

theorem exec_cellCheck_bad {n : Nat} (hbad : badSwitch (conducting drops) = some n) :
    exec (.cellCheck c drops slopes) s = .next (cellFailed c (word n) (cellNoted c drops slopes s)) := by
  show execCellCheck c drops slopes s = _
  unfold execCellCheck
  dsimp only
  rw [if_pos hruns, hbad]
  rfl

theorem exec_cellCheck_passed (hgood : badSwitch (conducting drops) = none) (hcaps : openOnes (s.rail (rcOf c)).vRail slopes = 0) :
    exec (.cellCheck c drops slopes) s = .next (cellPassed c (cellNoted c drops slopes s)) := by
  show execCellCheck c drops slopes s = _
  unfold execCellCheck
  dsimp only
  rw [if_pos hruns, hgood]
  dsimp only
  rw [if_pos hcaps]
  rfl

theorem exec_cellCheck_fallback {row : Nat} (hgood : badSwitch (conducting drops) = none) (hcaps : openOnes (s.rail (rcOf c)).vRail slopes ≠ 0)
    (hrow : fallbackRow? s.cfg.active (rcOf c) = some row) : exec (.cellCheck c drops slopes) s =
      .next (cellFallback c (openOnes (s.rail (rcOf c)).vRail slopes) (cellNoted c drops slopes s)) := by
  show execCellCheck c drops slopes s = _
  unfold execCellCheck
  dsimp only
  rw [if_pos hruns, hgood]
  dsimp only
  rw [if_neg hcaps]
  simp only [State.modFsm_frame, hrow]
  rfl

theorem exec_cellCheck_noRow (hgood : badSwitch (conducting drops) = none) (hcaps : openOnes (s.rail (rcOf c)).vRail slopes ≠ 0)
    (hrow : fallbackRow? s.cfg.active (rcOf c) = none) : exec (.cellCheck c drops slopes) s =
      .next (cellFailed c (word (cellNoted c drops slopes s).draw.1) (cellNoted c drops slopes s).draw.2) := by
  show execCellCheck c drops slopes s = _
  unfold execCellCheck
  dsimp only
  rw [if_pos hruns, hgood]
  dsimp only
  rw [if_neg hcaps]
  simp only [State.modFsm_frame, hrow]
  rfl

end

/-- A check that fails in DIAG ends it with CELL_FAILED. -/
theorem cellFailed_diag {c : Nat} (hc : c < 208) (w : Word) {s : State} (hstate : (s.chan c).fsm.state = .diag) :
    Faulted c (chanCode c 0x44) s (cellFailed c w s) := by
  unfold cellFailed
  rw [if_neg (by simp [hstate]), failTest_diag hstate]
  exact enterFault_faulted _ _ s hc

/-- A check that fails in FAULT ends there, and CELL_FAILED takes the place of a code that a re-test clears (R326). -/
theorem cellFailed_fault {c : Nat} (hc : c < 208) (w : Word) {s : State} (hstate : (s.chan c).fsm.state = .fault) :
    DrivesChan c s (cellFailed c w s) ∧ ((cellFailed c w s).chan c).fsm.state = .fault ∧ ((cellFailed c w s).chan c).fsm.diagStep = 0 ∧
      ((cellFailed c w s).chan c).fsm.code = (if retestable (s.chan c).fsm.code then chanCode c 0x44 else (s.chan c).fsm.code) := by
  obtain ⟨kstate, kcode, -⟩ := faultAgain_untestable [w] hc (retestable_cellFailed c) (s := s)
  unfold cellFailed
  rw [if_pos hstate, hardStop_faulted_again (.inl hstate), chan_modFsm_self _ _ hc]
  exact ⟨((faultAgain_touchesChan c _ _ s).trans (modFsm_touchesChan _ c _)).drives, kstate, rfl, kcode⟩

/-- A check that passes in DIAG leads to the relay check or to test 3, and ends a fallback that CLEAR_FAULT was to end (R304, R307). -/
theorem cellPassed_diag {c : Nat} (hc : c < 208) {s : State} (hstate : (s.chan c).fsm.state = .diag) :
    TouchesChan c s (cellPassed c s) ∧ ((cellPassed c s).chan c).fsm.state = .diag ∧
      ((cellPassed c s).chan c).fsm.diagStep = (if s.flag 0x10 c 0x16 then 2 else 3) ∧
      ((cellPassed c s).chan c).fsm.cellFallback = ((s.chan c).fsm.cellFallback && !(s.chan c).fsm.cellClear) := by
  unfold cellPassed passTest
  dsimp only
  rw [if_neg (by simp [hstate]), chan_modFsm_self _ _ hc, chan_modFsm_self _ _ hc]
  refine ⟨(modFsm_touchesChan s c _).trans (modFsm_touchesChan _ c _), hstate, ?_, rfl⟩
  rw [if_pos rfl, hstate]
  rfl

/-- A check that passes in FAULT ends there. -/
theorem cellPassed_fault {c : Nat} (hc : c < 208) {s : State} (hstate : (s.chan c).fsm.state = .fault) :
    TouchesChan c s (cellPassed c s) ∧ (cellPassed c s).log = s.log ∧ ((cellPassed c s).chan c).fsm.state = .fault ∧
      ((cellPassed c s).chan c).fsm.code = (s.chan c).fsm.code ∧ ((cellPassed c s).chan c).fsm.diagStep = 0 := by
  unfold cellPassed
  dsimp only
  rw [if_pos hstate, chan_modFsm_self _ _ hc, chan_modFsm_self _ _ hc]
  refine ⟨(modFsm_touchesChan s c _).trans (modFsm_touchesChan _ c _), rfl, hstate, ?_, rfl⟩
  simp [hstate]

/-! ### The 2-level fallback (R303, R304) -/

/-- The channel is in the fallback, and its open capacitors are reported. -/
def fallbackRaised (c caps : Nat) (s : State) : State :=
  (s.modFsm c fun f => { f with cellFallback := true, cellClear := false, code := if f.state = .diag then 0 else f.code }).raise
    (chanCode c 0x43) c [word caps]

theorem fallbackRaised_touchesChan (c caps : Nat) (s : State) : TouchesChan c s (fallbackRaised c caps s) :=
  (modFsm_touchesChan s c _).trans (raise_touchesChan c _ _ _ _)

theorem fallbackRaised_raised (c caps : Nat) (s : State) : Raised (chanCode c 0x43) c [word caps] s (fallbackRaised c caps s) :=
  (raise_raised _ _ _ _).of_log rfl rfl

theorem fallbackRaised_fsm {c : Nat} (hc : c < 208) (caps : Nat) (s : State) : ((fallbackRaised c caps s).chan c).fsm =
    { (s.chan c).fsm with cellFallback := true, cellClear := false, code := if (s.chan c).fsm.state = .diag then 0 else (s.chan c).fsm.code } := by
  unfold fallbackRaised
  rw [(raise_reports _ _ _ _).chan, chan_modFsm_self _ _ hc]

theorem toPrecharge_log (c : Nat) (s : State) : (toPrecharge c s).log = s.log := by
  unfold toPrecharge
  rw [maskDue_eq]
  rfl

theorem toPrecharge_cellFallback {c : Nat} (hc : c < 208) (s : State) :
    ((toPrecharge c s).chan c).fsm.cellFallback = (s.chan c).fsm.cellFallback := by
  unfold toPrecharge
  rw [chan_modFsm_self _ _ hc, maskDue_chan, noteDiag_chan]

theorem cellFallback_diag {c : Nat} (hc : c < 208) (caps : Nat) {s : State} (hstate : (s.chan c).fsm.state = .diag) :
    TouchesChan c s (cellFallback c caps s) ∧ ((cellFallback c caps s).chan c).fsm.state = .diag ∧
      ((cellFallback c caps s).chan c).fsm.cellFallback = true ∧ Raised (chanCode c 0x43) c [word caps] s (cellFallback c caps s) := by
  have hpass : cellFallback c caps s = passTest c 1 (fallbackRaised c caps s) := by
    unfold cellFallback
    exact if_pos (by simp [hstate])
  have hfsm := fallbackRaised_fsm hc caps s
  rw [hpass]
  refine ⟨(fallbackRaised_touchesChan c caps s).trans (passTest_touchesChan c 1 _), ?_, ?_, (fallbackRaised_raised c caps s).to_log rfl⟩
  · unfold passTest
    rw [chan_modFsm_self _ _ hc, hfsm]
    exact hstate
  · unfold passTest
    rw [chan_modFsm_self _ _ hc, hfsm]

/-- From FAULT the fallback goes on through PRECHARGE where no other cause has been latched since. -/
theorem cellFallback_fault {c : Nat} (hc : c < 208) (caps : Nat) {s : State} (hstate : (s.chan c).fsm.state = .fault)
    (hcode : retestable (s.chan c).fsm.code = true) :
    TouchesChan c s (cellFallback c caps s) ∧ ((cellFallback c caps s).chan c).fsm.state = .precharge ∧
      ((cellFallback c caps s).chan c).fsm.code = 0 ∧ ((cellFallback c caps s).chan c).fsm.cellFallback = true ∧
      Raised (chanCode c 0x43) c [word caps] s (cellFallback c caps s) := by
  have hgoes : cellFallback c caps s = toPrecharge c (fallbackRaised c caps s) := by
    unfold cellFallback
    exact (if_neg (by simp [hstate])).trans (if_pos hcode)
  obtain ⟨hpre, hclear⟩ := toPrecharge_fsm hc (fallbackRaised c caps s)
  rw [hgoes]
  refine ⟨(fallbackRaised_touchesChan c caps s).trans (toPrecharge_touchesChan c _), hpre, hclear, ?_,
    (fallbackRaised_raised c caps s).to_log (toPrecharge_log c _)⟩
  rw [toPrecharge_cellFallback hc, fallbackRaised_fsm hc]

end Sys2Proof.Machine
open Sys2Proof Sys2Proof.Machine

/-- Settles O39: a match by the sampler of its trigger, the cell check by the channel's state and by what the check finds. -/
theorem samplerAndCellRows : Obligations.SamplerAndCellRows := by
  intro s
  refine ⟨?trigger, ?diag, ?faultBad, ?faultGood⟩
  case trigger =>
    intro k j v1 v2 i hk hj hlock hmatch
    obtain ⟨hdrives, hcount, hother, hsh, hact, hfc⟩ := sampled_matchedAt hk j v1 v2 i (s := s) rfl
    refine ⟨_, exec_trigMatch v1 v2 i hk hj hlock hmatch, hdrives, hcount, hother, hsh, hact, fun hcaps => hfc (by omega), ?_, ?_⟩
    · rintro rfl
      rw [← matchedAt_chans k 2 s]
      exact sampled_current hk v1 v2 i _
    · rintro rfl
      rw [← matchedAt_chans k 3 s]
      exact sampled_legs hk v1 v2 i _
  case diag =>
    rintro c _ _ drops slopes rfl rfl hL hc hstate hstep hcal hjoin hrail
    have hruns := cellCheckRuns_diag hL hstate hstep hcal hjoin hrail
    have htouch := cellNoted_touchesChan c drops slopes s
    have hfsm := cellNoted_fsm hc drops slopes s
    have hdiag : ((cellNoted c drops slopes s).chan c).fsm.state = .diag := by rw [hfsm]; exact hstate
    cases hbad : badSwitch (conducting drops) with
    | some n =>
      exact ⟨_, exec_cellCheck_bad hruns hbad, fun _ _ => (cellFailed_diag hc (word n) hdiag).after htouch rfl, nofun, nofun, nofun⟩
    | none =>
      by_cases hcaps : openOnes (s.rail (rcOf c)).vRail slopes = 0
      · obtain ⟨ptouch, pstate, pstep, pback⟩ := cellPassed_diag hc hdiag
        rw [hfsm] at pback
        exact ⟨_, exec_cellCheck_passed hruns hbad hcaps, nofun, fun _ _ => ⟨htouch.trans ptouch, pstate, pstep, pback⟩,
          fun _ h => absurd hcaps h, fun _ h => absurd hcaps h⟩
      · cases hrow : fallbackRow? s.cfg.active (rcOf c) with
        | some row =>
          obtain ⟨ptouch, pstate, pback, praised⟩ := cellFallback_diag hc (openOnes (s.rail (rcOf c)).vRail slopes) hdiag
          exact ⟨_, exec_cellCheck_fallback hruns hbad hcaps hrow, nofun, fun _ h => absurd h hcaps,
            fun _ _ _ => ⟨htouch.trans ptouch, pstate, pback, praised.of_log rfl rfl⟩, nofun⟩
        | none =>
          obtain ⟨-, pstate, pcode, -⟩ := cellFailed_diag hc (word (cellNoted c drops slopes s).draw.1) (s := (cellNoted c drops slopes s).draw.2) hdiag
          exact ⟨_, exec_cellCheck_noRow hruns hbad hcaps hrow, nofun, fun _ h => absurd h hcaps, fun _ _ h => absurd h (by simp),
            fun _ _ _ => ⟨pstate, pcode⟩⟩
  case faultBad =>
    intro c n drops slopes hL hc hstate hstep hrail hbad
    have hfsm := cellNoted_fsm hc drops slopes s
    obtain ⟨kdrives, kstate, kstep, kcode⟩ := cellFailed_fault hc (word n) (s := cellNoted c drops slopes s) (by rw [hfsm]; exact hstate)
    rw [hfsm] at kcode
    exact ⟨_, exec_cellCheck_bad (cellCheckRuns_fault hL hstate hstep hrail) hbad,
      (cellNoted_touchesChan c drops slopes s).drives.trans kdrives, kstate, kstep, kcode⟩
  case faultGood =>
    intro c drops slopes hL hc hstate hstep hrail hgood
    have hruns := cellCheckRuns_fault hL hstate hstep hrail
    have htouch := cellNoted_touchesChan c drops slopes s
    have hfsm := cellNoted_fsm hc drops slopes s
    have hfault : ((cellNoted c drops slopes s).chan c).fsm.state = .fault := by rw [hfsm]; exact hstate
    refine ⟨fun hcaps => ?_, fun hcaps hrow hcode => ?_⟩
    · obtain ⟨ptouch, plog, pstate, pcode, pstep⟩ := cellPassed_fault hc hfault
      rw [hfsm] at pcode
      exact ⟨_, exec_cellCheck_passed hruns hgood hcaps, htouch.trans ptouch, plog, pstate, pcode, pstep⟩
    · obtain ⟨row, hrow⟩ := hrow
      obtain ⟨ptouch, pstate, pcode, pback, praised⟩ :=
        cellFallback_fault hc (openOnes (s.rail (rcOf c)).vRail slopes) hfault (by rw [hfsm]; exact hcode)
      exact ⟨_, exec_cellCheck_fallback hruns hgood hcaps hrow, htouch.trans ptouch, pstate, pcode, pback, praised.of_log rfl rfl⟩
end

section
/-! PROOFS. The trip inputs: the filter, the latch, and the channels that an asserted input reaches (R295 to R297, Table 11.5). -/

namespace Sys2Proof.Machine

/-! ### How a channel drives, as a value -/

/-- The part of a channel by which it drives. -/
def Chan.drive (v : Chan) : Chan :=
  { fsm := { state := v.fsm.state, code := v.fsm.code, bridge := v.fsm.bridge, stop := v.fsm.stop }
    loop := v.loop, model := v.model, share := v.share }

theorem sameDrive_iff_drive {a b : Chan} : SameDrive a b ↔ b.drive = a.drive := by
  simp only [SameDrive, Chan.drive, Chan.mk.injEq, Fsm.mk.injEq, true_and, and_true]
  tauto

/-! ### An asserted input (R296) -/

/-- An asserted input with the map `m` comes to a channel. -/
def tripReach (inp m c : Nat) (s : State) : State := if m / 2 ^ rcOf c % 2 = 1 then tripChannel inp c s else s

theorem tripChannel_drives (inp c : Nat) (s : State) : DrivesChan c s (tripChannel inp c s) := by
  unfold tripChannel
  split
  · exact DrivesChan.rfl' c s
  split
  · exact (modFsm_touchesChan s c _).drives
  · exact hardStop_drives c _ _ s

theorem tripChannel_pins (inp c : Nat) (s : State) : SamePins s (tripChannel inp c s) := by
  unfold tripChannel
  split
  · rfl
  split
  · rfl
  · exact hardStop_pins c _ _ s

theorem tripReach_drives (inp m c : Nat) (s : State) : DrivesChan c s (tripReach inp m c s) := by
  unfold tripReach
  split
  · exact tripChannel_drives inp c s
  · exact DrivesChan.rfl' c s

theorem tripReach_pins (inp m c : Nat) (s : State) : SamePins s (tripReach inp m c s) := by
  unfold tripReach
  split
  · exact tripChannel_pins inp c s
  · rfl

/-- What an input with the map `m` makes of an enabled or disabled channel c: FAULT where it drives or is on its way to it, nothing where the
channel is disabled or outside the map. -/
def Tripped (enabled : Bool) (m c : Nat) (a b : Chan) : Prop :=
  (enabled = true → m / 2 ^ rcOf c % 2 = 1 → a.fsm.state ≠ .off → a.fsm.state ≠ .fault → a.fsm.state ≠ .retest →
    b.fsm.state = .fault ∧ b.fsm.code = chanCode c 0x15) ∧
  (enabled = false ∨ m / 2 ^ rcOf c % 2 ≠ 1 → b = a)

theorem tripReach_tripped (inp m : Nat) {c : Nat} (hc : c < 208) (s : State) :
    Tripped (s.enabled c) m c (s.chan c).drive ((tripReach inp m c s).chan c).drive := by
  refine ⟨fun henabled hmap (hoff : (s.chan c).fsm.state ≠ .off) hfault hretest => ?_, fun h => ?_⟩
  · have hstop : tripReach inp m c s = hardStop c (chanCode c 0x15) [word inp] s := by
      unfold tripReach tripChannel
      rw [if_pos hmap, if_neg (by simp [henabled]), if_neg hoff]
    obtain ⟨hstate, hcode, -⟩ := hardStop_self (code := chanCode c 0x15) (data := [word inp]) hc hoff hfault hretest
    rw [hstop]
    exact ⟨hstate, hcode⟩
  · have hstand : tripReach inp m c s = s := by
      unfold tripReach tripChannel
      split
      · next hmap => exact if_pos (by simp [h.resolve_right (not_not.mpr hmap)])
      · rfl
    rw [hstand]

/-- The input is latched, ahead of its channels. -/
def tripLatched (inp : Nat) (s : State) : State := { s with pwm := setLatch inp s.pwm }

/-- An input whose latch was clear reaches the channels of the map in force (R297). -/
theorem assertTrip_eq {inp : Nat} {s : State} (hlatch : s.pwm.latch.getLsbD inp = false) :
    assertTrip inp s = forUnits 208 (tripReach inp (tripMap s.pwm inp)) (tripLatched inp s) := by
  have hmap : (((setLatch inp s.pwm).latchSet.find? (·.1 == inp)).map (·.2.1)).getD 0 = tripMap s.pwm inp := by
    simp [setLatch, hlatch]
  unfold assertTrip
  dsimp only
  rw [hmap]
  rfl

theorem forUnits_tripReach_touches (inp m : Nat) (s : State) : Touches s (forUnits 208 (tripReach inp m) s) :=
  forUnits_touches (fun c u => (tripReach_drives inp m c u).1) 208 s

theorem forUnits_tripReach_pins (inp m : Nat) (s : State) : SamePins s (forUnits 208 (tripReach inp m) s) :=
  forUnits_invariant (P := SamePins s) (fun c u h => h.trans (tripReach_pins inp m c u)) 208 (SamePins.rfl' s)

theorem forUnits_tripReach (inp m : Nat) (s : State) {c : Nat} (hc : c < 208) :
    Tripped (s.enabled c) m c (s.chan c).drive ((forUnits 208 (tripReach inp m) s).chan c).drive := by
  refine forUnits_units (get := fun u k => (u.chan k).drive) (R := fun k => Tripped (s.enabled k) m k) (P := fun u => u.cfg = s.cfg) ?_ ?_ ?_ rfl hc
  · intro k u hu
    rw [(tripReach_drives inp m k u).1]
    exact hu
  · intro k j u hj
    obtain ⟨-, hother, -⟩ := tripReach_drives inp m k u
    exact sameDrive_iff_drive.mp (hother j hj)
  · intro k u hk hu
    have henabled : u.enabled k = s.enabled k := by
      unfold State.enabled State.flag
      rw [hu]
    rw [← henabled]
    exact tripReach_tripped inp m hk u

/-! ### The filter and the release (R295, R296) -/

theorem exec_faultNTrip_short {i n : Nat} {s : State} (hn : n < tripFilter s.pwm i - 1) : exec (.faultNTrip i n) s = .next s := by
  have hfilter : s.filtered (tripFilter s.pwm i - 1) (tripFilter s.pwm i + 1) n = (false, s) := if_pos hn
  show execFaultNTrip i n s = _
  unfold execFaultNTrip
  rw [hfilter]
  exact ite_self _

theorem exec_faultNTrip_long {i n : Nat} {s : State} (hi : i < 4) (hlock : s.media.locked = true) (hclear : s.pwm.asserted.getLsbD i = false)
    (hn : tripFilter s.pwm i + 1 ≤ n) : exec (.faultNTrip i n) s = .next (assertTrip i s) := by
  have hfilter : s.filtered (tripFilter s.pwm i - 1) (tripFilter s.pwm i + 1) n = (true, s) := by
    unfold State.filtered
    rw [if_neg (by omega), if_pos hn]
  show execFaultNTrip i n s = _
  unfold execFaultNTrip
  rw [hfilter, if_pos (by simp only [hi, hlock, hclear, decide_true, Bool.not_false, Bool.and_self])]
  rfl

theorem exec_faultNRelease {i : Nat} {s : State} (hi : i < 4) (hset : s.pwm.asserted.getLsbD i = true) :
    exec (.faultNRelease i) s = .next { s with pwm := { s.pwm with asserted := s.pwm.asserted &&& ~~~(bit4 i) } } :=
  if_pos (by simp [hi, hset])

/-- What a trip leaves of the generators, the device and each channel. -/
theorem assertTrip_effects {i : Nat} {s : State} (hlatch : s.pwm.latch.getLsbD i = false) :
    (assertTrip i s).pwm = { s.pwm with
      latch := s.pwm.latch ||| bit4 i, asserted := s.pwm.asserted ||| bit4 i, latchSet := (assertTrip i s).pwm.latchSet
      ch := (assertTrip i s).pwm.ch } ∧ Quiet s (assertTrip i s) ∧
    ∀ c, c < 208 →
      (s.enabled c = true → tripMap s.pwm i / 2 ^ rcOf c % 2 = 1 → (s.chan c).fsm.state ≠ .off → (s.chan c).fsm.state ≠ .fault →
        (s.chan c).fsm.state ≠ .retest → ((assertTrip i s).chan c).fsm.state = .fault ∧ ((assertTrip i s).chan c).fsm.code = chanCode c 0x15) ∧
      (s.enabled c = false ∨ tripMap s.pwm i / 2 ^ rcOf c % 2 ≠ 1 → SameDrive (s.chan c) ((assertTrip i s).chan c)) := by
  rw [assertTrip_eq hlatch]
  refine ⟨?_, ?_, fun c hc => ?_⟩
  · rw [forUnits_tripReach_pins]
    rfl
  · exact Quiet.trans (t := tripLatched i s) ⟨rfl, rfl, rfl, rfl⟩ (forUnits_tripReach_touches i _ _).quiet
  · obtain ⟨htrips, hstands⟩ := forUnits_tripReach i (tripMap s.pwm i) (tripLatched i s) hc
    exact ⟨htrips, fun h => sameDrive_iff_drive.mpr (hstands h)⟩

end Sys2Proof.Machine
end

section
/-! PROOFS. The boundary tick of the generators: the mask tables that the Keeper rewrites, the period, the transfers and the switching cycles that
begin (R34, R116, R280, R283, R291 to R293, R297). -/

namespace Sys2Proof.Machine

/-! ### LOAD_ALL of one set (R280, R283) -/

theorem getLsbD_setOf {k : Nat} (hk : k < 16) (j : Nat) : ((word (2 ^ k)).setWidth 16 : BitVec 16).getLsbD j = decide (k = j) := by
  simp only [word, BitVec.getLsbD_setWidth, BitVec.getLsbD_ofNat, Nat.testBit_two_pow, Bool.and_eq_decide, decide_eq_true_eq, decide_eq_decide]
  omega

/-- The set of Lk is armed for the next boundary tick. -/
def setArmed (k : Nat) (s : State) : State := { s with pwm := { s.pwm with armed := s.pwm.armed ||| (word (2 ^ k)).setWidth 16 } }

/-- LOAD_ALL of one set arms it and captures no PERIOD. -/
theorem loadAll_setOf {k : Nat} (hk : k < 16) (s : State) : loadAll (word (2 ^ k)) s = setArmed k s := by
  have hperiod : (word (2 ^ k)).getLsbD 16 = false := by
    simp only [word, BitVec.getLsbD_ofNat, Nat.testBit_two_pow, Bool.and_eq_false_iff, decide_eq_false_iff_not]
    omega
  simp only [loadAll, setArmed, hperiod, Bool.or_false, Bool.false_eq_true, if_false]

/-- A generator and whether its set is armed. -/
def State.gen (s : State) (k : Nat) : PwmCh × Bool := (s.pwmCh k, s.pwm.armed.getLsbD k)

theorem gen_setArmed {k : Nat} (hk : k < 16) (s : State) (j : Nat) :
    (setArmed k s).gen j = (s.pwmCh j, s.pwm.armed.getLsbD j || decide (k = j)) := by
  refine Prod.ext rfl ?_
  show (s.pwm.armed ||| (word (2 ^ k)).setWidth 16).getLsbD j = _
  rw [BitVec.getLsbD_or, getLsbD_setOf hk]

theorem gen_setArmed_other {k j : Nat} (hk : k < 16) (hj : j ≠ k) (s : State) : (setArmed k s).gen j = s.gen j := by
  rw [gen_setArmed hk, decide_eq_false hj.symm, Bool.or_false]
  rfl

theorem gen_setArmed_self {k : Nat} (hk : k < 16) (s : State) : (setArmed k s).gen k = (s.pwmCh k, true) := by
  rw [gen_setArmed hk, decide_eq_true rfl, Bool.or_true]

theorem gen_modPwmCh_other (s : State) {k j : Nat} (f : PwmCh → PwmCh) (hj : j ≠ k) : (s.modPwmCh k f).gen j = s.gen j :=
  Prod.ext (pwmCh_modPwmCh_other s f hj) rfl

/-! ### The mask tables (R292) -/

/-- Only the registers of single generators, the armed sets and the count of free values may differ. -/
def Rewrites (s t : State) : Prop := t = { s with pwm := { s.pwm with armed := t.pwm.armed, ch := t.pwm.ch }, free := t.free }

theorem Rewrites.rfl' (s : State) : Rewrites s s := rfl

theorem Rewrites.trans {s t u : State} (h : Rewrites s t) (k : Rewrites t u) : Rewrites s u := by
  unfold Rewrites at *
  rw [k, h]

/-- The table that the Keeper writes into the shadows of Lk: one entry that masks nothing, or a free one. -/
def maskTable (k : Nat) (play : Bool) (s : State) : State :=
  if play then s.modPwmCh k fun g => { g with sh := (g.sh.set wMaskCtrl 0).set wMask0 0 }
  else forUnits 9 (fun i s => let p := s.draw
    p.2.modPwmCh k fun g => { g with sh := g.sh.set (wMaskCtrl + i) (word p.1 &&& wMaskOf (wMaskCtrl + i)) }) s

theorem draw_modPwmCh_rewrites (s : State) (k : Nat) (f : PwmCh → PwmCh) : Rewrites s (s.draw.2.modPwmCh k f) := rfl

theorem maskTable_rewrites (k : Nat) (play : Bool) (s : State) : Rewrites s (maskTable k play s) := by
  unfold maskTable
  split
  · rfl
  · exact forUnits_invariant (P := Rewrites s) (fun i u h => h.trans (draw_modPwmCh_rewrites u k _)) 9 (Rewrites.rfl' s)

theorem maskTable_other {k j : Nat} (hj : j ≠ k) (play : Bool) (s : State) : (maskTable k play s).gen j = s.gen j := by
  unfold maskTable
  split
  · exact gen_modPwmCh_other s _ hj
  · exact forUnits_invariant (P := fun u => u.gen j = s.gen j) (fun i u h => (gen_modPwmCh_other u.draw.2 _ hj).trans h) 9 rfl

theorem maskTable_play {k : Nat} (hk : k < 16) (s : State) : ((maskTable k true s).pwmCh k).sh = ((s.pwmCh k).sh.set 6 0).set 7 0 := by
  unfold maskTable
  rw [if_pos rfl, pwmCh_modPwmCh_self _ _ hk]
  rfl

/-- The new table stands in the shadows, and is no longer due. -/
def maskWritten (k : Nat) (play : Bool) (s : State) : State := (maskTable k play s).modPwmCh k fun g => { g with maskDue := false }

theorem maskWrite_eq {k : Nat} (hk : k < 16) (play : Bool) (s : State) : maskWrite k play s = setArmed k (maskWritten k play s) :=
  loadAll_setOf hk _

theorem maskWritten_self {k : Nat} (hk : k < 16) (play : Bool) (s : State) :
    (maskWritten k play s).pwmCh k = { (maskTable k play s).pwmCh k with maskDue := false } := pwmCh_modPwmCh_self _ _ hk

theorem maskRewrite_cases (k : Nat) (s : State) :
    ((s.pwmCh k).maskDue = true ∧ s.keeper.halted = false ∧ k < 16 ∧
      maskRewrite k s = maskWrite k (fed s k || (s.chan (192 + k)).fsm.state == .precharge) s) ∨
    (((s.pwmCh k).maskDue = false ∨ s.keeper.halted = true) ∧ maskRewrite k s = s) := by
  unfold maskRewrite
  by_cases hdue : (s.pwmCh k).maskDue = true ∧ s.keeper.halted = false
  · obtain ⟨hdue, hruns⟩ := hdue
    have hk : k < 16 := by
      by_contra hbeyond
      have hnone : s.pwmCh k = {} := by simp [State.pwmCh, hbeyond]
      simp [hnone] at hdue
    exact .inl ⟨hdue, hruns, hk, if_pos (by simp [hdue, hruns])⟩
  · have hstands : (s.pwmCh k).maskDue = false ∨ s.keeper.halted = true := by
      rcases Bool.eq_false_or_eq_true (s.pwmCh k).maskDue with h | h
      · exact .inr (by simpa [h] using hdue)
      · exact .inl h
    exact .inr ⟨hstands, if_neg (by simpa using hdue)⟩

theorem maskRewrite_rewrites (k : Nat) (s : State) : Rewrites s (maskRewrite k s) := by
  rcases maskRewrite_cases k s with ⟨-, -, hk, heq⟩ | ⟨-, heq⟩
  · rw [heq, maskWrite_eq hk]
    exact (maskTable_rewrites k _ s).trans (t := maskTable k _ s) rfl
  · rw [heq]
    exact Rewrites.rfl' s

theorem maskRewrite_other {k j : Nat} (hj : j ≠ k) (s : State) : (maskRewrite k s).gen j = s.gen j := by
  rcases maskRewrite_cases k s with ⟨-, -, hk, heq⟩ | ⟨-, heq⟩
  · rw [heq, maskWrite_eq hk, gen_setArmed_other hk hj]
    exact (gen_modPwmCh_other _ _ hj).trans (maskTable_other hj _ s)
  · rw [heq]

/-- What the Keeper makes of a generator whose table is due: in play and in PRECHARGE the new table masks nothing. -/
def Rewritten (halted play : Bool) (a b : PwmCh × Bool) : Prop :=
  (a.1.maskDue = true → halted = false → b.1.maskDue = false ∧ b.2 = true ∧ (play = true → b.1.sh = (a.1.sh.set 6 0).set 7 0)) ∧
  (a.1.maskDue = false ∨ halted = true → b = a)

theorem maskRewrite_self {k : Nat} (hk : k < 16) (s : State) :
    Rewritten s.keeper.halted (fed s k || (s.chan (192 + k)).fsm.state == .precharge) (s.gen k) ((maskRewrite k s).gen k) := by
  rcases maskRewrite_cases k s with ⟨hdue, hruns, -, heq⟩ | ⟨hstands, heq⟩
  · rw [heq, maskWrite_eq hk, gen_setArmed_self hk, maskWritten_self hk]
    refine ⟨fun _ _ => ⟨rfl, rfl, fun hplay => ?_⟩, fun h => ?_⟩
    · rw [hplay]
      exact maskTable_play hk s
    · rcases h with h | h
      · exact absurd hdue (by rw [show (s.pwmCh k).maskDue = false from h]; simp)
      · exact absurd h (by simp [hruns])
  · rw [heq]
    refine ⟨fun hdue hruns => ?_, fun _ => rfl⟩
    rcases hstands with h | h
    · exact absurd h (by rw [show (s.pwmCh k).maskDue = true from hdue]; simp)
    · exact absurd h (by simp [hruns])

/-- The generators once the Keeper has rewritten the tables that are due. -/
def masksRewritten (s : State) : State := forUnits 16 maskRewrite s

theorem masksRewritten_rewrites (s : State) : Rewrites s (masksRewritten s) :=
  forUnits_invariant (P := Rewrites s) (fun k u h => h.trans (maskRewrite_rewrites k u)) 16 (Rewrites.rfl' s)

theorem masksRewritten_gen (s : State) {k : Nat} (hk : k < 16) :
    Rewritten s.keeper.halted (fed s k || (s.chan (192 + k)).fsm.state == .precharge) (s.gen k) ((masksRewritten s).gen k) := by
  refine forUnits_units (get := State.gen) (P := Rewrites s)
    (R := fun k => Rewritten s.keeper.halted (fed s k || (s.chan (192 + k)).fsm.state == .precharge))
    (fun k u h => h.trans (maskRewrite_rewrites k u)) (fun k j u hj => maskRewrite_other hj u) (fun k u hk h => ?_) (Rewrites.rfl' s) hk
  have hchan : u.chan (192 + k) = s.chan (192 + k) := by rw [h]; rfl
  have hown := maskRewrite_self hk u
  unfold fed at hown ⊢
  rwa [hchan, show u.keeper = s.keeper by rw [h]] at hown

/-! ### The period (R279, R283) -/

/-- A new period begins, with a PERIOD that was captured and is not held. -/
def periodBegun (s : State) : State :=
  let r := masksRewritten s
  let s0 : State := { r with pwm := { r.pwm with tick := s.pwm.tick + s.pwm.period } }
  if s.pwm.periodPend ∧ !(s.pwm.periodHeld ∧ lBusy s) then
    takePeriod { s0 with pwm := { s0.pwm with periodPend := false, periodHeld := false } } else s0

theorem periodBegun_eq (s : State) : periodBegun s = { masksRewritten s with
    pwm := { (masksRewritten s).pwm with
      tick := s.pwm.tick + s.pwm.period, period := (periodBegun s).pwm.period, periodPend := (periodBegun s).pwm.periodPend
      periodHeld := (periodBegun s).pwm.periodHeld }
    free := (periodBegun s).free } := by
  unfold periodBegun takePeriod
  dsimp only
  split
  · split <;> rfl
  · rfl

theorem periodBegun_chan (s : State) (c : Nat) : (periodBegun s).chan c = s.chan c := by
  rw [periodBegun_eq, masksRewritten_rewrites]
  rfl

theorem periodBegun_touches (s : State) : Touches s (periodBegun s) := by
  rw [periodBegun_eq, masksRewritten_rewrites]
  rfl

theorem periodBegun_gen (s : State) (k : Nat) : (periodBegun s).gen k = (masksRewritten s).gen k := by
  rw [periodBegun_eq]
  rfl

theorem periodBegun_armed (s : State) : (periodBegun s).pwm.armed = (masksRewritten s).pwm.armed := by
  rw [periodBegun_eq]

/-- A PERIOD in range that was captured and is not held is taken; else the period and what was captured stand. -/
theorem periodBegun_period (s : State) :
    (s.pwm.periodPend = true → ¬ (s.pwm.periodHeld = true ∧ lBusy s = true) → 786 ≤ s.pwm.periodSh.toNat % 0x10000 →
      s.pwm.periodSh.toNat % 0x10000 ≤ 1966 →
      (periodBegun s).pwm.period = s.pwm.periodSh.toNat % 0x10000 ∧ (periodBegun s).pwm.periodPend = false) ∧
    (s.pwm.periodPend = false ∨ (s.pwm.periodHeld = true ∧ lBusy s = true) →
      (periodBegun s).pwm.period = s.pwm.period ∧ (periodBegun s).pwm.periodPend = s.pwm.periodPend) := by
  have hshadow : (masksRewritten s).pwm.periodSh = s.pwm.periodSh ∧ (masksRewritten s).pwm.period = s.pwm.period ∧
      (masksRewritten s).pwm.periodPend = s.pwm.periodPend := by
    rw [masksRewritten_rewrites]
    exact ⟨rfl, rfl, rfl⟩
  obtain ⟨hsh, hperiod, hpend⟩ := hshadow
  refine ⟨fun hcaught hfree hlow hhigh => ?_, fun h => ?_⟩
  · unfold periodBegun takePeriod
    dsimp only
    rw [if_pos ⟨hcaught, by simp only [hfree, decide_false, Bool.not_false]⟩, hsh, if_pos ⟨hlow, hhigh⟩]
    exact ⟨rfl, rfl⟩
  · have hstands : ¬ (s.pwm.periodPend = true ∧ (!decide (s.pwm.periodHeld = true ∧ lBusy s = true)) = true) := by
      rintro ⟨hcaught, hfree⟩
      rcases h with h | h
      · exact absurd hcaught (by simp [h])
      · exact absurd hfree (by simp [h])
    unfold periodBegun
    dsimp only
    rw [if_neg hstands]
    exact ⟨hperiod, hpend⟩

/-! ### Transfers and commutation (R283, R291) -/

/-- A loop at a boundary tick: a reverse state that is to end returns to the generator (R293). -/
def Loop.returned (l : Loop) : Loop := if l.releaseDue then { l with reverse := false, releaseDue := false } else l

/-- The boundary tick of Lk. -/
def boundaryOf (k : Nat) (s : State) : State := (pwmBoundary k s).modLoop (192 + k) Loop.returned

/-- A generator at a boundary tick: an armed set is transferred and the pointer returns to 0, else an event advances the pointer once. -/
def Crossed (armed : Bool) (a b : PwmCh) : Prop :=
  b.maskDue = a.maskDue ∧ b.step = false ∧ (armed = true → b.act = a.sh ∧ b.ptr = 0) ∧
  (armed = false → b.act = a.act ∧ b.ptr = if (evtBit a.act 8 || a.step) = true then (a.ptr + 1) % (lenM1 a.act + 1) else a.ptr)

theorem pwmBoundary_eq (k : Nat) (s : State) : pwmBoundary k s = { s with pwm := { s.pwm with ch := (pwmBoundary k s).pwm.ch } } := by
  unfold pwmBoundary
  dsimp only
  split
  · rfl
  split <;> rfl

theorem pwmBoundary_other {k j : Nat} (hj : j ≠ k) (s : State) : (pwmBoundary k s).pwmCh j = s.pwmCh j := by
  unfold pwmBoundary
  dsimp only
  split
  · exact pwmCh_modPwmCh_other s _ hj
  split <;> exact pwmCh_modPwmCh_other s _ hj

theorem pwmBoundary_self {k : Nat} (hk : k < 16) (s : State) : Crossed (s.pwm.armed.getLsbD k) (s.pwmCh k) ((pwmBoundary k s).pwmCh k) := by
  unfold pwmBoundary
  dsimp only
  cases harmed : s.pwm.armed.getLsbD k
  · rw [if_neg (by simp)]
    split
    · next hevent =>
      rw [pwmCh_modPwmCh_self _ _ hk]
      exact ⟨rfl, rfl, nofun, fun _ => ⟨rfl, (if_pos hevent).symm⟩⟩
    · next hquiet =>
      rw [pwmCh_modPwmCh_self _ _ hk]
      exact ⟨rfl, by simp_all, nofun, fun _ => ⟨rfl, (if_neg hquiet).symm⟩⟩
  · rw [if_pos rfl, pwmCh_modPwmCh_self _ _ hk]
    exact ⟨rfl, rfl, fun _ => ⟨rfl, rfl⟩, nofun⟩

theorem boundaryOf_eq (k : Nat) (s : State) :
    boundaryOf k s = { s with chans := (boundaryOf k s).chans, pwm := { s.pwm with ch := (boundaryOf k s).pwm.ch } } := by
  unfold boundaryOf
  rw [pwmBoundary_eq]
  rfl

theorem pwmBoundary_chan (k c : Nat) (s : State) : (pwmBoundary k s).chan c = s.chan c := by
  rw [pwmBoundary_eq]
  rfl

theorem boundaryOf_chan_other {k c : Nat} (hc : c ≠ 192 + k) (s : State) : (boundaryOf k s).chan c = s.chan c :=
  (chan_modChan_other _ _ hc).trans (pwmBoundary_chan k c s)

theorem boundaryOf_chan_self {k : Nat} (hk : k < 16) (s : State) :
    (boundaryOf k s).chan (192 + k) = { s.chan (192 + k) with loop := (s.chan (192 + k)).loop.returned } := by
  unfold boundaryOf
  rw [chan_modLoop_self _ _ (by omega), pwmBoundary_chan]

/-- The generators after the boundary tick. -/
def setsTransferred (s : State) : State := forUnits 16 boundaryOf (periodBegun s)

/-- Of a state only the channels and the registers of single generators differ. -/
def CrossesOnly (s t : State) : Prop := t = { s with chans := t.chans, pwm := { s.pwm with ch := t.pwm.ch } }

theorem setsTransferred_crosses (s : State) : CrossesOnly (periodBegun s) (setsTransferred s) :=
  forUnits_invariant (P := CrossesOnly (periodBegun s)) (fun k u h => by
    unfold CrossesOnly at *
    rw [boundaryOf_eq, h]) 16 rfl

theorem setsTransferred_pwmCh (s : State) {k : Nat} (hk : k < 16) :
    Crossed ((masksRewritten s).pwm.armed.getLsbD k) ((masksRewritten s).pwmCh k) ((setsTransferred s).pwmCh k) := by
  have hgen := periodBegun_gen s k
  have hunits := forUnits_units (get := State.pwmCh) (f := boundaryOf) (P := CrossesOnly (periodBegun s))
    (R := fun k => Crossed ((periodBegun s).pwm.armed.getLsbD k)) (n := 16) (s := periodBegun s) (c := k)
    (fun k u h => by
      unfold CrossesOnly at *
      rw [boundaryOf_eq, h])
    (fun k j u hj => pwmBoundary_other hj u)
    (fun k u hk h => by
      have hown := pwmBoundary_self hk u
      rwa [show u.pwm.armed = (periodBegun s).pwm.armed by rw [h]] at hown) rfl hk
  rwa [show (periodBegun s).pwmCh k = (masksRewritten s).pwmCh k from congrArg Prod.fst hgen, periodBegun_armed] at hunits

theorem setsTransferred_chan_S (s : State) {c : Nat} (hc : c < 192) : (setsTransferred s).chan c = s.chan c :=
  (forUnits_invariant (P := fun u => u.chan c = (periodBegun s).chan c) (fun k u h => (boundaryOf_chan_other (by omega) u).trans h) 16 rfl).trans
    (periodBegun_chan s c)

theorem setsTransferred_chan_L (s : State) {k : Nat} (hk : k < 16) :
    (setsTransferred s).chan (192 + k) = { s.chan (192 + k) with loop := (s.chan (192 + k)).loop.returned } := by
  rw [← periodBegun_chan s (192 + k)]
  exact forUnits_units (get := fun u k => u.chan (192 + k)) (P := fun _ => True) (R := fun _ a b => b = { a with loop := a.loop.returned })
    (fun _ _ _ => trivial) (fun k j u hj => boundaryOf_chan_other (by omega) u) (fun k u hk _ => boundaryOf_chan_self hk u) trivial hk

/-! ### A switching cycle begins (R34, R116) -/

/-- Two loops with the same cycle fields waiting and the same reverse state to end. -/
def SameWaits (a b : Loop) : Prop := b.releaseDue = a.releaseDue ∧ b.cycOld = a.cycOld ∧ b.cycFrom = a.cycFrom

theorem applyMargin_sameWaits (p : Nat × Option Rat) (l : Loop) : SameWaits l (applyMargin p l) := by
  unfold applyMargin
  split <;> exact ⟨rfl, rfl, rfl⟩

theorem foldl_applyMargin_sameWaits (m : List (Nat × Option Rat)) (l : Loop) : SameWaits l (m.foldl (fun l p => applyMargin p l) l) :=
  foldl_invariant (P := SameWaits l) (fun u p h => by
    obtain ⟨hrelease, hold, hfrom⟩ := applyMargin_sameWaits p u
    obtain ⟨krelease, kold, kfrom⟩ := h
    exact ⟨hrelease.trans krelease, hold.trans kold, hfrom.trans kfrom⟩) m ⟨rfl, rfl, rfl⟩

/-- The margins that waited act, and nothing else that waits does. -/
theorem takeMargins_loop {c : Nat} (hc : c < 208) (s : State) : LoopsOnly c s (takeMargins c s) ∧
    ((takeMargins c s).chan c).loop.marginDue = [] ∧ SameWaits (s.chan c).loop ((takeMargins c s).chan c).loop := by
  unfold takeMargins
  split
  · next hnone => exact ⟨.rfl' c s, List.isEmpty_iff.mp hnone, rfl, rfl, rfl⟩
  · dsimp only
    refine ⟨(modLoop_loopsOnly hc s _).trans (modLoop_loopsOnly hc _ _), ?_⟩
    rw [chan_modLoop_self _ _ hc, chan_modLoop_self _ _ hc]
    exact ⟨rfl, foldl_applyMargin_sameWaits _ _⟩

/-- At the first cycle of the new cycle fields they are in force, and at every cycle the margins that waited. -/
theorem newCycle_loop {c : Nat} (hc : c < 208) (s : State) : LoopsOnly c s (newCycle c s) ∧
    ((newCycle c s).chan c).loop.marginDue = [] ∧ ((newCycle c s).chan c).loop.releaseDue = (s.chan c).loop.releaseDue ∧
    ((s.chan c).loop.cycFrom ≤ s.media.index → ((newCycle c s).chan c).loop.cycOld = none) := by
  obtain ⟨hloops, hmargin, hrelease, hold, hfrom⟩ := takeMargins_loop hc s
  have hindex : (takeMargins c s).media = s.media := by
    rw [hloops.1.1]
  unfold newCycle
  dsimp only
  cases hcyc : ((takeMargins c s).chan c).loop.cycOld with
  | none => exact ⟨hloops, hmargin, hrelease, fun _ => hcyc⟩
  | some old =>
    dsimp only
    split
    · refine ⟨(hloops.trans (modLoop_loopsOnly hc _ _)).trans (modLoop_loopsOnly hc _ _), ?_⟩
      rw [chan_modLoop_self _ _ hc, chan_modLoop_self _ _ hc]
      dsimp only
      split
      · exact ⟨hmargin, hrelease, fun _ => rfl⟩
      split
      · exact ⟨hmargin, hrelease, fun _ => rfl⟩
      · exact ⟨hmargin, hrelease, fun _ => rfl⟩
    · next hlate =>
      rw [hfrom, hindex] at hlate
      exact ⟨hloops, hmargin, hrelease, fun h => absurd h hlate⟩

/-- The cycle of Lk that begins under a transfer. -/
def cycleOf (sets : BitVec 16) (k : Nat) (s : State) : State := if sets.getLsbD k ∧ armed s (192 + k) then newCycle (192 + k) s else s

/-- What the transfers of `sets` make of an L-channel's loop at the index `n`. -/
def Cycled (transfer : Bool) (n : Nat) (a b : Chan) : Prop :=
  b = { a with loop := b.loop } ∧
  (transfer = true → a.fsm.bridge = .switching →
    b.loop.marginDue = [] ∧ b.loop.releaseDue = a.loop.releaseDue ∧ (a.loop.cycFrom ≤ n → b.loop.cycOld = none)) ∧
  (transfer = false ∨ a.fsm.bridge ≠ .switching ∨ (a.loop.cycOld = none ∧ a.loop.marginDue = []) → b = a)

theorem cycleOf_loopsOnly (sets : BitVec 16) (k : Nat) (s : State) : LoopsOnly (192 + k) s (cycleOf sets k s) := by
  unfold cycleOf
  split
  · next h =>
    obtain ⟨hset, -⟩ := h
    obtain ⟨hloops, -⟩ := newCycle_loop (c := 192 + k) (by have := BitVec.lt_of_getLsbD hset; omega) s
    exact hloops
  · exact .rfl' _ s

theorem cycleOf_self (sets : BitVec 16) {k : Nat} (hk : k < 16) (s : State) :
    Cycled (sets.getLsbD k) s.media.index (s.chan (192 + k)) ((cycleOf sets k s).chan (192 + k)) := by
  unfold cycleOf
  split
  · next h =>
    obtain ⟨hset, harmed⟩ := h
    obtain ⟨⟨-, -, hchan⟩, hmargin, hrelease, hold⟩ := newCycle_loop (c := 192 + k) (by omega) s
    refine ⟨hchan, fun _ _ => ⟨hmargin, hrelease, hold⟩, fun hstands => ?_⟩
    rcases hstands with hno | hheld | ⟨hcyc, hdue⟩
    · exact absurd hset (by simp only [hno, Bool.false_eq_true, not_false_eq_true])
    · exact absurd (eq_of_beq harmed) hheld
    · rw [newCycle_settled hcyc hdue]
  · next h => exact ⟨rfl, fun hset hswitch => absurd ⟨hset, beq_iff_eq.mpr hswitch⟩ h, fun _ => rfl⟩

/-- The switching cycles that begin with this period have begun. -/
def cyclesBegun (s : State) : State := forUnits 16 (cycleOf (masksRewritten s).pwm.armed) (setsTransferred s)

theorem cyclesBegun_touches (s : State) : Touches s (cyclesBegun s) ∧ (cyclesBegun s).pwm = (setsTransferred s).pwm := by
  have hcross : Touches (periodBegun s) (setsTransferred s) := by
    rw [setsTransferred_crosses]
    rfl
  refine forUnits_invariant (P := fun u => Touches s u ∧ u.pwm = (setsTransferred s).pwm) (fun k u h => ?_) 16
    ⟨(periodBegun_touches s).trans hcross, rfl⟩
  obtain ⟨⟨htouch, -⟩, hpwm, -⟩ := cycleOf_loopsOnly (masksRewritten s).pwm.armed k u
  exact ⟨h.1.trans htouch, hpwm.trans h.2⟩

theorem cycleOf_chan_other (sets : BitVec 16) {k c : Nat} (hc : c ≠ 192 + k) (s : State) : (cycleOf sets k s).chan c = s.chan c := by
  obtain ⟨⟨-, -, hother⟩, -⟩ := cycleOf_loopsOnly sets k s
  exact hother c hc

theorem cyclesBegun_chan_S (s : State) {c : Nat} (hc : c < 192) : (cyclesBegun s).chan c = s.chan c :=
  (forUnits_invariant (P := fun u => u.chan c = (setsTransferred s).chan c) (fun k u h => (cycleOf_chan_other _ (by omega) u).trans h) 16 rfl).trans
    (setsTransferred_chan_S s hc)

theorem cyclesBegun_chan_L (s : State) {k : Nat} (hk : k < 16) :
    Cycled ((masksRewritten s).pwm.armed.getLsbD k) s.media.index
      { s.chan (192 + k) with loop := (s.chan (192 + k)).loop.returned } ((cyclesBegun s).chan (192 + k)) := by
  have hmedia : (setsTransferred s).media = s.media := by
    rw [setsTransferred_crosses, periodBegun_touches]
  rw [← setsTransferred_chan_L s hk]
  refine forUnits_units (get := fun u k => u.chan (192 + k)) (P := fun u => u.media = s.media)
    (R := fun k => Cycled ((masksRewritten s).pwm.armed.getLsbD k) s.media.index) (fun k u h => ?_)
    (fun k j u hj => cycleOf_chan_other _ (by omega) u) (fun k u hk h => ?_) hmedia hk
  · obtain ⟨⟨htouch, -⟩, -⟩ := cycleOf_loopsOnly (masksRewritten s).pwm.armed k u
    rw [htouch]
    exact h
  · rw [← h]
    exact cycleOf_self _ hk u

/-! ### The boundary tick as a whole -/

/-- Two values of the PWM block of which only the trip registers may differ. -/
def TripRegsOnly (p q : Pwm) : Prop := q = { p with filt := q.filt, level := q.level, map01 := q.map01, map23 := q.map23 }

theorem TripRegsOnly.trans {p q r : Pwm} (h : TripRegsOnly p q) (k : TripRegsOnly q r) : TripRegsOnly p r := by
  unfold TripRegsOnly at *
  rw [k, h]

theorem foldl_tripRegsOnly {f : Pwm → Nat × Word → Pwm} (hf : ∀ q e, TripRegsOnly q (f q e)) (l : List (Nat × Word)) (p : Pwm) :
    TripRegsOnly p (l.foldl f p) := foldl_invariant (P := TripRegsOnly p) (fun q e h => h.trans (hf q e)) l rfl

/-- The writes that waited reach the trip registers alone (R297). -/
theorem tripWrites_eq (p : Pwm) : tripWrites p =
    { p with filt := (tripWrites p).filt, level := (tripWrites p).level, map01 := (tripWrites p).map01, map23 := (tripWrites p).map23, written := [] } := by
  unfold tripWrites
  generalize hq : p.written.foldl _ p = q
  have hfold : TripRegsOnly p q := hq ▸ foldl_tripRegsOnly (fun q e => by split <;> rfl) p.written p
  unfold TripRegsOnly at hfold
  rw [hfold]

/-- The state after a boundary tick. -/
def boundaryPassed (s : State) : State :=
  { cyclesBegun s with pwm := { tripWrites (cyclesBegun s).pwm with armed := 0, count := 0 } }

theorem exec_pwmBoundary {s : State} (hlock : s.media.locked = true) : exec .pwmBoundary s = .next (boundaryPassed s) := if_pos hlock

theorem boundaryPassed_touches (s : State) : Touches s (boundaryPassed s) := by
  obtain ⟨htouch, -⟩ := cyclesBegun_touches s
  exact htouch.trans rfl

theorem boundaryPassed_pwm (s : State) : (boundaryPassed s).pwm.ch = (setsTransferred s).pwm.ch ∧
    (boundaryPassed s).pwm.period = (periodBegun s).pwm.period ∧ (boundaryPassed s).pwm.periodPend = (periodBegun s).pwm.periodPend ∧
    (boundaryPassed s).pwm.written = [] := by
  obtain ⟨-, hpwm⟩ := cyclesBegun_touches s
  unfold boundaryPassed
  dsimp only
  rw [tripWrites_eq, hpwm, setsTransferred_crosses]
  exact ⟨rfl, rfl, rfl, rfl⟩

/-- Each generator across a boundary tick. -/
theorem boundaryPassed_pwmCh (s : State) {k : Nat} (hk : k < 16) :
    ((s.pwmCh k).maskDue = true → s.keeper.halted = false →
      ((boundaryPassed s).pwmCh k).ptr = 0 ∧ ((boundaryPassed s).pwmCh k).maskDue = false ∧
      (fed s k = true ∨ (s.chan (192 + k)).fsm.state = .precharge → ((boundaryPassed s).pwmCh k).act = ((s.pwmCh k).sh.set 6 0).set 7 0)) ∧
    ((s.pwmCh k).maskDue = false ∨ s.keeper.halted = true → s.pwm.armed.getLsbD k = true →
      ((boundaryPassed s).pwmCh k).act = (s.pwmCh k).sh ∧ ((boundaryPassed s).pwmCh k).ptr = 0) ∧
    ((s.pwmCh k).maskDue = false ∨ s.keeper.halted = true → s.pwm.armed.getLsbD k = false →
      ((boundaryPassed s).pwmCh k).act = (s.pwmCh k).act ∧ ((boundaryPassed s).pwmCh k).ptr =
        if (evtBit (s.pwmCh k).act 8 || (s.pwmCh k).step) = true then ((s.pwmCh k).ptr + 1) % (lenM1 (s.pwmCh k).act + 1) else (s.pwmCh k).ptr) ∧
    ((boundaryPassed s).pwmCh k).step = false := by
  have hown : (boundaryPassed s).pwmCh k = (setsTransferred s).pwmCh k := by
    unfold State.pwmCh
    rw [(boundaryPassed_pwm s).1]
  obtain ⟨hdueSame, hstep, htransfer, hadvance⟩ := setsTransferred_pwmCh s hk
  obtain ⟨hrewritten, hstands⟩ := masksRewritten_gen s hk
  rw [hown]
  refine ⟨fun hdue hruns => ?_, fun hkept harmed => ?_, fun hkept harmed => ?_, hstep⟩
  · obtain ⟨hclear, hset, hplay⟩ := hrewritten hdue hruns
    obtain ⟨hact, hptr⟩ := htransfer hset
    refine ⟨hptr, hdueSame.trans hclear, fun h => hact.trans (hplay ?_)⟩
    simpa using h
  · have hgen := hstands hkept
    have hg : (masksRewritten s).pwmCh k = s.pwmCh k := congrArg Prod.fst hgen
    rw [← hg]
    exact htransfer ((congrArg Prod.snd hgen).trans harmed)
  · have hgen := hstands hkept
    have hg : (masksRewritten s).pwmCh k = s.pwmCh k := congrArg Prod.fst hgen
    rw [← hg]
    exact hadvance ((congrArg Prod.snd hgen).trans harmed)

/-- Each channel across a boundary tick. -/
theorem boundaryPassed_chan (s : State) {c : Nat} (hc : c < 208) :
    (boundaryPassed s).chan c = { s.chan c with loop := ((boundaryPassed s).chan c).loop } ∧
    (c < 192 ∨ (s.chan c).fsm.bridge ≠ .switching ∨ ((s.chan c).loop.cycOld = none ∧ (s.chan c).loop.marginDue = []) ∨
      (s.pwm.armed.getLsbD (c - 192) = false ∧ ((s.pwmCh (c - 192)).maskDue = false ∨ s.keeper.halted = true)) →
      ((boundaryPassed s).chan c).loop = if 192 ≤ c ∧ (s.chan c).loop.releaseDue = true then
        { (s.chan c).loop with reverse := false, releaseDue := false } else (s.chan c).loop) ∧
    (192 ≤ c → (s.chan c).fsm.bridge = .switching → s.pwm.armed.getLsbD (c - 192) = true →
      ((boundaryPassed s).chan c).loop.marginDue = [] ∧ ((boundaryPassed s).chan c).loop.releaseDue = false ∧
      ((s.chan c).loop.cycFrom ≤ s.media.index → ((boundaryPassed s).chan c).loop.cycOld = none)) := by
  have hpassed : (boundaryPassed s).chan c = (cyclesBegun s).chan c := rfl
  rw [hpassed]
  by_cases hS : c < 192
  · rw [cyclesBegun_chan_S s hS]
    exact ⟨rfl, fun _ => (if_neg fun h => by omega).symm, fun hL => by omega⟩
  · obtain ⟨k, rfl⟩ := Nat.exists_eq_add_of_le (not_lt.mp hS)
    have hk : k < 16 := by omega
    rw [Nat.add_sub_cancel_left]
    obtain ⟨hchan, hcycle, hstands⟩ := cyclesBegun_chan_L s hk
    obtain ⟨hrewritten, hkept⟩ := masksRewritten_gen s hk
    have hwaits : (s.chan (192 + k)).loop.returned.cycOld = (s.chan (192 + k)).loop.cycOld ∧
        (s.chan (192 + k)).loop.returned.marginDue = (s.chan (192 + k)).loop.marginDue ∧
        (s.chan (192 + k)).loop.returned.cycFrom = (s.chan (192 + k)).loop.cycFrom ∧ (s.chan (192 + k)).loop.returned.releaseDue = false := by
      unfold Loop.returned
      split
      · exact ⟨rfl, rfl, rfl, rfl⟩
      · next h => exact ⟨rfl, rfl, rfl, by simpa using h⟩
    obtain ⟨hold, hmargin, hfrom, hrelease⟩ := hwaits
    refine ⟨hchan, fun h => ?_, fun _ hswitch harmed => ?_⟩
    · have hloop : ((cyclesBegun s).chan (192 + k)).loop = (s.chan (192 + k)).loop.returned := by
        rw [hstands ?_]
        rcases h with h | h | h | ⟨hidle, h⟩
        · omega
        · exact .inr (.inl h)
        · exact .inr (.inr ⟨hold.trans h.1, hmargin.trans h.2⟩)
        · exact .inl ((congrArg Prod.snd (hkept h)).trans hidle)
      rw [hloop]
      unfold Loop.returned
      simp only [Nat.le_add_right, true_and]
    · have hset : (masksRewritten s).pwm.armed.getLsbD k = true := by
        by_cases h : (s.pwmCh k).maskDue = true ∧ s.keeper.halted = false
        · exact (hrewritten h.1 h.2).2.1
        · refine (congrArg Prod.snd (hkept ?_)).trans harmed
          rcases Bool.eq_false_or_eq_true (s.pwmCh k).maskDue with hdue | hdue
          · exact .inr (by simpa [hdue] using h)
          · exact .inl hdue
      obtain ⟨cmargin, crelease, cold⟩ := hcycle hset hswitch
      exact ⟨cmargin, crelease.trans hrelease, fun hin => cold (hfrom.le.trans hin)⟩

end Sys2Proof.Machine
end

section
/-! PROOFS. The feeder: the compares, carries, triggers and permutations that a period writes, and its starved state (R284 to R290, R298, Table 11.2). -/

namespace Sys2Proof.Machine

/-! ### Halves of the register words (Table 11.2) -/

theorem setHalf_length (l : List Word) (i v : Nat) : (setHalf l i v).length = l.length := List.length_set

theorem halfOf_set_other {j n : Nat} (h : n ≠ j / 2) (l : List Word) (w : Word) : halfOf (l.set n w) j = halfOf l j := by
  unfold halfOf
  rw [List.getD_eq_getElem?_getD, List.getElem?_set_ne h, ← List.getD_eq_getElem?_getD]

theorem getD_set_self {n : Nat} {l : List Word} (h : n < l.length) (w : Word) : (l.set n w).getD n 0 = w := by
  simp [h]

theorem halfOf_setHalf_self {i : Nat} {l : List Word} (h : i / 2 < l.length) (v : Nat) : halfOf (setHalf l i v) i = v % 0x10000 := by
  unfold halfOf setHalf
  dsimp only
  rw [getD_set_self h]
  have hw := (l.getD (i / 2) 0).isLt
  unfold word
  rw [BitVec.toNat_ofNat]
  split <;> omega

theorem halfOf_setHalf_other {i j : Nat} (h : j ≠ i) (l : List Word) (v : Nat) : halfOf (setHalf l i v) j = halfOf l j := by
  by_cases hword : i / 2 = j / 2
  · by_cases hlen : i / 2 < l.length
    · unfold halfOf setHalf
      dsimp only
      rw [← hword, getD_set_self hlen]
      have hw := (l.getD (i / 2) 0).isLt
      unfold word
      rw [BitVec.toNat_ofNat]
      rcases Nat.mod_two_eq_zero_or_one i with hi | hi <;> rcases Nat.mod_two_eq_zero_or_one j with hj | hj
      · omega
      · simp only [hi, hj, if_true, Nat.one_ne_zero, if_false]
        omega
      · simp only [hi, hj, if_true, Nat.one_ne_zero, if_false]
        omega
      · omega
    · unfold setHalf
      rw [List.set_eq_of_length_le (not_lt.mp hlen)]
  · exact halfOf_set_other hword l _

section
variable {e : Nat → Nat} (f : Nat → Nat)

theorem foldl_setHalf_length (n : Nat) (l : List Word) : ((List.range n).foldl (fun l x => setHalf l (e x) (f x)) l).length = l.length :=
  foldl_invariant (P := fun m : List Word => m.length = l.length) (fun m _ h => (setHalf_length m _ _).trans h) _ rfl

theorem halfOf_foldl_setHalf_other {n j : Nat} (h : ∀ x < n, j ≠ e x) (l : List Word) :
    halfOf ((List.range n).foldl (fun l x => setHalf l (e x) (f x)) l) j = halfOf l j := by
  induction n with
  | zero => rfl
  | succ n ih =>
    rw [List.range_succ, List.foldl_append, List.foldl_cons, List.foldl_nil, halfOf_setHalf_other (h n (by omega))]
    exact ih fun x hx => h x (by omega)

/-- Halves written one after another at places of their own each stand. -/
theorem halfOf_foldl_setHalf_self (he : Function.Injective e) {n x : Nat} (hx : x < n) {l : List Word} (hl : e x / 2 < l.length) :
    halfOf ((List.range n).foldl (fun l x => setHalf l (e x) (f x)) l) (e x) = f x % 0x10000 := by
  induction n with
  | zero => omega
  | succ n ih =>
    rw [List.range_succ, List.foldl_append, List.foldl_cons, List.foldl_nil]
    by_cases h : x = n
    · subst h
      exact halfOf_setHalf_self (by rwa [foldl_setHalf_length]) _
    · rw [halfOf_setHalf_other (fun hsame => h (he hsame))]
      exact ih (by omega)

end

/-! ### What a period writes (R285 to R290) -/

/-- The shortest held state of cell x: the longest of its leg's in the fallback, where the cells switch as one (R304). -/
def holdTh (k : Nat) (s : State) (x : Nat) : Nat :=
  if (s.chan (192 + k)).fsm.cellFallback then
    max (cellTh s (192 + k) (x / 3 * 3)) (max (cellTh s (192 + k) (x / 3 * 3 + 1)) (cellTh s (192 + k) (x / 3 * 3 + 2)))
  else cellTh s (192 + k) x

/-- The compare, the carry and whether the pulse is withheld of cell x, for the duty dA of leg A (R287). -/
def cellOut (k : Nat) (dA : Rat) (s : State) (x : Nat) : Nat × Int × Bool :=
  let g := s.pwmCh k
  let trim := if (s.chan (192 + k)).fsm.cellFallback then 0 else (if x < 3 then g.trimA else g.trimB).getD (x % 3) 0
  emitCell s.pwm.period (holdTh k s x) (roundOpen 2 (256 * (if x < 3 then dA else 1 - dA) * s.pwm.period) + trim) (g.carry.getD x 0)

/-- The new compares of a leg. -/
def legCmps (k : Nat) (dA : Rat) (s : State) (leg : Nat) : List Nat :=
  [(cellOut k dA s (3 * leg)).1, (cellOut k dA s (3 * leg + 1)).1, (cellOut k dA s (3 * leg + 2)).1]

/-- A leg takes its rotation step (R290). -/
def legTurns (k : Nat) (dA : Rat) (s : State) (leg : Nat) : Bool :=
  let c := 192 + k
  let g := s.pwmCh k
  !(s.chan c).fsm.cellFallback && decide (31 ≤ if leg = 0 then g.rotA else g.rotB) &&
    stepOk s.pwm.period (permOf g.act leg) [cmpOf g.act (3 * leg), cmpOf g.act (3 * leg + 1), cmpOf g.act (3 * leg + 2)] (legCmps k dA s leg)
      [cellTh s c (3 * leg), cellTh s c (3 * leg + 1), cellTh s c (3 * leg + 2)]

/-- The new permutation of a leg. -/
def legPerm (k : Nat) (dA : Rat) (s : State) (leg : Nat) : Nat :=
  if (s.chan (192 + k)).fsm.cellFallback then 0 else (permOf (s.pwmCh k).act leg + bit (legTurns k dA s leg) 0) % 3

/-- The new triggers of the two legs and of the current (R289). -/
def feedTrigs (k : Nat) (dA : Rat) (s : State) : List Nat :=
  let fb := (s.chan (192 + k)).fsm.cellFallback
  [fcTrigger s.pwm.period fb (legCmps k dA s 0) (legPerm k dA s 0), fcTrigger s.pwm.period fb (legCmps k dA s 1) (legPerm k dA s 1),
    iTrigger s.pwm.period fb (legCmps k dA s 0) (legPerm k dA s 0)]

theorem feedWrite_sh (k : Nat) (dA : Rat) (s : State) : (feedWrite k dA s).1.sh =
    ((List.range 3).foldl (fun l j => setHalf l (2 * wTrig01 + j) ((feedTrigs k dA s).getD j 0))
      ((List.range 6).foldl (fun l x => setHalf l x ((((List.range 6).map (cellOut k dA s)).map (·.1)).getD x 0)) (s.pwmCh k).sh)).set wPerm
        (word (legPerm k dA s 0 + 16 * legPerm k dA s 1)) := rfl

theorem feedWrite_carry (k : Nat) (dA : Rat) (s : State) : (feedWrite k dA s).1.carry = (List.range 6).map fun x => (cellOut k dA s x).2.1 := rfl

theorem feedWrite_stands (k : Nat) (dA : Rat) (s : State) : (feedWrite k dA s).1.duty = dA ∧ (feedWrite k dA s).1.act = (s.pwmCh k).act := ⟨rfl, rfl⟩

theorem legPerm_lt (k : Nat) (dA : Rat) (s : State) (leg : Nat) : legPerm k dA s leg < 3 := by
  unfold legPerm
  split <;> omega

section
variable {k : Nat} (dA : Rat) {s : State} (hlen : 6 ≤ (s.pwmCh k).sh.length)
include hlen

theorem cmpOf_feedWrite {x : Nat} (hx : x < 6) : cmpOf (feedWrite k dA s).1.sh x = (cellOut k dA s x).1 % 0x10000 := by
  unfold cmpOf
  rw [feedWrite_sh, halfOf_set_other (by unfold wPerm; omega), halfOf_foldl_setHalf_other _ (by unfold wTrig01; omega)]
  refine (halfOf_foldl_setHalf_self (e := fun x => x) _ (fun _ _ h => h) hx (by omega)).trans ?_
  simp [hx]

theorem trigOf_feedWrite {j : Nat} (hj : j < 3) : trigOf (feedWrite k dA s).1.sh j = (feedTrigs k dA s).getD j 0 % 0x10000 := by
  unfold trigOf
  rw [feedWrite_sh, halfOf_set_other (by unfold wPerm wTrig01; omega)]
  refine halfOf_foldl_setHalf_self (e := fun j => 2 * wTrig01 + j) _ (fun _ _ h => by simpa using h) hj ?_
  rw [foldl_setHalf_length (e := fun x => x)]
  unfold wTrig01
  omega

theorem permOf_feedWrite {leg : Nat} (hleg : leg < 2) : permOf (feedWrite k dA s).1.sh leg = legPerm k dA s leg := by
  have hA := legPerm_lt k dA s 0
  have hB := legPerm_lt k dA s 1
  unfold permOf
  rw [feedWrite_sh, getD_set_self (by
    rw [foldl_setHalf_length (e := fun j => 2 * wTrig01 + j), foldl_setHalf_length (e := fun x => x)]
    unfold wPerm
    omega)]
  unfold word
  rw [BitVec.toNat_ofNat]
  match leg, hleg with
  | 0, _ => simp only [if_true]; omega
  | 1, _ => simp only [Nat.one_ne_zero, if_false]; omega

end

theorem carry_feedWrite (k : Nat) (dA : Rat) (s : State) {x : Nat} (hx : x < 6) :
    (feedWrite k dA s).1.carry.getD x 0 = (cellOut k dA s x).2.1 := by
  rw [feedWrite_carry]
  simp [hx]

/-- The permutation moves on where the leg takes its step, and stands otherwise. -/
theorem legPerm_eq (k : Nat) (dA : Rat) (s : State) (leg : Nat) : legPerm k dA s leg =
    if (s.chan (192 + k)).fsm.cellFallback then 0
    else if legTurns k dA s leg then (permOf (s.pwmCh k).act leg + 1) % 3 else permOf (s.pwmCh k).act leg := by
  have hperm : permOf (s.pwmCh k).act leg % 3 = permOf (s.pwmCh k).act leg := Nat.mod_mod _ 3
  unfold legPerm
  cases legTurns k dA s leg
  · simp only [bit, Bool.false_eq_true, if_false, Nat.add_zero, hperm]
  · simp only [bit, if_true, Nat.pow_zero]

/-! ### The inputs of a period -/

/-- Two states that give the feeder of Lk the same inputs, but for what its starved state counts. -/
def FeedsAs (k : Nat) (s u : State) : Prop :=
  u.pwm.period = s.pwm.period ∧ (u.chan (192 + k)).fsm.cellFallback = (s.chan (192 + k)).fsm.cellFallback ∧
  (u.chan (192 + k)).loop.dead = (s.chan (192 + k)).loop.dead ∧ u.pwmCh k = { s.pwmCh k with starve := (u.pwmCh k).starve }

theorem cellTh_congr {k : Nat} {s u : State} (h : FeedsAs k s u) (x : Nat) : cellTh u (192 + k) x = cellTh s (192 + k) x := by
  obtain ⟨-, -, hdead, -⟩ := h
  unfold cellTh
  rw [hdead]

theorem feedWrite_congr {k : Nat} (dA : Rat) {s u : State} (h : FeedsAs k s u) :
    (feedWrite k dA u).1 = { (feedWrite k dA s).1 with starve := (u.pwmCh k).starve } := by
  have hth : cellTh u (192 + k) = cellTh s (192 + k) := funext (cellTh_congr h)
  obtain ⟨hperiod, hback, -, hgen⟩ := h
  unfold feedWrite
  dsimp only
  rw [hperiod, hback, hth, hgen]

/-- The duty of leg A in this period: that of the FIFO, or that of the starved state. -/
def feedDuty (k : Nat) (s : State) : Rat :=
  if (s.chan (192 + k)).fsm.feedStarved then (starveStep s.pwm.period (s.pwmCh k).starve).now else dutyA (feedM s (192 + k) (feedPlace s k)).1

/-- The state from which the period is written: the starved state has moved on, or a clipped sample has been counted. -/
def feedReady (k : Nat) (s : State) : State :=
  if (s.chan (192 + k)).fsm.feedStarved then s.modPwmCh k fun g => { g with starve := starveStep s.pwm.period (s.pwmCh k).starve }
  else if (feedM s (192 + k) (feedPlace s k)).2 then clipOnce (192 + k) (feedPlace s k).floor.toNat s else s

theorem exec_feederPeriod {k : Nat} {s : State} (hk : k < 16) (hlock : s.media.locked = true) (hfed : fed s k = true) :
    exec (.feederPeriod k) s = .next (feedPeriod k (feedDuty k s) (feedReady k s)) := by
  show execFeederPeriod k s = _
  unfold execFeederPeriod feedDuty feedReady
  dsimp only
  rw [if_pos (by simp [hk, hlock, hfed])]
  cases (s.chan (192 + k)).fsm.feedStarved
  · rfl
  · rfl

theorem feedReady_stands {k : Nat} (hk : k < 16) (s : State) : TouchesChan (192 + k) s (feedReady k s) ∧ FeedsAs k s (feedReady k s) ∧
    SamePins s (feedReady k s) ∧ ∀ j, j ≠ k → (feedReady k s).pwmCh j = s.pwmCh j := by
  unfold feedReady
  split
  · refine ⟨modPwmCh_touchesChan _ s k _, ⟨rfl, rfl, rfl, ?_⟩, rfl, fun j hj => pwmCh_modPwmCh_other s _ hj⟩
    rw [pwmCh_modPwmCh_self _ _ hk]
  split
  · obtain ⟨htouch, hpwm, hchan⟩ := clipOnce_loopsOnly (c := 192 + k) (by omega) (feedPlace s k).floor.toNat s
    obtain ⟨x, hloop⟩ := clipOnce_loop (c := 192 + k) (by omega) (feedPlace s k).floor.toNat s
    have hgen : ∀ j, (clipOnce (192 + k) (feedPlace s k).floor.toNat s).pwmCh j = s.pwmCh j := fun j => by
      unfold State.pwmCh
      rw [hpwm]
    exact ⟨htouch, ⟨by rw [hpwm], by rw [hchan], by rw [hloop], by rw [hgen]⟩, .of_eq hpwm, fun j _ => hgen j⟩
  · exact ⟨TouchesChan.rfl' _ s, ⟨rfl, rfl, rfl, rfl⟩, rfl, fun _ _ => rfl⟩

/-- The period is written into the shadows of Lk, whose set is armed; the counter stands where the writes do (R284). -/
theorem feedPeriod_effects {k : Nat} (hk : k < 16) (dA : Rat) (u : State) :
    TouchesChan (192 + k) u (feedPeriod k dA u) ∧ (feedPeriod k dA u).pwm.armed = u.pwm.armed ||| (word (2 ^ k)).setWidth 16 ∧
    (feedPeriod k dA u).pwm.count = u.pwm.period - 48 ∧ (feedPeriod k dA u).pwm.period = u.pwm.period ∧
    (feedPeriod k dA u).pwmCh k = (feedWrite k dA u).1 ∧ ∀ j, j ≠ k → (feedPeriod k dA u).pwmCh j = u.pwmCh j := by
  unfold feedPeriod
  dsimp only
  generalize feedWrite k dA u = w
  rw [loadAll_setOf hk]
  refine ⟨⟨rfl, rfl, fun _ _ => rfl⟩, rfl, rfl, rfl, ?_, fun j hj => ?_⟩
  · exact pwmCh_modPwmCh_self u (fun _ => w.1) hk
  · exact pwmCh_modPwmCh_other u (fun _ => w.1) hj

/-! ### The starved state (R298) -/

/-- The FIFO of a channel has run empty: the duty ramps to one half over 32 samples. -/
def feedStarving (c : Nat) (s : State) : State :=
  ((s.modFsm c fun f => { f with feedStarved := true }).modPwmCh (lOf c) fun g => { g with starve := ⟨g.duty, 1/2, 0, 32 * 2048⟩ }).count
    (chanStat c 0x0CE) 1

theorem exec_feedUnderrun {c : Nat} {s : State} (hL : 192 ≤ c) (hfed : fed s (c - 192) = true) (hflows : (s.chan c).fsm.feedStarved = false) :
    exec (.feedUnderrun c) s = .next ((feedStarving c s).raise 0x6045 c [32]) := by
  show execFeedUnderrun c s = _
  unfold execFeedUnderrun
  dsimp only
  rw [if_pos (by rw [show isL c = true from decide_eq_true hL, show fed s (lOf c) = true from hfed, hflows]; rfl)]
  rfl

/-- Samples are there again: the channel fades in. -/
theorem exec_feedResume {c : Nat} {s : State} (hL : 192 ≤ c) (hfed : fed s (c - 192) = true) (hstarved : (s.chan c).fsm.feedStarved = true) :
    exec (.feedResume c) s = .next (s.modChan c fun h =>
      { h with fsm := { h.fsm with feedStarved := false }, dsp := { h.dsp with fade := ⟨0, 1, 0, 1024⟩ } }) := by
  show execFeedResume c s = _
  unfold execFeedResume
  rw [if_pos (by rw [show isL c = true from decide_eq_true hL, show fed s (lOf c) = true from hfed, hstarved]; rfl)]

theorem feedStarving_touchesChan (c : Nat) (s : State) : TouchesChan c s (feedStarving c s) := by
  unfold feedStarving
  exact ((modFsm_touchesChan s c _).trans (modPwmCh_touchesChan c _ _ _)).trans (count_touchesChan c _ _ _)

theorem chan_modPwmCh (s : State) (k c : Nat) (f : PwmCh → PwmCh) : (s.modPwmCh k f).chan c = s.chan c := rfl

theorem feedStarving_chan {c : Nat} (hc : c < 208) (s : State) :
    (feedStarving c s).chan c = { s.chan c with fsm := { (s.chan c).fsm with feedStarved := true } } := by
  unfold feedStarving
  rw [chan_count, chan_modPwmCh, chan_modFsm_self _ _ hc]

theorem pwmCh_count (id n k : Nat) (s : State) : (s.count id n).pwmCh k = s.pwmCh k := rfl

theorem pwmCh_modFsm (s : State) (c k : Nat) (f : Fsm → Fsm) : (s.modFsm c f).pwmCh k = s.pwmCh k := rfl

theorem feedStarving_pwmCh {c : Nat} (hL : 192 ≤ c) (hc : c < 208) (s : State) : (feedStarving c s).pwmCh (c - 192) =
    { s.pwmCh (c - 192) with starve := ⟨(s.pwmCh (c - 192)).duty, 1/2, 0, 32 * 2048⟩ } := by
  unfold feedStarving lOf
  rw [pwmCh_count, pwmCh_modPwmCh_self _ _ (by omega), pwmCh_modFsm]

/-! ### The rows as Table 11.2 gives them -/

/-- A leg's permutation is 0 in the fallback; else it moves on from its 32nd period, where no held state gets too short (R290, R304). -/
theorem legPerm_rows (k : Nat) (dA : Rat) (s : State) (leg : Nat) : legPerm k dA s leg =
    if (s.chan (192 + k)).fsm.cellFallback then 0
    else if 31 ≤ (if leg = 0 then (s.pwmCh k).rotA else (s.pwmCh k).rotB) ∧ stepOk s.pwm.period (permOf (s.pwmCh k).act leg)
        [cmpOf (s.pwmCh k).act (3 * leg), cmpOf (s.pwmCh k).act (3 * leg + 1), cmpOf (s.pwmCh k).act (3 * leg + 2)] (legCmps k dA s leg)
        [holdTh k s (3 * leg), holdTh k s (3 * leg + 1), holdTh k s (3 * leg + 2)] = true
      then (permOf (s.pwmCh k).act leg + 1) % 3 else permOf (s.pwmCh k).act leg := by
  rw [legPerm_eq]
  by_cases hback : (s.chan (192 + k)).fsm.cellFallback = true
  · rw [if_pos hback, if_pos hback]
  · have hth : holdTh k s = cellTh s (192 + k) := funext fun x => if_neg hback
    rw [if_neg hback, if_neg hback, hth]
    simp only [legTurns, Bool.eq_false_iff.mpr hback, Bool.not_false, Bool.true_and, Bool.and_eq_true, decide_eq_true_eq]

theorem feedPeriod_pwmCh {k : Nat} (hk : k < 16) (s : State) : ∃ x, (feedPeriod k (feedDuty k s) (feedReady k s)).pwmCh k =
    { (feedWrite k (feedDuty k s) s).1 with starve := x } := by
  obtain ⟨-, hfeeds, -⟩ := feedReady_stands hk s
  obtain ⟨-, -, -, -, hown, -⟩ := feedPeriod_effects hk (feedDuty k s) (feedReady k s)
  exact ⟨_, hown.trans (feedWrite_congr _ hfeeds)⟩

theorem exec_loadAll {s : State} (hlock : s.media.locked = true) (v : Word) : exec (.loadAll v) s = .next (loadAll v s) := if_pos hlock

theorem exec_maskStep (k : Nat) {s : State} (hlock : s.media.locked = true) :
    exec (.maskStep k) s = .next (s.modPwmCh k fun g => { g with step := true }) := if_pos hlock

end Sys2Proof.Machine

open Sys2Proof Sys2Proof.Machine

/-- Settles O38: the trip inputs by the channels their map reaches, the boundary tick by its four parts in turn, and the feeder by
the words that a period writes into the shadows. The transfers, the mask tables and the data word of FEED_UNDERRUN are as the
model reads them (log entries 59, 77 and 33). -/
theorem tripAndPwmRows : Obligations.TripAndPwmRows := by
  intro s
  refine ⟨fun i n hn => exec_faultNTrip_short hn, fun i n hi hlock hclear hlatch hn => ?_, fun i hi hset => exec_faultNRelease hi hset,
    fun v hlock => exec_loadAll hlock v, fun k hk hlock => ?_, fun hlock => ?_, fun k hk hlock hfed hlen => ?_, fun c hL hc hfed => ?_⟩
  · exact ⟨_, exec_faultNTrip_long hi hlock hclear hn, assertTrip_effects hlatch⟩
  · exact ⟨_, exec_maskStep k hlock, rfl, pwmCh_modPwmCh_self _ _ hk, fun j hj => pwmCh_modPwmCh_other _ _ hj⟩
  · obtain ⟨-, hperiod, hpend, hwritten⟩ := boundaryPassed_pwm s
    obtain ⟨htaken, hkept⟩ := periodBegun_period s
    rw [← hperiod, ← hpend] at htaken hkept
    exact ⟨_, exec_pwmBoundary hlock, (boundaryPassed_touches s).quiet, rfl, hwritten, fun c hc => boundaryPassed_chan s hc, rfl,
      fun k hk => boundaryPassed_pwmCh s hk, htaken, hkept⟩
  · obtain ⟨htouch, ⟨hperiod, -⟩, hpins, hothers⟩ := feedReady_stands hk s
    obtain ⟨ktouch, karmed, kcount, kperiod, -, kothers⟩ := feedPeriod_effects hk (feedDuty k s) (feedReady k s)
    obtain ⟨x, hown⟩ := feedPeriod_pwmCh hk s
    obtain ⟨hduty, hact⟩ := feedWrite_stands k (feedDuty k s) s
    have harmed : (feedReady k s).pwm.armed = s.pwm.armed := by rw [hpins]
    refine ⟨_, exec_feederPeriod hk hlock hfed, ?_, htouch.trans ktouch, by rw [karmed, harmed], by rw [kcount, hperiod],
      kperiod.trans hperiod, by rw [hown]; exact hact, fun j hj => (kothers j hj).trans (hothers j hj)⟩
    rw [hown]
    refine ⟨fun x hx => ⟨cmpOf_feedWrite _ hlen hx, carry_feedWrite k _ s hx⟩, hduty, fun leg hleg => ?_, fun leg hleg => ?_, ?_⟩
    · exact (permOf_feedWrite _ hlen hleg).trans (legPerm_rows k _ s leg)
    · refine (trigOf_feedWrite _ hlen (by omega)).trans ?_
      rw [show permOf _ leg = _ from permOf_feedWrite _ hlen hleg]
      match leg, hleg with
      | 0, _ => rfl
      | 1, _ => rfl
    · refine (trigOf_feedWrite _ hlen (by omega)).trans ?_
      rw [show permOf _ 0 = _ from permOf_feedWrite _ hlen (by omega)]
      rfl
  · refine ⟨fun hflows => ?_, fun hstarved => ?_⟩
    · have hreports := raise_reports 0x6045 c [32] (feedStarving c s)
      refine ⟨_, exec_feedUnderrun hL hfed hflows, (feedStarving_touchesChan c s).trans (hreports.touchesChan c),
        (hreports.chan c).trans (feedStarving_chan hc s), (raise_raised 0x6045 c [32] _).of_log rfl rfl, ?_⟩
      refine Eq.trans ?_ (feedStarving_pwmCh hL hc s)
      unfold State.pwmCh
      rw [hreports.pwm]
    · refine ⟨_, exec_feedResume hL hfed hstarved, modChan_touchesChan s c _, rfl, ?_⟩
      rw [chan_modChan_self _ _ hc]
      exact ⟨rfl, rfl⟩
end

section
/-! PROOFS. The queue of waiting commands, and the fault stop of a controller (R343, R345, R346, spec/95_what_each_step_holds.md). -/

namespace Sys2Proof.Machine

/-! ### A step and the queue -/

/-- With an empty queue the block idles. -/
theorem step_idle {s : State} (h : s.pending = []) : step s = .next s := by rw [step, h]

theorem exec_pending {c : Instr} {s t : State} (h : exec c s = .next t) : t.pending = s.pending := by
  obtain ⟨u, hnext, hqueue, -⟩ := exec_keeps c s
  rw [hnext] at h
  cases h
  exact hqueue

/-! ### RAIL_LOST on the fed channels (R345) -/

theorem mem_fedBy_iff {r c : Nat} (hr : r < 12) (hc : c < 208) : c ∈ fedBy r ↔ rcOf c = r := by
  unfold fedBy rcOf
  split
  · simp only [List.mem_map, List.mem_range]
    constructor
    · rintro ⟨i, hi, rfl⟩
      rw [if_neg (by omega)]
      omega
    · intro h
      split at h
      · omega
      · exact ⟨(c - 192) % 4, by omega, by omega⟩
  · simp only [List.mem_map, List.mem_range]
    constructor
    · rintro ⟨i, hi, rfl⟩
      rw [if_pos (by omega)]
      omega
    · intro h
      split at h
      · exact ⟨c % 24, by omega, by omega⟩
      · omega

/-- A cause of FAULT leaves a channel in FAULT, unless it is in OFF. -/
theorem hardStop_fault {c : Nat} (code : Nat) (data : List Word) {s : State} (hc : c < 208) (hoff : (s.chan c).fsm.state ≠ .off) :
    ((hardStop c code data s).chan c).fsm.state = .fault := by
  by_cases hagain : (s.chan c).fsm.state = .fault ∨ (s.chan c).fsm.state = .retest
  · rw [hardStop_faulted_again hagain]
    exact (faultAgain_fsm code data hc s).1
  · obtain ⟨hfault, hretest⟩ := not_or.mp hagain
    exact (hardStop_self hc hoff hfault hretest).1

/-- One cause that reaches each channel of a list: a channel in OFF drives as before, any other of the list ends in FAULT. -/
theorem forList_hardStop_fault (low : Nat) (data : List Word) (l : List Nat) (s : State) {k : Nat} (hk : k < 208) :
    ((s.chan k).fsm.state = .off → SameDrive (s.chan k) ((forList l (fun c s => hardStop c (chanCode c low) data s) s).chan k)) ∧
    ((s.chan k).fsm.state ≠ .off → k ∈ l ∨ (s.chan k).fsm.state = .fault →
      ((forList l (fun c s => hardStop c (chanCode c low) data s) s).chan k).fsm.state = .fault) := by
  unfold forList
  induction l generalizing s with
  | nil => exact ⟨fun _ => SameDrive.rfl' _, fun _ h => by simpa using h⟩
  | cons a l ih =>
    rw [List.foldl_cons]
    obtain ⟨ihOff, ihFault⟩ := ih (hardStop a (chanCode a low) data s)
    by_cases ha : k = a
    · subst ha
      refine ⟨fun hoff => ?_, fun hoff _ => ?_⟩
      · simp only [hardStop_off hoff] at ihOff ⊢
        exact ihOff hoff
      · have hfault := hardStop_fault (chanCode k low) data hk hoff
        exact ihFault (by simp [hfault]) (.inr hfault)
    · have hother := hardStop_other a (chanCode a low) data s ha
      obtain ⟨hstate, -⟩ := id hother
      rw [hstate] at ihOff ihFault
      refine ⟨fun hoff => hother.trans (ihOff hoff), fun hoff hin => ihFault hoff (hin.imp_left fun h => ?_)⟩
      exact (List.mem_cons.mp h).resolve_left ha

/-- What RAIL_LOST makes of each channel once the controller has stopped; the tests that end then change how no unit drives. -/
theorem railFault_chan_lost {r : Nat} (code : Nat) (data : List Word) {s : State} (hreg : (s.rail r).state = .regulating) {k : Nat} (hk : k < 208) :
    ((s.chan k).fsm.state = .off → SameDrive (s.chan k) ((railFault r code data s).chan k)) ∧
    ((s.chan k).fsm.state ≠ .off → k ∈ fedBy r → ((railFault r code data s).chan k).fsm.state = .fault) := by
  unfold railFault
  extract_lets was fromReg left tries s1 s2 s3
  have hs3 : s3 = forList (fedBy r) (fun c s => hardStop c (chanCode c 0x14) [word r] s) s2 := if_pos (by simp [fromReg, was, hreg])
  have hs2 : s2.chan k = s.chan k := (raise_reports _ _ _ _).chan k
  have hend : SameDrive (s3.chan k) ((abortTests (fun t => t.onRail r && t.force) 0xA012 s3).chan k) := (abortTests_steady _ _ s3).1 k
  obtain ⟨hoff, hfault⟩ := forList_hardStop_fault 0x14 [word r] (fedBy r) s2 hk
  rw [← hs3, hs2] at hoff hfault
  exact ⟨fun h => (hoff h).trans hend, fun h hfed => hend.1.trans (hfault h (.inl hfed))⟩

/-- The controller that stops, but for what the end of its tests undoes: its code, and whether it waits for a retry (R343). -/
theorem railFault_own {r : Nat} (hr : r < 12) (code : Nat) (data : List Word) (s : State) :
    ((railFault r code data s).rail r).state =
      (if railRetried code = true ∧ 0 < (if (s.rail r).state = .regulating then s.nat 0x07 r 5 else (s.rail r).retriesLeft) then .retryWait else .fault) ∧
    ((railFault r code data s).rail r).mode = 0 ∧
    ((railFault r code data s).rail r).attempts = (if (s.rail r).state = .regulating then 0 else (s.rail r).attempts) ∧
    ((railFault r code data s).rail r).retriesLeft = (if (s.rail r).state = .regulating then s.nat 0x07 r 5 else (s.rail r).retriesLeft) := by
  have h := railFault_rail r code data s r
  rw [if_pos ⟨rfl, hr⟩] at h
  rw [h]
  simp [Rail.stopped]

/-- A fault stop leaves how every other controller drives. -/
theorem railFault_others {r k : Nat} (code : Nat) (data : List Word) (s : State) (hk : k ≠ r) :
    SameRail (s.rail k) ((railFault r code data s).rail k) := by
  have h := railFault_rail r code data s k
  rwa [if_neg (by simp [hk])] at h

end Sys2Proof.Machine

open Sys2Proof Sys2Proof.Machine

/-- Settles O2: every row leaves the queue, from which a step has taken the front. -/
theorem execLeavesTheQueue : Obligations.ExecLeavesTheQueue := by
  refine ⟨fun _ _ _ => exec_pending, fun s t hstep => ?_⟩
  rcases hqueue : s.pending with _ | ⟨c, q⟩
  · rw [step_idle hqueue] at hstep
    cases hstep
    exact hqueue
  · rw [step, hqueue] at hstep
    exact exec_pending hstep

/-- Settles O5: every row answers a next state. -/
theorem everyCommandAnswersANextState : Obligations.EveryCommandAnswersANextState := by
  intro c s
  obtain ⟨t, hnext, -⟩ := exec_keeps c s
  exact ⟨t, hnext⟩

/-- Settles O1: the two cases of a step are those of its queue. -/
theorem stepRunsTheFrontCommand : Obligations.StepRunsTheFrontCommand := ⟨fun _ _ _ => rfl, fun _ => step_idle⟩

/-- Settles O57: the controller by what it becomes, each channel by its state before the stop. -/
theorem railFaultsStopFedChannels : Obligations.RailFaultsStopFedChannels := by
  intro r code data s hr
  obtain ⟨hstate, -⟩ := railFault_own hr code data s
  refine ⟨railFault_code hr code data s, fun hreg => ?_, fun k _ hk => railFault_others code data s hk, fun c hc => ?_⟩
  · rw [hstate, if_pos hreg]
  · obtain ⟨hlost, hstays⟩ := railFault_chan r code data s hc
    refine ⟨fun h => ?_, fun hreg hfed hoff => ?_, fun hreg hfed hoff hfault hretest => ?_⟩
    · have hsame : SameDrive (s.chan c) ((railFault r code data s).chan c) := by
        by_cases hreg : (s.rail r).state = .regulating
        · rcases h with h | h | h
          · exact absurd hreg h
          · exact (railFault_chan_lost code data hreg hc).1 h
          · exact hstays (.inr fun hmem => h ((mem_fedBy_iff hr hc).mp hmem))
        · exact hstays (.inl hreg)
      exact ⟨hsame.1, hsame.2.1⟩
    · exact (railFault_chan_lost code data hreg hc).2 hoff ((mem_fedBy_iff hr hc).mpr hfed)
    · exact (hlost hreg ((mem_fedBy_iff hr hc).mpr hfed) hoff hfault hretest).2
end

section
/-! PROOFS. A controller from its start to REGULATING: RSYNC as a start meets it, the six checks, the soft start and the retries (R340 to R343, R347,
R351, R352, Tables 13.4 and 13.6). -/

namespace Sys2Proof.Machine

theorem canLog_congr {s t : State} (h : t.keeper = s.keeper) : canLog t = canLog s := by
  unfold canLog
  rw [h]

/-! ### RSYNC as a controller meets it (R351) -/

/-- A controller whose f_ref begins to move from `f`; one that does not switch is at its goal. -/
def Rail.freqMoved (f : Rat) (moving there : Nat) (q : Rail) : Rail :=
  if q.state.gatesOn then { q with sync := moving, cyc := { q.cyc with fFrom := f, moveUs := 0 } } else { q with sync := there }

theorem moveFreq_eq (r moving there : Nat) (s : State) : moveFreq r moving there s = s.modRail r (Rail.freqMoved (fRef s r) moving there) := rfl

/-- A controller that locks to RSYNC: no spread, with its phase offset still to make up. -/
def Rail.synced (f slip : Rat) (q : Rail) : Rail :=
  { q.freqMoved f 1 2 with spread := 0, cyc := { (q.freqMoved f 1 2).cyc with slipDeg := slip } }

/-- From `a` to `b` a controller has met RSYNC, with its own `f_ref`: where it is present and the controller enabled, it locks or is out of range. -/
def SyncMet (present fits : Bool) (f : Rat) (a b : Rail) : Prop :=
  if present = true then
    if fits = true then (if a.sync = 1 ∨ a.sync = 2 then b = a else ∃ slip, b = a.synced f slip) else b = { a with sync := 4 }
  else b = a

/-- What meeting RSYNC changes of a controller at most. -/
def SyncOnly (a b : Rail) : Prop :=
  b = { a with sync := b.sync, spread := b.spread, cyc := { a.cyc with fFrom := b.cyc.fFrom, moveUs := b.cyc.moveUs, slipDeg := b.cyc.slipDeg } } ∧
  (b.spread = a.spread ∨ b.spread = 0)

theorem synced_syncOnly (f slip : Rat) (a : Rail) : SyncOnly a (a.synced f slip) := by
  unfold SyncOnly Rail.synced Rail.freqMoved
  split <;> exact ⟨rfl, .inr rfl⟩

theorem SyncMet.syncOnly {present fits : Bool} {f : Rat} {a b : Rail} (h : SyncMet present fits f a b) : SyncOnly a b := by
  have hsame : SyncOnly a a := ⟨rfl, .inl rfl⟩
  unfold SyncMet at h
  split at h
  · split at h
    · split at h
      · rw [h]
        exact hsame
      · obtain ⟨slip, hb⟩ := h
        rw [hb]
        exact synced_syncOnly f slip a
    · rw [h]
      exact ⟨rfl, .inl rfl⟩
  · rw [h]
    exact hsame

theorem syncMet_stays {present fits : Bool} {f : Rat} {a : Rail} (h : present = true → fits = true → a.sync = 1 ∨ a.sync = 2)
    (hout : present = true → fits = false → a.sync = 4) : SyncMet present fits f a a := by
  unfold SyncMet
  split
  · rename_i hpresent
    split
    · rename_i hfits
      rw [if_pos (h hpresent hfits)]
    · rename_i hfits
      exact congrArg (fun n => ({ a with sync := n } : Rail)) (hout hpresent (Bool.eq_false_iff.mpr hfits))
  · rfl

theorem meetSync_touchesRail (r : Nat) (s : State) : TouchesRail r s (meetSync r s) := by
  unfold meetSync
  extract_lets hz q p
  split
  · exact .rfl' _ _
  split
  · split
    · exact .rfl' _ _
    · have hdrawn : TouchesRail r s p.2 := ⟨rfl, rfl, fun _ _ => rfl⟩
      exact ((hdrawn.trans (modRail_touchesRail _ r _)).trans (modRail_touchesRail _ r _)).trans (raise_touchesRail _ _ _ _ _)
  split
  · exact .rfl' _ _
  · exact (modRail_touchesRail _ r _).trans (raise_touchesRail _ _ _ _ _)

theorem meetSync_met {r : Nat} (hr : r < 12) (s : State) :
    SyncMet (s.misc.rsync && s.flag 0x07 r 0) (syncFits s r s.misc.rsyncHz) (fRef s r) (s.rail r) ((meetSync r s).rail r) := by
  unfold meetSync
  extract_lets hz q p
  split
  · rename_i habsent
    have hpresent : (s.misc.rsync && s.flag 0x07 r 0) = false := by simpa [← Bool.not_and] using habsent
    exact syncMet_stays (by simp [hpresent]) (by simp [hpresent])
  · rename_i habsent
    have hpresent : (s.misc.rsync && s.flag 0x07 r 0) = true := by simpa using habsent
    split
    · rename_i hfits
      split
      · rename_i hlocked
        exact syncMet_stays (fun _ _ => hlocked) fun _ hno => by rw [hfits] at hno; cases hno
      · rename_i hfree
        rw [(raise_reports _ _ _ _).rail, rail_modRail_self _ _ hr, moveFreq_eq, rail_modRail_self _ _ hr, SyncMet, if_pos hpresent, if_pos hfits,
          if_neg hfree]
        exact ⟨_, rfl⟩
    · rename_i hfits
      have hout : syncFits s r s.misc.rsyncHz = false := Bool.eq_false_iff.mpr hfits
      split
      · rename_i hfour
        exact syncMet_stays (fun _ hyes => absurd hyes (by simp [hout])) fun _ _ => hfour
      · rw [(raise_reports _ _ _ _).rail, rail_modRail_self _ _ hr, SyncMet, if_pos hpresent, if_neg (by simp [hout])]

/-! ### A start begins (R340, R352) -/

/-- A controller that a start has brought to CHECK: its number in the episode, the retries left after it, the times of Table 5.5 and the seed of
its spread register. -/
def Rail.Begun (q : Rail) (r attempts left : Nat) (softMs : Rat) (retryMs : Nat) : Prop :=
  q.state = .check ∧ q.check = 0 ∧ q.attempts = attempts ∧ q.retriesLeft = left ∧ q.lfsr = r + 1 ∧ q.spread = 0 ∧ q.code = 0 ∧ q.due = false ∧
  q.cyc.softMs = softMs ∧ q.cyc.retryMs = retryMs

theorem Rail.Begun.synced {q t : Rail} {r attempts left retryMs : Nat} {softMs : Rat} (h : q.Begun r attempts left softMs retryMs) (k : SyncOnly q t) :
    t.Begun r attempts left softMs retryMs := by
  obtain ⟨hstate, hcheck, htries, hleft, hseed, hspread, hcode, hdue, hsoft, hretry⟩ := h
  obtain ⟨heq, hkept⟩ := k
  have hzero : t.spread = 0 := hkept.elim (·.trans hspread) id
  rw [heq]
  exact ⟨hstate, hcheck, htries, hleft, hseed, hzero, hcode, hdue, hsoft, hretry⟩

theorem Rail.Begun.ceiling {q t : Rail} {r attempts left retryMs : Nat} {softMs : Rat} (h : q.Begun r attempts left softMs retryMs) (k : RowOnly q t) :
    t.Begun r attempts left softMs retryMs := by
  rw [k]
  exact h

/-- A start begins, whatever RSYNC and the ceilings then make of the controller. -/
theorem railBegin_begins {r : Nat} (hr : r < 12) (attempts left : Nat) (s : State) : TouchesRail r s (railBegin r attempts left s) ∧
    ((railBegin r attempts left s).rail r).Begun r attempts left (s.ratv 0x07 r 4) (s.nat 0x07 r 6) := by
  unfold railBegin
  extract_lets old s1
  have hbegun : (s1.rail r).Begun r attempts left (s.ratv 0x07 r 4) (s.nat 0x07 r 6) := by
    rw [rail_modRail_self _ _ hr]
    exact ⟨rfl, rfl, rfl, rfl, rfl, rfl, rfl, rfl, rfl, rfl⟩
  have htouch := meetSync_touchesRail r (s1.life (railStat r 0x042) 1)
  have hmet := meetSync_met hr (s1.life (railStat r 0x042) 1)
  have hown : TouchesRail r s s1 := modRail_touchesRail s r _
  exact ⟨((hown.trans (life_touchesRail _ _ _ _)).trans htouch).trans (ceilingChanged_rail r old _).1,
    (hbegun.synced hmet.syncOnly).ceiling (ceilingChanged_rowOnly r old _ r)⟩

theorem exec_railStart_due {rc : Nat} {s : State} (hdue : (s.rail rc).due = true) (huntested : (s.rail rc).test = 0)
    (hstate : (s.rail rc).state = .off ∨ (s.rail rc).state = .fault ∨ (s.rail rc).state = .retryWait) (hmay : railMayStart s rc = true) :
    exec (.railStart rc) s = .next (railBegin rc 1 (s.nat 0x07 rc 5) s) := by
  have hrests : ((s.rail rc).state == .off || (s.rail rc).state == .fault || (s.rail rc).state == .retryWait) = true := by
    rcases hstate with h | h | h <;> simp [h]
  exact if_pos (by rw [hdue, huntested, hrests, hmay]; rfl)

/-- The last retry has failed: RC_START_FAILED takes the place of the code (R343). -/
def startFailed (rc : Nat) (s : State) : State :=
  ((s.modRail rc fun q => { q with code := 0x7005 }).life (railStat rc 0x043) 1).raise 0x7005 rc [word (s.rail rc).code]

theorem exec_railRetry_spent {rc : Nat} {s : State} (hruns : s.keeper.halted = false) (hstate : (s.rail rc).state = .fault)
    (hcode : railRetried (s.rail rc).code = true) (hnone : (s.rail rc).retriesLeft = 0) : exec (.railRetry rc) s = .next (startFailed rc s) := by
  show execRailRetry rc s = _
  unfold execRailRetry
  dsimp only
  rw [if_neg (by simp [hstate]), if_pos (by simp [hruns, hstate, hcode, hnone])]
  rfl

theorem startFailed_touchesRail (rc : Nat) (s : State) : TouchesRail rc s (startFailed rc s) :=
  ((modRail_touchesRail s rc _).trans (life_touchesRail _ _ _ _)).trans (raise_touchesRail _ _ _ _ _)

theorem startFailed_rail {rc : Nat} (hrc : rc < 12) (s : State) : (startFailed rc s).rail rc = { s.rail rc with code := 0x7005 } := by
  unfold startFailed
  rw [(raise_reports _ _ _ _).rail, rail_life, rail_modRail_self _ _ hrc]

/-! ### A phase fails (R347, R348) -/

/-- A controller with a phase marked as failed: open, or with a sense error. -/
def Rail.phaseMarked (b open_ : Bool) (q : Rail) : Rail :=
  if b then { q with bOpen := q.bOpen || open_, bSense := q.bSense || !open_, chargingB := false, blockedB := false }
  else { q with aOpen := q.aOpen || open_, aSense := q.aSense || !open_, chargingA := false, blockedA := false }

/-- The failure of a phase is marked, raised and counted. -/
def phaseNoted (r : Nat) (b open_ : Bool) (data : List Word) (s : State) : State :=
  ((s.modRail r (Rail.phaseMarked b open_)).raise (if open_ then 0x7006 else 0x7007) r data).life (railStat r 0x046) 1

theorem phaseNoted_touchesRail (r : Nat) (b open_ : Bool) (data : List Word) (s : State) : TouchesRail r s (phaseNoted r b open_ data s) :=
  ((modRail_touchesRail s r _).trans (raise_touchesRail _ _ _ _ _)).trans (life_touchesRail _ _ _ _)

theorem phaseNoted_rail {r : Nat} (hr : r < 12) (b open_ : Bool) (data : List Word) (s : State) :
    (phaseNoted r b open_ data s).rail r = (s.rail r).phaseMarked b open_ := by
  unfold phaseNoted
  rw [rail_life, (raise_reports _ _ _ _).rail, rail_modRail_self _ _ hr]

theorem phaseMarked_state (b open_ : Bool) (q : Rail) : (q.phaseMarked b open_).state = q.state := by
  cases b <;> rfl

/-- The second phase that fails stops the controller. -/
theorem phaseFail_both {r : Nat} {b : Bool} {s : State} (hother : (if b then (s.rail r).failedA else (s.rail r).failedB) = true) (open_ : Bool)
    (data : List Word) : phaseFail r b open_ data s =
      railFault r 0x7008 [word (if open_ then 0x7006 else 0x7007)] (phaseNoted r b open_ data s) := if_pos hother

theorem phaseFail_one {r : Nat} {b : Bool} {s : State} (hother : (if b then (s.rail r).failedA else (s.rail r).failedB) = false) (open_ : Bool)
    (data : List Word) : phaseFail r b open_ data s = ceilingChanged r (cEffRail s r)
      ((phaseNoted r b open_ data s).modRail r fun q => { q with dFaultRail := 1 }) :=
  if_neg (by rw [hother]; simp)

/-- A code that has been raised stands while a controller reports its ceiling. -/
theorem raised_ceilingChanged {code inst : Nat} {data : List Word} (r old : Nat) {s t : State} (hlog : t.log = (s.raise code inst data).log)
    (hcan : canLog t = canLog s) (hne : code ≠ 0x7012) : Raised code inst data s (ceilingChanged r old t) := by
  have hraised : Raised code inst data s t := (raise_raised code inst data s).to_log hlog
  unfold ceilingChanged
  extract_lets q new s1
  have hs1 : s1.log = t.log ∧ canLog s1 = canLog t := by
    unfold s1
    split <;> exact ⟨rfl, rfl⟩
  split
  · exact hraised
  · split
    · exact raised_raise _ (hs1.1.trans hlog) (hs1.2.trans hcan) fun h => hne (congrArg Prod.fst h)
    · exact hraised.to_log hs1.1

/-- The first phase that fails is disabled, and only the ceiling follows. -/
theorem phaseFail_one_effects {r : Nat} (hr : r < 12) {b : Bool} {s : State}
    (hother : (if b then (s.rail r).failedA else (s.rail r).failedB) = false) (open_ : Bool) (data : List Word) :
    TouchesRail r s (phaseFail r b open_ data s) ∧
    RowOnly { (s.rail r).phaseMarked b open_ with dFaultRail := 1 } ((phaseFail r b open_ data s).rail r) ∧
    Raised (if open_ then 0x7006 else 0x7007) r data s (phaseFail r b open_ data s) := by
  rw [phaseFail_one hother]
  refine ⟨((phaseNoted_touchesRail r b open_ data s).trans (modRail_touchesRail _ r _)).trans (ceilingChanged_rail r _ _).1, ?_, ?_⟩
  · have hrow := ceilingChanged_rowOnly r (cEffRail s r) ((phaseNoted r b open_ data s).modRail r fun q => { q with dFaultRail := 1 }) r
    rwa [rail_modRail_self _ _ hr, phaseNoted_rail hr] at hrow
  · have hmarked : Raised (if open_ then 0x7006 else 0x7007) r data (s.modRail r (Rail.phaseMarked b open_)) _ :=
      raised_ceilingChanged r (cEffRail s r) (t := (phaseNoted r b open_ data s).modRail r fun q => { q with dFaultRail := 1 }) rfl
        (canLog_congr (raise_reports _ _ _ _).keeper) (by cases open_ <;> decide)
    exact hmarked.of_log rfl rfl

/-- The second phase that fails stops the controller with RC_BOTH_PHASES; the other controllers drive on. -/
theorem phaseFail_both_effects {r : Nat} (hr : r < 12) {b : Bool} {s : State}
    (hother : (if b then (s.rail r).failedA else (s.rail r).failedB) = true) (open_ : Bool) (data : List Word) :
    Touches s (phaseFail r b open_ data s) ∧ ((phaseFail r b open_ data s).rail r).state = .fault ∧
    ((phaseFail r b open_ data s).rail r).code = 0x7008 ∧ ∀ k, k ≠ r → SameRail (s.rail k) ((phaseFail r b open_ data s).rail k) := by
  rw [phaseFail_both hother]
  obtain ⟨htouch, -, hothers⟩ := phaseNoted_touchesRail r b open_ data s
  obtain ⟨hstate, -⟩ := railFault_own hr 0x7008 [word (if open_ then 0x7006 else 0x7007)] (phaseNoted r b open_ data s)
  refine ⟨htouch.trans (railFault_touches _ _ _ _), hstate.trans (if_neg (by simp [railRetried])), railFault_code hr _ _ _, fun k hk => ?_⟩
  rw [← hothers k hk]
  exact railFault_others _ _ _ hk

/-! ### The six checks and the soft start (R341, R342, Table 13.4) -/

/-- Checks 1 and 4 look for a shorted high-side switch. -/
theorem exec_railPrecheck_short {rc n : Nat} (isx vis vos rise : Rat) {s : State} (hstate : (s.rail rc).state = .check)
    (hcheck : (s.rail rc).check = n) (hn : n = 1 ∨ n = 4) : exec (.railPrecheck rc isx vis vos rise) s = .next (
      if 1 ≤ isx then railFault rc 0x7001 [phaseWord (decide (3 < n)), hsSwitch isx vis vos, wordU (1000 * isx)]
        (s.modRail rc fun q => { q with ntcOn := true })
      else nextCheck rc n vos s) := by
  have hnone : (if (s.rail rc).check = 0 then 1 else (s.rail rc).check) = n := by rw [hcheck, if_neg (by omega)]
  show execRailPrecheck rc isx vis vos rise s = _
  unfold execRailPrecheck
  dsimp only
  rw [if_neg (by simp [railTested, hstate]), if_pos (by simp [hstate, hcheck]; omega), hnone, if_pos hn]

/-- Checks 2 and 5 look for a shorted low-side switch. -/
theorem exec_railPrecheck_low {rc n : Nat} (isx vis vos rise : Rat) {s : State} (hstate : (s.rail rc).state = .check)
    (hcheck : (s.rail rc).check = n) (hn : n = 2 ∨ n = 5) : exec (.railPrecheck rc isx vis vos rise) s = .next (
      if isx < 4/10 then railFault rc 0x7002 [phaseWord (decide (3 < n)), wordU (1000 * isx), phaseWord (decide (vos < 4/10))] s
      else nextCheck rc n vos s) := by
  have hnone : (if (s.rail rc).check = 0 then 1 else (s.rail rc).check) = n := by rw [hcheck, if_neg (by omega)]
  show execRailPrecheck rc isx vis vos rise s = _
  unfold execRailPrecheck
  dsimp only
  rw [if_neg (by simp [railTested, hstate]), if_pos (by simp [hstate, hcheck]; omega), hnone, if_neg (by omega), if_pos hn]

/-- The phase of check 3 or 6, its number and the number of the check. -/
def checkOf (b : Bool) : Nat := if b then 6 else 3

theorem checkOf_true : checkOf true = 6 := rfl
theorem checkOf_false : checkOf false = 3 := rfl

/-- A controller with the inductance of a phase. -/
def Rail.withHenry (b : Bool) (l : Rat) (q : Rail) : Rail := if b then { q with lB := l } else { q with lA := l }

/-- A phase that fails its check is disabled, and the checks go on unless it was the second one. -/
def phaseChecked (rc : Nat) (b : Bool) (vos rise : Rat) (s : State) : State :=
  let s1 := phaseFail rc b true [phaseWord b, if b then currentsWord 0 rise else currentsWord rise 0, 1] s
  if (s1.rail rc).state = .check then nextCheck rc (checkOf b) vos s1 else s1

/-- Checks 3 and 6 measure the inductance of a phase. -/
theorem exec_railPrecheck_rise {rc : Nat} {b : Bool} (isx vis vos rise : Rat) {s : State} (hstate : (s.rail rc).state = .check)
    (hcheck : (s.rail rc).check = checkOf b) : exec (.railPrecheck rc isx vis vos rise) s = .next (
      if rise < (s.rail rc).iLim / 50 then phaseChecked rc b vos rise s
      else nextCheck rc (checkOf b) vos (s.modRail rc (Rail.withHenry b (vis * (4/10) / rise)))) := by
  have hnone : (if (s.rail rc).check = 0 then 1 else (s.rail rc).check) = checkOf b := by cases b <;> simp [hcheck, checkOf]
  show execRailPrecheck rc isx vis vos rise s = _
  unfold execRailPrecheck
  dsimp only
  rw [if_neg (by simp [railTested, hstate]), if_pos (by cases b <;> simp [hstate, hcheck, checkOf]), hnone, if_neg (by cases b <;> decide),
    if_neg (by cases b <;> decide)]
  split <;> cases b <;> rfl

/-- A check that is passed leads to the next one. -/
theorem nextCheck_early {r n : Nat} (hr : r < 12) (hn : n < 6) (vPre : Rat) (s : State) : TouchesRail r s (nextCheck r n vPre s) ∧
    (nextCheck r n vPre s).rail r = { s.rail r with check := n + 1, ntcOn := true } := by
  rw [nextCheck, if_pos hn]
  exact ⟨modRail_touchesRail s r _, rail_modRail_self s _ hr⟩

/-- The sixth check leads to SOFT_START. -/
theorem nextCheck_last {r : Nat} (hr : r < 12) (vPre : Rat) (s : State) : TouchesRail r s (nextCheck r 6 vPre s) ∧
    (nextCheck r 6 vPre s).rail r = { s.rail r with
      state := .softStart, check := 0, ref := vPre, target := (s.rail r).setpoint 0, row := 0, rising := decide (vPre < (s.rail r).setpoint 0)
      cyc := { (s.rail r).cyc with vPre := vPre } } := by
  rw [nextCheck, if_neg (by omega)]
  exact ⟨modRail_touchesRail s r _, rail_modRail_self s _ hr⟩

theorem nextCheck_log (r n : Nat) (vPre : Rat) (s : State) : (nextCheck r n vPre s).log = s.log := by
  unfold nextCheck
  split <;> rfl

theorem nextCheck_touchesRail (r n : Nat) (vPre : Rat) (s : State) : TouchesRail r s (nextCheck r n vPre s) := by
  unfold nextCheck
  split <;> exact modRail_touchesRail s r _

/-- Where a check leads on its controller. -/
theorem nextCheck_checkOf {r : Nat} (hr : r < 12) (b : Bool) (vPre : Rat) {s : State} (hstate : (s.rail r).state = .check) :
    ((nextCheck r (checkOf b) vPre s).rail r).state = (if b then .softStart else .check) ∧
    ((nextCheck r (checkOf b) vPre s).rail r).dFaultRail = (s.rail r).dFaultRail ∧
    ((nextCheck r (checkOf b) vPre s).rail r).bOpen = (s.rail r).bOpen ∧ ((nextCheck r (checkOf b) vPre s).rail r).aOpen = (s.rail r).aOpen := by
  cases b
  · rw [checkOf_false, (nextCheck_early hr (by omega) vPre s).2]
    exact ⟨hstate, rfl, rfl, rfl⟩
  · rw [checkOf_true, (nextCheck_last hr vPre s).2]
    exact ⟨rfl, rfl, rfl, rfl⟩

/-- A first phase that fails its check. -/
theorem phaseChecked_one {rc : Nat} (hrc : rc < 12) {b : Bool} (vos rise : Rat) {s : State} (hstate : (s.rail rc).state = .check)
    (hother : (if b then (s.rail rc).failedA else (s.rail rc).failedB) = false) : TouchesRail rc s (phaseChecked rc b vos rise s) ∧
    ((phaseChecked rc b vos rise s).rail rc).state = (if b then .softStart else .check) ∧ ((phaseChecked rc b vos rise s).rail rc).dFaultRail = 1 ∧
    (if b then ((phaseChecked rc b vos rise s).rail rc).bOpen else ((phaseChecked rc b vos rise s).rail rc).aOpen) = true ∧
    Raised 0x7006 rc [phaseWord b, if b then currentsWord 0 rise else currentsWord rise 0, 1] s (phaseChecked rc b vos rise s) := by
  unfold phaseChecked
  extract_lets s1
  obtain ⟨htouch, hrow, hraised⟩ := phaseFail_one_effects hrc hother true [phaseWord b, if b then currentsWord 0 rise else currentsWord rise 0, 1]
  have hgoes : (s1.rail rc).state = .check ∧ (s1.rail rc).dFaultRail = 1 ∧ (if b then (s1.rail rc).bOpen else (s1.rail rc).aOpen) = true := by
    unfold s1
    rw [hrow]
    exact ⟨(phaseMarked_state b true _).trans hstate, rfl, by cases b <;> simp [Rail.phaseMarked]⟩
  obtain ⟨hcheck, hfault, hopen⟩ := hgoes
  obtain ⟨nstate, nfault, nB, nA⟩ := nextCheck_checkOf hrc b vos hcheck
  rw [if_pos hcheck, nstate, nfault, nB, nA]
  exact ⟨htouch.trans (nextCheck_touchesRail rc _ vos s1), rfl, hfault, hopen, hraised.to_log (nextCheck_log rc _ vos s1)⟩

/-- A second phase that fails its check. -/
theorem phaseChecked_both {rc : Nat} (hrc : rc < 12) {b : Bool} (vos rise : Rat) {s : State}
    (hother : (if b then (s.rail rc).failedA else (s.rail rc).failedB) = true) : Touches s (phaseChecked rc b vos rise s) ∧
    ((phaseChecked rc b vos rise s).rail rc).state = .fault ∧ ((phaseChecked rc b vos rise s).rail rc).code = 0x7008 := by
  unfold phaseChecked
  extract_lets s1
  obtain ⟨htouch, hstate, hcode, -⟩ := phaseFail_both_effects hrc hother true [phaseWord b, if b then currentsWord 0 rise else currentsWord rise 0, 1]
  rw [if_neg (by rw [show (s1.rail rc).state = .fault from hstate]; decide)]
  exact ⟨htouch, hstate, hcode⟩

/-- REGULATING begins at row 0 with the reference at its setpoint. -/
def regulates (rc : Nat) (s : State) : State := s.modRail rc fun q => { q with
  state := .regulating, ref := (s.rail rc).setpoint 0, target := (s.rail rc).setpoint 0, row := 0, rows := [], sent := 0, rising := false
  vPlan := (s.rail rc).setpoint 0, plan := [] }

theorem exec_railRegulating {rc : Nat} {v ms : Rat} {s : State} (hstate : (s.rail rc).state = .softStart)
    (hgoes : (s.rail rc).stopReq = false) (href : (s.rail rc).ref = (s.rail rc).setpoint 0) (htime : rampMs s rc + 1 ≤ ms)
    (hrail : absRat (v - (s.rail rc).setpoint 0) ≤ (s.rail rc).setpoint 0 * 3/100) :
    exec (.railRegulating rc v ms) s = .next (regulates rc s) :=
  if_pos (by simp [hstate, hgoes, href, htime, hrail])

/-- A fault stop during the soft start: it waits for a retry where its code is retried and one is left (R343). -/
theorem railFault_starting {r code : Nat} (hr : r < 12) (data : List Word) {s : State} (hstart : (s.rail r).state ≠ .regulating) :
    Touches s (railFault r code data s) ∧ ((railFault r code data s).rail r).state =
      (if railRetried code = true ∧ 0 < (s.rail r).retriesLeft then .retryWait else .fault) ∧ ((railFault r code data s).rail r).code = code ∧
    ∀ k, k ≠ r → SameRail (s.rail k) ((railFault r code data s).rail k) := by
  obtain ⟨hstate, -⟩ := railFault_own hr code data s
  rw [if_neg hstart] at hstate
  exact ⟨railFault_touches r code data s, hstate, railFault_code hr code data s, fun k hk => railFault_others code data s hk⟩

end Sys2Proof.Machine

open Sys2Proof Sys2Proof.Machine

/-- Settles O30: the starts by what they leave of their controller, each check by what it finds, the fault stops by the retries left. The data words of
PHASE_OPEN in checks 3 and 6 are the model's reading (log entry 36). -/
theorem railStartRows : Obligations.RailStartRows := by
  intro s rc hrc
  refine ⟨fun hdue huntested hstate hmay => ?start, fun hstate hmay hwaited => ?retry,
    fun hruns hstate hcode hnone => ⟨_, exec_railRetry_spent hruns hstate hcode hnone, startFailed_touchesRail rc s, startFailed_rail hrc s,
      (raise_raised _ _ _ _).of_log rfl rfl⟩,
    fun v hlow hhigh hstate hcheck => ⟨_, exec_vinEntersRange hlow hhigh hstate hcheck, modRail_touchesRail s rc _, rail_modRail_self s _ hrc, rfl⟩,
    fun isx vis vos rise hstate hcheck => ?short, fun isx vis vos rise hstate hcheck => ?low, fun isx vis vos rise hstate hcheck hgood => ?last,
    fun isx vis vos rise hstate hcheck hgood => ?third, fun isx vis vos rise b hstate hcheck hbad hother => ?opens,
    fun isx vis vos rise hstate hcheck hbad hother => ?both, fun v ms hstate hgoes href htime hrail => ?regulates, fun v ms hstate htime hlow => ?startShort,
    fun v ms hstate htime => ?startTimeout⟩
  case start =>
    obtain ⟨htouch, tstate, tcheck, ttries, tleft, tseed, -, tcode, tdue, tsoft, tretry⟩ := railBegin_begins hrc 1 (s.nat 0x07 rc 5) s
    exact ⟨_, exec_railStart_due hdue huntested hstate hmay, htouch, tstate, tcheck, ttries, tleft, tseed, tcode, tdue, tsoft, tretry⟩
  case retry =>
    obtain ⟨htouch, tstate, -, ttries, tleft, tseed, tspread, -⟩ := railBegin_begins hrc ((s.rail rc).attempts + 1) ((s.rail rc).retriesLeft - 1) s
    exact ⟨_, exec_railRetry_waited hstate hmay hwaited, htouch, tstate, ttries, tleft, tseed, tspread⟩
  case short =>
    refine ⟨_, exec_railPrecheck_short isx vis vos rise hstate rfl hcheck, fun hgood => ?_, fun hbad => ?_⟩
    · rw [if_neg (not_le.mpr hgood)]
      obtain ⟨htouch, hrail⟩ := nextCheck_early hrc (n := (s.rail rc).check) (by omega) vos s
      exact ⟨htouch, by rw [hrail]; exact hstate, by rw [hrail]⟩
    · have hwas : ((s.modRail rc fun q => { q with ntcOn := true }).rail rc).state = .check := by rw [rail_modRail_self _ _ hrc]; exact hstate
      obtain ⟨htouch, tstate, tcode, tothers⟩ := railFault_starting (code := 0x7001) hrc
        [phaseWord (decide (3 < (s.rail rc).check)), hsSwitch isx vis vos, wordU (1000 * isx)] (by rw [hwas]; decide)
      rw [if_pos hbad]
      refine ⟨(modRail_touches s rc _).trans htouch, tstate.trans (if_neg (by simp [railRetried])), tcode, fun k hk => ?_⟩
      have hother := tothers k hk
      rwa [rail_modRail_other _ _ hk] at hother
  case low =>
    refine ⟨_, exec_railPrecheck_low isx vis vos rise hstate rfl hcheck, fun hgood => ?_, fun hbad => ?_⟩
    · rw [if_neg (not_lt.mpr hgood)]
      obtain ⟨htouch, hrail⟩ := nextCheck_early hrc (n := (s.rail rc).check) (by omega) vos s
      exact ⟨htouch, by rw [hrail]; exact hstate, by rw [hrail]⟩
    · obtain ⟨htouch, tstate, tcode, tothers⟩ := railFault_starting (code := 0x7002) hrc
        [phaseWord (decide (3 < (s.rail rc).check)), wordU (1000 * isx), phaseWord (decide (vos < 4/10))] (s := s) (by rw [hstate]; decide)
      rw [if_pos hbad]
      exact ⟨htouch, tstate.trans (if_neg (by simp [railRetried])), tcode, tothers⟩
  case last =>
    have hnext := exec_railPrecheck_rise (b := true) isx vis vos rise hstate hcheck
    obtain ⟨htouch, hrail⟩ := nextCheck_last hrc vos (s.modRail rc (Rail.withHenry true (vis * (4/10) / rise)))
    rw [if_neg (not_lt.mpr hgood), checkOf_true] at hnext
    rw [rail_modRail_self _ _ hrc] at hrail
    exact ⟨_, hnext, (modRail_touchesRail s rc _).trans htouch, by rw [hrail], by rw [hrail], by rw [hrail]; rfl, by rw [hrail], by rw [hrail]; rfl⟩
  case third =>
    have hnext := exec_railPrecheck_rise (b := false) isx vis vos rise hstate hcheck
    obtain ⟨htouch, hrail⟩ := nextCheck_early hrc (n := 3) (by omega) vos (s.modRail rc (Rail.withHenry false (vis * (4/10) / rise)))
    rw [if_neg (not_lt.mpr hgood), checkOf_false] at hnext
    rw [rail_modRail_self _ _ hrc] at hrail
    exact ⟨_, hnext, (modRail_touchesRail s rc _).trans htouch, by rw [hrail]; exact hstate, by rw [hrail], by rw [hrail]; rfl⟩
  case opens =>
    have hnext := exec_railPrecheck_rise (b := b) isx vis vos rise hstate hcheck
    rw [if_pos hbad] at hnext
    exact ⟨_, hnext, phaseChecked_one hrc vos rise hstate hother⟩
  case both =>
    have hnext := exec_railPrecheck_rise (b := true) isx vis vos rise hstate hcheck
    rw [if_pos hbad] at hnext
    exact ⟨_, hnext, phaseChecked_both hrc vos rise hother⟩
  case regulates =>
    refine ⟨_, exec_railRegulating hstate hgoes href htime hrail, modRail_touchesRail s rc _, ?_⟩
    rw [regulates, rail_modRail_self _ _ hrc]
    exact ⟨rfl, rfl, rfl, rfl⟩
  case startShort =>
    obtain ⟨htouch, tstate, tcode, tothers⟩ := railFault_starting (code := 0x7003) hrc (startData (s.rail rc) v) (s := s) (by rw [hstate]; decide)
    exact ⟨_, exec_startShort hstate htime hlow, htouch, by simpa [railRetried] using tstate, tcode, tothers⟩
  case startTimeout =>
    obtain ⟨htouch, tstate, tcode, tothers⟩ := railFault_starting (code := 0x7004) hrc (startData (s.rail rc) v) (s := s) (by rw [hstate]; decide)
    exact ⟨_, exec_startTimeout v hstate htime, htouch, by simpa [railRetried] using tstate, tcode, tothers⟩
end

section
/-! PROOFS. A controller whose gates are on: its charging intervals and their limits, sags, over-voltage, stops and failed phases (R331 to R333, R344,
R345, R347, R348, Tables 13.1 and 13.7). -/

namespace Sys2Proof.Machine

/-! ### Charging intervals (R331 to R333) -/

theorem clampRat_bounds {lo hi : Rat} (h : lo ≤ hi) (x : Rat) : lo ≤ clampRat lo hi x ∧ clampRat lo hi x ≤ hi := by
  unfold clampRat
  split_ifs with hlow hhigh
  · exact ⟨le_refl lo, h⟩
  · exact ⟨h, le_refl hi⟩
  · exact ⟨not_lt.mp hlow, not_lt.mp hhigh⟩

theorem steerBy_bounds {bound : Rat} (h : 0 ≤ bound) (old diff amount : Rat) :
    -bound ≤ steerBy bound old diff amount ∧ steerBy bound old diff amount ≤ bound :=
  clampRat_bounds (by linarith) _

/-- The phase whose turn it is: the healthy one where one has failed, else the next (R348). -/
theorem turn_eq {q : Rail} {b : Bool} (h : if b then q.failedA = true ∨ (q.failedB = false ∧ q.turnB = true)
    else q.failedA = false ∧ (q.failedB = true ∨ q.turnB = false)) : q.turn = b := by
  unfold Rail.turn
  cases b
  · obtain ⟨hA, hB⟩ : q.failedA = false ∧ (q.failedB = true ∨ q.turnB = false) := h
    rw [if_neg (by simp [hA])]
    rcases hB with hB | hB <;> simp [hB]
  · rcases (h : q.failedA = true ∨ (q.failedB = false ∧ q.turnB = true)) with hA | ⟨hB, hnext⟩
    · rw [if_pos hA]
    · simp [hB, hnext]

/-- A cycle that goes by, or none, leaves the outer integrator, the on-times and the charging phases. -/
theorem cyclePast_keeps (p : Prop) [Decidable p] (hz : Rat) (q : Rail) :
    (if p then q else cyclePast hz q).cyc.outer = q.cyc.outer ∧ (if p then q else cyclePast hz q).cyc.tOn = q.cyc.tOn ∧
    (if p then q else cyclePast hz q).chargingA = q.chargingA ∧ (if p then q else cyclePast hz q).chargingB = q.chargingB := by
  split <;> exact ⟨rfl, rfl, rfl, rfl⟩

/-- What a trigger makes of its controller: the next phase charges in the mode of V_ref/V_in, for the on-time of Table 13.2, and the error joins the
outer integrator. -/
def Rail.Charges (q t : Rail) (b : Bool) (vIn v sinceNs hz : Rat) : Prop :=
  t.cyc.outer = q.cyc.outer + 2 * piR * 2000 * (q.ref - v) * sinceNs / 1000000000 ∧ t.mode = railMode q.mode (q.ref / vIn) ∧ t.turnB = !b ∧
  t.chargingA = (!b || q.chargingA) ∧ t.chargingB = (b || q.chargingB) ∧
  ∃ k trim : Rat, -15/100 ≤ k ∧ k ≤ 15/100 ∧ -10/100 ≤ trim ∧ trim ≤ 10/100 ∧
    t.cyc.tOn = q.cyc.tOn.set (bit b 0) (onTimeNs t.mode k trim q.ref vIn hz)

theorem exec_railChargeStart_charges {rc : Nat} (hrc : rc < 12) {b : Bool} {vIn v i offNs sinceNs : Rat} {s : State} (hturn : (s.rail rc).turn = b)
    (htrigger : railTrigger (s.rail rc) b v offNs sinceNs = true) (hgates : (s.rail rc).state.gatesOn = true) (hvin : 0 < vIn) (hfreq : 0 < fRef s rc)
    (hheld : (if b then (s.rail rc).blockedB else (s.rail rc).blockedA) = true → i < (s.rail rc).iLim * 9/10) (hoff : 150 ≤ offNs) :
    ∃ t, exec (.railChargeStart rc vIn v i offNs sinceNs) s = .next t ∧ TouchesRail rc s t ∧ t.log = s.log ∧
      (s.rail rc).Charges (t.rail rc) b vIn v sinceNs (fRef s rc) := by
  have hfree : ((if b then (s.rail rc).blockedB else (s.rail rc).blockedA) && decide ((s.rail rc).iLim * 9/10 ≤ i)) = false := by
    by_cases hblocked : (if b then (s.rail rc).blockedB else (s.rail rc).blockedA) = true
    · simp [not_le.mpr (hheld hblocked)]
    · simp [hblocked]
  show ∃ t, execRailChargeStart rc vIn v i offNs sinceNs s = .next t ∧ _
  unfold execRailChargeStart
  extract_lets q b' held mode hz k t g ph mean kv tv inj pp
  have hb' : b' = b := hturn
  have hheld' : held = false := by unfold held; rw [hb']; exact hfree
  have hstarts : (railTrigger q b' v offNs sinceNs && q.state.gatesOn && decide (0 < vIn) && decide (0 < fRef s rc) && !held && decide (150 ≤ offNs)) = true := by
    rw [hb', hheld', show railTrigger q b v offNs sinceNs = true from htrigger, show q.state.gatesOn = true from hgates]
    simp [hvin, hfreq, hoff]
  have hdrawn : TouchesRail rc s g.2 := ⟨rfl, rfl, fun _ _ => rfl⟩
  obtain ⟨hk, hk'⟩ : -(15/100) ≤ kv ∧ kv ≤ 15/100 := steerBy_bounds (by norm_num) _ _ _
  obtain ⟨ht, ht'⟩ : -(10/100) ≤ tv ∧ tv ≤ 10/100 := steerBy_bounds (by norm_num) _ _ _
  rw [if_pos hstarts]
  refine ⟨_, rfl, hdrawn.trans (modRail_touchesRail _ rc _), rfl, ?_⟩
  rw [rail_modRail_self _ _ hrc, show g.2.rail rc = q from rfl]
  obtain ⟨houter, hon, hA, hB⟩ := cyclePast_keeps ((b' && !q.failedA) = true) hz q
  have hph : ph = bit b 0 := by unfold ph; rw [hb']
  dsimp only
  generalize (if b' && !q.failedA then q else cyclePast hz q) = q1 at houter hon hA hB ⊢
  rw [hb', houter, hon]
  cases b
  · exact ⟨rfl, rfl, rfl, rfl, hB, kv, tv, by linarith, hk', by linarith, ht', by rw [hph]; rfl⟩
  · exact ⟨rfl, rfl, rfl, hA, rfl, kv, tv, by linarith, hk', by linarith, ht', by rw [hph]; rfl⟩

/-- No charging interval starts without the trigger, or less than 150 ns after the phase's last one (R332). -/
theorem exec_railChargeStart_idle {rc : Nat} (vIn : Rat) {v : Rat} (i : Rat) {offNs sinceNs : Rat} {s : State}
    (h : offNs < 150 ∨ railTrigger (s.rail rc) (s.rail rc).turn v offNs sinceNs = false) : exec (.railChargeStart rc vIn v i offNs sinceNs) s = .next s := by
  refine if_neg ?_
  rcases h with h | h
  · simp [not_le.mpr h]
  · simp [h]

/-! ### Limits and sags (R344) -/

/-- A limited phase: its charging interval has ended, and the next one waits. -/
def Rail.limited (b : Bool) (q : Rail) : Rail :=
  if b then { q with chargingB := false, blockedB := true, limTotal := q.limTotal + 1 }
  else { q with chargingA := false, blockedA := true, limTotal := q.limTotal + 1 }

/-- The limit trips a phase: the trip is counted, every thousandth also for the lifetime. -/
def limitTripped (rc : Nat) (b : Bool) (s : State) : State :=
  let s1 := (s.modRail rc (Rail.limited b)).count (railStat rc 0x019) 1
  if ((s.rail rc).limTotal + 1) % 1000 = 0 then s1.life (railStat rc 0x044) 1 else s1

theorem exec_railLimitTrip_charging {rc : Nat} {b : Bool} {mv ns : Rat} {s : State} (hgates : (s.rail rc).state.gatesOn = true)
    (hwell : (if b then (s.rail rc).failedB else (s.rail rc).failedA) = false) (hcharges : (s.rail rc).charges b ns = true)
    (hover : (s.rail rc).limMv < mv) : exec (.railLimitTrip rc b mv ns) s = .next (limitTripped rc b s) := by
  show execRailLimitTrip rc b mv ns s = _
  unfold execRailLimitTrip
  dsimp only
  rw [if_pos (by rw [hgates, hwell]; rfl), if_neg (by simp [hcharges]), if_pos (by simp [hcharges, hover])]
  rfl

theorem limitTripped_touchesRail (rc : Nat) (b : Bool) (s : State) : TouchesRail rc s (limitTripped rc b s) := by
  have hcounted : TouchesRail rc s ((s.modRail rc (Rail.limited b)).count (railStat rc 0x019) 1) :=
    (modRail_touchesRail s rc _).trans (count_touchesRail rc _ _ _)
  unfold limitTripped
  dsimp only
  split
  · exact hcounted.trans (life_touchesRail rc _ _ _)
  · exact hcounted

theorem limitTripped_effects {rc : Nat} (hrc : rc < 12) (b : Bool) (s : State) : (limitTripped rc b s).rail rc = (s.rail rc).limited b ∧
    (limitTripped rc b s).counters = (s.count (railStat rc 0x019) 1).counters := by
  unfold limitTripped
  dsimp only
  split <;> exact ⟨rail_modRail_self s _ hrc, rfl⟩

/-- The discharging interval of a phase ends at the reverse limit. -/
theorem exec_railLimitTrip_reverse {rc : Nat} {b : Bool} {mv ns : Rat} {s : State} (hgates : (s.rail rc).state.gatesOn = true)
    (hwell : (if b then (s.rail rc).failedB else (s.rail rc).failedA) = false) (hcharges : (s.rail rc).charges b ns = false)
    (hunder : mv ≤ (s.rail rc).reverseMv) : exec (.railLimitTrip rc b mv ns) s =
      .next (s.modRail rc fun q => { q with cyc := { q.cyc with idle := q.cyc.idle.set (bit b 0) true } }) := by
  show execRailLimitTrip rc b mv ns s = _
  unfold execRailLimitTrip
  dsimp only
  rw [if_pos (by rw [hgates, hwell]; rfl), if_pos (by simp [hcharges, hunder])]

/-- An episode of a sagging rail begins. -/
def railSags (rc : Nat) (v : Rat) (s : State) : State :=
  (((s.modRail rc fun q => { q with sagEp := true }).count (railStat rc 0x01A) 1).life (railStat rc 0x045) 1).raise 0x7009 rc
    [wordU (1000 * v), wordU (1000 * (s.rail rc).ref)]

theorem exec_railSag {rc : Nat} {v : Rat} {s : State} (hgates : (s.rail rc).state.gatesOn = true) (hfirst : (s.rail rc).sagEp = false)
    (hlimits : (s.rail rc).blockedA = true ∨ (s.rail rc).blockedB = true) (hlow : v < (s.rail rc).ref * 8/10) :
    exec (.railSag rc v) s = .next (railSags rc v s) :=
  if_pos (by rw [hgates, hfirst, show ((s.rail rc).blockedA || (s.rail rc).blockedB) = true by simpa using hlimits]; simpa using hlow)

theorem railSags_touchesRail (rc : Nat) (v : Rat) (s : State) : TouchesRail rc s (railSags rc v s) :=
  (((modRail_touchesRail s rc _).trans (count_touchesRail rc _ _ _)).trans (life_touchesRail rc _ _ _)).trans (raise_touchesRail rc _ _ _ _)

theorem railSags_rail {rc : Nat} (hrc : rc < 12) (v : Rat) (s : State) : (railSags rc v s).rail rc = { s.rail rc with sagEp := true } := by
  unfold railSags
  rw [(raise_reports _ _ _ _).rail, rail_life, rail_count, rail_modRail_self _ _ hrc]

/-! ### Stops (R345) -/

theorem exec_railOv {rc : Nat} {v : Rat} {s : State} (hgates : (s.rail rc).state.gatesOn = true)
    (hover : min 98 ((s.rail rc).setpoint 7 * 105/100) < v) : exec (.railOv rc v) s = .next (railFault rc 0x700A [wordU (1000 * v)] s) :=
  if_pos (by rw [hgates]; simpa [railOvLevel] using hover)

/-- A requested stop is over: the controller rests in OFF, and a RAIL_CHECK that waits for it begins its checks (R407). -/
def railStopped (rc : Nat) (s : State) : State := s.modRail rc fun q => { q.stopped .off with
  row := 0, ref := 0, due := (s.rail rc).restart || (s.rail rc).due, restart := false, test := bit (railCheckRuns s rc) 0, testCode := 0 }

theorem exec_railStop_over {rc : Nat} {s : State} (hstop : (s.rail rc).stopReq = true) (hgates : (s.rail rc).state.gatesOn = true)
    (hfed : ∀ c ∈ fedBy rc, (s.chan c).fsm.state = .off ∨ (s.chan c).fsm.state = .fault) (hlow : (s.rail rc).ref ≤ (s.rail rc).setpoint 0) :
    exec (.railStop rc) s = .next (railStopped rc s) := by
  have hstopped : fedStopped s rc = true := List.all_eq_true.mpr fun c hc => by simpa using hfed c hc
  exact if_pos (by rw [hstop, hgates, hstopped]; simpa using hlow)

/-! ### Phases (R347, R348) -/

theorem exec_phaseOpen {rc : Nat} {b : Bool} {iA iB : Rat} {s : State} (hgates : (s.rail rc).state.gatesOn = true)
    (hA : (s.rail rc).failedA = false) (hB : (s.rail rc).failedB = false) (hlow : if b then iB < iA / 10 else iA < iB / 10)
    (hload : 3/10 < (iA + iB) / (2 * (s.rail rc).iLim)) :
    exec (.phaseOpen rc b iA iB) s = .next (phaseFail rc b true [phaseWord b, currentsWord iA iB, 0] s) := by
  have hfails : (if b then decide (iB < iA / 10) else decide (iA < iB / 10)) = true := by cases b <;> simpa using hlow
  show execPhaseOpen rc b iA iB s = _
  unfold execPhaseOpen
  extract_lets q low
  rw [if_pos (by rw [show low = true from hfails, show q.state.gatesOn = true from hgates, show q.failedA = false from hA,
    show q.failedB = false from hB]; simpa using hload)]

theorem exec_phaseSenseFailed {rc : Nat} {b : Bool} {sensed : Rat} {s : State} (hgates : (s.rail rc).state.gatesOn = true)
    (hwell : (if b then (s.rail rc).failedB else (s.rail rc).failedA) = false)
    (hfar : absRat (predictedRise (s.rail rc) b) / 2 < absRat (sensed - predictedRise (s.rail rc) b)) :
    exec (.phaseSenseFailed rc b sensed) s = .next (phaseFail rc b false
      [phaseWord b, wordU (1000 * predictedRise (s.rail rc) b), wordU (1000 * sensed)] s) := by
  show execPhaseSenseFailed rc b sensed s = _
  unfold execPhaseSenseFailed
  extract_lets q pred
  rw [if_pos (by rw [show q.state.gatesOn = true from hgates, show (if b then q.failedB else q.failedA) = false from hwell]; simpa using hfar)]

end Sys2Proof.Machine

open Sys2Proof Sys2Proof.Machine

/-- Settles O31: each row by what it makes of its controller, an over-voltage also by what the lost rail makes of each channel. By how much k and the
trim move in a cycle no rule states: they are free within their bounds (log entry 67). -/
theorem railRegulationRows : Obligations.RailRegulationRows := by
  intro s rc hrc
  refine ⟨fun b vIn v i offNs sinceNs own hgates hvin hfreq hoff hown htrigger hturn hheld => ?charge,
    fun b vIn v i offNs sinceNs own hturn hown h => ?idle, fun b mv ns hgates hwell => ⟨fun hcharges hover => ?limit, fun hcharges hunder => ?reverse⟩,
    fun v hgates hfirst hlimits hlow => ⟨_, exec_railSag hgates hfirst hlimits hlow, railSags_touchesRail rc v s, railSags_rail hrc v s,
      (raise_raised _ _ _ _).of_log rfl rfl⟩,
    fun v hgates hover => ?overVoltage, fun hstop hgates hfed hlow => ?stop, fun b iA iB hgates hA hB hlow hload => ?opens,
    fun b sensed hgates hwell hfar => ?sense⟩
  case charge =>
    rw [hown] at htrigger
    exact exec_railChargeStart_charges hrc (turn_eq hturn) (by simpa [railTrigger] using htrigger) hgates hvin hfreq hheld hoff
  case idle =>
    refine exec_railChargeStart_idle vIn i (h.imp_right fun hhigh => ?_)
    rw [hown] at hhigh
    rw [← hturn]
    simpa [railTrigger] using hhigh
  case limit =>
    obtain ⟨hrail, hcount⟩ := limitTripped_effects hrc b s
    exact ⟨_, exec_railLimitTrip_charging hgates hwell hcharges hover, limitTripped_touchesRail rc b s, hrail, hcount⟩
  case reverse => exact ⟨_, exec_railLimitTrip_reverse hgates hwell hcharges hunder, modRail_touchesRail s rc _, rail_modRail_self s _ hrc, rfl⟩
  case overVoltage =>
    obtain ⟨hstate, hmode, -⟩ := railFault_own hrc 0x700A [wordU (1000 * v)] s
    refine ⟨_, exec_railOv hgates hover, railFault_touches _ _ _ _, railFault_code hrc _ _ _, hmode, fun k hk => railFault_others _ _ s hk,
      fun hreg => ⟨?_, fun c hc hfed hoff hfault hretest => ?_⟩, fun c hc hfed => ?_⟩
    · rw [hstate, if_pos hreg]
      simp [railRetried]
    · exact (railFault_chan rc 0x700A [wordU (1000 * v)] s hc).1 hreg ((mem_fedBy_iff hrc hc).mpr hfed) hoff hfault hretest
    · exact (railFault_chan rc 0x700A [wordU (1000 * v)] s hc).2 (.inr fun hmem => hfed ((mem_fedBy_iff hrc hc).mp hmem))
  case stop =>
    refine ⟨_, exec_railStop_over hstop hgates hfed hlow, modRail_touchesRail s rc _, ?_⟩
    rw [railStopped, rail_modRail_self _ _ hrc]
    exact ⟨rfl, rfl, rfl, rfl, rfl⟩
  case opens =>
    obtain ⟨htouch, hrow, -⟩ := phaseFail_one_effects hrc (b := b) (s := s) (by cases b <;> assumption) true [phaseWord b, currentsWord iA iB, 0]
    refine ⟨_, exec_phaseOpen hgates hA hB hlow hload, htouch, ?_⟩
    rw [hrow]
    exact ⟨phaseMarked_state b true _, rfl, by cases b <;> simp [Rail.phaseMarked], by cases b <;> simp [Rail.phaseMarked]⟩
  case sense =>
    refine ⟨_, exec_phaseSenseFailed hgates hwell hfar, ?_⟩
    by_cases hother : (if b then (s.rail rc).failedA else (s.rail rc).failedB) = true
    · obtain ⟨htouch, hstate, hcode, hothers⟩ := phaseFail_both_effects hrc hother false
        [phaseWord b, wordU (1000 * predictedRise (s.rail rc) b), wordU (1000 * sensed)]
      exact ⟨htouch, hothers, fun h => absurd hother (by simp [h]), fun _ => ⟨hstate, hcode⟩⟩
    · obtain ⟨htouch, hrow, -⟩ := phaseFail_one_effects hrc (Bool.eq_false_iff.mpr hother) false
        [phaseWord b, wordU (1000 * predictedRise (s.rail rc) b), wordU (1000 * sensed)]
      refine ⟨htouch.1, fun k hk => by rw [htouch.2.2 k hk]; exact SameRail.rfl' _, fun _ => ?_, fun h => absurd h hother⟩
      rw [hrow]
      exact ⟨phaseMarked_state b false _, rfl, by cases b <;> simp [Rail.phaseMarked], by cases b <;> simp [Rail.phaseMarked]⟩
end

section
/-! PROOFS. The temperature, RSYNC, spread and telemetry of the controllers (R349 to R353, Table 13.7). -/

namespace Sys2Proof.Machine

/-! ### A code that others follow (R105) -/

theorem logRecord_crossings (m : Nat) (r : Record) (l : Log) :
    (logRecord m r l).1.waiting = l.waiting ∧ (logRecord m r l).1.overflow = l.overflow := by
  unfold logRecord
  dsimp only
  repeat' split
  all_goals exact ⟨rfl, rfl⟩

/-- A record of `code` is among the newest `n` of the event queue, or the event waits for the Keeper, or its crossing has saturated. -/
def RaisedWithin (n code inst : Nat) (data : List Word) (s t : State) : Prop :=
  (∃ r ∈ t.log.queue.drop (t.log.queue.length - n), r.seq = s.log.nextSeq ∧ r.code = code ∧ r.inst = inst ∧ r.data = data ∧ r.level = levelOf code) ∨
  (code, inst, data) ∈ t.log.waiting.drop s.log.waiting.length ∨ (code, inst) ∈ t.log.overflow

theorem RaisedWithin.raised {n code inst : Nat} {data : List Word} {s t : State} (h : RaisedWithin n code inst data s t) : Raised code inst data s t :=
  h.imp_left fun ⟨r, hr, hrest⟩ => ⟨r, List.mem_of_mem_drop hr, hrest⟩

theorem RaisedWithin.to_log {n code inst : Nat} {data : List Word} {s t u : State} (h : RaisedWithin n code inst data s t) (hlog : u.log = t.log) :
    RaisedWithin n code inst data s u := by
  unfold RaisedWithin at *
  rwa [hlog]

theorem RaisedWithin.of_log {n code inst : Nat} {data : List Word} {s t u : State} (h : RaisedWithin n code inst data t u)
    (hseq : t.log.nextSeq = s.log.nextSeq) (hwait : t.log.waiting = s.log.waiting) : RaisedWithin n code inst data s u := by
  unfold RaisedWithin at *
  rwa [← hseq, ← hwait]

/-- A raised code is the newest record, or waits. -/
theorem raise_raisedWithin (code inst : Nat) (data : List Word) (s : State) : RaisedWithin 1 code inst data s (s.raise code inst data) := by
  cases hserve : canLog s with
  | true =>
    obtain ⟨r, hcode, hinst, hdata, hseq, hlevel, hqueue, -⟩ := logRecord_entered (s.nat 0x01 0 15)
      ⟨(recTime s).1, code, inst, s.log.nextSeq, data, levelOf code, (recTime s).2, false⟩ s.log
    refine .inl ⟨r, ?_, hseq, hcode, hinst, hdata, hlevel⟩
    rw [raise_serving hserve, enter_log, hqueue, List.drop_drop]
    refine List.mem_drop_iff_getElem.mpr ?_
    simp only [List.length_drop, List.length_append, List.length_singleton]
    exact ⟨0, by omega, by
      rw [List.getElem_append_right (by omega)]
      simp⟩
  | false =>
    rw [raise_waiting hserve]
    exact .inr (cross_there code inst data s.log)

/-- One more record leaves a raised code among the newest. -/
theorem RaisedWithin.raise {n code inst : Nat} {data : List Word} {s t : State} (h : RaisedWithin n code inst data s t) (hn : n < 256)
    {code' inst' : Nat} (data' : List Word) (hne : (code, inst) ≠ (code', inst')) :
    RaisedWithin (n + 1) code inst data s (t.raise code' inst' data') := by
  cases hserve : canLog t with
  | true =>
    obtain ⟨r', -, -, -, -, -, hqueue, -⟩ := logRecord_entered (t.nat 0x01 0 15)
      ⟨(recTime t).1, code', inst', t.log.nextSeq, data', levelOf code', (recTime t).2, false⟩ t.log
    obtain ⟨hwaiting, hoverflow⟩ := logRecord_crossings (t.nat 0x01 0 15)
      ⟨(recTime t).1, code', inst', t.log.nextSeq, data', levelOf code', (recTime t).2, false⟩ t.log
    unfold RaisedWithin
    rw [raise_serving hserve, enter_log, hwaiting, hoverflow, hqueue]
    refine h.imp_left fun ⟨r, hr, hrest⟩ => ⟨r, ?_, hrest⟩
    have hkept : t.log.queue.length + 1 - 256 + (((t.log.queue ++ [r']).drop (t.log.queue.length + 1 - 256)).length - (n + 1)) =
        t.log.queue.length - n := by
      simp only [List.length_drop, List.length_append, List.length_singleton]
      omega
    rw [List.drop_drop, hkept, List.drop_append_of_le_length (by omega)]
    exact List.mem_append_left _ hr
  | false =>
    obtain ⟨⟨e, hwaiting⟩, hoverflow⟩ := cross_keeps (data' := data') hne t.log
    unfold RaisedWithin
    rw [raise_waiting hserve]
    refine h.imp ?_ (Or.imp (fun hwait => ?_) hoverflow)
    · rw [show (t.log.cross code' inst' data').queue = t.log.queue by unfold Log.cross; split <;> rfl]
      rintro ⟨r, hr, hrest⟩
      exact ⟨r, List.drop_subset_drop_left _ (by omega) hr, hrest⟩
    · rw [hwaiting, List.drop_append]
      exact List.mem_append_left _ hwait

/-- A code among the newest records stays there while a controller reports its ceiling. -/
theorem RaisedWithin.ceilingChanged {n code inst : Nat} {data : List Word} {s t : State} (h : RaisedWithin n code inst data s t) (hn : n < 256)
    (hne : code ≠ 0x7012) (r old : Nat) : ∃ m, RaisedWithin m code inst data s (ceilingChanged r old t) := by
  unfold Machine.ceilingChanged
  extract_lets q new s1
  have hs1 : RaisedWithin n code inst data s s1 := h.to_log (by unfold s1; split <;> rfl)
  split
  · exact ⟨n, h⟩
  · split
    · exact ⟨n + 1, hs1.raise hn _ fun h => hne (congrArg Prod.fst h)⟩
    · exact ⟨n, hs1⟩

/-! ### The temperature of a controller (R349) -/

/-- A controller whose T_rc has been judged at `t`. -/
def Rail.judged (t : Rat) (q : Rail) : Rail :=
  { q with tempC := t, dTempRail := dTempOf q.dTempRail t, hotMs := if 130 ≤ t then q.hotMs + 1 else 0 }

/-- A judged T_rc changes of its controller the temperature, d_temp, the count and what the ceiling makes of them. -/
theorem judgeTemp_effects {r : Nat} (hr : r < 12) (s : State) : TouchesRail r s (judgeTemp r s) ∧
    RowOnly ((s.rail r).judged (rcTemp s r (s.rail r))) ((judgeTemp r s).rail r) := by
  unfold judgeTemp
  extract_lets q t d s1 s2
  have hs2 : Reports s1 s2 := by
    unfold s2
    split
    · exact raise_reports _ _ _ _
    · exact .rfl' _
  have hown : s2.rail r = q.judged t := (hs2.rail r).trans (rail_modRail_self s _ hr)
  refine ⟨((modRail_touchesRail s r _).trans (hs2.touchesRail r)).trans (ceilingChanged_rail r _ s2).1, ?_⟩
  rw [← hown]
  exact ceilingChanged_rowOnly r _ s2 r

/-- A failure of the thermistor that has been raised stands while T_rc is judged. -/
theorem RaisedWithin.judgeTemp {code inst : Nat} {data : List Word} {s t : State} (h : RaisedWithin 1 code inst data s t) (hwarn : code ≠ 0x700B)
    (hceiling : code ≠ 0x7012) (r : Nat) : Raised code inst data s (judgeTemp r t) := by
  unfold Machine.judgeTemp
  extract_lets q temp d s1 s2
  have hs1 : RaisedWithin 1 code inst data s s1 := h.to_log rfl
  have hs2 : ∃ n < 256, RaisedWithin n code inst data s s2 := by
    unfold s2
    split
    · exact ⟨2, by omega, hs1.raise (by omega) _ fun h => hwarn (congrArg Prod.fst h)⟩
    · exact ⟨1, by omega, hs1⟩
  obtain ⟨n, hn, hthere⟩ := hs2
  obtain ⟨m, hkept⟩ := hthere.ceilingChanged hn hceiling r (cEffRail t r)
  exact hkept.raised

/-! ### The thermistor of a controller (R321, R349) -/

theorem ntcKind_inRange {ohm : Rat} (h : ntcInRange ohm = true) : ntcKind ohm = 0 := if_pos h

theorem ntcKind_outOfRange {ohm : Rat} (h : ntcInRange ohm = false) : ntcKind ohm ≠ 0 := by
  unfold ntcKind
  rw [if_neg (by simp [h])]
  split <;> decide

theorem takeNtc_touchesRail (r : Nat) (ohm : Rat) (s : State) : TouchesRail r s (takeNtc r ohm s) := by
  unfold takeNtc
  extract_lets q kind n s1
  have hs1 : TouchesRail r s s1 := modRail_touchesRail s r _
  split
  · split
    · exact hs1.trans (modRail_touchesRail s1 r _)
    · exact hs1
  · split
    · exact (hs1.trans (modRail_touchesRail s1 r _)).trans (raise_touchesRail r _ _ _ _)
    · exact hs1

theorem takeNtc_state {r : Nat} (hr : r < 12) (ohm : Rat) (s : State) : ((takeNtc r ohm s).rail r).state = (s.rail r).state := by
  unfold takeNtc
  extract_lets q kind n s1
  have hs1 : (s1.rail r).state = q.state := by rw [rail_modRail_self _ _ hr]
  split
  · split
    · rw [rail_modRail_self _ _ hr]
      exact hs1
    · exact hs1
  · split
    · rw [(raise_reports _ _ _ _).rail, rail_modRail_self _ _ hr]
      exact hs1
    · exact hs1

/-- A reading in range joins the last 16. -/
theorem takeNtc_joins {r : Nat} (hr : r < 12) {ohm : Rat} {s : State} (hntc : (s.rail r).onZone = false) (hin : ntcInRange ohm = true) :
    (takeNtc r ohm s).rail r = { s.rail r with
      ntcBad := 0, ntcMs := if (s.rail r).ntcBad = 0 then (s.rail r).ntcMs + 1 else 1
      readings := ((s.rail r).readings ++ [ntcCelsius ohm]).drop ((s.rail r).readings.length - 15) } := by
  unfold takeNtc
  dsimp only
  rw [ntcKind_inRange hin, if_pos rfl, if_neg (by simp [hntc]), rail_modRail_self _ _ hr, if_neg (by simp [hntc])]

/-- The hundredth reading in a row that is out of range in one way declares that failure. -/
theorem takeNtc_fails {r : Nat} (hr : r < 12) {ohm : Rat} {s : State} (hout : ntcInRange ohm = false) (hkind : (s.rail r).ntcBad = ntcKind ohm)
    (hlong : 99 ≤ (s.rail r).ntcMs) (hnew : (s.rail r).ntcWas ≠ ntcKind ohm) : ((takeNtc r ohm s).rail r).onZone = true ∧
    RaisedWithin 1 (if ntcKind ohm = 1 then 0x700D else 0x700E) r [ohmWord ohm] s (takeNtc r ohm s) := by
  unfold takeNtc
  dsimp only
  rw [if_neg (ntcKind_outOfRange hout), if_pos ⟨by rw [if_pos hkind]; omega, hnew⟩]
  refine ⟨?_, (raise_raisedWithin _ _ _ _).of_log rfl rfl⟩
  rw [(raise_reports _ _ _ _).rail, rail_modRail_self _ _ hr]

theorem exec_rcNtcSample {rc : Nat} (ohm : Rat) {s : State} (henabled : s.flag 0x07 rc 0 = true) (hmeasured : (s.rail rc).ntcOn = true) :
    exec (.rcNtcSample rc ohm) s = .next (if ((takeNtc rc ohm s).rail rc).onZone || !((takeNtc rc ohm s).rail rc).readings.isEmpty then
      judgeTemp rc (takeNtc rc ohm s) else takeNtc rc ohm s) :=
  if_pos (by rw [henabled, hmeasured]; rfl)

/-- What a sample does, with a reading or a substitute to judge or without one. -/
theorem rcNtcSampled_frame {rc : Nat} (hrc : rc < 12) (ohm : Rat) (p : Bool) (s : State) :
    TouchesRail rc s (if p then judgeTemp rc (takeNtc rc ohm s) else takeNtc rc ohm s) ∧
    ((if p then judgeTemp rc (takeNtc rc ohm s) else takeNtc rc ohm s).rail rc).state = (s.rail rc).state := by
  obtain ⟨htouch, hrow⟩ := judgeTemp_effects hrc (takeNtc rc ohm s)
  cases p
  · exact ⟨takeNtc_touchesRail rc ohm s, takeNtc_state hrc ohm s⟩
  · refine ⟨(takeNtc_touchesRail rc ohm s).trans htouch, ?_⟩
    rw [if_pos rfl, hrow]
    exact takeNtc_state hrc ohm s

theorem rcNtcSampled_joins {rc : Nat} (hrc : rc < 12) {ohm : Rat} {s : State} (hntc : (s.rail rc).onZone = false) (hin : ntcInRange ohm = true)
    {t : State} (ht : t = if ((takeNtc rc ohm s).rail rc).onZone || !((takeNtc rc ohm s).rail rc).readings.isEmpty then
      judgeTemp rc (takeNtc rc ohm s) else takeNtc rc ohm s) :
    (t.rail rc).readings = ((s.rail rc).readings ++ [ntcCelsius ohm]).drop ((s.rail rc).readings.length - 15) ∧
    (t.rail rc).tempC = mean (t.rail rc).readings ∧ (t.rail rc).dTempRail = dTempOf (s.rail rc).dTempRail (t.rail rc).tempC ∧
    (t.rail rc).hotMs = if 130 ≤ (t.rail rc).tempC then (s.rail rc).hotMs + 1 else 0 := by
  have hjoined := takeNtc_joins hrc hntc hin
  have hsome : ((takeNtc rc ohm s).rail rc).readings ≠ [] := by
    rw [hjoined]
    refine List.ne_nil_of_length_pos ?_
    rw [List.length_drop, List.length_append, List.length_singleton]
    omega
  rw [if_pos (by simp [hsome])] at ht
  obtain ⟨-, hrow⟩ := judgeTemp_effects hrc (takeNtc rc ohm s)
  rw [ht, hrow, rcTemp, hjoined, if_neg (by simp [hntc])]
  exact ⟨rfl, rfl, rfl, rfl⟩

theorem rcNtcSampled_fails {rc : Nat} (hrc : rc < 12) {ohm : Rat} {s : State} (hout : ntcInRange ohm = false) (hkind : (s.rail rc).ntcBad = ntcKind ohm)
    (hlong : 99 ≤ (s.rail rc).ntcMs) (hnew : (s.rail rc).ntcWas ≠ ntcKind ohm)
    {t : State} (ht : t = if ((takeNtc rc ohm s).rail rc).onZone || !((takeNtc rc ohm s).rail rc).readings.isEmpty then
      judgeTemp rc (takeNtc rc ohm s) else takeNtc rc ohm s) :
    (t.rail rc).onZone = true ∧ (t.rail rc).tempC = (s.dsd (rc / 3)).zoneC + 20 ∧
    Raised (if ntcKind ohm = 1 then 0x700D else 0x700E) rc [ohmWord ohm] s t := by
  obtain ⟨hzone, hraised⟩ := takeNtc_fails hrc hout hkind hlong hnew
  obtain ⟨-, hrow⟩ := judgeTemp_effects hrc (takeNtc rc ohm s)
  rw [if_pos (by rw [hzone]; rfl)] at ht
  have hcodes : (if ntcKind ohm = 1 then 0x700D else 0x700E) ≠ 0x700B ∧ (if ntcKind ohm = 1 then 0x700D else 0x700E) ≠ 0x7012 := by
    split <;> decide
  refine ⟨?_, ?_, by rw [ht]; exact hraised.judgeTemp hcodes.1 hcodes.2 rc⟩
  · rw [ht, hrow]
    exact hzone
  · rw [ht, hrow]
    show rcTemp _ rc _ = _
    rw [rcTemp, if_pos hzone, (takeNtc_touchesRail rc ohm s).1.dsd]

theorem exec_rcOvertemp {rc : Nat} {s : State} (hstate : (s.rail rc).state.gatesOn = true ∨ (s.rail rc).state = .check)
    (hmeasured : (s.rail rc).ntcOn = true) (hhot : 100 ≤ (s.rail rc).hotMs) :
    exec (.rcOvertemp rc) s = .next (railFault rc 0x700C [wordS (10 * (s.rail rc).tempC)] s) :=
  if_pos (by
    rw [show ((s.rail rc).state.gatesOn || (s.rail rc).state == .check) = true by rcases hstate with h | h <;> simp [h], hmeasured]
    simpa using hhot)

theorem exec_rcOvertempRestart {rc : Nat} {s : State} (hstate : (s.rail rc).state = .fault) (hcode : (s.rail rc).code = 0x700C)
    (huntested : (s.rail rc).test = 0) (hcool : (s.rail rc).tempC < 100) (hmay : railMayStart s rc = true) :
    exec (.rcOvertempRestart rc) s = .next (railBegin rc ((s.rail rc).attempts + 1) (s.rail rc).retriesLeft s) :=
  if_pos (by simp [hstate, hcode, huntested, hcool, hmay])

/-! ### RSYNC comes and goes (R350, R351) -/

/-- RSYNC is present or not, with its frequency. -/
def rsyncSet (present : Bool) (hz : Rat) (s : State) : State := { s with misc := { s.misc with rsync := present, rsyncHz := hz } }

/-- f_ref depends on the configuration, the controller and, where it follows RSYNC, on the frequency of RSYNC. -/
theorem fRef_congr {s t : State} {r : Nat} (hcfg : t.cfg = s.cfg) (hrail : t.rail r = s.rail r)
    (hsync : (s.rail r).sync = 1 ∨ (s.rail r).sync = 2 → t.misc.rsyncHz = s.misc.rsyncHz) : fRef t r = fRef s r := by
  have hown : ownHz t r = ownHz s r := by
    unfold ownHz State.ratv
    rw [hcfg, hrail]
  unfold fRef
  dsimp only
  rw [hrail, hown]
  by_cases h : (s.rail r).sync = 1 ∨ (s.rail r).sync = 2
  · rw [hsync h]
  · rw [if_neg h, if_neg h]

/-- Each step of a loop over the controllers, which changes its own one alone, finds that controller as it was before the loop. -/
theorem forRails_own {f : Nat → State → State} {n : Nat} (hf : ∀ r u, TouchesRail r u (f r u)) (s : State) {r : Nat} (hr : r < n) :
    ∃ u, Touches s u ∧ u.rail r = s.rail r ∧ (forUnits n f s).rail r = (f r u).rail r :=
  forUnits_units (get := State.rail) (P := Touches s) (R := fun r a b => ∃ u, Touches s u ∧ u.rail r = a ∧ b = (f r u).rail r)
    (fun r u h => h.trans (hf r u).1) (fun r k u hk => (hf r u).2.2 k hk) (fun _ u _ h => ⟨u, h, rfl, rfl⟩) (Touches.rfl' s) hr

theorem forRails_frame {f : Nat → State → State} (hf : ∀ r u, TouchesRail r u (f r u)) (n : Nat) (s : State) :
    Touches s (forUnits n f s) ∧ (forUnits n f s).chans = s.chans :=
  ⟨forUnits_touches (fun r u => (hf r u).1) n s, forUnits_invariant (P := fun t => t.chans = s.chans) (fun r u h => (hf r u).2.1.trans h) n rfl⟩

theorem Touches.rsync {s t : State} (h : Touches s t) : t.misc.rsync = s.misc.rsync ∧ t.misc.rsyncHz = s.misc.rsyncHz := by
  rw [h]
  exact ⟨rfl, rfl⟩

theorem Touches.cfg {s t : State} (h : Touches s t) : t.cfg = s.cfg := h.quiet.2.2.2

theorem exec_syncAcquired {us : List Rat} {s : State} (hdone : s.power.seqDone = true) (hpresent : syncPresent us = true) :
    exec (.syncAcquired us) s = .next (forUnits 12 meetSync (rsyncSet true (1000000 / mean us) s)) :=
  if_pos (by rw [hdone, hpresent]; rfl)

/-- Each controller meets the RSYNC that has come. -/
theorem syncAcquired_met (hz : Rat) (s : State) {r : Nat} (hr : r < 12) :
    ∃ f, ((s.rail r).sync ≠ 1 → (s.rail r).sync ≠ 2 → f = fRef s r) ∧
      SyncMet (s.flag 0x07 r 0) (decide (hz * 3 / 4 ≤ 1000 * s.ratv 0x07 r 1) && decide (1000 * s.ratv 0x07 r 1 ≤ hz * 5 / 4)) f (s.rail r)
        ((forUnits 12 meetSync (rsyncSet true hz s)).rail r) := by
  obtain ⟨u, htouch, hrail, hafter⟩ := forRails_own meetSync_touchesRail (rsyncSet true hz s) hr
  have hmet := meetSync_met hr u
  obtain ⟨hpresent, hfreq⟩ := htouch.rsync
  have hcfg : u.cfg = s.cfg := htouch.cfg
  rw [← hafter, hrail, show u.misc.rsync = true from hpresent, show u.misc.rsyncHz = hz from hfreq,
    show u.flag 0x07 r 0 = s.flag 0x07 r 0 by unfold State.flag; rw [hcfg],
    show syncFits u r hz = syncFits s r hz by unfold syncFits State.ratv; rw [hcfg]] at hmet
  exact ⟨fRef u r, fun h1 h2 => fRef_congr hcfg hrail fun h => absurd h (by simp [h1, h2]), hmet⟩

/-- RSYNC is lost for a controller: one that follows it moves back to its own frequency. -/
def loseSync (r : Nat) (s : State) : State :=
  if (s.rail r).sync = 1 ∨ (s.rail r).sync = 2 then (moveFreq r 3 0 s).raise 0x700F r [wordU s.misc.rsyncHz]
  else s.modRail r fun q => { q with sync := if q.sync = 3 then 3 else 0 }

theorem exec_syncLost {last gap : Rat} {edge : Bool} {s : State} (hpresent : s.misc.rsync = true) (hgone : syncGone last gap edge = true) :
    exec (.syncLost last gap edge) s = .next (forUnits 12 loseSync (rsyncSet false s.misc.rsyncHz s)) :=
  if_pos (by rw [hpresent, hgone]; rfl)

theorem loseSync_touchesRail (r : Nat) (s : State) : TouchesRail r s (loseSync r s) := by
  unfold loseSync
  split
  · exact (modRail_touchesRail s r _).trans (raise_touchesRail r _ _ _ _)
  · exact modRail_touchesRail s r _

/-- A controller after the loss of RSYNC: it moves from `f`, or is at its own frequency. -/
def Rail.syncLost (f : Rat) (q : Rail) : Rail :=
  if (q.sync = 1 ∨ q.sync = 2) ∧ q.state.gatesOn = true then { q with sync := 3, cyc := { q.cyc with fFrom := f, moveUs := 0 } }
  else { q with sync := if q.sync = 3 then 3 else 0 }

theorem loseSync_rail {r : Nat} (hr : r < 12) (s : State) : (loseSync r s).rail r = (s.rail r).syncLost (fRef s r) := by
  by_cases hlocked : (s.rail r).sync = 1 ∨ (s.rail r).sync = 2
  · rw [show loseSync r s = (moveFreq r 3 0 s).raise 0x700F r [wordU s.misc.rsyncHz] from if_pos hlocked, (raise_reports _ _ _ _).rail, moveFreq_eq,
      rail_modRail_self _ _ hr, Rail.freqMoved, Rail.syncLost]
    by_cases hgates : (s.rail r).state.gatesOn = true
    · rw [if_pos hgates, if_pos ⟨hlocked, hgates⟩]
    · rw [if_neg hgates, if_neg fun h => hgates h.2, if_neg (by omega)]
  · rw [show loseSync r s = s.modRail r fun q => { q with sync := if q.sync = 3 then 3 else 0 } from if_neg hlocked, rail_modRail_self _ _ hr]
    exact (if_neg fun h => hlocked h.1).symm

theorem syncLost_rail (s : State) {r : Nat} (hr : r < 12) :
    (forUnits 12 loseSync (rsyncSet false s.misc.rsyncHz s)).rail r = (s.rail r).syncLost (fRef s r) := by
  obtain ⟨u, htouch, hrail, hafter⟩ := forRails_own loseSync_touchesRail (rsyncSet false s.misc.rsyncHz s) hr
  have hrail' : u.rail r = s.rail r := hrail
  have hfreq : fRef u r = fRef s r := fRef_congr htouch.cfg hrail' fun _ => htouch.rsync.2
  rw [hafter, loseSync_rail hr, hrail', hfreq]

theorem exec_syncLost_within {last gap : Rat} (s : State) (hlow : 5/4 ≤ gap) (hhigh : gap ≤ 5) (hnear : absRat (gap - last) ≤ last * 15/100) :
    exec (.syncLost last gap true) s = .next s :=
  if_neg (by simp [syncGone, not_lt.mpr hlow, not_lt.mpr hhigh, not_lt.mpr hnear])

theorem syncGone_eq_true {last gap : Rat} {edge : Bool}
    (h : if edge then gap < 5/4 ∨ 5 < gap ∨ last * 15/100 < absRat (gap - last) else 2 * last ≤ gap) : syncGone last gap edge = true := by
  cases edge
  · simpa [syncGone] using h
  · simpa [syncGone, or_assoc] using h

/-! ### The spread (R352) -/

/-- A controller after a draw of its spread, by `pct` percent at most, or without one. -/
def Rail.spreadDrawn (pct : Rat) (q : Rail) : Rail :=
  if q.sync ≠ 1 ∧ q.sync ≠ 2 ∧ 0 < pct then { q with
    lfsr := lfsr15^[15] q.lfsr, cyc := { q.cyc with drawn := 0 }
    spread := (((lfsr15^[15] q.lfsr * 21 / 32768 : Nat) : Rat) - 10) * pct / 1000 }
  else { q with spread := 0, cyc := { q.cyc with drawn := 0 } }

theorem exec_railSpreadDraw {rc : Nat} {s : State} (hgates : (s.rail rc).state.gatesOn = true) (hdrawn : 32 ≤ (s.rail rc).cyc.drawn) :
    exec (.railSpreadDraw rc) s = .next (s.modRail rc fun _ => (s.rail rc).spreadDrawn (s.ratv 0x07 rc 3)) := by
  show execRailSpreadDraw rc s = _
  unfold execRailSpreadDraw Rail.spreadDrawn
  dsimp only
  rw [if_pos (by simp [hgates, hdrawn])]
  by_cases h : (s.rail rc).sync ≠ 1 ∧ (s.rail rc).sync ≠ 2 ∧ 0 < s.ratv 0x07 rc 3
  · rw [if_pos (by simpa [and_assoc] using h), if_pos h]
    rfl
  · rw [if_neg (by simpa [and_assoc] using h), if_neg h]
    rfl

/-! ### Telemetry (R353) -/

/-- The values of a window are kept at four status fields from `base` on. -/
def telePut (rc base : Nat) (a b c d : Rat) (s : State) : State :=
  (((s.put (railStat rc base) (f32Of a)).put (railStat rc (base + 1)) (f32Of b)).put (railStat rc (base + 2)) (f32Of c)).put (railStat rc (base + 3))
    (f32Of d)

/-- The peaks of a controller after a 1 ms window, with what was held since the last one. -/
def Rail.peaksMs (b c d : Rat) (l : List Rat) (q : Rail) : List (Option Rat) :=
  [fold max (max b (l.getD 0 b)) (q.peaks.getD 0 none), fold min (min b (l.getD 1 b)) (q.peaks.getD 1 none),
   fold max (max c (l.getD 2 c)) (q.peaks.getD 2 none), fold max (max d (l.getD 3 d)) (q.peaks.getD 3 none),
   if q.ntcOn then fold max (max q.tempC (l.getD 4 q.tempC)) (q.peaks.getD 4 none) else q.peaks.getD 4 none]

/-- A controller after a 1 ms window. -/
def Rail.teleMs (a b c d : Rat) (l : List Rat) (q : Rail) : Rail :=
  { q with tele := [a, b, c, d] ++ q.tele.drop 4, peaks := q.peaksMs b c d l, cyc := { q.cyc with sagOut := q.cyc.sagOut || !nearRef q b } }

/-- A controller after a 1 s window, but for what the second ends. -/
def Rail.teleSecond (a b c d : Rat) (q : Rail) : Rail :=
  { q with tele := q.tele.take 4 ++ [a, b, c, d], cyc := { q.cyc with sagOut := q.cyc.sagOut || !nearRef q b } }

theorem exec_telemetryRefresh {rc : Nat} (a b iA iB fA fB d : Rat) (l : List Rat) {s : State} (hfree : keeperFree s = true)
    (hdev : s.keeper.dev ≠ .standby) (hdone : s.power.seqDone = true) :
    exec (.telemetryRefresh rc a b iA iB fA fB d l false) s =
      .next ((telePut rc 7 a b (railIOut (s.rail rc) iA iB fA fB) d s).modRail rc (Rail.teleMs a b (railIOut (s.rail rc) iA iB fA fB) d l)) ∧
    exec (.telemetryRefresh rc a b iA iB fA fB d l true) s = .next (railSecond rc b d
      ((telePut rc 11 a b (railIOut (s.rail rc) iA iB fA fB) d s).modRail rc (Rail.teleSecond a b (railIOut (s.rail rc) iA iB fA fB) d))) := by
  have hserves : (keeperFree s && s.keeper.dev != .standby && s.power.seqDone) = true := by simp [hfree, hdev, hdone]
  exact ⟨if_pos hserves, if_pos hserves⟩

theorem railSecond_tele (r : Nat) (v p : Rat) (s : State) {rc : Nat} : ((railSecond r v p s).rail rc).tele = (s.rail rc).tele := by
  unfold railSecond
  extract_lets q j kj s1 s2
  have hs1 : (s1.rail rc).tele = (s.rail rc).tele := by
    unfold s1
    rw [rail_life]
    exact modRail_related (R := fun x y => y.tele = x.tele) (fun _ => rfl) rfl rc
  have hs2 : (s2.rail rc).tele = (s1.rail rc).tele := by
    unfold s2
    split <;> rfl
  split
  · exact hs2.trans hs1
  · exact hs2.trans hs1

end Sys2Proof.Machine

open Sys2Proof Sys2Proof.Machine

/-- Settles O32: a sample by what it makes of the thermistor and of T_rc, RSYNC by what each controller meets, the rest from the rows' own effects.
That f_ref of a controller with its gates off is at its goal at once is the model's reading (log entry 59). -/
theorem railServiceRows : Obligations.RailServiceRows := by
  intro s
  refine ⟨fun rc ohm hrc henabled hmeasured hntc => ?sample, fun rc hrc hstate hmeasured hhot => ?overtemp,
    fun rc hrc hstate hcode huntested hcool hmay => ?restart, fun us hdone hpresent => ?acquired, fun r hsync => ?moves,
    fun last gap hlow hhigh hnear => exec_syncLost_within s hlow hhigh hnear, fun last gap edge hpresent hgone => ?lost,
    fun rc hrc hgates hdrawn => ⟨_, exec_railSpreadDraw hgates hdrawn, modRail_touchesRail s rc _, rfl, rail_modRail_self s _ hrc⟩,
    fun rc a b iA iB fA fB d l hrc hfree hdev hdone => ?telemetry⟩
  case sample =>
    obtain ⟨htouch, hstate⟩ := rcNtcSampled_frame hrc ohm (((takeNtc rc ohm s).rail rc).onZone || !((takeNtc rc ohm s).rail rc).readings.isEmpty) s
    exact ⟨_, exec_rcNtcSample ohm henabled hmeasured, htouch, hstate, fun hin => rcNtcSampled_joins hrc hntc hin rfl,
      fun hout hkind hlong hnew => rcNtcSampled_fails hrc hout hkind hlong hnew rfl⟩
  case overtemp =>
    obtain ⟨tstate, -, ttries, tleft⟩ := railFault_own hrc 0x700C [wordS (10 * (s.rail rc).tempC)] s
    exact ⟨_, exec_rcOvertemp hstate hmeasured hhot, railFault_touches _ _ _ _, tstate.trans (if_neg (by simp [railRetried])), railFault_code hrc _ _ _,
      ttries, tleft, fun k hk => railFault_others _ _ _ hk⟩
  case restart =>
    obtain ⟨htouch, tstate, -, ttries, tleft, -⟩ := railBegin_begins hrc ((s.rail rc).attempts + 1) (s.rail rc).retriesLeft s
    exact ⟨_, exec_rcOvertempRestart hstate hcode huntested hcool hmay, htouch, tstate, ttries, tleft⟩
  case acquired =>
    obtain ⟨htouch, hchans⟩ := forRails_frame meetSync_touchesRail 12 (rsyncSet true (1000000 / mean us) s)
    refine ⟨_, exec_syncAcquired hdone hpresent, htouch.rsync.1, htouch.rsync.2, hchans, fun r hr => ?_⟩
    obtain ⟨f, hf, hmet⟩ := syncAcquired_met (1000000 / mean us) s hr
    refine ⟨fun hdisabled => ?_, fun henabled => ?_⟩
    · rwa [hdisabled, SyncMet, if_neg (by decide)] at hmet
    · rw [henabled, SyncMet, if_pos rfl] at hmet
      by_cases hfits : 1000000 / mean us * 3 / 4 ≤ 1000 * s.ratv 0x07 r 1 ∧ 1000 * s.ratv 0x07 r 1 ≤ 1000000 / mean us * 5 / 4
      · rw [if_pos (by simpa using hfits)] at hmet
        rw [if_pos hfits]
        by_cases hlocked : (s.rail r).sync = 1 ∨ (s.rail r).sync = 2
        · rw [if_pos hlocked] at hmet ⊢
          exact hmet
        · rw [if_neg hlocked] at hmet ⊢
          obtain ⟨slip, hmet⟩ := hmet
          obtain ⟨hone, htwo⟩ := not_or.mp hlocked
          rw [hmet, Rail.synced, Rail.freqMoved]
          refine ⟨rfl, fun hgates => by simp [hgates], fun hgates => ?_⟩
          rw [if_pos hgates]
          exact ⟨rfl, hf hone htwo, rfl⟩
      · rw [if_neg (by simpa using hfits)] at hmet
        rw [if_neg hfits, hmet]
  case moves =>
    simp [fRef, hsync]
  case lost =>
    obtain ⟨htouch, hchans⟩ := forRails_frame loseSync_touchesRail 12 (rsyncSet false s.misc.rsyncHz s)
    exact ⟨_, exec_syncLost hpresent (syncGone_eq_true hgone), htouch.rsync.1, hchans, fun r hr => syncLost_rail s hr⟩
  case telemetry =>
    obtain ⟨hms, hsecond⟩ := exec_telemetryRefresh (rc := rc) a b iA iB fA fB d l hfree hdev hdone
    refine ⟨_, _, _, hms, hsecond, rfl, ⟨rfl, rfl, rfl, rfl⟩, ?_, rfl, ?_, ?_, fun h hpeak => ?_, rfl⟩
    · simp [Quiet, telePut]
    · rw [rail_modRail_self _ _ hrc]
      rfl
    · rw [railSecond_tele, rail_modRail_self _ _ hrc]
      rfl
    · rw [rail_modRail_self _ _ hrc]
      have hkept : fold max (max b (l.getD 0 b)) ((s.rail rc).peaks.getD 0 none) = some (max h (max b (l.getD 0 b))) := by rw [hpeak, fold]
      exact hkept
end

section
/-! PROOFS. The junctions and the periodic sensors of the Keeper (R384, R398, R433). -/

namespace Sys2Proof.Machine

/-! ### Junctions (R384, R433) -/

/-- The crossing of a junction is noted, and reported once. -/
def junctionNoted (die : Nat) (c : Rat) (s : State) : State :=
  if s.misc.junctionHot then s else ({ s with misc := { s.misc with junctionHot := true } } : State).raise 0x900C die [wordS (10 * c)]

/-- SAFE after a junction shutdown: the fall starts, and every test and an update end. -/
def junctionSafe (s : State) : State :=
  let s2 := abortTests (fun _ => true) 0xA011 (abandonUpdate (startFall s))
  enterSafe 6 3 { s2 with power := { s2.power with falling := true } }

/-- A junction above its limit counts while the supplies are up. -/
theorem exec_junctionShutdown {die : Nat} {c : Rat} {s : State} (hdie : die < 5) (hhot : junctionLimit < c) (hisland : s.power.islandReset = false)
    (hdone : s.power.seqDone = true) (hcounts : s.misc.junctionHot = false ∨ entersSafe s.keeper.dev = true) :
    exec (.junctionShutdown die c) s =
      .next (if entersSafe s.keeper.dev ∨ s.keeper.dev = .safe then junctionSafe (junctionNoted die c s) else junctionNoted die c s) := by
  have hcrossed : (!s.misc.junctionHot || entersSafe s.keeper.dev) = true := by rcases hcounts with h | h <;> simp [h]
  show execJunctionShutdown die c s = _
  unfold execJunctionShutdown
  dsimp only
  rw [if_pos (by simp [islandUp, hisland, hdone, hcrossed, hdie, hhot])]
  exact (apply_ite Host.Outcome.next _ _ _).symm

/-- What the note of a crossing changes besides the log. -/
theorem junctionNoted_reports (die : Nat) (c : Rat) (s : State) :
    Reports { s with misc := { s.misc with junctionHot := true } } (junctionNoted die c s) := by
  unfold junctionNoted
  split
  · rename_i hhot
    rw [← hhot]
    exact .rfl' _
  · exact raise_reports _ _ _ _

theorem junctionNoted_first {die : Nat} {c : Rat} {s : State} (h : s.misc.junctionHot = false) :
    junctionNoted die c s = ({ s with misc := { s.misc with junctionHot := true } } : State).raise 0x900C die [wordS (10 * c)] :=
  if_neg (by simp [h])

theorem setDev_safe_junctionHot (ev : Nat) (s : State) : (s.setDev .safe ev).misc.junctionHot = s.misc.junctionHot := by
  by_cases h : s.keeper.dev = .safe
  · rw [setDev_same ev h]
  · rw [setDev_changed ev h DevState.noConfusion, if_pos rfl]
    show (devChanged .safe ev s).misc.junctionHot = _
    rw [devChanged_reports]

theorem enterSafe_junctionHot (ev cause : Nat) (s : State) : (enterSafe ev cause s).misc.junctionHot = s.misc.junctionHot := by
  show ((safeChannels s).setDev .safe ev).misc.junctionHot = _
  rw [setDev_safe_junctionHot, safeChannels_eq]

theorem Touches.junctionHot {s t : State} (h : Touches s t) : t.misc.junctionHot = s.misc.junctionHot := by
  rw [h]

/-- SAFE after a junction shutdown, with its cause and the fall begun. -/
theorem junctionSafe_effects (s : State) : (junctionSafe s).keeper.dev = .safe ∧ 3 ∈ (junctionSafe s).keeper.safeCauses ∧
    (junctionSafe s).power.falling = true ∧ (junctionSafe s).misc.junctionHot = s.misc.junctionHot ∧ Quiet s (junctionSafe s) := by
  unfold junctionSafe
  extract_lets s2
  have hhot : s2.misc.junctionHot = s.misc.junctionHot := by
    refine (abortTests_touches _ _ _).junctionHot.trans ?_
    rw [startFall_eq]
    rfl
  refine ⟨enterSafe_dev _ _ _, enterSafe_cause _ _ _, by rw [enterSafe_power], (enterSafe_junctionHot _ _ _).trans hhot, ?_⟩
  simp [Quiet, s2]

theorem abortTests_none (p : Test → Bool) (code : Nat) {s : State} (h : s.tests.list = []) : abortTests p code s = s := by
  rw [abortTests, h]
  rfl

/-- Where no test ends with the shutdown, what was reported just before it is still there. -/
theorem raised_junctionSafe {code inst : Nat} {data : List Word} {s t : State} (hlog : t.log = (s.raise code inst data).log)
    (hcan : canLog t = canLog s) (htests : t.tests.list = []) (hcode : code ≠ 0x900D) : Raised code inst data s (junctionSafe t) := by
  have hfall := startFall_eq t
  unfold junctionSafe
  dsimp only
  rw [abortTests_none _ _ (by rw [hfall]; exact htests)]
  refine raised_enterSafe 6 3 ?_ ?_ hcode
  · rw [hfall]
    exact hlog
  · rw [hfall]
    exact hcan

/-! ### The periodic sensors (R384, R398) -/

theorem exec_keeperSensorSample_taken (l : List Rat) (v : Rat) (m x g : List Rat) {s : State} (hruns : firmwareRuns s = true)
    (hwithin : s.keeper.counterUs < s.misc.secondAt) : exec (.keeperSensorSample l v m x g) s = .next { s with
      power := { s.power with vbus := v }
      misc := { s.misc with
        junction := l, supplies := m, srefs := x, rings := g, junctionEp := s.misc.junctionEp && !decide (maxRat l ≤ s.ratv 0x01 0 0xB - 5)
        junctionHot := s.misc.junctionHot && decide (125 ≤ maxRat l) } } := by
  show execKeeperSensorSample l v m x g s = _
  unfold execKeeperSensorSample
  dsimp only
  rw [if_pos hruns, if_neg (by omega)]

end Sys2Proof.Machine

open Sys2Proof Sys2Proof.Machine

/-- Settles O27: a shutdown by the state it is found in, the sample by what it keeps. That the cause of a junction shutdown is gone below 125 °C
is the model's reading (log entry 15). -/
theorem keeperSensorRows : Obligations.KeeperSensorRows := by
  intro s
  refine ⟨fun die c hdie hhot hisland hdone hdev => ?shutdown, fun die c hdie hhot hisland hdone hfirst hdev => ?alone,
    fun die c hlog hfirst hwarm => ⟨_, exec_junctionWarn die hlog hfirst hwarm, raise_reports _ _ _ _, (raise_raised _ _ _ _).of_log rfl rfl⟩,
    fun l v m x g hruns hwithin => exec_keeperSensorSample_taken l v m x g hruns hwithin,
    fun _ hfree => ⟨_, if_pos hfree, rfl, refresh_frame s⟩⟩
  case shutdown =>
    have hcounts : (s.misc.junctionHot = false ∨ entersSafe s.keeper.dev = true) ∧ (entersSafe s.keeper.dev = true ∨ s.keeper.dev = .safe) := by
      rcases hdev with h | h | h | ⟨h, hfirst⟩
      · exact ⟨.inr (by rw [h]; rfl), .inl (by rw [h]; rfl)⟩
      · exact ⟨.inr (by rw [h]; rfl), .inl (by rw [h]; rfl)⟩
      · exact ⟨.inr (by rw [h]; rfl), .inl (by rw [h]; rfl)⟩
      · exact ⟨.inl hfirst, .inr h⟩
    have hnoted := junctionNoted_reports die c s
    obtain ⟨tdev, tcause, tfall, thot, tquiet⟩ := junctionSafe_effects (junctionNoted die c s)
    refine ⟨_, (exec_junctionShutdown hdie hhot hisland hdone hcounts.1).trans (congrArg Host.Outcome.next (if_pos hcounts.2)), tdev, tcause, tfall,
      thot.trans hnoted.touches.junctionHot, Quiet.trans hnoted.quiet tquiet, fun hfirst htests => ?_⟩
    have hraised : Raised 0x900C die [wordS (10 * c)] { s with misc := { s.misc with junctionHot := true } } (junctionSafe (junctionNoted die c s)) :=
      raised_junctionSafe (by rw [junctionNoted_first hfirst]) (canLog_congr hnoted.keeper) (by rw [hnoted]; exact htests) (by decide)
    exact hraised.of_log rfl rfl
  case alone =>
    have hstays : ¬(entersSafe s.keeper.dev = true ∨ s.keeper.dev = .safe) := by rcases hdev with h | h <;> rw [h] <;> decide
    refine ⟨_, (exec_junctionShutdown hdie hhot hisland hdone (.inl hfirst)).trans (congrArg Host.Outcome.next (if_neg hstays)), junctionNoted_reports die c s, ?_⟩
    rw [junctionNoted_first hfirst]
    exact (raise_raised _ _ _ _).of_log rfl rfl
end

section
/-! PROOFS. SELF_TEST starts a requested test, INJECT sets one injector (R406, R407, R410, R411). -/

namespace Sys2Proof.Machine

/-! ### One injector -/

@[simp] theorem inj_modInj_self (s : State) {k : Nat} (f : Injector → Injector) (h : k < 65) : (s.modInj k f).inj k = f (s.inj k) := by
  simp [State.modInj, State.inj, h]

@[simp] theorem inj_modInj_other (s : State) {k j : Nat} (f : Injector → Injector) (h : j ≠ k) : (s.modInj k f).inj j = s.inj j := by
  simp [State.modInj, State.inj, Vector.getElem?_setIfInBounds_ne (Ne.symm h)]

theorem Reports.inj {s t : State} (h : Reports s t) (k : Nat) : t.inj k = s.inj k := by rw [h]; rfl

/-- From `s` to `t` only the requested tests and the injectors, the log, its counts, interrupt bits and sent notices may differ. -/
def TestsOnly (s t : State) : Prop := Reports { s with tests := t.tests } t

theorem injClear_testsOnly (cause k : Nat) (s : State) : TestsOnly s (injClear cause k s) := by
  unfold injClear
  split
  · exact .rfl' _
  · have hraised := raise_reports 0xA005 (injInst k) [word cause] (s.modInj k fun j => { heldPkt := j.heldPkt })
    unfold TestsOnly
    rw [hraised]
    rfl

/-- A cleared injector has no action; the others stand. -/
theorem injClear_inj (cause : Nat) {k : Nat} (hk : k < 65) (s : State) : ((injClear cause k s).inj k).action = 0 ∧
    ∀ j, j ≠ k → (injClear cause k s).inj j = s.inj j := by
  unfold injClear
  split
  · rename_i hnone
    exact ⟨hnone, fun _ _ => rfl⟩
  · simp only [(raise_reports _ _ _ _).inj, inj_modInj_self _ _ hk, true_and]
    exact fun j hj => inj_modInj_other _ _ hj

theorem injectorOf_lt {b : Bank} {stream side k : Nat} (h : injectorOf b stream side = some k) : k < 65 := by
  unfold injectorOf at h
  split at h
  · split at h
    · cases h
      omega
    · cases h
  · split at h
    · rename_i hin
      cases h
      omega
    · cases h

theorem setInjector_testsOnly (k stream side action mode ppm burst : Nat) (s : State) :
    TestsOnly s (setInjector k stream side action mode ppm burst s) := by
  unfold setInjector
  extract_lets q tests s1 seed
  have hs1 : TestsOnly s s1 := rfl
  split
  · have hcleared := injClear_testsOnly 1 k s1
    unfold TestsOnly at *
    rw [hcleared]
    rfl
  · have hraised := raise_reports 0xA004 stream [word side, word action, word mode, word (if mode = 0 then ppm else if mode = 2 then burst else 0), word seed]
      (s1.modInj k fun j => { heldPkt := j.heldPkt, action := action, mode := mode, ppm := ppm, left := burst, lfsr := seed })
    unfold TestsOnly
    rw [hraised]
    rfl

/-- An injector is set: its own fields by the arguments, the others stand. -/
theorem setInjector_inj {k action : Nat} (hk : k < 65) (haction : action ≠ 0) (stream side mode ppm burst : Nat) (s : State) :
    ∃ j : Injector, (setInjector k stream side action mode ppm burst s).inj k = j ∧ j.action = action ∧ j.mode = mode ∧ j.ppm = ppm ∧ j.left = burst ∧
      ∀ n, n ≠ k → (setInjector k stream side action mode ppm burst s).inj n = s.inj n := by
  unfold setInjector
  extract_lets q tests s1 seed
  rw [if_neg haction]
  simp only [(raise_reports _ _ _ _).inj]
  exact ⟨_, inj_modInj_self _ _ hk, rfl, rfl, rfl, rfl, fun n hn => inj_modInj_other _ _ hn⟩

/-- Action 0 clears an injector; the others stand. -/
theorem setInjector_cleared {k : Nat} (hk : k < 65) (stream side mode ppm burst : Nat) (s : State) :
    ((setInjector k stream side 0 mode ppm burst s).inj k).action = 0 ∧
    ∀ n, n ≠ k → (setInjector k stream side 0 mode ppm burst s).inj n = s.inj n :=
  injClear_inj 1 hk _

theorem TestsOnly.fields {s t : State} (h : TestsOnly s t) : t.cfg = s.cfg ∧ t.chans = s.chans ∧ t.streams = s.streams := by
  rw [h]
  exact ⟨rfl, rfl, rfl⟩

theorem exec_inject {i stream side action mode ppm burst k : Nat} {s : State} (hserved : Served i 0x52 s) (hstream : leAt (reqOf s i).payload 0 2 = stream)
    (hside : leAt (reqOf s i).payload 2 1 = side) (haction : leAt (reqOf s i).payload 3 1 = action) (hmode : leAt (reqOf s i).payload 4 1 = mode)
    (hppm : leAt (reqOf s i).payload 8 4 = ppm) (hburst : leAt (reqOf s i).payload 12 2 = burst) (hopen : unlocked s.cfg.active = true)
    (hinj : injectorOf s.cfg.active stream side = some k) (hactions : action ≤ 3) (hmodes : mode ≤ 2 ∨ action = 0) (hppms : ppm ≤ 1000000)
    (hbursts : mode = 2 → burst ≠ 0) :
    exec (.inject i) s = .next (reply i (reqOf s i) stOk [] (setInjector k stream side action mode ppm burst (take i s))) := by
  show execInject i s = _
  rw [execInject, serve_served hserved]
  refine congrArg Host.Outcome.next ?_
  dsimp only
  rw [hstream, hside, haction, hmode, hppm, hburst, if_neg (by simp [take, hopen]),
    show injectorOf (take i s).cfg.active stream side = some k from hinj]
  exact if_neg (by omega)

/-! ### A test starts (R406) -/

theorem testStatus_take (id inst : Nat) (force : Bool) (args : List Byte) (i : Nat) (s : State) :
    testStatus id inst force args (take i s) = testStatus id inst force args s := rfl

theorem exec_selfTest {i : Nat} {s : State} (hserved : Served i 0x50 s)
    (hok : testStatus (leAt (reqOf s i).payload 0 2) (leAt (reqOf s i).payload 2 2) (reqOf s i).force ((reqOf s i).payload.drop 4) s = stOk) :
    exec (.selfTest i) s = .next (reply i (reqOf s i) stAccepted (le 4 s.tests.next)
      (startTest (leAt (reqOf s i).payload 0 2) (leAt (reqOf s i).payload 2 2) (leAt ((reqOf s i).payload.drop 4) 0 4) (reqOf s i).force (take i s))) := by
  show execSelfTest i s = _
  rw [execSelfTest, serve_served hserved]
  exact congrArg Host.Outcome.next (if_pos ((testStatus_take _ _ _ _ i s).trans hok))

/-- A test without a unit to prepare is listed in progress under the next ticket. -/
theorem startTest_lists {id : Nat} (hid : id = 4 ∨ id = 6) (inst arg : Nat) (force : Bool) (s : State) :
    (startTest id inst arg force s).tests.next = s.tests.next + 1 ∧
    ∃ u ∈ (startTest id inst arg force s).tests.list, u.ticket = s.tests.next ∧ u.state = 0 ∧ u.id = id ∧ u.inst = inst := by
  have hlisted : (startTest id inst arg force s).tests.next = s.tests.next + 1 ∧
      ({ ticket := s.tests.next, id := id, inst := inst, arg := arg, force := force && forceActs id inst s } : Test) ∈
        (startTest id inst arg force s).tests.list := by
    rcases hid with rfl | rfl
    · exact ⟨rfl, List.mem_append_right _ (List.mem_singleton.mpr rfl)⟩
    · exact ⟨rfl, List.mem_append_right _ (List.mem_singleton.mpr rfl)⟩
  exact ⟨hlisted.1, _, hlisted.2, rfl, rfl, rfl, rfl⟩

end Sys2Proof.Machine

open Sys2Proof Sys2Proof.Machine

/-- Settles O14: the test and the injector as their commands are served, whatever the mode (log entry 48). -/
theorem testAndInjectCommands : Obligations.TestAndInjectCommands := by
  intro i s
  refine ⟨fun hserved hok => exec_selfTest hserved hok, fun id inst arg force hid => startTest_lists hid inst arg force s,
    fun stream side action mode ppm burst k hserved hstream hside haction hmode hppm hburst hopen hinj hsome hactions hmodes hppms hbursts => ?sets,
    fun stream side k hserved hstream hside haction hppms hbursts hopen hinj => ?clears⟩
  case sets =>
    obtain ⟨hcfg, hchans, hstreams⟩ := (setInjector_testsOnly k stream side action mode ppm burst (take i s)).fields
    obtain ⟨j, hj, jaction, jmode, jppm, jleft, hothers⟩ :=
      setInjector_inj (action := action) (injectorOf_lt hinj) (by omega) stream side mode ppm burst (take i s)
    subst hj
    exact ⟨_, exec_inject hserved hstream hside haction hmode hppm hburst hopen hinj hactions (.inl hmodes) hppms hbursts, hcfg, hchans, hstreams,
      jaction, jmode, jppm, jleft, hothers⟩
  case clears =>
    obtain ⟨hcfg, hchans, -⟩ := (setInjector_testsOnly k stream side 0 (leAt (reqOf s i).payload 4 1) (leAt (reqOf s i).payload 8 4)
      (leAt (reqOf s i).payload 12 2) (take i s)).fields
    obtain ⟨hcleared, hothers⟩ := setInjector_cleared (injectorOf_lt hinj) stream side (leAt (reqOf s i).payload 4 1) (leAt (reqOf s i).payload 8 4)
      (leAt (reqOf s i).payload 12 2) (take i s)
    exact ⟨_, exec_inject hserved hstream hside haction rfl rfl rfl hopen hinj (by omega) (.inr rfl) hppms hbursts, hcfg, hchans, hcleared, hothers⟩
end

section
/-! PROOFS. What follows the mode of a pair, the link, sent frames and beacons, and an abandoned commit (R357 to R363, R368, R376). -/

namespace Sys2Proof.Machine

/-! ### The mode of a pair (R358, R379) -/

/-- Two values of the twin state of which only what the effective mode and the pauses set may differ. -/
def ModeOf (a b : Twin) : Prop :=
  b = { a with
    paused := b.paused, goodSince := b.goodSince, effShared := b.effShared, adoptDue := b.adoptDue, adoptGot := b.adoptGot, adoptRaise := b.adoptRaise
    badDigests := b.badDigests, muted := b.muted, runBlock := b.runBlock, runMap := b.runMap, theirRunBlock := b.theirRunBlock
    theirRunMap := b.theirRunMap }

theorem ModeOf.rfl' (a : Twin) : ModeOf a a := rfl

theorem ModeOf.trans {a b c : Twin} (h : ModeOf a b) (k : ModeOf b c) : ModeOf a c := by
  unfold ModeOf at *
  rw [k, h]

/-- From `s` to `t` the mode of the pair has moved, and channels may have stopped; a channel in OFF stays there. -/
def ModeMoved (s t : State) : Prop :=
  Touches { s with twin := t.twin } t ∧ ModeOf s.twin t.twin ∧ t.rails = s.rails ∧
  ∀ c, c < 208 → (s.chan c).fsm.state = .off → (t.chan c).fsm.state = .off

theorem ModeMoved.rfl' (s : State) : ModeMoved s s := ⟨.rfl' _, .rfl' _, rfl, fun _ _ h => h⟩

theorem ModeMoved.trans {s t u : State} (h : ModeMoved s t) (k : ModeMoved t u) : ModeMoved s u := by
  obtain ⟨htouch, hmode, hrails, hoff⟩ := h
  obtain ⟨ktouch, kmode, krails, koff⟩ := k
  refine ⟨?_, hmode.trans kmode, krails.trans hrails, fun c hc h => koff c hc (hoff c hc h)⟩
  unfold Touches at *
  rw [ktouch, htouch]

theorem ModeMoved.of_twin {s : State} {w : Twin} (h : ModeOf s.twin w) : ModeMoved s { s with twin := w } := ⟨.rfl' _, h, rfl, fun _ _ hoff => hoff⟩

/-- Channels that stop leave the twin state. -/
theorem ModeMoved.of_touches {s t : State} (h : Touches s t) (hrails : t.rails = s.rails)
    (hoff : ∀ c, c < 208 → (s.chan c).fsm.state = .off → (t.chan c).fsm.state = .off) : ModeMoved s t := by
  have htwin : t.twin = s.twin := by rw [h]
  refine ⟨?_, ?_, hrails, hoff⟩
  · rwa [htwin]
  · rw [htwin]
    exact .rfl' _

theorem ModeMoved.quiet {s t : State} (h : ModeMoved s t) : Quiet s t := by
  obtain ⟨htouch, -⟩ := h
  exact htouch.quiet

/-- What a moved mode leaves of the keeper, the media clock and the PTP state. -/
theorem ModeMoved.fields {s t : State} (h : ModeMoved s t) : t.keeper = s.keeper ∧ t.media = s.media ∧ t.ptp = s.ptp ∧ t.cfg = s.cfg := by
  obtain ⟨htouch, -⟩ := h
  rw [htouch]
  exact ⟨rfl, rfl, rfl, rfl⟩

theorem wantShadow_mode (raise : Bool) (w : Twin) : ModeOf w (wantShadow raise w) := by
  unfold wantShadow
  split <;> rfl

theorem unshare_moved (s : State) : ModeMoved s (unshare s) :=
  ⟨rfl, rfl, rfl, fun c hc h => by rwa [unshare_state hc]⟩

theorem forUnits_requestStop_moved (s : State) : ModeMoved s (forUnits 208 (requestStop · false) s) := by
  have hchans := forUnits_chans (n := 208) (f := (requestStop · false)) s fun c u => requestStop_eq c false u
  refine .of_touches (forUnits_touches (fun c u => requestStop_touches c false u) 208 s) (by rw [hchans]) fun c _ h => ?_
  exact forUnits_invariant (P := fun u => (u.chan c).fsm.state = .off) (fun k u hu => (requestStop_state k false u c).trans hu) 208 h

theorem judgeMode_moved (s : State) : ModeMoved s (judgeMode s) := by
  unfold judgeMode
  split
  · exact .rfl' s
  extract_lets now ended s1
  have hended : ModeMoved s s1 := (ModeMoved.of_twin (w := ended) rfl).trans (unshare_moved _)
  split
  · exact .rfl' s
  split
  · exact .of_twin ((show ModeOf s.twin { s.twin with effShared := true } from rfl).trans (wantShadow_mode false _))
  split
  · exact hended.trans (forUnits_requestStop_moved s1)
  · exact hended

/-- The effective mode raises nothing. -/
theorem judgeMode_log (s : State) : (judgeMode s).log = s.log := by
  unfold judgeMode
  split
  · rfl
  extract_lets now ended s1
  split
  · rfl
  split
  · rfl
  split
  · rw [forUnits_chans (n := 208) (f := (requestStop · false)) s1 fun c u => requestStop_eq c false u]
    rfl
  · rfl

theorem raise_moved (code inst : Nat) (data : List Word) (s : State) : ModeMoved s (s.raise code inst data) :=
  .of_touches (raise_reports _ _ _ _).touches (by rw [raise_reports]) fun c _ h => by rwa [(raise_reports _ _ _ _).chan]

theorem dropChannels_touches (s : State) : Touches s (dropChannels s) ∧ (dropChannels s).rails = s.rails := by
  have heq : dropChannels s = { s with chans := (dropChannels s).chans, pwm := (dropChannels s).pwm, free := (dropChannels s).free } := allOff_eq s
  rw [heq]
  exact ⟨rfl, rfl⟩

theorem dropChannels_off (s : State) {c : Nat} (hc : c < 208) : ((dropChannels s).chan c).fsm.state = .off := allOff_chan s hc

theorem dropChannels_moved (s : State) : ModeMoved s (dropChannels s) := by
  obtain ⟨htouch, hrails⟩ := dropChannels_touches s
  exact .of_touches htouch hrails fun c hc _ => dropChannels_off s hc

theorem pauseSharing_moved (s : State) : ModeMoved s (pauseSharing s) := by
  unfold pauseSharing
  split
  · exact .rfl' s
  extract_lets w s1
  have hpaused : ModeMoved s s1 := ⟨rfl, rfl, rfl, fun _ _ h => h⟩
  split
  · exact ((hpaused.trans (raise_moved _ _ _ s1)).trans (dropChannels_moved _)).trans (judgeMode_moved _)
  · exact hpaused.trans (judgeMode_moved s1)

theorem pauseTime_moved (s : State) : ModeMoved s (pauseTime s) := (ModeMoved.of_twin (w := { s.twin with goodSince := none }) rfl).trans (pauseSharing_moved _)

theorem ModeOf.stands {a b : Twin} (h : ModeOf a b) : b.role = a.role ∧ b.link = a.link ∧ b.paired = a.paired ∧ b.epoch = a.epoch := by
  rw [h]
  exact ⟨rfl, rfl, rfl, rfl⟩

/-! ### The link (R359) -/

/-- The link comes up: the mode is judged again, and the FOLLOW of a pair that shares wants the shadows. -/
def linkedUp (s : State) : State :=
  let s1 := judgeMode (({ s with twin := { s.twin with link := true, badDigests := 0 } } : State).raise 0x8002 0 [])
  if s.twin.effShared && s1.twin.effShared then { s1 with twin := wantShadow false s1.twin } else s1

theorem exec_peerLinkUp {s : State} (hlive : fzLive s = true) (hdown : s.twin.link = false) (hvalid : 3 ≤ s.twin.beaconsOk) :
    exec .peerLinkUp s = .next (linkedUp s) := by
  show execPeerLinkUp s = _
  unfold execPeerLinkUp
  rw [if_pos (by simp [hlive, hdown, hvalid])]
  rfl

theorem linkedUp_effects (s : State) : (linkedUp s).twin.link = true ∧ (linkedUp s).twin.role = s.twin.role ∧ Quiet s (linkedUp s) ∧
    Raised 0x8002 0 [] s (linkedUp s) ∧ (linkedUp s).rails = s.rails := by
  have hjudged : ModeMoved { s with twin := { s.twin with link := true, badDigests := 0 } }
      (judgeMode (({ s with twin := { s.twin with link := true, badDigests := 0 } } : State).raise 0x8002 0 [])) :=
    (raise_moved _ _ _ _).trans (judgeMode_moved _)
  have hraised : Raised 0x8002 0 [] s (judgeMode (({ s with twin := { s.twin with link := true, badDigests := 0 } } : State).raise 0x8002 0 [])) :=
    ((raise_raised 0x8002 0 [] _).to_log (judgeMode_log _)).of_log rfl rfl
  unfold linkedUp
  extract_lets w s1
  have hmoved : ModeMoved { s with twin := { s.twin with link := true, badDigests := 0 } }
      (if s.twin.effShared && s1.twin.effShared then { s1 with twin := wantShadow false s1.twin } else s1) := by
    split
    · exact hjudged.trans (.of_twin (wantShadow_mode false _))
    · exact hjudged
  obtain ⟨hrole, hlink, -⟩ := hmoved.2.1.stands
  refine ⟨hlink, hrole, hmoved.quiet, ?_, hmoved.2.2.1⟩
  split
  · exact hraised.to_log rfl
  · exact hraised

/-- The link is lost: no role and no mode changes. -/
theorem linkDown_effects {s : State} (hup : s.twin.link = true) : (linkDown s).twin.link = false ∧ (linkDown s).twin.role = s.twin.role ∧
    (linkDown s).twin.effShared = s.twin.effShared ∧ (linkDown s).twin.beaconsOk = 0 ∧ Raised 0x8001 0 [] s (linkDown s) ∧
    (linkDown s).chans = s.chans ∧ (linkDown s).rails = s.rails := by
  unfold linkDown
  extract_lets w
  rw [if_pos hup]
  refine ⟨?_, ?_, ?_, ?_, (raise_raised _ _ _ _).of_log rfl rfl, ?_, ?_⟩ <;> rw [raise_reports] <;> rfl

/-! ### Sent frames (R360, R361, R376) -/

/-- One frame of type `ty` with `body` goes to the transmitter with its own sequence number. -/
def FrameSent (ty idx : Nat) (body : List Byte) (s t : State) : Prop :=
  Quiet s t ∧ t.twin.seqs = s.twin.seqs.set (ty - 1) (s.twin.seqs.getD (ty - 1) 0 + 1) ∧
  t.misc.sent = s.misc.sent ++ [⟨3, 0, 0, fzBytes ty (bit (s.twin.role == .lead) 0 + bit s.twin.effShared 1) idx (s.twin.seqs.getD (ty - 1) 0) body⟩] ∧
  (ty ≠ 1 → t.chans = s.chans) ∧ ∀ c, (t.chan c).fsm = (s.chan c).fsm

/-- A frame is sent from a state that differs from `s` in free values, what is prepared for a run block or a model turn, and what the share
correction holds. -/
def Prepares (ty : Nat) (s u : State) : Prop :=
  u = { s with
    chans := u.chans, free := u.free
    twin := { s.twin with runBlock := u.twin.runBlock, runMap := u.twin.runMap, modelNext := u.twin.modelNext } } ∧
  (ty ≠ 1 → u.chans = s.chans) ∧ ∀ c, (u.chan c).fsm = (s.chan c).fsm

theorem Prepares.rfl' (ty : Nat) (s : State) : Prepares ty s s := ⟨rfl, fun _ => rfl, fun _ => rfl⟩

theorem fzSend_sent {ty : Nat} {s u : State} (h : Prepares ty s u) (idx : Nat) (body : List Byte) : FrameSent ty idx body s (fzSend ty idx body u) := by
  obtain ⟨heq, hchans, hfsm⟩ := h
  refine ⟨?_, ?_, ?_, hchans, hfsm⟩
  · refine Quiet.trans (t := u) ?_ (fzSend_frame ty idx body u)
    rw [heq]
    exact ⟨rfl, rfl, rfl, rfl⟩
  · rw [heq]
    rfl
  · rw [heq]
    rfl

theorem foldl_share_fsm {α : Type} (f : α → Share → Share) (p : α → Bool) (ch : α → Nat) (l : List α) (s : State) :
    l.foldl (fun s x => if p x then s.modShare (ch x) (f x) else s) s =
      { s with chans := (l.foldl (fun s x => if p x then s.modShare (ch x) (f x) else s) s).chans } ∧
    ∀ c, ((l.foldl (fun s x => if p x then s.modShare (ch x) (f x) else s) s).chan c).fsm = (s.chan c).fsm := by
  refine foldl_invariant (P := fun t : State => t = { s with chans := t.chans } ∧ ∀ c, (t.chan c).fsm = (s.chan c).fsm) (fun t x ⟨heq, hfsm⟩ => ?_) l
    ⟨rfl, fun _ => rfl⟩
  split
  · refine ⟨?_, fun c => ?_⟩
    · rw [heq]
      rfl
    · exact (modChan_related (R := fun a b => b.fsm = a.fsm) (fun _ => rfl) rfl c).trans (hfsm c)
  · exact ⟨heq, hfsm⟩

theorem keepOwn_prepares (sense : List SensePair) (m : Nat) (s : State) : Prepares 1 s (keepOwn sense m s) := by
  obtain ⟨heq, hfsm⟩ := foldl_share_fsm (fun p : SensePair => (·.takeOwn (m, p.i))) (·.valid) (·.ch) sense s
  refine ⟨?_, fun h => absurd rfl h, hfsm⟩
  rw [show keepOwn sense m s = _ from heq]

theorem nameRun_prepares (ty : Nat) (s : State) : Prepares ty s (nameRun s) := by
  unfold nameRun
  split
  · exact .rfl' ty s
  · extract_lets l d
    split
    · exact .rfl' ty s
    · exact ⟨rfl, fun _ => rfl, fun _ => rfl⟩

theorem exec_peerFrameSend_sample {s : State} {pairs sense : List SensePair} {idx : Nat} (hlive : fzLive s = true) (hlock : s.media.locked = true)
    (hsense : sense = pairs.map (marked s)) (hlink : s.twin.link = true) (hidx : idx = (sense.head?.map (·.n)).getD (s.media.index - 3)) :
    exec (.peerFrameSend 1 pairs) s = .next (fzSend 1 idx (sampleBody sense idx s) (keepOwn sense idx s)) := by
  subst hsense hidx
  show execPeerFrameSend 1 pairs s = _
  unfold execPeerFrameSend
  dsimp only
  rw [if_neg (by simp [hlive, hlock])]
  exact if_pos hlink

theorem exec_peerFrameSend_block {s : State} (pairs : List SensePair) (hlive : fzLive s = true) (hlock : s.media.locked = true)
    (hlink : s.twin.link = true) : exec (.peerFrameSend 2 pairs) s = .next (fzSend 2 (8 * winK s) (blockBody (nameRun s)) (nameRun s)) := by
  show execPeerFrameSend 2 pairs s = _
  unfold execPeerFrameSend
  dsimp only
  rw [if_neg (by simp [hlive, hlock])]
  exact if_pos hlink

theorem exec_peerFrameSend_model {s : State} (pairs : List SensePair) (hlive : fzLive s = true) (hlock : s.media.locked = true)
    (hlink : s.twin.link = true) (hlead : s.twin.role = .lead) (hsome : modelledChans s.cfg.active ≠ []) : exec (.peerFrameSend 3 pairs) s = .next
      (fzSend 3 (8 * (s.media.index / 8)) ((modelTurn s).flatMap fun c => shadowEntry s c (s.media.index / 8))
        { s with twin := { s.twin with modelNext := (s.twin.modelNext + 8) % (modelledChans s.cfg.active).length } }) := by
  show execPeerFrameSend 3 pairs s = _
  unfold execPeerFrameSend
  dsimp only
  rw [if_neg (by simp [hlive, hlock])]
  exact if_pos (by simp [hlink, hlead, hsome])

theorem exec_peerFrameSend_beacon {s : State} (pairs : List SensePair) (hlive : fzLive s = true) (hlock : s.media.locked = true)
    (hblock : s.media.index / 8 % 12 = 0) : exec (.peerFrameSend 4 pairs) s = .next (fzSend 4 (8 * (s.media.index / 8)) (beacon s) s) := by
  show execPeerFrameSend 4 pairs s = _
  unfold execPeerFrameSend
  dsimp only
  rw [if_neg (by simp [hlive, hlock])]
  exact if_pos hblock

theorem exec_peerFrameSend_epoch {s : State} (pairs : List SensePair) {body : List Byte} (hlive : fzLive s = true) (hlock : s.media.locked = true)
    (hlink : s.twin.link = true) (hown : s.twin.own.map epochBody = some body) :
    exec (.peerFrameSend 5 pairs) s = .next (fzSend 5 (8 * (s.media.index / 8)) body s) := by
  obtain ⟨p, hp, hbody⟩ := Option.map_eq_some_iff.mp hown
  show execPeerFrameSend 5 pairs s = _
  unfold execPeerFrameSend
  dsimp only
  rw [if_neg (by simp [hlive, hlock]), hp, ← hbody]
  exact if_pos hlink

theorem exec_peerFrameSend_time {s : State} (pairs : List SensePair) (hlive : fzLive s = true) (hlock : s.media.locked = true)
    (hlink : s.twin.link = true) : exec (.peerFrameSend 6 pairs) s =
      .next (fzSend 6 (8 * (s.media.index / 8)) (le 8 s.ptp.timeNs ++ le 8 s.twin.t1Last ++ le 8 s.twin.t2Last) s) := by
  show execPeerFrameSend 6 pairs s = _
  unfold execPeerFrameSend
  dsimp only
  rw [if_neg (by simp [hlive, hlock])]
  exact if_pos hlink

/-! ### The network beacon (R363) -/

/-- The network beacon on one port, where it is enabled and its link is up. -/
def beaconOn (g p : Nat) (s : State) : State := if s.cfg.active.portOn p && (s.port p).up then s.send ⟨p, g, 30209, beacon s⟩ else s

theorem exec_networkBeaconSend {s : State} {g : Nat} (hgroup : pairGroup s.cfg.active = some g) (hlock : s.media.locked = true)
    (hlog : canLog s = true) (hblock : s.media.index / 8 % 1200 = 0) : exec .networkBeaconSend s = .next (beaconOn g 1 (beaconOn g 0 s)) := by
  show execNetworkBeaconSend s = _
  unfold execNetworkBeaconSend
  rw [hgroup]
  dsimp only
  rw [if_pos (by simp [hlock, hlog, hblock])]
  exact congrArg Host.Outcome.next ((forUnits_succ 1 (beaconOn g) s).trans (by rw [forUnits_succ, forUnits_zero]))

/-- The frames of one port join those sent; the rest of the state stands but for the counters. -/
theorem beaconOn_sent (g p : Nat) (s : State) : beaconOn g p s = { s with
      misc := { s.misc with sent := (beaconOn g p s).misc.sent }, counters := (beaconOn g p s).counters } ∧
    (beaconOn g p s).misc.sent =
      s.misc.sent ++ ([p].filter fun p => s.cfg.active.portOn p && (s.port p).up).map fun p => ⟨p, g, 30209, beacon s⟩ := by
  unfold beaconOn
  split
  · rename_i hup
    rw [List.filter_cons_of_pos (by simpa using hup)]
    refine ⟨?_, ?_⟩
    · unfold State.send
      dsimp only
      split <;> rfl
    · unfold State.send
      dsimp only
      split <;> rfl
  · rename_i hup
    rw [List.filter_cons_of_neg (by simpa using hup)]
    exact ⟨rfl, (List.append_nil _).symm⟩

/-! ### An abandoned commit (R368) -/

theorem exec_commitAbandoned {s : State} {c : Commit} (hruns : s.keeper.halted = false) (hcommit : s.cfg.commit = some c)
    (hepoch : c.epoch.isSome = true) (hfirst : c.k0 = none) (halone : matched s.twin = false) :
    exec .commitAbandoned s = .next (abandonCommit 1 s) := by
  show execCommitAbandoned s = _
  unfold execCommitAbandoned
  rw [hcommit]
  exact if_pos (by simp [hruns, hepoch, hfirst, halone])

theorem abandonCommit_chans (cause : Nat) (s : State) : (abandonCommit cause s).chans = s.chans := by
  unfold abandonCommit
  split
  · extract_lets ep named k w src s1
    have hk : k.2.chans = s.chans := by
      unfold k
      cases named <;> rfl
    rw [raise_reports, (commitRecord_fields _ _ _ _ _).1]
    exact hk
  · rfl

/-! ### Lanes without data (R57, R359) -/

/-- Of a channel only the queue of the PEER domain differs; it holds 8 at most. -/
def Queued (a b : Chan) : Prop :=
  b = { a with share := { a.share with toPeer := b.share.toPeer, peerDrops := b.share.peerDrops } } ∧
  (a.share.toPeer.length ≤ 8 → b.share.toPeer.length ≤ 8)

theorem Queued.rfl' (a : Chan) : Queued a a := ⟨rfl, id⟩

theorem Queued.trans {a b c : Chan} (h : Queued a b) (k : Queued b c) : Queued a c := by
  obtain ⟨heq, hle⟩ := h
  obtain ⟨keq, kle⟩ := k
  exact ⟨by rw [keq, heq], fun h => kle (hle h)⟩

theorem queuePeer_queued (e : Nat × Int) (a : Chan) : Queued a { a with share := a.share.queuePeer e } := by
  unfold Share.queuePeer
  split
  · exact ⟨rfl, id⟩
  · rename_i hroom
    refine ⟨rfl, fun _ => ?_⟩
    dsimp only
    rw [List.length_append, List.length_singleton]
    omega

/-- Where the lanes carry no data the own currents wait, each in the queue of its channel. -/
theorem waitOwn_queued (sense : List SensePair) (m : Nat) (s : State) : waitOwn sense m s = { s with chans := (waitOwn sense m s).chans } ∧
    ∀ c, Queued (s.chan c) ((waitOwn sense m s).chan c) := by
  unfold waitOwn
  refine foldl_invariant (P := fun t : State => t = { s with chans := t.chans } ∧ ∀ c, Queued (s.chan c) (t.chan c)) (fun t p ⟨heq, hqueued⟩ => ?_) sense
    ⟨rfl, fun _ => .rfl' _⟩
  split
  · refine ⟨?_, fun c => (hqueued c).trans (modChan_related (R := Queued) .rfl' (queuePeer_queued _ _) c)⟩
    rw [heq]
    rfl
  · exact ⟨heq, hqueued⟩

theorem exec_peerFrameSend_dead {s : State} (hdead : fzLive s = false) (ty : Nat) (pairs : List SensePair) : exec (.peerFrameSend ty pairs) s =
    .next (if ty = 1 ∧ s.media.locked then
      waitOwn (pairs.map (marked s)) (((pairs.map (marked s)).head?.map (·.n)).getD (s.media.index - 3)) s else s) := by
  show execPeerFrameSend ty pairs s = _
  unfold execPeerFrameSend
  dsimp only
  rw [if_pos (by simp [hdead])]

/-- Where the lanes carry no data no received frame changes anything. -/
theorem exec_frames_dead {s : State} (hdead : fzLive s = false) (l : List Byte) (t2 : Nat) : exec (.sampleFrame l) s = .next s ∧
    exec (.blockFrame l) s = .next s ∧ exec (.modelFrame l) s = .next s ∧ exec (.peerBeacon l) s = .next s ∧ exec (.epochFrame l) s = .next s ∧
    exec (.timeFrame l t2) s = .next s := by
  have hno : ¬ fzLive s = true := by simp [hdead]
  exact ⟨if_neg hno, if_neg hno, if_neg hno, if_neg hno, if_neg hno, if_neg hno⟩

end Sys2Proof.Machine

open Sys2Proof Sys2Proof.Machine

/-- Settles O51: the link by what follows the mode, each frame by its type. That beacons go out before the link is up is the model's reading of R363
(log entry 31). -/
theorem twinSendsAndLinkRows : Obligations.TwinSendsAndLinkRows := by
  intro s
  refine ⟨fun hlive hdown hvalid => ⟨_, exec_peerLinkUp hlive hdown hvalid, linkedUp_effects s⟩, fun hup => ?linkDown,
    fun ty idx pairs sense body hlive hlock hsense hframe => ?frame, fun g hgroup hlock hlog hblock => ?beacon,
    fun c hruns hcommit hepoch hfirst halone => ?abandoned, fun hdead l ty t2 sense => ?dead⟩
  case linkDown =>
    obtain ⟨hlink, hrole, hmode, hnone, hraised, hchans, hrails⟩ := linkDown_effects hup
    exact ⟨_, if_pos hup, hlink, hrole, hmode, hnone, linkDown_frame s, hraised, hchans, hrails⟩
  case frame =>
    rcases hframe with ⟨rfl, hlink, hidx, rfl⟩ | ⟨rfl, hlink, rfl, rfl⟩ | ⟨rfl, hlink, hlead, hsome, rfl, rfl⟩ | ⟨rfl, hblock, rfl, rfl⟩ |
      ⟨rfl, hlink, rfl, hown⟩ | ⟨rfl, hlink, rfl, rfl⟩
    · exact ⟨_, exec_peerFrameSend_sample hlive hlock hsense hlink hidx, fzSend_sent (keepOwn_prepares sense idx s) _ _⟩
    · exact ⟨_, exec_peerFrameSend_block pairs hlive hlock hlink, fzSend_sent (nameRun_prepares 2 s) _ _⟩
    · exact ⟨_, exec_peerFrameSend_model pairs hlive hlock hlink hlead hsome,
        fzSend_sent (s := s) ⟨rfl, fun _ => rfl, fun _ => rfl⟩ _ _⟩
    · exact ⟨_, exec_peerFrameSend_beacon pairs hlive hlock hblock, fzSend_sent (.rfl' 4 s) _ _⟩
    · exact ⟨_, exec_peerFrameSend_epoch pairs hlive hlock hlink hown, fzSend_sent (.rfl' 5 s) _ _⟩
    · exact ⟨_, exec_peerFrameSend_time pairs hlive hlock hlink, fzSend_sent (.rfl' 6 s) _ _⟩
  case beacon =>
    obtain ⟨heq0, hsent0⟩ := beaconOn_sent g 0 s
    obtain ⟨heq1, hsent1⟩ := beaconOn_sent g 1 (beaconOn g 0 s)
    have hsame : beacon (beaconOn g 0 s) = beacon s := by rw [heq0]; rfl
    have hup : ((beaconOn g 0 s).cfg.active.portOn 1 && ((beaconOn g 0 s).port 1).up) = (s.cfg.active.portOn 1 && (s.port 1).up) := by rw [heq0]; rfl
    refine ⟨_, exec_networkBeaconSend hgroup hlock hlog hblock, ?_, ?_⟩
    · rw [heq1, heq0]
    · have hfilter : ([1].filter fun p => (beaconOn g 0 s).cfg.active.portOn p && ((beaconOn g 0 s).port p).up) =
          [1].filter fun p => s.cfg.active.portOn p && (s.port p).up := List.filter_congr (by simpa using hup)
      rw [hsent1, hsent0, hsame, hfilter, List.append_assoc, ← List.map_append, ← List.filter_append]
      rfl
  case abandoned =>
    obtain ⟨hpending, -, -, hactive, hbank, hepochs⟩ := abandonCommit_stands 1 s
    obtain ⟨hgone, hown, -⟩ := abandonCommit_proposals 1 hcommit
    exact ⟨_, exec_commitAbandoned hruns hcommit hepoch hfirst halone, hgone, hactive, hbank, hepochs, hown, abandonCommit_chans 1 s, hpending⟩
  case dead =>
    obtain ⟨hsample, hblock, hmodel, hbeacon, hepoch, htime⟩ := exec_frames_dead hdead l t2
    refine ⟨hsample, hblock, hmodel, hbeacon, hepoch, htime, fun hno => ?_, fun hty hlock => ?_⟩
    · rw [exec_peerFrameSend_dead hdead, if_neg]
      rintro ⟨hty, hlock⟩
      rcases hno with h | h
      · exact h hty
      · rw [h] at hlock
        cases hlock
    · have hsent := exec_peerFrameSend_dead hdead ty sense
      rw [if_pos ⟨hty, hlock⟩] at hsent
      obtain ⟨heq, hqueued⟩ := waitOwn_queued (sense.map (marked s)) (((sense.map (marked s)).head?.map (·.n)).getD (s.media.index - 3)) s
      exact ⟨_, hsent, heq, fun c _ => hqueued c⟩
end

section
/-! PROOFS. Takeover, a pair that is over, joining, RUN blocks, imbalance and the end of a pause (R357, R369, R375 to R379). -/

namespace Sys2Proof.Machine

/-! ### Takeover and the end of a pair (R357, R369) -/

theorem takeover_twin (cause : Nat) (s : State) : (takeover cause s).twin = { s.twin with role := .lead } := by
  unfold takeover
  extract_lets w s1 s2
  rw [raise_reports]
  show s2.twin = _
  unfold s2
  split <;> rfl

theorem takeover_raised (cause : Nat) (s : State) : Raised 0x800A 0 [word cause] s (takeover cause s) := by
  unfold takeover
  extract_lets w s1 s2
  refine (raise_raised _ _ _ _).of_log ?_ ?_
  all_goals
    show _ = _
    unfold s2
    split <;> rfl

/-- A takeover leaves what each channel does; models of channels in OFF may seed anew. -/
theorem takeover_fsm (cause : Nat) {s : State} {c : Nat} (hc : c < 208) : ((takeover cause s).chan c).fsm = (s.chan c).fsm := by
  unfold takeover
  extract_lets w s1 s2
  rw [(raise_reports _ _ _ _).chan]
  show (s2.chan c).fsm = _
  unfold s2
  split
  · rfl
  · rw [chan_map _ _ hc]
    split <;> rfl

theorem unshare_fsm {c : Nat} (hc : c < 208) (s : State) : ((unshare s).chan c).fsm = (s.chan c).fsm := by
  simp [unshare, State.chan, hc]

/-- What the end of a pair leaves: the role and what each channel does. -/
theorem noPartner_effects (s : State) : (noPartner s).twin.paired = false ∧ (noPartner s).twin.effShared = false ∧ (noPartner s).twin.peerSeen = false ∧
    (noPartner s).twin.netSeen = false ∧ (noPartner s).twin.role = s.twin.role ∧ (noPartner s).log = s.log ∧
    ∀ c, c < 208 → ((noPartner s).chan c).fsm = (s.chan c).fsm :=
  ⟨rfl, rfl, rfl, rfl, rfl, rfl, fun _ hc => unshare_fsm hc _⟩

theorem exec_partnerAbsent_seen {s : State} (htwin : twinned s = true) (hseen : s.twin.paired = true ∨ s.twin.peerSeen = true ∨ s.twin.netSeen = true) :
    exec .partnerAbsent s = .next (noPartner
      (if s.twin.role = .follow then (if s.flag 0x08 0 3 then takeover 2 s else s.raise 0x800B 0 []) else s)) := by
  show execPartnerAbsent s = _
  rw [execPartnerAbsent, if_pos htwin, partnerGone, if_pos (by simpa [or_assoc] using hseen)]

theorem exec_partnerAbsent_still {s : State} (htwin : twinned s = true) (hpaired : s.twin.paired = false) (hpeer : s.twin.peerSeen = false)
    (hnet : s.twin.netSeen = false) (hrole : s.twin.role = .follow) (hflag : s.flag 0x08 0 3 = true) :
    exec .partnerAbsent s = .next (takeover 2 s) := by
  show execPartnerAbsent s = _
  rw [execPartnerAbsent, if_pos htwin, partnerGone, if_neg (by simp [hpaired, hpeer, hnet]), if_pos ⟨hrole, hflag⟩]

theorem exec_takeLeadAlone {s : State} (htwin : twinned s = true) (hdev : s.keeper.dev = .run) (hpaired : s.twin.paired = false)
    (hpeer : s.twin.peerSeen = false) (hnet : s.twin.netSeen = false) (hrole : s.twin.role = .none) :
    exec .takeLeadAlone s = .next { s with twin := { s.twin with role := .lead } } := by
  show execTakeLeadAlone s = _
  rw [execTakeLeadAlone, if_pos (by simp [htwin, hdev, hpaired, hpeer, hnet, hrole]), if_neg (by rw [hrole]; decide)]

/-! ### Joining (R375) -/

theorem Faulted.reported {c code : Nat} {s t u : State} (h : Faulted c code s t) (k : Reports t u) : Faulted c code s u := by
  obtain ⟨hdrives, hfault⟩ := h
  rw [← k.chan c] at hfault
  exact ⟨hdrives.trans (k.touchesChan c).drives, hfault⟩

theorem joinFailed_diag {c : Nat} (hc : c < 208) (low : Nat) (data : List Word) {s : State} (h : (s.chan c).fsm.state = .diag) :
    Faulted c (chanCode c low) s (joinFailed c low data s) := by
  unfold joinFailed
  rw [if_neg (by rw [h]; decide), failTest_diag h]
  exact (enterFault_faulted _ _ s hc).reported (raise_reports _ _ _ _)

theorem joinFailed_idle {c : Nat} (hc : c < 208) (low : Nat) (data : List Word) {s : State} (h : (s.chan c).fsm.state = .idle) :
    Faulted c (chanCode c low) s (joinFailed c low data s) := by
  unfold joinFailed
  rw [if_pos h]
  exact (hardStop_faulted hc (by rw [h]; rfl)).reported (raise_reports _ _ _ _)

/-- The means over the central 2 ms of the mark: own voltage, own current, starter's voltage. -/
theorem exec_joinCheck {c a : Nat} {s : State} (hshare : sharing s = true) (hjoin : (s.chan c).share.joinReq = true) (hgoes : (s.chan c).fsm.stop = .none)
    (hmark : (s.chan c).share.markAt = some a) (hover : a + 288 ≤ winBase s) :
    ((s.chan c).fsm.state = .diag → exec (.joinCheck c) s = .next (joinVoltage c (meanOver (s.chan c).share.vOwnSum (s.chan c).share.nOwn)
      (meanOver (s.chan c).share.iOwnSum (s.chan c).share.nOwn) (meanOver (s.chan c).share.vStSum (s.chan c).share.nSt) s)) ∧
    ((s.chan c).fsm.state = .idle → exec (.joinCheck c) s = .next (joinCurrent c (meanOver (s.chan c).share.vOwnSum (s.chan c).share.nOwn)
      (meanOver (s.chan c).share.iOwnSum (s.chan c).share.nOwn) s)) := by
  have hjudges : exec (.joinCheck c) s = (if ((s.chan c).fsm.state == .diag || (s.chan c).fsm.state == .retest && (s.chan c).fsm.diagStep != 8) = true then
      .next (joinVoltage c (meanOver (s.chan c).share.vOwnSum (s.chan c).share.nOwn) (meanOver (s.chan c).share.iOwnSum (s.chan c).share.nOwn)
        (meanOver (s.chan c).share.vStSum (s.chan c).share.nSt) s)
      else if ((s.chan c).fsm.state == .idle) = true then .next (joinCurrent c (meanOver (s.chan c).share.vOwnSum (s.chan c).share.nOwn)
        (meanOver (s.chan c).share.iOwnSum (s.chan c).share.nOwn) s)
      else .next s) := if_pos (by simp [hshare, hjoin, hgoes, hmark, hover])
  refine ⟨fun h => ?_, fun h => ?_⟩
  · rw [hjudges, h]
    rfl
  · rw [hjudges, h]
    rfl

theorem joinVoltage_passes {c : Nat} (hc : c < 208) (vOwn iOwn : Rat) {vStarter : Rat} {s : State} (hstate : (s.chan c).fsm.state = .diag)
    (hcarries : vStarter ≠ 0) (hratio : 1/2 ≤ vOwn / vStarter) : TouchesChan c s (joinVoltage c vOwn iOwn vStarter s) ∧
    ((joinVoltage c vOwn iOwn vStarter s).chan c).fsm.state = .precharge ∧ ((joinVoltage c vOwn iOwn vStarter s).chan c).share = (s.chan c).share := by
  unfold joinVoltage
  extract_lets f r bits und s1
  have hs1 : Reports s s1 := by
    unfold s1
    split
    · exact raise_reports _ _ _ _
    · exact .rfl' s
  rw [if_neg hcarries, if_pos hratio, if_neg (by rw [show f.state = .diag from hstate]; decide)]
  refine ⟨((hs1.touchesChan c).trans (life_touchesChan c _ _ s1)).trans (toPrecharge_touchesChan c _), (toPrecharge_fsm hc _).1, ?_⟩
  unfold toPrecharge
  rw [chan_modFsm_self _ _ hc, maskDue_chan, noteDiag_chan, chan_life, hs1.chan]

theorem joinVoltage_dead (c : Nat) (vOwn iOwn : Rat) (s : State) :
    joinVoltage c vOwn iOwn 0 s = joinFailed c 0xB [wordS (1000 * vOwn), wordS (1000 * iOwn)] s := by
  unfold joinVoltage
  dsimp only
  rw [if_pos rfl]

theorem joinCurrent_passes {c : Nat} (vOwn : Rat) {iOwn : Rat} (s : State) (hflows : 10/1000 ≤ iOwn) :
    joinCurrent c vOwn iOwn s = s.modShare c fun h => { h with joined := true, joinReq := false, mark := 0 } := if_pos hflows

theorem joinCurrent_fails {c : Nat} (vOwn : Rat) {iOwn : Rat} (s : State) (hnone : 0 ≤ iOwn) (hlow : iOwn < 10/1000) :
    joinCurrent c vOwn iOwn s = joinFailed c 0xB [wordS (1000 * vOwn), wordS (1000 * iOwn)] s := by
  unfold joinCurrent
  dsimp only
  rw [if_neg (not_le.mpr hlow), if_neg (not_lt.mpr hnone)]

/-! ### RUN blocks (R376) -/

theorem muteSource_congr {s t : State} (h : Touches s t) {c : Nat} (hchan : t.chan c = s.chan c) : muteSource t c = muteSource s c := by
  unfold muteSource muteOf bothDrive sharing armed muteLine State.flag
  rw [hchan, h]

theorem starterRun_touchesChan (c : Nat) (s : State) : TouchesChan c s (starterRun c s) := by
  unfold starterRun
  dsimp only
  split
  · exact admitChannel_touchesChan c s
  · exact .rfl' c s

/-- A named channel that waits in IDLE with its conditions met enters RUN, or MUTED where a mute source is in force. -/
theorem starterRun_admits {c : Nat} (hc : c < 208) {s : State} (hidle : (s.chan c).fsm.state = .idle) (hmet : (s.chan c).fsm.admitted = true)
    (hgoes : (s.chan c).fsm.stop = .none) : ((starterRun c s).chan c).fsm.state = (if muteSource s c then .muted else .run) ∧
    ((starterRun c s).chan c).fsm.admitted = false := by
  have hadmits : starterRun c s = admitChannel c s := if_pos ⟨hidle, hmet, hgoes⟩
  rw [hadmits]
  cases hmute : muteSource s c with
  | true =>
    obtain ⟨hadmitted, hstate, -⟩ := admitChannel_muted hc hmute
    exact ⟨hstate, hadmitted⟩
  | false =>
    obtain ⟨hadmitted, hstate, -⟩ := admitChannel_run hc hmute
    exact ⟨hstate, hadmitted⟩

theorem starterRun_notIdle {c : Nat} {s : State} (h : (s.chan c).fsm.state ≠ .idle) : starterRun c s = s := if_neg fun hall => h hall.1

/-- The channels of a list that a RUN block names leave the others. -/
theorem forList_starterRun_other {c : Nat} {l : List Nat} (hc : c ∉ l) (s : State) : (forList l starterRun s).chan c = s.chan c := by
  unfold forList
  induction l generalizing s with
  | nil => rfl
  | cons a l ih =>
    obtain ⟨hne, hrest⟩ := not_or.mp (mt List.mem_cons.mpr hc)
    rw [List.foldl_cons, ih hrest, (starterRun_touchesChan a s).2.2 c hne]

/-- A channel outside IDLE stands while a RUN block begins. -/
theorem forList_starterRun_notIdle {c : Nat} (l : List Nat) {s : State} (h : (s.chan c).fsm.state ≠ .idle) :
    (forList l starterRun s).chan c = s.chan c := by
  unfold forList
  induction l generalizing s with
  | nil => rfl
  | cons a l ih =>
    have hstands : (starterRun a s).chan c = s.chan c := by
      by_cases ha : c = a
      · rw [← ha, starterRun_notIdle h]
      · exact (starterRun_touchesChan a s).2.2 c ha
    rw [List.foldl_cons, ih (by rwa [hstands]), hstands]

/-- Each named channel that waits in IDLE enters RUN or MUTED. -/
theorem forList_starterRun_named {c : Nat} (hc : c < 208) {l : List Nat} (hmem : c ∈ l) {s : State} (hidle : (s.chan c).fsm.state = .idle)
    (hmet : (s.chan c).fsm.admitted = true) (hgoes : (s.chan c).fsm.stop = .none) :
    ((forList l starterRun s).chan c).fsm.state = (if muteSource s c then .muted else .run) ∧
    ((forList l starterRun s).chan c).fsm.admitted = false := by
  unfold forList
  induction l generalizing s with
  | nil => simp at hmem
  | cons a l ih =>
    rw [List.foldl_cons]
    by_cases ha : c = a
    · subst ha
      obtain ⟨hstate, hadmitted⟩ := starterRun_admits hc hidle hmet hgoes
      have hleft : ((starterRun c s).chan c).fsm.state ≠ .idle := by
        rw [hstate]
        split <;> decide
      have hrest := forList_starterRun_notIdle l hleft
      unfold forList at hrest
      rw [hrest]
      exact ⟨hstate, hadmitted⟩
    · obtain ⟨htouch, -, hother⟩ := starterRun_touchesChan a s
      have hsame := hother c ha
      rw [← muteSource_congr htouch hsame]
      exact ih ((List.mem_cons.mp hmem).resolve_left ha) (by rwa [hsame]) (by rwa [hsame]) (by rwa [hsame])

theorem exec_runBlockReached_own {s : State} (hlock : s.media.locked = true) (hnamed : s.twin.runBlock ≠ 0) (hreached : s.twin.runBlock ≤ winK s)
    (halone : s.twin.theirRunBlock = 0) : exec .runBlockReached s = .next { forList s.twin.runMap starterRun s with
      twin := { s.twin with runBlock := 0, runMap := [] } } := by
  show execRunBlockReached s = _
  unfold execRunBlockReached
  dsimp only
  rw [if_pos (by simp [hlock, hnamed, hreached, halone]), if_neg (by simp [halone]), if_pos (by simp [hnamed, hreached])]

/-! ### Imbalance and the end of a pause (R377 to R379) -/

theorem exec_shareImbalance {c : Nat} {s : State} (hboth : bothDrive s c = true) (hrole : s.twin.role = .follow) (hrun : 96 ≤ (s.chan c).share.imbRun) :
    exec (.shareImbalance c) s = .next (hardStop c 0x800D [wordU (1000 * (s.chan c).share.imbPeak)] s) :=
  if_pos (by simp [hboth, hrole, hrun])

theorem judgeMode_pause (s : State) : (judgeMode s).twin.paused = s.twin.paused := by
  unfold judgeMode
  split
  · rfl
  extract_lets now ended s1
  split
  · rfl
  split
  · dsimp only
    unfold wantShadow
    split <;> rfl
  split
  · rw [forUnits_chans (n := 208) (f := (requestStop · false)) s1 fun c u => requestStop_eq c false u]
    rfl
  · rfl

/-- The pause is over, and the FOLLOW reports it. -/
def pauseEnded (s : State) : State :=
  let s1 : State := { s with twin := { s.twin with paused := false } }
  if s.twin.role = .follow then s1.raise 0x8009 0 [] else s1

theorem exec_sharingResumed {s : State} {g : Nat} (hpaused : s.twin.paused = true) (hlink : s.twin.link = true) (hgood : s.twin.goodSince = some g)
    (hlong : g + 96000 ≤ s.media.samples) (hgm : s.twin.partnerGm = s.ptp.gm) (hlead : s.twin.role ≠ .follow ∨ s.twin.partnerPaused = false) :
    exec .sharingResumed s = .next (judgeMode (pauseEnded s)) := by
  have hfirst : (s.twin.role == .follow && s.twin.partnerPaused) = false := by
    rcases hlead with h | h <;> simp [h]
  exact if_pos (by simp [hpaused, hlink, hgood, hlong, hgm, hfirst])

theorem pauseEnded_effects (s : State) : (pauseEnded s).twin = { s.twin with paused := false } ∧ ModeMoved s (pauseEnded s) := by
  unfold pauseEnded
  extract_lets w s1
  have hended : ModeMoved s s1 := ⟨rfl, rfl, rfl, fun _ _ h => h⟩
  split
  · exact ⟨by rw [raise_reports], hended.trans (raise_moved _ _ _ s1)⟩
  · exact ⟨rfl, hended⟩

end Sys2Proof.Machine

open Sys2Proof Sys2Proof.Machine

/-- Settles O52: an absent partner by the role, a join check by the state of the joiner, a RUN block by the channels that it names. -/
theorem twinRolesAndJoining : Obligations.TwinRolesAndJoining := by
  intro s
  refine ⟨fun htwin hseen => ?absent,
    fun htwin hpaired hpeer hnet hrole hflag => ⟨_, exec_partnerAbsent_still htwin hpaired hpeer hnet hrole hflag, takeover_frame 2 s,
      by rw [takeover_twin], takeover_raised 2 s⟩,
    fun htwin hdev hpaired hpeer hnet hrole => exec_takeLeadAlone htwin hdev hpaired hpeer hnet hrole,
    fun c a vOwn vStarter iOwn hc hshare hjoin hgoes hmark hover hown hstarter hcurrent => ?join, fun hlock hnamed hreached halone => ?run,
    fun c hc hboth hrole hrun hswitch => ⟨_, exec_shareImbalance hboth hrole hrun, hardStop_faulted hc hswitch⟩,
    fun g hpaused hlink hgood hlong hgm hlead => ?resumed⟩
  case absent =>
    have hexec := exec_partnerAbsent_seen htwin hseen
    have hframe := partnerGone_frame s
    refine ⟨_, if_pos htwin, hframe, ?_⟩
    have hnext : partnerGone s = _ := Host.Outcome.next.inj ((if_pos htwin).symm.trans hexec)
    rw [hnext]
    obtain ⟨hpaired, hshared, hpeer, hnet, hrole, hlog, hfsm⟩ :=
      noPartner_effects (if s.twin.role = .follow then (if s.flag 0x08 0 3 then takeover 2 s else s.raise 0x800B 0 []) else s)
    refine ⟨hpaired, hshared, hpeer, hnet, fun c hc => (hfsm c hc).trans ?_, fun hfollow htakes => ?_, fun hfollow hstays => ?_, fun hfree => ?_⟩
    · split
      · split
        · exact takeover_fsm 2 hc
        · rw [(raise_reports _ _ _ _).chan]
      · rfl
    · rw [if_pos hfollow, if_pos htakes] at hrole hlog ⊢
      exact ⟨hrole.trans (by rw [takeover_twin]), (takeover_raised 2 s).to_log hlog⟩
    · rw [if_pos hfollow, if_neg (by simp [hstays])] at hrole hlog ⊢
      exact ⟨hrole.trans (by rw [raise_reports]; exact hfollow), (raise_raised _ _ _ _).to_log hlog⟩
    · rw [if_neg hfree] at hrole hlog ⊢
      exact ⟨hrole, hlog⟩
  case join =>
    subst hown hstarter hcurrent
    obtain ⟨hvoltage, hcurrent⟩ := exec_joinCheck hshare hjoin hgoes hmark hover
    refine ⟨fun hstate hcarries hratio => ⟨_, hvoltage hstate, joinVoltage_passes hc _ _ hstate hcarries hratio⟩, fun hstate hdead => ⟨_, hvoltage hstate, ?_⟩,
      fun hstate hflows => ⟨_, hcurrent hstate, ?_⟩, fun hstate hnone hlow => ⟨_, hcurrent hstate, ?_⟩⟩
    · rw [hdead, joinVoltage_dead]
      exact joinFailed_diag hc _ _ hstate
    · rw [joinCurrent_passes _ s hflows]
      exact ⟨modShare_touchesChan s c _, chan_modShare_self _ _ hc⟩
    · rw [joinCurrent_fails _ s hnone hlow]
      exact joinFailed_idle hc _ _ hstate
  case run =>
    have htouch : Touches s (forList s.twin.runMap starterRun s) := forList_touches (fun c u => (starterRun_touchesChan c u).1) _ s
    exact ⟨_, exec_runBlockReached_own hlock hnamed hreached halone, htouch.quiet, rfl, fun c hc =>
      ⟨fun hother => forList_starterRun_other hother s, fun hmem hidle hmet hfree => forList_starterRun_named hc hmem hidle hmet hfree⟩⟩
  case resumed =>
    obtain ⟨htwin, hended⟩ := pauseEnded_effects s
    have hmoved := hended.trans (judgeMode_moved (pauseEnded s))
    exact ⟨_, exec_sharingResumed hpaused hlink hgood hlong hgm hlead, (judgeMode_pause _).trans (by rw [htwin]), hmoved.2.1.stands.1, hmoved.quiet,
      hmoved.2.2.1⟩
end

section
/-! PROOFS. The partner's beacons: pairing, two LEADs, the cooperative takeover (R357, R363, R364, R366, R369, R370, Tables 14.6 and 14.7). -/

namespace Sys2Proof.Machine

/-! ### Two LEADs (R370) -/

theorem yieldLead_twin (s : State) : (yieldLead s).twin = { s.twin with role := .follow } := by
  unfold yieldLead
  rw [(dropChannels_touches _).1]

theorem yieldLead_off (s : State) {c : Nat} (hc : c < 208) : ((yieldLead s).chan c).fsm.state = .off := dropChannels_off _ hc

/-- Of two LEADs the one with the higher system ID yields. -/
theorem judgeLeads_twin (was : Bool) (s : State) : (judgeLeads was s).twin =
    { s.twin with role := if dualLead s.twin = true ∧ s.twin.partnerId < sysId s then .follow else s.twin.role } := by
  unfold judgeLeads
  by_cases hdual : dualLead s.twin = true
  · rw [if_pos hdual]
    extract_lets s1
    have hs1 : s1.twin = s.twin := by
      unfold s1
      split
      · rfl
      · rw [raise_reports]
    split
    · rename_i hlower
      rw [yieldLead_twin, hs1, if_pos ⟨hdual, hlower⟩]
    · rename_i hlower
      rw [hs1, if_neg fun h => hlower h.2]
  · rw [if_neg hdual, if_neg fun h => hdual h.1]

theorem judgeLeads_off (was : Bool) {s : State} (hdual : dualLead s.twin = true) (hhigher : s.twin.partnerId < sysId s) {c : Nat} (hc : c < 208) :
    ((judgeLeads was s).chan c).fsm.state = .off := by
  unfold judgeLeads
  dsimp only
  rw [if_pos hdual, if_pos hhigher]
  exact yieldLead_off _ hc

theorem judgeLeads_idle (was : Bool) {s : State} (h : dualLead s.twin = false) : judgeLeads was s = s := if_neg (by simp [h])

/-! ### A pair forms (R357, R358, R366) -/

/-- The role that a side takes as the pair forms. -/
def pairRole (t : Twin) (id level : Nat) : Role :=
  if dualLead t = true then (if t.partnerId < id then .follow else t.role)
  else if t.partnerLevel ≠ level then (if id < t.partnerId then .lead else .follow)
  else if t.role = .lead then .lead
  else if t.partnerLead = true then .follow
  else if id < t.partnerId then .lead else .follow

theorem pairRole_single {t : Twin} (h : dualLead t = false) (id level : Nat) : pairRole t id level =
    if t.partnerLevel ≠ level then (if id < t.partnerId then .lead else .follow)
    else if t.role = .lead then .lead
    else if t.partnerLead = true then .follow
    else if id < t.partnerId then .lead else .follow := if_neg (by simp [h])

/-- The twin state of a pair that forms. -/
def pairFormed (s : State) : Twin := { s.twin with
  paired := true, levelOk := s.twin.partnerLevel == s.keeper.fwLevel, role := pairRole s.twin (sysId s) s.keeper.fwLevel
  epoch := if digest s.cfg.whole = s.twin.partnerDigest then max s.twin.epoch s.twin.partnerEpoch else s.twin.epoch
  common := if digest s.cfg.whole = s.twin.partnerDigest then max s.twin.epoch s.twin.partnerEpoch else min s.twin.epoch s.twin.partnerEpoch }

/-- A pair that forms but for its role and what it reports. -/
def pairBegun (s : State) : State := { s with twin := { pairFormed s with role := s.twin.role } }

/-- The role of a pair that forms is settled. -/
def pairSettled (s : State) : State :=
  let s1 := pairBegun s
  if s.twin.role = .lead && s.twin.partnerLead then judgeLeads false s1
  else if !(s.twin.partnerLevel == s.keeper.fwLevel) then
    (if decide (sysId s < s.twin.partnerId) then { s1 with twin := { s1.twin with role := .lead } }
      else if s.twin.role = .lead then yieldLead s1 else { s1 with twin := { s1.twin with role := .follow } })
  else if s.twin.role = .lead then s1
  else if s.twin.partnerLead then { s1 with twin := { s1.twin with role := .follow } }
  else { s1 with twin := { s1.twin with role := if decide (sysId s < s.twin.partnerId) then .lead else .follow } }

theorem formPair_reports (s : State) : Reports (pairSettled s) (formPair s) := by
  unfold formPair
  extract_lets t lower lv own s1 src s2 s3 s4
  have hs2 : s2 = pairSettled s := rfl
  have hs4 : Reports s2 s4 := by
    unfold s4
    split
    · exact raise_reports _ _ _ _
    · exact (raise_reports _ _ _ _).trans (raise_reports _ _ _ _)
  rw [← hs2]
  split
  · exact hs4
  · exact hs4.trans (raise_reports _ _ _ _)

theorem pairSettled_dual {s : State} (h : dualLead s.twin = true) : pairSettled s = judgeLeads false (pairBegun s) :=
  if_pos (by simpa [dualLead] using h)

theorem pairSettled_single {s : State} (h : dualLead s.twin = false) : pairSettled s =
    if !(s.twin.partnerLevel == s.keeper.fwLevel) then
      (if decide (sysId s < s.twin.partnerId) then { pairBegun s with twin := { (pairBegun s).twin with role := .lead } }
        else if s.twin.role = .lead then yieldLead (pairBegun s) else { pairBegun s with twin := { (pairBegun s).twin with role := .follow } })
    else if s.twin.role = .lead then pairBegun s
    else if s.twin.partnerLead then { pairBegun s with twin := { (pairBegun s).twin with role := .follow } }
    else { pairBegun s with twin := { (pairBegun s).twin with role := if decide (sysId s < s.twin.partnerId) then .lead else .follow } } :=
  if_neg (by simpa [dualLead] using h)

theorem pairSettled_twin (s : State) : (pairSettled s).twin = pairFormed s := by
  unfold pairFormed
  cases hdual : dualLead s.twin with
  | true =>
    rw [pairSettled_dual hdual, judgeLeads_twin, pairRole, if_pos hdual]
    by_cases hlower : s.twin.partnerId < sysId s
    · rw [if_pos hlower, if_pos ⟨hdual, hlower⟩]
      rfl
    · rw [if_neg hlower, if_neg fun h => hlower h.2]
      rfl
  | false =>
    rw [pairSettled_single hdual, pairRole_single hdual]
    by_cases hlevel : s.twin.partnerLevel = s.keeper.fwLevel
    · rw [if_neg (show ¬(!(s.twin.partnerLevel == s.keeper.fwLevel)) = true by simp [hlevel]), if_neg (not_not.mpr hlevel)]
      by_cases hlead : s.twin.role = .lead
      · rw [if_pos hlead, if_pos hlead, ← hlead]
        rfl
      · rw [if_neg hlead, if_neg hlead]
        by_cases hpartner : s.twin.partnerLead = true
        · rw [if_pos hpartner, if_pos hpartner]
          rfl
        · rw [if_neg hpartner, if_neg hpartner]
          simp only [decide_eq_true_eq]
          rfl
    · rw [if_pos (show (!(s.twin.partnerLevel == s.keeper.fwLevel)) = true by simpa using hlevel), if_pos hlevel]
      by_cases hlower : sysId s < s.twin.partnerId
      · rw [if_pos (decide_eq_true hlower), if_pos hlower]
        rfl
      · rw [if_neg (by simpa using hlower), if_neg hlower]
        split
        · rw [yieldLead_twin]
          rfl
        · rfl

theorem formPair_twin (s : State) : (formPair s).twin = pairFormed s := by
  rw [← pairSettled_twin, formPair_reports]

/-- Of two LEADs that form a pair the one that yields has every channel in OFF. -/
theorem formPair_off {s : State} (hdual : dualLead s.twin = true) (hhigher : s.twin.partnerId < sysId s) {c : Nat} (hc : c < 208) :
    ((formPair s).chan c).fsm.state = .off := by
  rw [(formPair_reports s).chan, pairSettled_dual hdual]
  exact judgeLeads_off (s := pairBegun s) false hdual hhigher hc

/-! ### The partner's beacon -/

/-- The beacon is noted: what it says, and that the partner is there. -/
def beaconNoted (peer : Bool) (b : List Byte) (s : State) : State := { s with twin :=
  if peer then { takeStatus b s.twin with
    peerSeen := true, peerAt := s.keeper.counterUs, levelOk := s.twin.levelOk && (takeStatus b s.twin).partnerLevel == s.keeper.fwLevel }
  else { takeStatus b s.twin with
    netSeen := true, netAt := s.keeper.counterUs, levelOk := s.twin.levelOk && (takeStatus b s.twin).partnerLevel == s.keeper.fwLevel } }

/-- A pair forms with a peer beacon, and of two LEADs one yields. -/
def leadsJudged (peer : Bool) (b : List Byte) (s : State) : State :=
  if peer && !s.twin.paired then formPair (beaconNoted peer b s) else judgeLeads (dualLead s.twin) (beaconNoted peer b s)

/-- The mode and the shadows follow a beacon, with the own grandmaster. -/
def modeFollows (peer : Bool) (gm : Nat) (s : State) : State :=
  let s4 := if s.twin.partnerGm = gm then s else pauseTime s
  let s5 := judgeMode (if s4.twin.role = .follow ∧ s4.twin.partnerPaused then pauseSharing s4 else s4)
  if peer && s5.twin.effShared && s5.twin.link && !s5.twin.adoptDue then
    if s5.twin.partnerModelDigest = s5.twin.modelDigest then { s5 with twin := { s5.twin with badDigests := 0 } }
    else if 1 ≤ s5.twin.badDigests then { s5 with twin := wantShadow true s5.twin }
    else { s5 with twin := { s5.twin with badDigests := 1 } }
  else s5

/-- The state after a beacon but for the takeover from a LEAD that leaves in order. -/
def beaconFollowed (peer : Bool) (b : List Byte) (s : State) : State := modeFollows peer s.ptp.gm (leadsJudged peer b s)

theorem partnerBeacon_eq (peer : Bool) (b : List Byte) (s : State) : partnerBeacon peer b s =
    if cooperative (beaconFollowed peer b s) then takeover 1 (beaconFollowed peer b s) else beaconFollowed peer b s := by
  cases peer <;> rfl

theorem partnerBeacon_twin (peer : Bool) (b : List Byte) (s : State) : (partnerBeacon peer b s).twin = { (beaconFollowed peer b s).twin with
    role := if cooperative (beaconFollowed peer b s) then .lead else (beaconFollowed peer b s).twin.role } := by
  rw [partnerBeacon_eq]
  split
  · exact takeover_twin 1 _
  · rfl

theorem modeFollows_moved (peer : Bool) (gm : Nat) (s : State) : ModeMoved s (modeFollows peer gm s) := by
  unfold modeFollows
  extract_lets s4 s5
  have hs4 : ModeMoved s s4 := by
    unfold s4
    split
    · exact .rfl' s
    · exact pauseTime_moved s
  have hs5 : ModeMoved s s5 := by
    refine (hs4.trans ?_).trans (judgeMode_moved _)
    split
    · exact pauseSharing_moved s4
    · exact .rfl' s4
  split
  · split
    · exact hs5.trans ⟨rfl, rfl, rfl, fun _ _ h => h⟩
    split
    · exact hs5.trans (.of_twin (wantShadow_mode true _))
    · exact hs5.trans ⟨rfl, rfl, rfl, fun _ _ h => h⟩
  · exact hs5

/-- A device that is not configured to share and does not share only judges its time. -/
theorem modeFollows_idle (peer : Bool) (gm : Nat) {s : State} (hcfg : s.cfgShared = false) (hmode : s.twin.effShared = false) :
    (modeFollows peer gm s).log = s.log ∧ (modeFollows peer gm s).twin.effShared = false := by
  unfold modeFollows
  extract_lets s4 s5
  have hs4 : s4.log = s.log ∧ s4.twin.effShared = false ∧ s4.cfgShared = false := by
    unfold s4
    split
    · exact ⟨rfl, hmode, hcfg⟩
    · have hidle : pauseTime s = { s with twin := { s.twin with goodSince := none } } :=
        pauseSharing_idle (s := { s with twin := { s.twin with goodSince := none } }) (.inl hcfg)
      rw [hidle]
      exact ⟨rfl, hmode, hcfg⟩
  obtain ⟨hlog, hshared, hnever⟩ := hs4
  have hs5 : s5 = s4 := by
    unfold s5
    rw [pauseSharing_idle (.inl hnever), ite_self]
    unfold judgeMode
    split
    · rfl
    · exact if_pos (by simp [hnever, hshared])
  rw [if_neg (by simp [hs5, hshared]), hs5]
  exact ⟨hlog, hshared⟩

/-- Two values of the twin state of which only what forms a pair and settles its roles may differ. -/
def RolesOf (a b : Twin) : Prop := b = { a with role := b.role, paired := b.paired, levelOk := b.levelOk, epoch := b.epoch, common := b.common }

theorem leadsJudged_roles (peer : Bool) (b : List Byte) (s : State) : RolesOf (beaconNoted peer b s).twin (leadsJudged peer b s).twin := by
  unfold leadsJudged
  split
  · rw [formPair_twin]
    rfl
  · rw [judgeLeads_twin]
    rfl

/-- What a beacon says and that it has come, whatever the roles and the mode then become. -/
theorem partnerBeacon_keeps (peer : Bool) (b : List Byte) (s : State) : ∃ w : Twin, RolesOf (beaconNoted peer b s).twin w ∧
    ∃ v : Twin, ModeOf w v ∧ RolesOf v (partnerBeacon peer b s).twin :=
  ⟨_, leadsJudged_roles peer b s, _, (modeFollows_moved peer s.ptp.gm _).2.1, by rw [partnerBeacon_twin]; rfl⟩

/-- A beacon forms the pair, or leaves whether it stands. -/
theorem partnerBeacon_pair (peer : Bool) (b : List Byte) (s : State) : (partnerBeacon peer b s).twin.paired = (leadsJudged peer b s).twin.paired ∧
    (partnerBeacon peer b s).twin.epoch = (leadsJudged peer b s).twin.epoch ∧ (partnerBeacon peer b s).twin.common = (leadsJudged peer b s).twin.common := by
  rw [partnerBeacon_twin, show (beaconFollowed peer b s).twin = _ from (modeFollows_moved peer s.ptp.gm (leadsJudged peer b s)).2.1]
  exact ⟨rfl, rfl, rfl⟩

/-- A side that does not take over keeps the role that it has been given, and a stopped channel stays in OFF. -/
theorem partnerBeacon_role {peer : Bool} {b : List Byte} {s : State}
    (h : (leadsJudged peer b s).twin.role = .lead ∨ (leadsJudged peer b s).twin.partnerReleased = false) :
    (partnerBeacon peer b s).twin.role = (leadsJudged peer b s).twin.role ∧
    ∀ c, c < 208 → ((leadsJudged peer b s).chan c).fsm.state = .off → ((partnerBeacon peer b s).chan c).fsm.state = .off := by
  obtain ⟨-, hmode, -, hoff⟩ := modeFollows_moved peer s.ptp.gm (leadsJudged peer b s)
  have hnone : cooperative (beaconFollowed peer b s) = false := by
    unfold cooperative
    rw [show (beaconFollowed peer b s).twin = _ from hmode]
    rcases h with h | h <;> simp [h]
  rw [partnerBeacon_eq, hnone, if_neg (by decide)]
  exact ⟨hmode.stands.1, hoff⟩

/-- A FOLLOW that does not share takes over from a LEAD that leaves in order (R369). -/
theorem partnerBeacon_takesOver {peer : Bool} {b : List Byte} {s : State} (hpaired : peer = true → s.twin.paired = true)
    (hrole : s.twin.role = .follow) (hmode : s.twin.effShared = false) (hcfg : s.cfgShared = false) (hreleased : leAt b 65 1 % 2 = 1)
    (hleaves : leAt b 64 1 = 0 ∨ leAt b 64 1 = 4 ∨ leAt b 64 1 = 5) :
    (partnerBeacon peer b s).twin.role = .lead ∧ Raised 0x800A 0 [word 1] s (partnerBeacon peer b s) := by
  have hnoted : (beaconNoted peer b s).twin.role = .follow ∧ (beaconNoted peer b s).twin.effShared = false ∧
      (beaconNoted peer b s).twin.partnerReleased = true ∧ (beaconNoted peer b s).twin.partnerDev = leAt b 64 1 := by
    cases peer <;> exact ⟨hrole, hmode, by simp [beaconNoted, takeStatus, hreleased], rfl⟩
  obtain ⟨nrole, nmode, nreleased, ndev⟩ := hnoted
  have hjudged : leadsJudged peer b s = beaconNoted peer b s := by
    unfold leadsJudged
    rw [if_neg (by cases peer <;> simp_all), judgeLeads_idle _ (by simp [dualLead, nrole])]
  obtain ⟨hlog, hshared⟩ := modeFollows_idle peer s.ptp.gm (s := beaconNoted peer b s) hcfg nmode
  have hfollowed : beaconFollowed peer b s = modeFollows peer s.ptp.gm (beaconNoted peer b s) := by rw [beaconFollowed, hjudged]
  have hcooperates : cooperative (beaconFollowed peer b s) = true := by
    have hstands := (modeFollows_moved peer s.ptp.gm (beaconNoted peer b s)).2.1
    have hfields : (modeFollows peer s.ptp.gm (beaconNoted peer b s)).twin.role = .follow ∧
        (modeFollows peer s.ptp.gm (beaconNoted peer b s)).twin.partnerReleased = true ∧
        (modeFollows peer s.ptp.gm (beaconNoted peer b s)).twin.partnerDev = leAt b 64 1 := by
      rw [hstands]
      exact ⟨nrole, nreleased, ndev⟩
    obtain ⟨frole, freleased, fdev⟩ := hfields
    rw [hfollowed, cooperative, frole, hshared, freleased, fdev]
    rcases hleaves with h | h | h <;> rw [h] <;> decide
  rw [partnerBeacon_eq, if_pos hcooperates, takeover_twin]
  refine ⟨rfl, (takeover_raised 1 _).of_log ?_ ?_⟩ <;> rw [hfollowed, hlog] <;> rfl

/-! ### What each side becomes -/

theorem beaconNoted_says (peer : Bool) (b : List Byte) (s : State) : (beaconNoted peer b s).twin.role = s.twin.role ∧
    (beaconNoted peer b s).twin.partnerId = leAt b 8 4 ∧ (beaconNoted peer b s).twin.partnerLead = (leAt b 15 1 / 16 % 2 == 1) ∧
    (beaconNoted peer b s).twin.partnerReleased = (leAt b 65 1 % 2 == 1) ∧ (beaconNoted peer b s).twin.partnerDev = leAt b 64 1 ∧
    (beaconNoted peer b s).twin.partnerEpoch = leAt b 32 4 ∧ (beaconNoted peer b s).twin.partnerLevel = leAt b 16 2 := by
  cases peer <;> exact ⟨rfl, rfl, rfl, rfl, rfl, rfl, rfl⟩

/-- Of two LEADs the higher system ID becomes FOLLOW with every channel in OFF, and the lower stays. -/
theorem leadsJudged_dual {peer : Bool} {b : List Byte} {s : State} (hrole : s.twin.role = .lead) (hlead : leAt b 15 1 / 16 % 2 = 1) :
    (leadsJudged peer b s).twin.role = (if leAt b 8 4 < sysId s then .follow else .lead) ∧
    (leAt b 8 4 < sysId s → ∀ c, c < 208 → ((leadsJudged peer b s).chan c).fsm.state = .off) := by
  obtain ⟨nrole, nid, nlead, -⟩ := beaconNoted_says peer b s
  have hdual : dualLead (beaconNoted peer b s).twin = true := by simp [dualLead, nrole, nlead, hrole, hlead]
  unfold leadsJudged
  split
  · rw [formPair_twin]
    refine ⟨?_, fun hhigher c hc => formPair_off hdual (by rw [nid]; exact hhigher) hc⟩
    show pairRole _ _ _ = _
    rw [pairRole, if_pos hdual, nid, nrole, hrole]
    rfl
  · rw [judgeLeads_twin]
    refine ⟨?_, fun hhigher c hc => judgeLeads_off _ hdual (by rw [nid]; exact hhigher) hc⟩
    dsimp only
    rw [nid, nrole, hrole]
    by_cases hhigher : leAt b 8 4 < sysId s
    · rw [if_pos ⟨hdual, hhigher⟩, if_pos hhigher]
    · rw [if_neg fun h => hhigher h.2, if_neg hhigher]

/-- A LEAD with the lower system ID stays LEAD beside another. -/
theorem partnerBeacon_staysLead {peer : Bool} {b : List Byte} {s : State} (hrole : s.twin.role = .lead) (hlead : leAt b 15 1 / 16 % 2 = 1)
    (hlower : sysId s < leAt b 8 4) : (partnerBeacon peer b s).twin.role = .lead := by
  obtain ⟨hjudged, -⟩ := leadsJudged_dual (peer := peer) hrole hlead
  rw [if_neg (by omega)] at hjudged
  rw [(partnerBeacon_role (.inl hjudged)).1, hjudged]

/-- A LEAD with the higher system ID yields to another that has not released. -/
theorem partnerBeacon_yields {peer : Bool} {b : List Byte} {s : State} (hrole : s.twin.role = .lead) (hlead : leAt b 15 1 / 16 % 2 = 1)
    (hhigher : leAt b 8 4 < sysId s) (hdrives : leAt b 65 1 % 2 = 0) : (partnerBeacon peer b s).twin.role = .follow ∧
    ∀ c, c < 208 → ((partnerBeacon peer b s).chan c).fsm.state = .off := by
  obtain ⟨hjudged, hoff⟩ := leadsJudged_dual (peer := peer) hrole hlead
  have hreleased : (leadsJudged peer b s).twin.partnerReleased = false := by
    rw [leadsJudged_roles peer b s]
    exact (beaconNoted_says peer b s).2.2.2.1.trans (by simp [hdrives])
  obtain ⟨tstands, toff⟩ := partnerBeacon_role (.inr hreleased)
  rw [tstands, hjudged, if_pos hhigher]
  exact ⟨rfl, fun c hc => toff c hc (hoff hhigher c hc)⟩

theorem leadsJudged_forms (b : List Byte) {s : State} (h : s.twin.paired = false) : leadsJudged true b s = formPair (beaconNoted true b s) :=
  if_pos (by rw [h]; rfl)

/-- A pair forms with no LEAD and equal levels: the lower system ID becomes LEAD. -/
theorem partnerBeacon_settles {b : List Byte} {s : State} (hpaired : s.twin.paired = false) (hrole : s.twin.role ≠ .lead)
    (hlead : leAt b 15 1 / 16 % 2 = 0) (hlevel : leAt b 16 2 = s.keeper.fwLevel) (hdrives : leAt b 65 1 % 2 = 0) :
    (partnerBeacon true b s).twin.role = (if sysId s < leAt b 8 4 then .lead else .follow) := by
  obtain ⟨nrole, nid, nlead, nreleased, -, -, nlevel⟩ := beaconNoted_says true b s
  have hnolead : (beaconNoted true b s).twin.partnerLead = false := by simp [nlead, hlead]
  have hsettled : (leadsJudged true b s).twin.role = (if sysId s < leAt b 8 4 then .lead else .follow) := by
    rw [leadsJudged_forms b hpaired, formPair_twin]
    show pairRole _ _ _ = _
    rw [pairRole_single (by simp [dualLead, hnolead]), if_neg (by rw [nlevel]; exact not_not.mpr hlevel), if_neg (by rw [nrole]; exact hrole),
      if_neg (by simp [hnolead]), nid]
    rfl
  have hreleased : (leadsJudged true b s).twin.partnerReleased = false := by
    rw [leadsJudged_roles true b s]
    exact nreleased.trans (by simp [hdrives])
  rw [(partnerBeacon_role (.inr hreleased)).1, hsettled]

theorem partnerBeacon_epochs {b : List Byte} {s : State} (hpaired : s.twin.paired = false) : (partnerBeacon true b s).twin.epoch =
      (if digest s.cfg.whole = leAt b 36 4 then max s.twin.epoch (leAt b 32 4) else s.twin.epoch) ∧
    (partnerBeacon true b s).twin.common =
      (if digest s.cfg.whole = leAt b 36 4 then max s.twin.epoch (leAt b 32 4) else min s.twin.epoch (leAt b 32 4)) := by
  obtain ⟨-, hepoch, hcommon⟩ := partnerBeacon_pair true b s
  rw [hepoch, hcommon, leadsJudged_forms b hpaired, formPair_twin]
  exact ⟨rfl, rfl⟩

theorem partnerBeacon_paired (b : List Byte) (s : State) : (partnerBeacon true b s).twin.paired = true := by
  rw [(partnerBeacon_pair true b s).1]
  cases hpaired : s.twin.paired with
  | false =>
    rw [leadsJudged_forms b hpaired, formPair_twin]
    rfl
  | true =>
    rw [leadsJudged, if_neg (by simp [hpaired]), judgeLeads_twin]
    exact hpaired

theorem partnerBeacon_unpaired (b : List Byte) (s : State) : (partnerBeacon false b s).twin.paired = s.twin.paired := by
  rw [(partnerBeacon_pair false b s).1, leadsJudged, if_neg (by simp), judgeLeads_twin]
  rfl

/-! ### Received beacons (R357, R364) -/

theorem takeBeacon_partner {peer : Bool} {b : List Byte} {s : State} (hcrc : leAt b 60 4 = (crc32 (b.take 60)).toNat) (htwin : twinned s = true)
    (hid : leAt b 8 4 = partnerId s) (hsome : partnerId s ≠ 0) (hmine : leAt b 24 4 = sysId s) (hother : partnerId s ≠ sysId s) :
    takeBeacon peer b s = partnerBeacon peer b s := by
  unfold takeBeacon
  dsimp only
  rw [if_neg (not_not.mpr hcrc), if_pos (by simp [htwin, hid, hsome, hmine, hother])]

/-- The peer beacon of the partner counts toward the link. -/
def beaconCounted (s : State) : State := { s with twin := { s.twin with beaconsOk := s.twin.beaconsOk + 1 } }

theorem exec_peerBeacon_partner {l b : List Byte} {f : Fz} {s : State} (hlive : fzLive s = true) (hheld : (s.inj 64).heldPkt = none)
    (haction : (s.inj 64).action = 0) (hparse : fzParse 4 l = some f) (hbody : f.body = b) (hcrc : leAt b 60 4 = (crc32 (b.take 60)).toNat)
    (htwin : twinned s = true) (hid : leAt b 8 4 = partnerId s) (hsome : partnerId s ≠ 0) (hmine : leAt b 24 4 = sysId s)
    (hother : partnerId s ≠ sysId s) : exec (.peerBeacon l) s = .next (partnerBeacon true b (beaconCounted s)) := by
  obtain ⟨-, -, -, hexec, -⟩ := exec_frames hlive hheld haction l 0
  obtain ⟨-, -, -, htaken, -⟩ := fzPass_taken l f 0 s
  rw [hexec, htaken hparse]
  subst hbody
  unfold takeFzBeacon
  dsimp only
  rw [if_pos (by simp [hcrc])]
  exact congrArg Host.Outcome.next (takeBeacon_partner (s := beaconCounted s) hcrc htwin hid hsome hmine hother)

theorem exec_networkBeacon {port : Nat} {b : List Byte} {s : State} (hport : port < 2) (hon : s.cfg.active.portOn port = true)
    (hlog : canLog s = true) (hlength : b.length = 128) : exec (.networkBeacon port b) s = .next (takeBeacon false b s) :=
  if_pos (by simp [hport, hon, hlog, hlength])

/-- A beacon of neither the partner's nor the own system ID changes nothing. -/
theorem takeBeacon_other {b : List Byte} {s : State} (hcrc : leAt b 60 4 = (crc32 (b.take 60)).toNat) (hpartner : leAt b 8 4 ≠ partnerId s)
    (hown : leAt b 8 4 ≠ sysId s) : takeBeacon false b s = s := by
  unfold takeBeacon
  dsimp only
  rw [if_neg (not_not.mpr hcrc), if_neg (by simp [hpartner]), if_neg (by simp), if_neg fun h => hown h.1]

/-- What the partner's beacon says, after its roles, the mode and a takeover. -/
theorem partnerBeacon_says (peer : Bool) (b : List Byte) (s : State) : (partnerBeacon peer b s).twin.partnerDev = leAt b 64 1 ∧
    (partnerBeacon peer b s).twin.partnerEpoch = leAt b 32 4 ∧ (partnerBeacon peer b s).twin.partnerDigest = leAt b 36 4 ∧
    (partnerBeacon peer b s).twin.partnerGm = leAt b 72 8 ∧ (partnerBeacon peer b s).twin.beaconsOk = s.twin.beaconsOk ∧
    (partnerBeacon peer b s).twin.peerSeen = (peer || s.twin.peerSeen) ∧ (partnerBeacon peer b s).twin.netSeen = (!peer || s.twin.netSeen) := by
  obtain ⟨w, hw, v, hv, hroles⟩ := partnerBeacon_keeps peer b s
  rw [hroles, hv, hw]
  cases peer <;> exact ⟨rfl, rfl, rfl, rfl, rfl, rfl, rfl⟩

end Sys2Proof.Machine

open Sys2Proof Sys2Proof.Machine

/-- Settles O50: a beacon by what it says, the roles by who leads, the takeover by how the LEAD leaves. The epochs of a pair that forms with unequal
digests are the model's reading (log entry 79), as is that NETWORK_BEACON of another ID changes nothing and raises no PARTNER_WRONG, where R357 and
R364 differ (log entry 43). -/
theorem beaconsFormPairsAndSettleRoles : Obligations.BeaconsFormPairsAndSettleRoles := by
  intro s b
  refine ⟨fun l f hlive hheld haction hparse hbody hcrc htwin hid hsome hmine hother => ?peer, fun port hport hon hlog hlength => ⟨fun hbad => ?bad,
    fun hcrc hpartner hown => ?others, fun hcrc htwin hid hsome hmine hother => ?network⟩⟩
  case peer =>
    obtain ⟨hdev, hepoch, hdigest, hgm, hcount, hseen, -⟩ := partnerBeacon_says true b (beaconCounted s)
    refine ⟨_, exec_peerBeacon_partner hlive hheld haction hparse hbody hcrc htwin hid hsome hmine hother, partnerBeacon_frame true b _,
      partnerBeacon_paired b _, hseen, hcount, hdev, hepoch, hdigest, hgm, fun hnew hrole hlead hlevel hdrives => ?_, fun hnew => ?_,
      fun hpaired hrole hmode hcfg hreleased hleaves => ?_, fun hrole hlead hlower => ?_, fun hrole hlead hhigher hdrives => ?_⟩
    · exact partnerBeacon_settles (s := beaconCounted s) hnew hrole hlead hlevel hdrives
    · exact partnerBeacon_epochs (s := beaconCounted s) hnew
    · obtain ⟨trole, traised⟩ := partnerBeacon_takesOver (peer := true) (s := beaconCounted s) (fun _ => hpaired) hrole hmode hcfg hreleased hleaves
      exact ⟨trole, traised.of_log rfl rfl⟩
    · exact partnerBeacon_staysLead (s := beaconCounted s) hrole hlead hlower
    · exact partnerBeacon_yields (s := beaconCounted s) hrole hlead hhigher hdrives
  case bad =>
    rw [exec_networkBeacon hport hon hlog hlength]
    exact congrArg Host.Outcome.next (if_pos hbad)
  case others =>
    rw [exec_networkBeacon hport hon hlog hlength, takeBeacon_other hcrc hpartner hown]
  case network =>
    obtain ⟨hdev, hepoch, -, -, -, -, hseen⟩ := partnerBeacon_says false b s
    rw [exec_networkBeacon hport hon hlog hlength, takeBeacon_partner hcrc htwin hid hsome hmine hother]
    exact ⟨_, rfl, partnerBeacon_frame false b s, hseen, partnerBeacon_unpaired b s, hdev, hepoch,
      fun hrole hlead hhigher hdrives => partnerBeacon_yields hrole hlead hhigher hdrives,
      fun hrole hlead hlower => partnerBeacon_staysLead hrole hlead hlower,
      fun hrole hmode hcfg hreleased hleaves => partnerBeacon_takesOver (fun h => by cases h) hrole hmode hcfg hreleased hleaves⟩
end

section
/-! PROOFS. The log and lifetime regions, their sectors, and a snapshot as one run (R394, R395, R397, R399, Table 15.10). -/

namespace Sys2Proof.Machine

/-! ### Where records go -/

@[simp] theorem region_setRegion (lifetime : Bool) (r : Region) (st : Store) : (st.setRegion lifetime r).region lifetime = r := by
  cases lifetime <;> rfl

theorem waitingFor_log {x : Record} {l : List Record} {s : State} (hbuffer : s.log.buffer = x :: l) (hflushing : 0 < s.log.flushing) :
    waitingFor false s = x :: l.take (s.log.flushing - 1) := by
  show s.log.buffer.take s.log.flushing = _
  rw [hbuffer, ← List.take_succ_cons, Nat.sub_add_cancel hflushing]

/-- The record that stands at the front of those that wait is programmed. -/
theorem exec_recordWrite {lifetime : Bool} {x : Record} {l : List Record} (readBack : Nat) {s : State} (hserves : storeServes s = true)
    (hwaits : waitingFor lifetime s = x :: l)
    (hfree : (s.store.region lifetime).slots.any (fun p => p.1 == (s.store.region lifetime).writeSlot) = false) :
    exec (.recordWrite lifetime readBack) s = .next (if readBack = 0 then
      recordDone lifetime x (freshFails lifetime ((s.store.region lifetime).writeSlot / sectorSlots) (programRecord lifetime x s))
      else slotFails lifetime (if readBack = 1 then .torn else .corrupt) s) := by
  show execRecordWrite lifetime readBack s = _
  unfold execRecordWrite
  rw [hwaits]
  exact if_pos (by simp [hserves, hfree])

/-- A write pointer in a new sector counts afresh, and nothing else of its region changes. -/
theorem freshFails_eq (lifetime : Bool) (sector : Nat) (s : State) : freshFails lifetime sector s = { s with
    store := s.store.setRegion lifetime { s.store.region lifetime with failsHere := ((freshFails lifetime sector s).store.region lifetime).failsHere } } := by
  unfold freshFails
  dsimp only
  rw [region_setRegion]
  split <;> rfl

/-- The oldest record of the log has been programmed. -/
theorem recordDone_log (x : Record) (sector : Nat) (s : State) : ∃ n, recordDone false x (freshFails false sector (programRecord false x s)) = { s with
    store := { s.store with log := { s.store.log.program (regionSlots false s.store.flashMb) (.valid x) with failsHere := n } }
    log := { s.log with buffer := s.log.buffer.drop 1, flushing := s.log.flushing - 1, flushedSeq := x.seq } } :=
  ⟨_, congrArg (recordDone false x) (freshFails_eq false sector (programRecord false x s))⟩

/-! ### A record of the lifetime region -/

/-- The lifetime record has been programmed, before it is noted. -/
def lifeProgrammed (x : Record) (n : Nat) (s : State) : State := { s with store := { s.store with
  lifeRegion := { s.store.lifeRegion.program (regionSlots true s.store.flashMb) (.valid x) with failsHere := n }
  lifeOut := s.store.lifeOut.drop 1
  snap := if x.code = 0x9101 then (match s.store.snapNext with | some p => some p | none => s.store.snap) else s.store.snap
  snapNext := if x.code = 0x9101 then none else s.store.snapNext
  checkpoint := if x.code = 0x9101 then [] else s.store.checkpoint
  snapAge := if x.code = 0x9101 then 0 else s.store.snapAge } }

theorem recordDone_life (x : Record) (sector : Nat) (s : State) :
    ∃ n, recordDone true x (freshFails true sector (programRecord true x s)) = noteStored x (lifeProgrammed x n s) :=
  ⟨_, congrArg (recordDone true x) (freshFails_eq true sector (programRecord true x s))⟩

/-- What the flash holds of a channel's model once a record stands in it. -/
theorem noteStored_chan (x : Record) {s : State} {c : Nat} (hc : c < 208) : (noteStored x s).chan c = { s.chan c with model := { (s.chan c).model with
    recordWas := if x.code = 0x9103 ∧ x.inst = c ∧ (s.store.lifeOut.any fun r => r.code == 0x9103 && r.inst == c) = false then (s.chan c).model.record
      else (s.chan c).model.recordWas } } := by
  by_cases hmodel : x.code = 0x9103 ∧ ¬ waitsModel s.store x.inst
  · rw [show noteStored x s = s.modModel x.inst fun m => { m with recordWas := m.record } from if_pos hmodel]
    obtain ⟨hcode, hlast⟩ := hmodel
    by_cases hinst : x.inst = c
    · subst hinst
      rw [if_pos ⟨hcode, rfl, Bool.eq_false_iff.mpr hlast⟩]
      exact chan_modChan_self s _ hc
    · rw [if_neg fun h => hinst h.2.1]
      exact chan_modChan_other s _ (Ne.symm hinst)
  · have hkept : (noteStored x s).chan c = s.chan c := by
      unfold noteStored
      rw [if_neg hmodel]
      split <;> rfl
    rw [hkept, if_neg]
    rintro ⟨hcode, rfl, hlast⟩
    exact hmodel ⟨hcode, Bool.eq_false_iff.mp hlast⟩

theorem noteStored_eq (x : Record) (s : State) :
    noteStored x s = { s with chans := (noteStored x s).chans, store := { s.store with ageWas := (noteStored x s).store.ageWas } } := by
  unfold noteStored
  split
  · rfl
  split <;> rfl

/-! ### A slot that does not read back (R394, R402) -/

theorem sectorAdvice_reports (s : State) : Reports s (sectorAdvice s) := by
  unfold sectorAdvice
  split
  · exact raise_reports _ _ _ _
  · exact .rfl' s

/-- The slot has failed, before the failure of its sector is reported. -/
def slotFailed (lifetime : Bool) (left : Slot) (s : State) : State :=
  let r := s.store.region lifetime
  let r1 := { r with retired := if r.failsHere + 1 = 3 then r.retired ++ [r.writeSlot / sectorSlots] else r.retired }.program
    (regionSlots lifetime s.store.flashMb) left
  { s with store := s.store.setRegion lifetime { r1 with
      failsHere := if r.failsHere + 1 = 3 ∨ r1.writeSlot / sectorSlots ≠ r.writeSlot / sectorSlots then 0 else r.failsHere + 1 } }

theorem slotFails_eq (lifetime : Bool) (left : Slot) (s : State) : slotFails lifetime left s =
    if (s.store.region lifetime).failsHere + 1 = 3 then sectorAdvice ((slotFailed lifetime left s).raise 0x9007 0
      [word (regionOffset lifetime + (s.store.region lifetime).writeSlot / sectorSlots * 0x10000), 1])
    else slotFailed lifetime left s := rfl

theorem slotFails_few {lifetime : Bool} {s : State} (left : Slot) (h : (s.store.region lifetime).failsHere < 2) :
    slotFails lifetime left s = slotFailed lifetime left s := if_neg (by omega)

theorem slotFails_reports (lifetime : Bool) (left : Slot) (s : State) : Reports (slotFailed lifetime left s) (slotFails lifetime left s) := by
  rw [slotFails_eq]
  split
  · exact (raise_reports _ _ _ _).trans (sectorAdvice_reports _)
  · exact .rfl' _

/-- The third failure of a sector is reported. -/
theorem slotFails_third {left : Slot} {s : State} (h : s.store.log.failsHere = 2) :
    Raised 0x9007 0 [word (0x2000000 + s.store.log.writeSlot / 1024 * 0x10000), 1] s (slotFails false left s) := by
  have hraised : Raised 0x9007 0 [word (0x2000000 + s.store.log.writeSlot / 1024 * 0x10000), 1] (slotFailed false left s) (slotFails false left s) := by
    rw [slotFails_eq, if_pos (by rw [show s.store.region false = s.store.log from rfl, h])]
    unfold sectorAdvice
    split
    · exact raised_raise _ rfl (canLog_congr (raise_reports _ _ _ _).keeper) (by decide)
    · exact raise_raised _ _ _ _
  exact hraised.of_log rfl rfl

/-! ### The sectors (R394, R403) -/

/-- The count of erases of a sector. -/
theorem eraseSector_counts (x : Nat) (r : Region) : (((r.eraseSector x).erases.find? (fun e => e.1 == x)).map (·.2)).getD 0 =
    ((r.erases.find? (fun e => e.1 == x)).map (·.2)).getD 0 + 1 := by
  unfold Region.eraseSector
  dsimp only
  split
  · rename_i hknown
    obtain ⟨e, he⟩ := Option.isSome_iff_exists.mp (List.find?_isSome.mpr (List.any_eq_true.mp hknown))
    have hsame : ((fun e : Nat × Nat => e.1 == x) ∘ fun e => if (e.1 == x) = true then (x, e.2 + 1) else e) = fun e => e.1 == x := by
      funext e
      by_cases h : e.1 = x <;> simp [h]
    have hfound : e.1 = x := eq_of_beq (List.find?_some (p := fun e : Nat × Nat => e.1 == x) he)
    rw [List.find?_map, hsame, he]
    simp [hfound]
  · rename_i hnew
    have hnone : r.erases.find? (fun e => e.1 == x) = none := List.find?_eq_none.mpr fun e he h => hnew (List.any_eq_true.mpr ⟨e, he, h⟩)
    rw [List.find?_cons_of_pos (by simp), hnone]
    rfl

/-- The sector that SECTOR_ERASE of the log region erases. -/
theorem exec_sectorErase_log {n : Nat} (ok : Bool) {s : State} (hserves : storeServes s = true)
    (hn : n = eraseTarget (regionSlots false s.store.flashMb) s.store.log) : exec (.sectorErase false ok) s =
      .next (if s.store.log.slots.any (fun p => p.1 / 1024 == n) then
        (if ok then { s with store := { s.store with log := s.store.log.eraseSector n } }
          else s.raise 0x9007 0 [word (0x2000000 + n * 0x10000), 2])
        else s) := by
  subst hn
  show execSectorErase false ok s = _
  unfold execSectorErase
  dsimp only
  rw [hserves, Bool.true_and]
  exact (apply_ite Host.Outcome.next _ _ _).symm

/-! ### A snapshot (R399) -/

/-- From `s` to `t` the records `run` have joined those that wait for the lifetime region. -/
def Appends (run : List Record) (s t : State) : Prop :=
  t = { s with store := { s.store with
    lifeRegion := { s.store.lifeRegion with nextSeq := t.store.lifeRegion.nextSeq }, lifeOut := s.store.lifeOut ++ run } }

/-- What an appended run makes of the state, up to the next sequence number. -/
theorem Appends.next {run : List Record} {s t : State} (h : Appends run s t) : ∃ q, t = { s with store := { s.store with
    lifeRegion := { s.store.lifeRegion with nextSeq := q }, lifeOut := s.store.lifeOut ++ run } } := ⟨_, h⟩

theorem Appends.nil (s : State) : Appends [] s s := by
  unfold Appends
  rw [List.append_nil]

theorem Appends.trans {a b : List Record} {s t u : State} (h : Appends a s t) (k : Appends b t u) : Appends (a ++ b) s u := by
  unfold Appends at *
  rw [k, h, ← List.append_assoc]

theorem lifeRec_appends (code inst : Nat) (data : List Word) (s : State) :
    ∃ r : Record, r.code = code ∧ r.data = data ∧ Appends [r] s (lifeRec code inst data s) := ⟨_, rfl, rfl, rfl⟩

/-- Records have joined those that wait for the lifetime region. -/
def Grows (s t : State) : Prop := ∃ run, Appends run s t

theorem Grows.rfl' (s : State) : Grows s s := ⟨[], .nil s⟩

theorem Grows.trans {s t u : State} (h : Grows s t) (k : Grows t u) : Grows s u := by
  obtain ⟨a, ha⟩ := h
  obtain ⟨b, hb⟩ := k
  exact ⟨a ++ b, ha.trans hb⟩

theorem lifeRec_grows (code inst : Nat) (data : List Word) (s : State) : Grows s (lifeRec code inst data s) := by
  obtain ⟨r, -, -, h⟩ := lifeRec_appends code inst data s
  exact ⟨[r], h⟩

theorem forUnits_grows {f : Nat → State → State} (hf : ∀ k u, Grows u (f k u)) (n : Nat) (s : State) : Grows s (forUnits n f s) :=
  forUnits_invariant (P := Grows s) (fun k u h => h.trans (hf k u)) n (.rfl' s)

theorem lifeRetired_grows (lifetime : Bool) (s : State) : Grows s (lifeRetired lifetime s) := forUnits_grows (fun _ _ => lifeRec_grows _ _ _ _) _ s

/-- The records of a snapshot between its begin and its end: values, models, ageing and retired sectors. -/
def snapshotBody (s : State) : State :=
  let s2 := forUnits 221 (fun u s =>
    forUnits (chunks8 ((lifeIds u).map fun id => SMap.get 0 id s.store.life)).length (fun i t => lifeRec 0x9102 (lifeInst u)
      (word i :: (chunks8 ((lifeIds u).map fun id => SMap.get 0 id s.store.life)).getD i []) t) s) s
  let s3 := forUnits 208 (fun c s => match (s.chan c).model.record with | some m => lifeModel c m s | none => s) s2
  let s4 := s3.store.age.foldl (fun s a =>
    lifeRec 0x9105 (ageInst a.1 a.2.1) [word a.1, f32Of a.2.2.baseline]
      (lifeRec 0x9104 (ageInst a.1 a.2.1) [word a.1, f32Of a.2.2.margin, f32Of a.2.2.last] s)) s3
  lifeRetired false (lifeRetired true s4)

theorem snapshotBody_grows (s : State) : Grows s (snapshotBody s) := by
  unfold snapshotBody
  extract_lets s2 s3 s4
  have h2 : Grows s s2 := forUnits_grows (fun _ u => forUnits_grows (fun _ _ => lifeRec_grows _ _ _ _) _ u) 221 s
  have h3 : Grows s2 s3 := forUnits_grows (fun c u => by
    split
    · exact lifeRec_grows _ _ _ u
    · exact .rfl' u) 208 s2
  have h4 : Grows s3 s4 := foldl_invariant (P := Grows s3) (fun u a h => h.trans ((lifeRec_grows _ _ _ u).trans (lifeRec_grows _ _ _ _)))
    s3.store.age (.rfl' s3)
  exact ((h2.trans h3).trans h4).trans ((lifeRetired_grows true s4).trans (lifeRetired_grows false _))

/-- A snapshot with its number: begun, but for its records. -/
def snapshotBegun (s : State) : State :=
  lifeRec 0x9100 0 [word (s.store.snapNumber + 1)] { s with store := { s.store with snapNumber := s.store.snapNumber + 1 } }

/-- The run of a snapshot has its END, which counts its records and carries their CRC-32. -/
def snapshotEnded (n first : Nat) (s : State) : State :=
  let s6 := lifeRec 0x9101 0 [word n, word (s.store.lifeOut.drop first).length, crc32 ((s.store.lifeOut.drop first).flatMap recordBytes)] s
  { s6 with store := { s6.store with snapNext := some ⟨n, s6.store.life, s6.store.log.retired, s6.store.lifeRegion.retired⟩ } }

theorem snapshot_eq (s : State) :
    snapshot s = snapshotEnded (s.store.snapNumber + 1) s.store.lifeOut.length (snapshotBody (snapshotBegun s)) := rfl

/-- A snapshot is one run of records from its BEGIN to its END. -/
theorem snapshot_run (s : State) : ∃ (b e : Record) (body : List Record) (q : Nat),
    b.code = 0x9100 ∧ b.data = [word (s.store.snapNumber + 1)] ∧ e.code = 0x9101 ∧
    e.data = [word (s.store.snapNumber + 1), word (b :: body).length, crc32 ((b :: body).flatMap recordBytes)] ∧
    snapshot s = { s with store := { s.store with
      snapNumber := s.store.snapNumber + 1, lifeRegion := { s.store.lifeRegion with nextSeq := q }, lifeOut := s.store.lifeOut ++ (b :: body ++ [e])
      snapNext := some ⟨s.store.snapNumber + 1, s.store.life, s.store.log.retired, s.store.lifeRegion.retired⟩ } } := by
  obtain ⟨b, hbcode, hbdata, hbegun⟩ := lifeRec_appends 0x9100 0 [word (s.store.snapNumber + 1)]
    { s with store := { s.store with snapNumber := s.store.snapNumber + 1 } }
  obtain ⟨body, hbody⟩ := snapshotBody_grows (snapshotBegun s)
  have hrun := hbegun.trans hbody
  have hdrop : (snapshotBody (snapshotBegun s)).store.lifeOut.drop s.store.lifeOut.length = b :: body := by
    rw [hrun]
    exact List.drop_left
  obtain ⟨e, hecode, hedata, hended⟩ := lifeRec_appends 0x9101 0
    [word (s.store.snapNumber + 1), word (b :: body).length, crc32 ((b :: body).flatMap recordBytes)] (snapshotBody (snapshotBegun s))
  obtain ⟨q, hall⟩ := (hrun.trans hended).next
  refine ⟨b, e, body, q, hbcode, hbdata, hecode, hedata, ?_⟩
  rw [snapshot_eq, snapshotEnded]
  dsimp only
  rw [hdrop, hall]
  rfl

end Sys2Proof.Machine

open Sys2Proof Sys2Proof.Machine

/-- Settles O53: a record by what it leaves of its region, a sector by the slots that it takes with it, a snapshot by its run. That a slot whose COMMIT
does not read back is left corrupt is the model's reading of R394 and R395; the records of retired sectors in the run are its own, too (log entry 51). -/
theorem logAndLifetimeRegions : Obligations.LogAndLifetimeRegions := by
  intro s hserves
  refine ⟨if_pos hserves, fun x l hbuffer hflushing hfree => ⟨?written, fun k hk => ?failed⟩, fun x l hout hfree => ?lifetime, fun n hn => ?erased,
    fun hdev => ?snapshot⟩
  case written =>
    obtain ⟨n, hdone⟩ := recordDone_log x (s.store.log.writeSlot / sectorSlots) s
    refine ⟨_, exec_recordWrite 0 hserves (waitingFor_log hbuffer hflushing) hfree, ?_⟩
    rw [if_pos rfl, show (s.store.region false).writeSlot = s.store.log.writeSlot from rfl, hdone, hbuffer]
    exact ⟨rfl, rfl, rfl, rfl, rfl⟩
  case failed =>
    have hleft := slotFails_reports false (if k = 1 then .torn else .corrupt) s
    refine ⟨_, (exec_recordWrite k hserves (waitingFor_log hbuffer hflushing) hfree).trans (congrArg Host.Outcome.next (if_neg (by omega))), ?_, ?_, slotFails_frame _ _ s, ?_,
      fun hthird => ⟨?_, ?_, slotFails_third hthird⟩, fun hfew => ?_⟩
    · rw [hleft]
      rfl
    · rw [hleft]
      rfl
    · rw [hleft]
      rfl
    · rw [hleft]
      show s.store.log.writeSlot / 1024 ∈ if s.store.log.failsHere + 1 = 3 then _ else _
      rw [if_pos (by omega)]
      exact List.mem_append_right _ (List.mem_singleton.mpr rfl)
    · rw [hleft]
      exact if_pos (.inl (by rw [show s.store.region false = s.store.log from rfl, hthird]))
    · rw [slotFails_few (lifetime := false) (s := s) _ hfew]
      exact ⟨if_neg (show ¬ s.store.log.failsHere + 1 = 3 by omega), rfl⟩
  case lifetime =>
    obtain ⟨n, hdone⟩ := recordDone_life x (s.store.lifeRegion.writeSlot / sectorSlots) s
    have hrest : (lifeProgrammed x n s).store.lifeOut = l := by
      show s.store.lifeOut.drop 1 = l
      rw [hout]
      rfl
    refine ⟨_, exec_recordWrite 0 hserves hout hfree, ?_⟩
    rw [if_pos rfl, show (s.store.region true).writeSlot = s.store.lifeRegion.writeSlot from rfl, hdone]
    have hnoted := noteStored_eq x (lifeProgrammed x n s)
    refine ⟨?_, ?_, fun c hc => ?_, ?_, ?_, fun hend => ?_, ?_⟩
    · rw [hnoted]
      rfl
    · rw [hnoted]
      exact hrest
    · rw [noteStored_chan x hc, hrest]
      rfl
    · rw [hnoted]
      rfl
    · rw [hnoted]
      rfl
    · rw [hnoted]
      exact if_pos hend
    · rw [hnoted]
      show (if x.code = 0x9101 then _ else _) = _
      cases s.store.snapNext <;> simp
  case erased =>
    have hexec := fun ok => exec_sectorErase_log (s := s) (n := n) ok hserves hn
    refine ⟨fun hnone ok => ?_, fun hsome => ⟨⟨_, (hexec true).trans (congrArg Host.Outcome.next (if_pos hsome)), rfl, rfl, rfl, eraseSector_counts n _⟩,
      ⟨_, (hexec false).trans (congrArg Host.Outcome.next (if_pos hsome)), raise_reports _ _ _ _, ?_, raise_raised _ _ _ _⟩⟩⟩
    · rw [hexec ok, if_neg (by simp [hnone])]
    · show (s.raise _ _ _).store.log = _
      rw [raise_reports]
  case snapshot =>
    obtain ⟨b, e, body, q, hbcode, hbdata, hecode, hedata, hrun⟩ := snapshot_run s
    refine ⟨_, b :: body ++ [e], if_pos (by simp [hserves, hdev]), ?_⟩
    rw [hrun]
    refine ⟨rfl, rfl, rfl, by simp [hbcode, hbdata], ?_, rfl, rfl, rfl⟩
    rw [List.getLast?_append, List.getLast?_singleton, List.dropLast_concat]
    simp [hecode, hedata]
end

section
/-! PROOFS. Ageing evaluations and the margins that they re-plan (R400, R401, Table 15.8). -/

namespace Sys2Proof.Machine

/-! ### The ageing record of one quantity and unit -/

@[simp] theorem ageOf_setAge_same (q i : Nat) (a : Age) (st : Store) : (st.setAge q i a).ageOf q i = a := by
  simp [Store.setAge, Store.ageOf]

theorem Touches.ageOf {s t : State} (h : Touches s t) (q i : Nat) : t.store.ageOf q i = s.store.ageOf q i := by
  rw [h]
  rfl

/-- From `s` to `t` the evaluations and the baseline of a unit stand, and of the channels only loops may differ. -/
def EvalsStand (q i : Nat) (s t : State) : Prop := (t.store.ageOf q i).evals = (s.store.ageOf q i).evals ∧
  (t.store.ageOf q i).baseline = (s.store.ageOf q i).baseline ∧ ∀ c, (t.chan c).fsm = (s.chan c).fsm ∧ (t.chan c).dsp = (s.chan c).dsp

section
variable {q i : Nat}

theorem EvalsStand.rfl' (s : State) : EvalsStand q i s s := ⟨rfl, rfl, fun _ => ⟨rfl, rfl⟩⟩

theorem EvalsStand.trans {s t u : State} (h : EvalsStand q i s t) (k : EvalsStand q i t u) : EvalsStand q i s u := by
  obtain ⟨hevals, hbase, hchans⟩ := h
  obtain ⟨kevals, kbase, kchans⟩ := k
  exact ⟨kevals.trans hevals, kbase.trans hbase, fun c => ⟨(kchans c).1.trans (hchans c).1, (kchans c).2.trans (hchans c).2⟩⟩

theorem Reports.evalsStand {s t : State} (h : Reports s t) : EvalsStand q i s t := by
  rw [EvalsStand, h.touches.ageOf]
  exact ⟨rfl, rfl, fun c => by rw [h.chan]; exact ⟨rfl, rfl⟩⟩

theorem modLoop_evalsStand (c : Nat) (f : Loop → Loop) (s : State) : EvalsStand q i s (s.modLoop c f) :=
  ⟨rfl, rfl, modChan_related (R := fun a b => b.fsm = a.fsm ∧ b.dsp = a.dsp) (fun _ => ⟨rfl, rfl⟩) ⟨rfl, rfl⟩⟩

theorem setAge_evalsStand {a : Age} {s : State} (hevals : a.evals = (s.store.ageOf q i).evals) (hbase : a.baseline = (s.store.ageOf q i).baseline) :
    EvalsStand q i s { s with store := s.store.setAge q i a } := by
  rw [EvalsStand, ageOf_setAge_same]
  exact ⟨hevals, hbase, fun _ => ⟨rfl, rfl⟩⟩

/-! ### A re-planned margin leaves what was evaluated -/

theorem takeMargins_evalsStand (c : Nat) (s : State) : EvalsStand q i s (takeMargins c s) := by
  unfold takeMargins
  split
  · exact .rfl' s
  · exact (modLoop_evalsStand c _ s).trans (modLoop_evalsStand c _ _)

theorem postMargin_evalsStand (c key : Nat) (m : Option Rat) (s : State) : EvalsStand q i s (postMargin c key m s) := by
  unfold postMargin
  dsimp only
  split
  · exact modLoop_evalsStand c _ s
  · exact (modLoop_evalsStand c _ s).trans (takeMargins_evalsStand c _)

theorem setMIdx_evalsStand (m : Rat) (s : State) : EvalsStand 3 i s (setMIdx i m s) := by
  unfold setMIdx
  dsimp only
  split
  · exact .rfl' s
  · refine EvalsStand.trans ?_ (modLoop_evalsStand i _ _)
    exact setAge_evalsStand rfl rfl

theorem setMargin_evalsStand (m : Rat) (s : State) : EvalsStand q i s (setMargin q i m s) := by
  unfold setMargin
  split
  · exact postMargin_evalsStand _ _ _ s
  · exact postMargin_evalsStand _ _ _ s
  · exact setMIdx_evalsStand m s
  · exact ⟨rfl, rfl, fun _ => ⟨rfl, rfl⟩⟩
  · exact ⟨rfl, rfl, fun _ => ⟨rfl, rfl⟩⟩
  · exact ⟨rfl, rfl, fun _ => ⟨rfl, rfl⟩⟩
  · exact .rfl' s

theorem returnMargin_evalsStand (s : State) : EvalsStand q i s (returnMargin q i s) := by
  unfold returnMargin
  extract_lets a s1
  split
  · have hstored : EvalsStand q i s s1 := setAge_evalsStand rfl rfl
    split
    · exact hstored.trans (postMargin_evalsStand _ _ _ s1)
    · exact hstored.trans (postMargin_evalsStand _ _ _ s1)
    · exact hstored.trans (setMargin_evalsStand _ s1)
  · exact .rfl' s

theorem lifeRec_evalsStand (code inst : Nat) (data : List Word) (s : State) : EvalsStand q i s (lifeRec code inst data s) :=
  ⟨rfl, rfl, fun _ => ⟨rfl, rfl⟩⟩

theorem recordReplan_evalsStand (old new x : Rat) (s : State) : EvalsStand q i s (recordReplan q i old new x s) :=
  (lifeRec_evalsStand _ _ _ s).trans (raise_reports _ _ _ _).evalsStand

theorem replan_evalsStand (base x : Rat) (s : State) : EvalsStand q i s (replan q i base x s) := by
  unfold replan
  split
  · split
    · extract_lets a old
      split
      · exact .rfl' s
      · refine EvalsStand.trans ?_ ((setMargin_evalsStand _ _).trans (recordReplan_evalsStand _ _ _ _))
        exact setAge_evalsStand rfl rfl
    · exact .rfl' s
  · exact returnMargin_evalsStand s

theorem advise_evalsStand (ok : Bool) (x : Rat) (s : State) : EvalsStand q i s (advise q i ok x s) := by
  unfold advise
  extract_lets a n s1
  split
  · exact setAge_evalsStand rfl rfl
  · have hstored : EvalsStand q i s s1 := setAge_evalsStand rfl rfl
    split
    · exact hstored
    · exact hstored.trans (raise_reports _ _ _ _).evalsStand

end

/-- Advice leaves every loop, and the margin of its unit. -/
theorem advise_margin (q i : Nat) (ok : Bool) (x : Rat) (s : State) : (∀ c, (advise q i ok x s).chan c = s.chan c) ∧
    ((advise q i ok x s).store.ageOf q i).margin = (s.store.ageOf q i).margin ∧
    ((advise q i ok x s).store.ageOf q i).replanned = (s.store.ageOf q i).replanned := by
  unfold advise
  extract_lets a n s1
  split
  · simp only [ageOf_setAge_same]
    exact ⟨fun _ => rfl, rfl, rfl⟩
  · have hstored : s1.store.ageOf q i = { a with inside := 0, flag := true, advised := true } := ageOf_setAge_same q i _ _
    split
    · rw [hstored]
      exact ⟨fun _ => rfl, rfl, rfl⟩
    · have hraised := raise_reports 0x9009 (ageInst q i) [word q, f32Of x] s1
      rw [hraised.touches.ageOf, hstored]
      exact ⟨hraised.chan, rfl, rfl⟩

/-! ### One evaluation -/

/-- An evaluation forms the field baseline of its quantity. -/
def formsBaseline (q i : Nat) (med : Rat) (s : State) : Bool :=
  fieldBaseline q && (s.store.ageOf q i).baseline == 0 && (lastFive (s.store.ageOf q i).evals med).length == 5

/-- The baseline after an evaluation. -/
def baselineAfter (q i : Nat) (med : Rat) (s : State) : Rat :=
  if formsBaseline q i med s then median (lastFive (s.store.ageOf q i).evals med) else (s.store.ageOf q i).baseline

/-- The ageing record after an evaluation. -/
def evaluatedAge (q i : Nat) (med cap : Rat) (s : State) : Age :=
  let a := s.store.ageOf q i
  let caps := if q = 3 then lastFive a.caps cap else a.caps
  { a with evals := lastFive a.evals med, caps := caps, baseline := baselineAfter q i med s
           capBase := if formsBaseline q i med s then median caps else a.capBase }

/-- The state in which an evaluation is judged. -/
def evaluated (q i : Nat) (med cap : Rat) (s : State) : State :=
  let v := median (lastFive (s.store.ageOf q i).evals med)
  let s1 : State := { s with store := s.store.setAge q i (evaluatedAge q i med cap s) }
  let s2 := if q = 1 then s1.modLoop i fun l => { l with ron := some v } else if q = 7 then s1.modDsd i fun d => { d with lineCal := d.lineCal + 1 } else s1
  if formsBaseline q i med s then lifeRec 0x9105 (ageInst q i) [word q, f32Of (baselineAfter q i med s)] s2 else s2

/-- The value by which an evaluation is judged. -/
def judgedValue (q i : Nat) (med : Rat) (s : State) : Rat := ageValue q (baselineAfter q i med s) (median (lastFive (s.store.ageOf q i).evals med))

/-- An evaluation is judged: against a baseline, or against the factory record. -/
def isJudged (q i : Nat) (med : Rat) (s : State) : Bool := if fieldBaseline q then baselineAfter q i med s != 0 else s.store.factoryValid

/-- The state in which the margin is planned: the judged value is kept. -/
def judgedState (q i : Nat) (med cap : Rat) (s : State) : State := { evaluated q i med cap s with
  store := (evaluated q i med cap s).store.setAge q i { evaluatedAge q i med cap s with last := judgedValue q i med s } }

theorem takeEvaluation_eq (q i : Nat) (med cap : Rat) (s : State) : takeEvaluation q i med cap s =
    if isJudged q i med s then
      advise q i (insideWindow q (baselineAfter q i med s) (judgedValue q i med s)) (judgedValue q i med s)
        (replan q i (baselineAfter q i med s) (judgedValue q i med s) (judgedState q i med cap s))
    else evaluated q i med cap s := rfl

theorem evaluated_age (q i : Nat) (med cap : Rat) (s : State) : (evaluated q i med cap s).store.ageOf q i = evaluatedAge q i med cap s := by
  have hstored : (s.store.setAge q i (evaluatedAge q i med cap s)).ageOf q i = evaluatedAge q i med cap s := ageOf_setAge_same q i _ _
  unfold evaluated
  extract_lets v s1 s2
  have hnoted : s2.store.ageOf q i = evaluatedAge q i med cap s := by
    unfold s2
    split
    · exact hstored
    · split <;> exact hstored
  split <;> exact hnoted

/-- Before the judgement of an evaluation only the on-resistance of a loop is new. -/
theorem evaluated_chan (q i : Nat) (med cap : Rat) (s : State) (c : Nat) : ∃ ron,
    (evaluated q i med cap s).chan c = { s.chan c with loop := { (s.chan c).loop with ron := ron } } := by
  unfold evaluated
  extract_lets v s1 s2
  have hnoted : ∃ ron, s2.chan c = { s.chan c with loop := { (s.chan c).loop with ron := ron } } := by
    unfold s2
    split
    · exact modChan_related (R := fun a b => ∃ ron, b = { a with loop := { a.loop with ron := ron } }) (fun a => ⟨a.loop.ron, rfl⟩) ⟨_, rfl⟩ c
    · split <;> exact ⟨_, rfl⟩
  split <;> exact hnoted

/-- An evaluation joins the last five; the baseline is the one that it formed, or stands; of the channels only loops may differ. -/
theorem takeEvaluation_age (q i : Nat) (med cap : Rat) (s : State) :
    ((takeEvaluation q i med cap s).store.ageOf q i).evals = lastFive (s.store.ageOf q i).evals med ∧
    ((takeEvaluation q i med cap s).store.ageOf q i).baseline = baselineAfter q i med s ∧
    ∀ c, ((takeEvaluation q i med cap s).chan c).fsm = (s.chan c).fsm ∧ ((takeEvaluation q i med cap s).chan c).dsp = (s.chan c).dsp := by
  have hstands : EvalsStand q i (evaluated q i med cap s) (takeEvaluation q i med cap s) := by
    rw [takeEvaluation_eq]
    split
    · refine EvalsStand.trans (setAge_evalsStand ?_ ?_) ((replan_evalsStand _ _ (judgedState q i med cap s)).trans (advise_evalsStand _ _ _))
      · rw [evaluated_age]
      · rw [evaluated_age]
    · exact .rfl' _
  obtain ⟨hevals, hbase, hchans⟩ := hstands
  rw [hevals, hbase, evaluated_age]
  refine ⟨rfl, rfl, fun c => ?_⟩
  obtain ⟨ron, hron⟩ := evaluated_chan q i med cap s c
  rw [(hchans c).1, (hchans c).2, hron]
  exact ⟨rfl, rfl⟩

/-- The fifth evaluation of a field quantity forms the baseline from all five. -/
theorem baselineAfter_fifth {q i : Nat} {s : State} (med : Rat) (hfield : q ≤ 5) (hnone : (s.store.ageOf q i).baseline = 0)
    (hfour : (s.store.ageOf q i).evals.length = 4) : baselineAfter q i med s = median ((s.store.ageOf q i).evals ++ [med]) := by
  have hfive : lastFive (s.store.ageOf q i).evals med = (s.store.ageOf q i).evals ++ [med] := by simp [lastFive, hfour]
  have hforms : formsBaseline q i med s = true := by simp [formsBaseline, fieldBaseline, hfield, hnone, hfive, hfour]
  rw [baselineAfter, if_pos hforms, hfive]

theorem baselineAfter_formed {q i : Nat} {s : State} (med : Rat) (hformed : (s.store.ageOf q i).baseline ≠ 0) :
    baselineAfter q i med s = (s.store.ageOf q i).baseline := if_neg (by simp [formsBaseline, hformed])

/-! ### The current-limit threshold -/

/-- Of the margins that are due the last for the current limit acts. -/
theorem takeMargins_ilim {c : Nat} (hc : c < 208) {l : List (Nat × Option Rat)} {m : Option Rat} {s : State}
    (hdue : (s.chan c).loop.marginDue = l ++ [(1, m)]) : ((takeMargins c s).chan c).loop.ilim = m := by
  unfold takeMargins
  rw [if_neg (by simp [hdue])]
  dsimp only
  rw [chan_modLoop_self _ _ hc, chan_modLoop_self _ _ hc]
  simp [hdue, applyMargin]

theorem armed_modLoop (c : Nat) (f : Loop → Loop) (s : State) (k : Nat) : armed (s.modLoop c f) k = armed s k := by
  have hfsm := modChan_related (R := fun a b => b.fsm = a.fsm) (fun _ => rfl) (s := s) (c := c) (f := fun h => { h with loop := f h.loop }) rfl k
  unfold armed
  rw [show ((s.modLoop c f).chan k).fsm = (s.chan k).fsm from hfsm]

/-- A current limit acts at once where the bridge does not switch; else it waits for the next cycle. -/
theorem postMargin_ilim {c : Nat} (hc : c < 208) (m : Option Rat) (s : State) :
    (armed s c = false → ((postMargin c 1 m s).chan c).loop.ilim = m) ∧
    (armed s c = true → ((postMargin c 1 m s).chan c).loop.ilim = (s.chan c).loop.ilim ∧ (1, m) ∈ ((postMargin c 1 m s).chan c).loop.marginDue) := by
  unfold postMargin
  dsimp only
  constructor
  · intro hopen
    rw [if_neg (by simp [hopen])]
    exact takeMargins_ilim hc (by rw [chan_modLoop_self _ _ hc])
  · intro hswitches
    rw [if_pos hswitches, chan_modLoop_self _ _ hc]
    exact ⟨rfl, List.mem_append_right _ (List.mem_singleton.mpr rfl)⟩

theorem postMargin_age {c : Nat} (hc : c < 208) (key : Nat) (m : Option Rat) (s : State) (q i : Nat) :
    (postMargin c key m s).store.ageOf q i = s.store.ageOf q i := by
  have hposted := modLoop_loopsOnly hc s fun l => { l with marginDue := l.marginDue.filter (·.1 != key) ++ [(key, m)] }
  unfold postMargin
  dsimp only
  split
  · rfl
  · exact (hposted.trans (takeMargins_loop hc _).1).1.1.ageOf q i

theorem recordReplan_age (q i : Nat) (old new x : Rat) (s : State) : (∀ c, (recordReplan q i old new x s).chan c = s.chan c) ∧
    (recordReplan q i old new x s).store.ageOf q i = s.store.ageOf q i := by
  have hraised := raise_reports 0x9008 (ageInst q i) [word q, f32Of old, f32Of new] (lifeRec 0x9104 (ageInst q i) [word q, f32Of new, f32Of x] s)
  exact ⟨hraised.chan, hraised.touches.ageOf q i⟩

/-- The current-limit threshold of channel `i` is `m` in its record, and acts at once where the bridge of `s` does not switch, else from the next
cycle. -/
def LimitPlanned (i : Nat) (m : Rat) (s t : State) : Prop :=
  (armed s i = false → (t.chan i).loop.ilim = some m) ∧
  (armed s i = true → (t.chan i).loop.ilim = (s.chan i).loop.ilim ∧ (1, some m) ∈ (t.chan i).loop.marginDue) ∧
  (t.store.ageOf 1 i).margin = m ∧ (t.store.ageOf 1 i).replanned = true

/-- A first re-plan of the on-resistance ratio sets the threshold of Table 15.8. -/
theorem replan_limit {i : Nat} (hi : i < 208) {base x m : Rat} {s : State} (hplans : s.flag 0x01 0 0xD = true) (hfactory : s.store.factoryValid = true)
    (hfirst : (s.store.ageOf 1 i).replanned = false) (hm : newMargin s 1 i base x = some m) (hnew : m ≠ plainMargin s 1 i) :
    LimitPlanned i m s (replan 1 i base x s) := by
  unfold replan LimitPlanned
  rw [if_pos (by simp [hplans, hfactory]), hm]
  dsimp only
  rw [if_neg (by simp [hfirst, hnew])]
  obtain ⟨hchan, hage⟩ := recordReplan_age 1 i (if (s.store.ageOf 1 i).replanned = true then (s.store.ageOf 1 i).margin else plainMargin s 1 i) m x
    (setMargin 1 i m { s with store := s.store.setAge 1 i { s.store.ageOf 1 i with margin := m, replanned := true } })
  obtain ⟨hopen, hswitches⟩ := postMargin_ilim hi (some m)
    { s with store := s.store.setAge 1 i { s.store.ageOf 1 i with margin := m, replanned := true } }
  rw [hchan, hage]
  refine ⟨hopen, hswitches, ?_⟩
  show ((postMargin i 1 (some m) _).store.ageOf 1 i).margin = m ∧ ((postMargin i 1 (some m) _).store.ageOf 1 i).replanned = true
  rw [postMargin_age hi, ageOf_setAge_same]
  exact ⟨rfl, rfl⟩

/-- The threshold of Table 15.8 for a ratio `x` and a threshold without a re-plan. -/
theorem newMargin_limit (s : State) (i : Nat) (base x : Rat) : newMargin s 1 i base x =
    some (if 1 ≤ x ∧ x ≤ 144/100 then s.ratv 0x10 i 0x14 / sqrtR x else s.ratv 0x10 i 0x14 * 5 / 6) := by
  simp [newMargin, insideWindow, plainMargin]

/-- What is judged leaves the configuration and the factory record. -/
theorem judgedState_says (q i : Nat) (med cap : Rat) (s : State) : (judgedState q i med cap s).cfg = s.cfg ∧
    (judgedState q i med cap s).store.factoryValid = s.store.factoryValid := by
  have hnoted : (evaluated q i med cap s).cfg = s.cfg ∧ (evaluated q i med cap s).store.factoryValid = s.store.factoryValid := by
    unfold evaluated
    extract_lets v s1 s2
    have hs2 : s2.cfg = s.cfg ∧ s2.store.factoryValid = s.store.factoryValid := by
      unfold s2
      split
      · exact ⟨rfl, rfl⟩
      · split <;> exact ⟨rfl, rfl⟩
    split <;> exact hs2
  exact hnoted

/-- The evaluation of the on-resistance ratio with a baseline and no re-plan yet plans the threshold. -/
theorem takeEvaluation_limit {i : Nat} (hi : i < 208) {med cap m : Rat} {s : State} (hplans : s.flag 0x01 0 0xD = true)
    (hfactory : s.store.factoryValid = true) (hbase : (s.store.ageOf 1 i).baseline ≠ 0) (hfirst : (s.store.ageOf 1 i).replanned = false)
    (hm : newMargin s 1 i (baselineAfter 1 i med s) (judgedValue 1 i med s) = some m) (hnew : m ≠ plainMargin s 1 i) :
    LimitPlanned i m s (takeEvaluation 1 i med cap s) := by
  have hjudged : isJudged 1 i med s = true := by
    simp [isJudged, fieldBaseline, baselineAfter_formed med hbase, hbase]
  obtain ⟨hcfg, hvalid⟩ := judgedState_says 1 i med cap s
  have hrat : (judgedState 1 i med cap s).ratv 0x10 i 0x14 = s.ratv 0x10 i 0x14 := by simp only [State.ratv, hcfg]
  have hplanned : LimitPlanned i m (judgedState 1 i med cap s)
      (replan 1 i (baselineAfter 1 i med s) (judgedValue 1 i med s) (judgedState 1 i med cap s)) := by
    refine replan_limit hi ?_ (hvalid.trans hfactory) ?_ ?_ (fun h => hnew (h.trans hrat))
    · rwa [State.flag, hcfg]
    · rw [show (judgedState 1 i med cap s).store.ageOf 1 i = _ from ageOf_setAge_same 1 i _ _]
      exact hfirst
    · rw [newMargin_limit, hrat, ← newMargin_limit, hm]
  obtain ⟨ron, hchan⟩ := evaluated_chan 1 i med cap s i
  have harmed : armed (judgedState 1 i med cap s) i = armed s i := by
    unfold armed
    rw [show (judgedState 1 i med cap s).chan i = _ from hchan]
  have hilim : ((judgedState 1 i med cap s).chan i).loop.ilim = (s.chan i).loop.ilim := by
    rw [show (judgedState 1 i med cap s).chan i = _ from hchan]
  rw [takeEvaluation_eq, if_pos hjudged]
  obtain ⟨kchan, kmargin, kreplanned⟩ := advise_margin 1 i (insideWindow 1 (baselineAfter 1 i med s) (judgedValue 1 i med s)) (judgedValue 1 i med s)
    (replan 1 i (baselineAfter 1 i med s) (judgedValue 1 i med s) (judgedState 1 i med cap s))
  unfold LimitPlanned at *
  rwa [kchan, kmargin, kreplanned, ← harmed, ← hilim]

theorem ageUnit_channel {s : State} {i : Nat} (h : ageUnit s 1 i = true) : i < 208 := by
  simp [ageUnit] at h
  exact h.1

theorem exec_ageingEvaluation {q i : Nat} (med cap : Rat) {s : State} (hserves : keeperFree s = true) (hwaits : storeWaits s = false)
    (hdev : s.keeper.dev ≠ .standby) (hmonitors : s.flag 0x01 0 0xC = true) (hunit : ageUnit s q i = true) :
    exec (.ageingEvaluation q i med cap) s = .next (takeEvaluation q i med cap s) :=
  if_pos (by simp [hserves, hwaits, hdev, hmonitors, hunit])

/-! ### The second write of a modulation limit (R401) -/

/-- The second write of a modulation limit: both targets hold it, and none waits. -/
def secondWritten (c : Nat) (m : Rat) (s : State) : State :=
  ({ s with store := s.store.setAge 3 c { s.store.ageOf 3 c with pendingSecond := none } } : State).modLoop c fun l =>
    { l with mIdxDsp := m, mIdxClamp := m }

theorem exec_replanSecondWrite {c : Nat} {m : Rat} {s : State} (hpending : (s.store.ageOf 3 c).pendingSecond = some m) (hruns : s.keeper.halted = false)
    (hdue : (s.chan c).loop.mIdxAt + 24 ≤ s.media.samples) : exec (.replanSecondWrite c) s = .next (secondWritten c m s) := by
  show execReplanSecondWrite c s = _
  rw [execReplanSecondWrite, hpending, hruns]
  exact if_neg (by simp; omega)

end Sys2Proof.Machine
end

section
/-! PROOFS. The ends of requested tests, packets and frames that an injector held, and the ageing rows together (R400 to R411). -/

namespace Sys2Proof.Machine

/-! ### A requested test ends (R406) -/

theorem undoForce_log (t : Test) (s : State) : (undoForce t s).log = s.log := by
  unfold undoForce
  repeat' split
  · rfl
  · rfl
  · rfl
  · rfl
  · exact forList_invariant (P := fun u => u.log = s.log) (f := fun c s => s.modFsm c fun f => { f with holdTest := false }) (fun _ _ h => h)
      (fedBy t.inst) rfl
  · rfl

/-- Of a test without FORCE nothing of the channels is undone, and of a controller only what the test held. -/
theorem undoForce_unforced {t : Test} (h : t.force = false) (s : State) : (undoForce t s).chans = s.chans ∧
    ∀ k, SameRail (s.rail k) ((undoForce t s).rail k) := by
  unfold undoForce
  split
  · exact ⟨rfl, modRail_sameRail s _ fun _ => rfl⟩
  · rw [if_pos (by simp [h])]
    exact ⟨rfl, fun _ => rfl⟩

/-- What the end of test `u` does: its result stands under its ticket and is reported; the other tests stand. -/
def TestEnded (n e r : Nat) (v : List Byte) (u : Test) (s t : State) : Prop :=
  Quiet s t ∧ Raised 0xA001 u.id [word n, word e, word r, word u.inst] s t ∧
  t.tests.list = s.tests.list.map (fun w => if w.ticket == n then { w with state := e, code := r, values := v } else w) ∧
  (u.force = false → t.chans = s.chans ∧ ∀ k, SameRail (s.rail k) (t.rail k))

theorem endTest_ended {n : Nat} {u : Test} {s : State} (hfound : s.tests.list.find? (fun t => t.ticket == n && t.state == 0) = some u) (e r : Nat)
    (v : List Byte) : TestEnded n e r v u s (endTest n e r v s) := by
  have hquiet : Quiet s (endTest n e r v s) := endTest_frame n e r v s
  unfold endTest at *
  rw [hfound] at *
  have hraised := raise_reports 0xA001 u.id [word n, word e, word r, word u.inst] { undoForce u s with tests := { s.tests with
    list := s.tests.list.map fun w => if w.ticket == n then { w with state := e, code := r, values := v } else w } }
  refine ⟨hquiet, (raise_raised _ _ _ _).of_log ?_ ?_, ?_, fun hforce => ?_⟩
  · exact congrArg Log.nextSeq (undoForce_log u s)
  · exact congrArg Log.waiting (undoForce_log u s)
  · dsimp only
    rw [hraised]
  · obtain ⟨hchans, hrails⟩ := undoForce_unforced hforce s
    refine ⟨?_, fun k => ?_⟩
    · dsimp only
      rw [hraised]
      exact hchans
    · dsimp only
      rw [hraised.rail]
      exact hrails k

theorem exec_selfTestDone {n : Nat} (st code : Nat) (values : List Byte) {u : Test} {s : State}
    (hfound : s.tests.list.find? (fun t => t.ticket == n && t.state == 0) = some u) (hlog : canLog s = true) {e r : Nat} {v : List Byte}
    (hend : (u.id = 5 ∧ v = le 4 (flashRegions s.store) ∧
        (e, r) = if s.store.fwA.valid = true ∧ s.store.fwB.valid = true ∧ s.store.factoryValid = true then (1, 0) else (2, 0xA021)) ∨
      (u.id = 2 ∧ u.values ≠ [] ∧ v = u.values ∧ (e, r) = (1, 0)) ∨
      (u.id = 3 ∧ (s.rail u.inst).test = 7 ∧ v = railValues (s.rail u.inst) ∧
        (e, r) = (if (s.rail u.inst).testCode = 0 then 1 else 2, (s.rail u.inst).testCode))) :
    exec (.selfTestDone n st code values) s = .next (endTest n e r v s) := by
  have hticket : u.ticket = n := by
    have hmatch := List.find?_some hfound
    simp only [Bool.and_eq_true, beq_iff_eq] at hmatch
    exact hmatch.1
  show execSelfTestDone n st code values s = _
  simp only [execSelfTestDone, hfound, hlog, Bool.not_true, Bool.false_eq_true, if_false]
  rcases hend with ⟨hid, rfl, hresult⟩ | ⟨hid, hvalues, rfl, hresult⟩ | ⟨hid, htest, rfl, hresult⟩
  · rw [hid]
    unfold endFlashVerify
    by_cases hok : s.store.fwA.valid = true ∧ s.store.fwB.valid = true ∧ s.store.factoryValid = true
    · rw [if_pos hok] at hresult
      cases hresult
      simp [hok, hticket]
    · rw [if_neg hok] at hresult
      cases hresult
      have hbad : (s.store.fwA.valid && s.store.fwB.valid && s.store.factoryValid) = false := by
        simpa [and_assoc] using hok
      simp [hbad, hticket]
  · cases hresult
    rw [hid]
    exact congrArg Host.Outcome.next (if_neg (by simp [hvalues]))
  · cases hresult
    rw [hid]
    simp [endRailCheck, htest, hticket]

/-! ### A held packet completes 1 ms later (R410) -/

/-- The injector holds no packet any more. -/
def heldReleased (k : Nat) (s : State) : State := s.modInj k fun j => { j with heldPkt := none }

theorem heldReleased_inj {k : Nat} (hk : k < 65) (s : State) : (heldReleased k s).inj k = { s.inj k with heldPkt := none } :=
  inj_modInj_self s _ hk

theorem exec_injectReorderRelease {k : Nat} {h : List Byte × Nat} {s : State} (hk : k < 64) (hheld : (s.inj k).heldPkt = some h) :
    exec (.injectReorderRelease k) s = .next (streamTake (k / 2) (k % 2) (h.1.drop 6) (h.2 + 49152) (heldReleased k s)) := by
  show execInjectReorderRelease k s = _
  rw [execInjectReorderRelease, if_neg (by omega), hheld]
  rfl

theorem exec_injectReorderRelease_frame {h : List Byte × Nat} {s : State} (hheld : (s.inj 64).heldPkt = some h) :
    exec (.injectReorderRelease 64) s = .next (fzPass (leAt h.1 0 1) h.1 (h.2 + 1000000) (heldReleased 64 s)) := by
  show execInjectReorderRelease 64 s = _
  rw [execInjectReorderRelease, if_pos rfl, fzReleaseHeld, hheld]
  rfl

/-- The time of arrival matters to a TIME frame alone. -/
theorem fzPass_timeless {ty : Nat} (h : 1 ≤ ty ∧ ty ≤ 5) (l : List Byte) (t2 : Nat) (s : State) : fzPass ty l t2 s = fzPass ty l 0 s := by
  obtain ⟨hlow, hhigh⟩ := h
  unfold fzPass
  cases fzParse ty l with
  | none => rfl
  | some f => interval_cases ty <;> rfl

theorem StreamsOnly.inj {s t : State} (h : StreamsOnly s t) (k : Nat) : t.inj k = s.inj k := by
  rw [h]
  rfl

end Sys2Proof.Machine

open Sys2Proof Sys2Proof.Machine

/-- Settles O54: an evaluation by the record and the margin that it leaves, a test by its end, a held packet by the merge that takes it. The factor
0.833 of Table 15.8 is 5/6, and a margin acts at the next cycle (log entry 50); the results of RAIL_CHECK, of a calibration and of FLASH_VERIFY come
from the state (log entry 47). -/
theorem ageingAndTestEnds : Obligations.AgeingAndTestEnds := by
  intro s
  refine ⟨fun q i med cap hserves hwaits hdev hmonitors hunit => ?evaluates, fun c m hc hpending hruns hdue => ?second,
    fun n st code values u hfound hlog e r v hend => ⟨_, exec_selfTestDone st code values hfound hlog hend, endTest_ended hfound e r v⟩,
    fun k h hk hheld => ?packet, fun h u hheld hu hlive haction => ?frame, fun h hheld hwrong hother => ?bad⟩
  case evaluates =>
    obtain ⟨hevals, hbase, hchans⟩ := takeEvaluation_age q i med cap s
    refine ⟨_, exec_ageingEvaluation med cap hserves hwaits hdev hmonitors hunit, takeEvaluation_frame q i med cap s, hevals, fun c _ => hchans c,
      fun hfield hnone hfour => hbase.trans (baselineAfter_fifth med hfield hnone hfour), fun x m hq hplans hfactory hformed hfirst hx hm hnew => ?_⟩
    subst hq
    refine takeEvaluation_limit (ageUnit_channel hunit) hplans hfactory hformed hfirst ?_ hnew
    have hjudged : judgedValue 1 i med s = x := by
      rw [judgedValue, baselineAfter_formed med hformed, hx]
      rfl
    rw [newMargin_limit, hjudged, hm]
  case second =>
    refine ⟨_, exec_replanSecondWrite hpending hruns hdue, rfl, ?_, fun k hk => chan_modChan_other _ _ hk, chan_modLoop_self _ _ hc⟩
    rw [show (secondWritten c m s).store.ageOf 3 c = _ from ageOf_setAge_same 3 c _ _]
  case packet =>
    have hside : k % 2 < 2 := Nat.mod_lt _ (by omega)
    have honly := streamTake_streamsOnly (st := k / 2) (by omega) hside (h.1.drop 6) (h.2 + 49152) (heldReleased k s)
    obtain ⟨hquiet, hchans, -, -⟩ := honly.fields
    refine ⟨_, exec_injectReorderRelease hk hheld, hquiet, hchans, ?_, fun houtside => ?_,
      fun hinside hssrc => ⟨fun hlate => ?_, fun htime hnew hfree hin => ?_⟩⟩
    · rw [honly.inj, heldReleased_inj (by omega)]
    · rw [streamTake_outside (s := heldReleased k s) houtside]
      exact ⟨rfl, rfl⟩
    all_goals
      have hown : otherSsrc (s.stream (k / 2)) (h.1.drop 6) = false := by
        refine Bool.eq_false_iff.mpr fun hother => ?_
        obtain ⟨l, hl, hne⟩ := (otherSsrc_iff _ _).mp hother
        exact hne (hssrc l hl)
      rw [streamTake_inside (s := heldReleased k s) hinside]
    · obtain ⟨-, hplaced, -, -⟩ := streamMerge_late (s := heldReleased k s) hown (by omega) hside rfl hlate
      exact hplaced
    · have hplace : placeTaken (s.stream (k / 2)) (placeOf s (k / 2) (beAt (h.1.drop 6) 4 4) (h.2 + 49152)).1 (s.cfg.active.streamN (k / 2)) = false :=
        placeTaken_eq_false.mpr fun i hi hcovered => absurd hcovered (by simp [hfree i hi])
      obtain ⟨-, hplaced, hlocked, -⟩ := streamMerge_placed (s := heldReleased k s) hown (by omega) hside rfl htime
        ((copyOf?_eq_none _ _).mpr hnew) hplace hin
      exact ⟨hplaced, hlocked⟩
  case frame =>
    obtain rfl : u = heldReleased 64 s := hu
    have hreleased := heldReleased_inj (k := 64) (by omega) s
    obtain ⟨hsample, hblock, hmodel, hbeacon, hepoch, htime⟩ := exec_frames (s := heldReleased 64 s) hlive
      (congrArg Injector.heldPkt hreleased) ((congrArg Injector.action hreleased).trans haction) h.1 (h.2 + 1000000)
    refine ⟨_, exec_injectReorderRelease_frame hheld, fun hty => ?_, fun hty => ?_, fun hty => ?_, fun hty => ?_, fun hty => ?_, fun hty => ?_⟩
    · rw [hty, fzPass_timeless (by omega), hsample]
    · rw [hty, fzPass_timeless (by omega), hblock]
    · rw [hty, fzPass_timeless (by omega), hmodel]
    · rw [hty, fzPass_timeless (by omega), hbeacon]
    · rw [hty, fzPass_timeless (by omega), hepoch]
    · rw [hty, htime]
  case bad =>
    refine ⟨_, exec_injectReorderRelease_frame hheld, ?_⟩
    rw [fzPass_wrong hwrong, badFrame_counts hother, (count_reports _ _ _).inj, heldReleased_inj (by omega)]
    exact ⟨rfl, rfl, rfl, rfl, rfl, rfl, rfl⟩
end
